-- ==== Sys2Proof/Word.lean ====
section
/-! DEFINITION. The words of the block: a byte, the 32-bit register word, the 64-bit node and
tile-store word (R8, R37, R129). -/

namespace Sys2Proof

abbrev Byte := BitVec 8
abbrev Half := BitVec 16
abbrev Word := BitVec 32
abbrev Word64 := BitVec 64
/-- A string of bytes in ascending address order (R8). -/
abbrev Bytes := List Byte

end Sys2Proof
end

