-- ==== Sys2Proof/Syntax.lean ====
section
/-! DEFINITION. The commands of the block: one constructor per row of spec/opcode_table.json, in the
table's order.

Mailbox commands carry no operand: each executes the message at the front of its owner's queue, which
CMD_DOORBELL's router filled (R386, R391, R393). Descriptor commands name the logical tile and the
execution context (R41); the descriptor itself is read from the tile store (R76). Every other command
is an event, and carries what the outside or the moment decides about it. -/

namespace Sys2Proof

/-- A link port's LINK_UP comes, or goes: with no frame in reception, or cutting one off (R460). -/
inductive LinkTurn where
  | up | down | cut
  deriving DecidableEq, Repr, Inhabited

inductive Instr where
  -- Host mailbox (R395)
  | hello | helloReattach | heartbeat
  | queryDevice | queryFacts | queryCkptRead | queryWeightDir | readCounters
  | loadFirmware | fuseRequest | restartProcessor | attest
  | loadTaskImage | loadWeights | profileSet | cycleConfig | selftestConfig
  | worldDelta | start | stop | pause | resume | resumeCheckpoint
  | save | ckptPut | replay | replayData | safeClear | safeRequest
  -- Sideband (R380)
  | aoRead (addr : Nat)
  | aoLogRead (index word : Nat)
  | aoSafeRequest
  | aoResetArm (data : Word)
  | aoResetGo (data : Word)
  -- Register window and host-queue ports (R379, R382)
  | cmdDoorbell (tail : Word)
  | headWrite (off : Nat) (value : Word)
  | hostLossCfgWrite (value : Word)
  | registerWrite (off : Nat) (value : Word)
  | mdioC22Read (port : Nat) (value : Word)
  | mdioC22Write (port : Nat) (value : Word)
  | mdioC45Read (port : Nat) (value : Word)
  | mdioC45Write (port : Nat) (value : Word)
  | mdioDone (port : Nat) (response : Option Half)
  | phyResetWrite (port : Nat) (value : Word)
  | stopEnWrite (value : Word)
  | hostQueueWra (queue offset tag : Nat) (data : Bytes)
  -- Link and host events
  | flitReceive (flit : Bytes)
  | mainbandDown
  | mainbandUp (rate : Nat) (repaired : Bool)
  | ntf (ring : Nat)
  | hostLossExpiry
  -- Plan cycle
  | cycleStart | syncTimeout
  | fpSyncEdge
  | syncLostClear
  | phaseRelease (phase : Nat)
  | cut | deadline | boundary
  | spareIn (cluster : Nat)
  | replayCycleStart
  -- Dispatch and ledger
  | dispatch (tile ctx : Nat)
  | steal (tile ctx : Nat)
  | listCopyDone (tile ctx : Nat)
  | completionRecord (cluster : Nat)
  | instanceComplete (tile ctx : Nat)
  | ledgerWindowStart
  | oppSwitch (cluster opp : Nat)
  | islandGate (cluster : Nat)
  | islandWake (cluster : Nat)
  | wakeToken
  -- Descriptors (R82)
  | nop (tile ctx : Nat)
  | fence (tile ctx : Nat)
  | moveCopy (tile ctx : Nat)
  | moveFill (tile ctx : Nat)
  | moveFetch (tile ctx : Nat)
  | movePut (tile ctx : Nat)
  | putTimeout (tile ctx : Nat)
  | matmul (tile ctx : Nat)
  | matmulConv (tile ctx : Nat)
  | vectBin (tile ctx : Nat)
  | vectUn (tile ctx : Nat)
  | vectNorm (tile ctx : Nat)
  | vectCvt (tile ctx : Nat)
  | reduce (tile ctx : Nat)
  | genprim (tile ctx : Nat)
  | sweep (tile ctx : Nat)
  | sweepPairDone (tile ctx : Nat)
  | sweepStartReport (tile ctx : Nat)
  | cacheFill (tile line : Nat) (uncorrectable : Bool)
  | topk (tile ctx : Nat)
  | topkMerge (tile ctx : Nat)
  | knn (tile ctx : Nat)
  | solveAssemble (tile ctx : Nat)
  | solveFactor (tile ctx : Nat)
  | solveSubst (tile ctx : Nat)
  | solveUpdate (tile ctx : Nat)
  | solveReport (tile ctx : Nat)
  | dmareq (tile ctx : Nat)
  | wait (tile ctx : Nat)
  | signal (tile ctx : Nat)
  | tokenIncrement (tile counter amount : Nat)
  | emit (tile ctx : Nat)
  | descriptorComplete (tile ctx index : Nat)
  | weightChunkWrite (tile ctx : Nat)
  -- Flows, release, Latigo, vehicle link
  | flowRelease (flow : Nat)
  | flowAckPoll (flow : Nat)
  | releaseRequest
  | latigoComplete
  | vlFrameSend
  | vlLinkChange (up : Bool)
  | vlRxFrame (frame : Bytes)
  | phyIntFall (port : Nat)
  | fpToggle
  | fpReadback (line : Nat)
  | stopInputActive
  | stopInputInactive
  -- Safety mechanisms and faults
  | signatureRecord (cluster : Nat)
  | reinExpiry (tile ctx : Nat)
  | faultEvent (source code : Nat) (data : Bytes)
  | faultDrain
  | logRecord (code source flags : Nat) (data : Bytes)
  -- World
  | worldBatchTake
  | batchApply
  | epochPublish
  | worldBankRepair (cluster slot : Nat)
  -- DMA and queues
  | dmaTransferStart (engine : Nat)
  | dmaComplete (engine channel : Nat) (readbackOk : Bool)
  | dmaTimeout (engine channel : Nat)
  | queueReset (queue : Nat)
  | queueReadTimeout (queue : Nat)
  -- Ingress and time
  | frameReceived (port : Nat) (carrier : Bytes) (stamp : Nat)
  | frameAccept (queue : Nat)
  | frameHashDone (queue : Nat)
  | gptpSyncRx (port : Nat) (offset : Int)
  | gptpSyncTimeout
  -- Linked packages
  | collFrameRx (port : Nat) (frame : Bytes)
  | collTimeout (collId : Nat)
  | lkLinkChange (port : Nat) (turn : LinkTurn)
  -- Firmware processors
  | watchdogExpiry (proc : Nat)
  | fwReloadDone (proc : Nat) (digestOk : Bool)
  | plannedRestartBegin (proc : Nat)
  | plannedRestartDone (proc : Nat)
  | imageVerifyDone
  | fwVerifyDone
  -- Self-test
  | selftestSlice
  | sliceDone (failedUnits : List Nat)
  | selftestLate (cls : Nat)
  | selftestStarved (cls unit : Nat)
  -- Memory
  | bankWake (tile bank : Nat)
  | patrolScrub (cls unit addr : Nat) (uncorrectable : Bool)
  | gddr6Retrain (channel : Nat)
  -- Clock, power, reset
  | refclkLoss
  | refclkReturn
  | powerOnReset
  | resetPin
  | railOutOfWindow (rail : Nat × Nat)
  | resetRelease
  | romStageDone
  | gddr6TrainingDone
  | bootSelftestDone (failedSlots : List (Nat × Nat))
  | thermalTrip (sensor : Nat) (temp : Half)
  | thermalTripEnd (temps : List Half)
  | criticalTemp (sensor : Nat) (temp : Half)
  | fwMemEcc (proc : Nat)
  | internalFatalException (proc : Nat)
  | dmaErrEcc (engine channel line : Nat)
  | tileIdle (tile : Nat)
  | phyRstNRelease
  | sensorLinkChange (port : Nat) (up : Bool)
  | sidebandLinkChange (up : Bool)
  | gptpSyncTx (port : Nat)
  | avsbusSetpointChange (millivolt : Nat)
  deriving DecidableEq, Repr, Inhabited

end Sys2Proof
end

