-- ==== Sys2Proof/Config.lean ====
section
/-! DEFINITION. What the spec leaves open: free values without a body, so that nothing can be proved about
the value they take. Each names the log entry that says so. -/

namespace Sys2Proof.Config

/-! ### Identity and keys (log entry 7) -/

/-- The uncompressed identity public key in the fuses (R467). -/
opaque identityPub : Bytes

/-- R and S of the identity key's signature over a report (R471). -/
opaque attestSign : Bytes → Bytes

/-- The four Kyrigon key hashes in ROM (R465). -/
opaque romKeyHash : Nat → Bytes

/-- Mask-ROM revision (R475). -/
opaque romVersion : Byte

/-! ### Codes and data the spec names without giving (log entry 8) -/

/-- The CODE a fault of the model's numbering bears in log records (R412). -/
opaque faultCode : Nat → Nat

/-- The CODE of a non-fault log record of the model's numbering (R412). -/
opaque logCode : Nat → Nat

/-- The data of an event whose data the spec does not give (R397): event code, free counter. -/
opaque eventData : Nat → Nat → Bytes

/-- LOG_SEQ of a record in the log tail before the log unit has taken it (R412): free counter. -/
opaque tailSeq : Nat → Nat

/-! ### Unspecified contents (log entry 9) -/

/-- A byte the spec leaves unspecified: free counter, index. -/
opaque freeByte : Nat → Nat → Byte

/-- A number the spec leaves unspecified: which one, free counter. -/
opaque freeNat : Nat → Nat → Nat

/-! ### Arithmetic whose result the spec does not give (log entry 10) -/

/-- Which of the values R66 allows an elementary function of VX gives (R95): the operation code, the operand's F32 bits. -/
opaque vxFunction : Nat → Nat → Nat

/-- The width of a convolution's output where the padding on the right is not given (R94, log entry 33): the
descriptor's body. -/
opaque convWidth : Bytes → Nat

/-! ### Courses and geometry (log entry 34) -/

/-- Which of the F32 values near the sine (0) or the cosine (1) of an angle VX gives (R154, R167): the angle's bits. -/
opaque trig : Nat → Nat → Nat

/-! ### Solver entries (log entry 37) -/

/-- A factor or substitution entry, formed by one operation sequence (R218): 0 for F64, 1 for F32; the bits of
the value it starts from; the factors of the products subtracted from it. -/
opaque solveEntry : Nat → Nat → List (Nat × Nat × Nat) → Nat

/-! ### Latigo's lists (log entry 39) -/

/-- What Latigo's lists, Kyrigon's own, choose (R317): which value, the bytes the lists read. -/
opaque latigoList : Nat → Bytes → Nat

end Sys2Proof.Config
end

