-- ==== Sys2Proof/Machine/State.lean ====
section
/-! DEFINITION. The state of the block as plain data: everything the spec gives the GL-OX256, its reset
value, and the reasons a command can stop. Memories are one canonical list of bytes (`Mem`), plain
registers one canonical list of words keyed by register-window offset (`RegFile`). -/

namespace Sys2Proof.Machine

/-- Bytes by address, addresses strictly rising, no listed byte zero: an unlisted byte reads zero
(R463 zero-fills every memory of the dies; GDDR6 content: log entry 4). Keys: a device address of R370
(world bank 0 stands for every replica, R136), or `tileBase t + a` for tile-local address `a` of logical
tile `t` (R36). -/
abbrev Mem := List Host.Cell

/-- Register words by register-window offset (R382), offsets strictly rising, no entry equal to that
offset's reset value. -/
abbrev RegFile := List (Nat × Word)

/-! ### Host port -/

/-- A message the router has copied to its owner's queue (R389, R393). -/
structure Msg where
  minor   : Byte
  opcode  : Half
  seq     : Word
  flags   : Half
  payload : Bytes
  prevSeq : Word            -- SEQUENCE of the entry taken before it (R400)
  headAt  : Word            -- CMD_HEAD when it was taken (R400)
  deriving DecidableEq, Repr, Inhabited

/-- The owners of mailbox opcodes (R393). -/
inductive Owner where
  | router | world | island | sec | pmc | sch
  deriving DecidableEq, Repr, Inhabited

/-- A bulk object being received in pieces (R394). -/
structure PieceObj where
  opcode : Half
  obj    : Nat
  total  : Nat
  data   : Bytes
  deriving DecidableEq, Repr, Inhabited

/-- A Welt frame in a port's frame buffer or a host staging buffer, checked but not accepted (R428). -/
structure RxFrame where
  bytes    : Bytes            -- as received (R421)
  entry    : Nat              -- the source entry that governed at the last byte (R424)
  entryCfg : Word             -- that entry's SRC_CFG then; a change clears REF_VALID (R423)
  flags    : Byte             -- CRC_BAD, LATE, FUTURE, UNSYNC (R422, R425)
  age      : Nat              -- ingress AGE field (R426)
  deriving DecidableEq, Repr, Inhabited

/-- A WRA whose CPL has not gone out (R347, R378, R431). -/
structure HeldWra where
  queue   : Nat                -- host queue; 0 for a WRA that no host queue takes
  tag     : Nat
  len     : Nat                -- data bytes it carries
  closing : Bool               -- it closed its burst
  status  : Nat                -- C_STATUS of its CPL
  ready   : Bool               -- its CPL waits only for those before it
  deriving DecidableEq, Repr, Inhabited

structure HostPort where
  queues       : List (Owner × List Msg)  -- owner queues, absent means empty (R393)
  pieces       : List PieceObj            -- objects in reassembly (R394)
  cmdTail      : Word                     -- last valid doorbell value (R386)
  lastCmdSeq   : Word                     -- SEQUENCE of the last entry taken (R400)
  agreedMinor  : Byte                     -- agreed FMT_MINOR (R392)
  session      : Bool                     -- a HELLO has succeeded since cold reset (R383)
  hbAt         : Option Nat               -- AO cycle of the last HEARTBEAT or HELLO taken (R383, R400)
  timerAt      : Nat                      -- AO cycle from which the host-loss timer counts (R398)
  hostLost     : Bool                     -- HOST_LOST (R399)
  lostPolicy   : Nat                      -- the policy in force since the expiry (R398, R399)
  lostAtSeq    : Word                     -- CYCLE_SEQ at the last expiry (R400)
  helloDrops   : List Word                -- REPLY, EVENT, LOG DROPPED at the last successful HELLO (R400)
  seqs         : List Word                -- next SEQUENCE of REPLY, EVENT, LOG (R389)
  ntfDue       : List Nat                 -- rings whose TAIL advanced since their last NTF (R388)
  ntfAt        : List (Nat × Nat)         -- ring, AO cycle of its last NTF (R388)
  linkUp       : Bool                     -- mainband up (R375, R383)
  sbUp         : Bool                     -- sideband up (R375, R383)
  linkRate     : Nat                      -- HP_LINK.RATE (R383)
  linkRepaired : Bool                     -- HP_LINK.REPAIRED (R383)
  rxFseq       : Half                     -- next flit sequence expected (R376)
  rxReplay     : Bool                     -- a replay has been requested (R376)
  rxFails      : Nat                      -- times in a row the expected flit has failed (R376)
  rxBytes      : Bytes                    -- a transaction continued into the next flit (R376)
  burst        : List Bytes               -- open bursts of host queues 12 and 13 (R379)
  burstDrop    : List Bool                -- the open burst is above 64 KiB (R379)
  wraHeld      : List HeldWra             -- WRAs whose CPL has not gone out, oldest first (R347, R378, R431)
  txFseq       : Half                     -- number of the next flit sent (R376)
  txKept       : List Bytes               -- flits sent and not acknowledged, newest first, at most 128 (R376)
  credits      : Nat × Nat × Nat          -- WR, WRA and RD credits to return with the next flit (R376, R378)
  sbArmedAt    : Option Nat               -- AO cycle of the last AO_RESET_ARM (R380)
  deriving DecidableEq, Repr, Inhabited

/-! ### Images, weights, boot -/

/-- A task record of the active image, as the dispatch tables hold it (R114, R409). -/
structure Task where
  taskId : Nat
  safe : Bool
  phase : Nat
  home : Nat
  twin : Nat
  thinOk : Bool
  stealable : Bool
  listOffset : Nat
  listLen : Nat
  listLine : Nat
  seed : Word64
  reinBudget : Nat
  energyEst : Nat
  energyPerUnit : Nat
  units : Nat
  minUnits : Nat
  wsOffset : Nat
  wsCount : Nat
  schedIndex : Nat
  schedLine : Nat
  divisor : Nat
  deriving DecidableEq, Repr, Inhabited

/-- A flow-table entry (R262). -/
structure FlowCfg where
  flowId : Nat
  consTile : Nat
  consCounter : Nat
  itemMax : Nat
  consSlots : Nat
  ringOffset : Nat
  deriving DecidableEq, Repr, Inhabited

/-- A task image with its tables parsed (R105, R106, R409). -/
structure Image where
  slot    : Nat            -- image slot 0 or 1 (R109)
  imageId : Word64
  digest  : Bytes          -- 48 bytes (R107)
  tasks   : List Task
  wsets   : List Nat       -- WSET_IDs in table order (R117)
  flows   : List FlowCfg
  tilemap : List Word64    -- BANK_USE by logical tile; empty when there is no TILEMAP (R126)
  lists   : Nat            -- device address of LISTS
  scheds  : List (Nat × Nat) -- device address and length of each schedule (R216)
  wstream : Nat            -- device address of WSTREAM
  signed  : Bool
  keyHash : Bytes          -- SHA-384 of the signer's key; empty when unsigned (R108, R470)
  deriving DecidableEq, Repr, Inhabited

/-- The staged slot (R109, R111, R397). -/
inductive Staged where
  | none
  | loading
  | verifying (bytes : Bytes) (activate : Bool) (msg : Msg)
  | verified (img : Image) (activate : Bool)
  deriving DecidableEq, Repr, Inhabited

/-- A weight-directory entry (R118, R395). -/
structure WeightSet where
  wsetId : Nat
  addr   : Nat
  len    : Nat
  digest : Bytes
  deriving DecidableEq, Repr, Inhabited

structure Loading where
  staged      : Staged
  active      : Option Image
  weights     : List WeightSet      -- copies in force
  weightsNext : List WeightSet      -- loaded, in force from the next boundary (R118)
  profilesNext : List (Nat × Bytes) -- accepted PROFILE_SET records awaiting the boundary (R158)
  deriving DecidableEq, Repr, Inhabited

/-- The part: which ordering code (R1, R2). -/
inductive Part where
  | ox256 | ox128
  deriving DecidableEq, Repr, Inhabited

/-- One-time programmable state, kept through every reset (R466, R468, R489). -/
structure Fuses where
  part        : Part
  fieldLock   : Bool
  imgSignReq  : Bool
  ikeyHash    : List Bytes     -- four integrator slots
  ikeyValid   : List Bool
  ikeyRevoked : List Bool
  kkeyRevoked : List Bool
  rbFused     : List Nat       -- five anti-rollback counts
  factory     : List (Nat × Nat) -- cluster, logical tile carried by P16 (R48 FACTORY)
  setpoints   : List Nat       -- VDD_T setpoint of each operating point from 420 MHz up, in mV (R478)
  deriving DecidableEq, Repr, Inhabited

/-- A verified firmware image as the device keeps it (R404, R465). -/
structure FwImage where
  num     : Nat
  version : Nat
  rbLevel : Nat
  digest  : Bytes
  code    : Bytes
  deriving DecidableEq, Repr, Inhabited

/-- Processor states, coded as FW_STATUS.STATE (R414). -/
inductive ProcState where
  | boot | running | restarting | rejoinWait | halted | warmPending
  deriving DecidableEq, Repr, Inhabited

structure Proc where
  state     : ProcState
  restarts  : Nat            -- RESTARTS, saturating at 255 (R414)
  lastCause : Nat            -- LAST_CAUSE (R406)
  crashAts  : List Nat       -- AO cycles of recent crash restarts (R408)
  failedOnce : Bool          -- step 3 has failed once in this restart (R407)
  warmBegun : Bool           -- RESTARTING in a planned restart, not after a crash (R405)
  warmMsg   : Option Msg     -- the RESTART_PROCESSOR to answer (R405)
  version   : Nat            -- ACTIVE version (R414)
  switched  : Bool           -- a CCC that runs the staged image 3 already (R404)
  code      : Option FwImage -- the image in the active half of its firmware memory; none while zero-filled (R404, R407)
  data      : Option Nat     -- its data memory: zero, or the free content that the counter value names (R404, R405; log entry 9)
  watchAt   : Nat            -- AO cycle from which its watchdog counts (R406)
  deriving DecidableEq, Repr, Inhabited

structure Boot where
  stage     : Nat                    -- BOOT_STATUS.STAGE (R463)
  taken     : List Nat               -- image numbers taken during boot (R463)
  fwActive  : List FwImage           -- active images by number
  fwStaged  : List FwImage           -- verified, not yet active (R404)
  verifying : Option (Bytes × Nat × Msg) -- object delivered and awaiting FW_VERIFY_DONE, with OBJ
  inReset   : Bool                   -- internal reset holds every die (R487)
  resetAt   : Option Nat             -- AO cycle in which a cold reset was decided (R487)
  releasedAt : Nat                   -- AO cycle of reset release (R488)
  resetCause : Byte                  -- RESET_CAUSE (R501)
  phyRstN   : List (Nat × Bool)      -- commanded PHY_RST_N per PHY; absent means low (R441)
  deriving DecidableEq, Repr, Inhabited

/-! ### Plan cycle -/

/-- DEV_STATE codes 0 to 3 (R381). -/
inductive DevState where
  | stopped | running | paused | replay
  deriving DecidableEq, Repr, Inhabited

/-- Cycle parameters (R230), in µs where a time. -/
structure CycleParams where
  period        : Nat
  deadline      : Nat
  emitMargin    : Nat
  sync          : Bool
  recheckAccept : Nat
  minClear      : Nat
  profileSlot   : Nat
  deriving DecidableEq, Repr, Inhabited

/-- An entry of the cycle facts record (R280). -/
structure Fact where
  kind : Nat
  copy : Nat
  taskId : Nat
  batch : Nat
  desc : Nat
  valA : Nat
  valB : Nat
  deriving DecidableEq, Repr, Inhabited

/-- What a released record was (R243). -/
structure Released where
  state    : Nat          -- 0 VALID, 1 DEGRADED, 2 INVALID
  source   : Nat          -- 0 PRIMARY, 1 LATIGO, 2 NONE
  cause    : Half
  bytes    : Bytes        -- on-device form (R246)
  trajectory : Bytes
  digest   : Bytes
  deriving DecidableEq, Repr, Inhabited

/-- The counts of R248. -/
structure CycleCounts where
  candGenerated : Nat
  candChecked   : Nat
  candCut       : Nat
  unitsFull     : Nat
  unitsThinned  : Nat
  unitsCut      : Nat
  checkRan      : Bool    -- a CHECK-phase SWEEP has run
  checkLo       : Nat     -- CHECK_EPOCH_LO, 0 if none ran
  checkHi       : Nat
  deriving DecidableEq, Repr, Inhabited

/-- The plan item's course through the emit unit (R239 to R243). -/
inductive ItemState where
  | none                       -- no item released yet
  | refused                    -- NONE, or refused by the emit unit or the island
  | admitted (item : Bytes)    -- admitted, record being built
  | waiting (item : Bytes)     -- release request waiting on SAFE entries (R305)
  | granted
  deriving DecidableEq, Repr, Inhabited

structure Cycle where
  dev          : DevState
  tack         : Bool                  -- mode chosen at START (R258, R277)
  seq          : Word                  -- CYCLE_SEQ (R232)
  seqRun       : Bool                  -- a START has happened since cold reset (R471)
  params       : CycleParams           -- in force
  paramsNext   : Option CycleParams    -- accepted, in force from the next boundary
  prevPeriod   : Nat                   -- PERIOD and START_MODE in force during the last cycle begun (R230)
  prevSync     : Bool
  inCycle      : Bool                  -- a cycle has started and its boundary has not fallen
  startAo      : Nat                   -- AO cycle of the last cycle start
  boundaryAt   : Option Nat            -- AO cycle of the last boundary (R405)
  cutT         : Option Nat            -- CUT_T as the timer raised it in the cycle (R279)
  everStarted  : Bool                  -- a cycle has started since START or RESUME
  effectAo     : Nat                   -- AO cycle in which START or RESUME took effect (R231)
  resumedGrid  : Bool                  -- LOCAL start on the paused run's grid (R287)
  earlyStart   : Option Nat            -- AO start of the next cycle that came before the boundary (R245)
  cutDone      : Bool
  deadlineDone : Bool
  released     : List Nat              -- phases released in the cycle (R233, R234)
  phaseEpoch   : List (Nat × Nat)      -- phase, epoch newest at its release (R277)
  phaseHeld    : List (Nat × Nat)      -- tack mode and replay: phase not yet complete, epoch kept for it (log entry 21)
  counts       : CycleCounts
  facts        : List Fact
  item         : ItemState
  planSeen     : Bool                  -- the cycle's plan item has been released (R239)
  noPlan       : Bool                  -- CAUSE bits collected in the cycle (R247)
  refusedItem  : Bool
  stitchBad    : Bool
  stitchRefuse : Bool                  -- a mismatch outside Latigo's pair refuses the primary (R241, R323)
  lateAbort    : Bool
  lateAbortNext : Bool
  refineDropped : Bool
  thinned      : Bool
  cutActed     : Bool
  miss         : Bool
  record       : Option Released       -- the cycle's record, once released (R243)
  earlyRecord  : Option Released       -- the next cycle's record, gone out INVALID already (R326)
  prevDigest   : Bytes                 -- PREV_DIGEST (R283)
  lastResult   : Bytes                 -- RESULT_DIGEST of the last cycle released (R471)
  framesDone   : List Bytes            -- 56-byte entries of frames completed (R285)
  queueBytes   : List (Nat × Nat)      -- valid bytes released per queue (R280)
  batchPos     : List (Nat × Nat)      -- tile, batches dispatched on it in the cycle (R280)
  startMsg     : Option Msg            -- START awaiting the first cycle's start (R395)
  pauseMsg     : Option Msg            -- PAUSE pending (R286)
  stopMsg      : Option Msg            -- STOP pending
  factsSlots   : List Nat              -- CYCLE_SEQs whose facts record is in the ring, newest first (R279)
  deriving DecidableEq, Repr, Inhabited

/-- Latigo (R242, R317 to R320). -/
structure Latigo where
  stopMode     : Bool           -- LATIGO_MODE STOP (R319)
  running      : Bool           -- started at the cut and not complete
  copies       : List Nat       -- Latigo tiles whose copy of this run has started (R27, R483)
  runStop      : Bool           -- this run is in STOP from its start (R319)
  complete     : Bool           -- complete with its pair resolved MATCH
  failed       : Bool           -- mismatched or incomplete pair
  blocked      : Bool           -- BLOCKED (R320)
  startAo      : Nat
  epoch        : Nat            -- LATIGO_EPOCH
  state        : Option Bytes   -- the start state taken (R317)
  usedStamp    : Nat            -- STAMP used in the previous cycle (R317)
  traj         : Bytes          -- this cycle's trajectory; empty when none
  prevTraj     : Bytes          -- the previous cycle's trajectory
  fallbackT    : Nat            -- FALLBACK_T (R319)
  incumbentAge : Nat            -- INCUMBENT_AGE (R246)
  deriving DecidableEq, Repr, Inhabited

/-- One cycle's replay package (R397). -/
structure ReplayPkg where
  index  : Nat
  header : Bytes
  facts  : List Fact
  digest : Bytes
  frames : List (List Bytes)
  batches : List Bytes
  deriving DecidableEq, Repr, Inhabited

structure Replay where
  cycles   : Nat
  index    : Nat
  packages : List ReplayPkg
  stopReq  : Bool
  factError : Bool
  deriving DecidableEq, Repr, Inhabited

/-! ### Dispatch, contexts, ledger -/

/-- A ready-list entry (R254). -/
structure Ready where
  task    : Task
  tile    : Nat
  copy    : Nat
  placed  : Nat          -- placement order
  pending : List Nat     -- batches still pending, ascending; [0xFFFF] for a task without batches
  thinTo  : Nat          -- batches the task runs in this cycle (R256 BATCHES_RUN)
  first   : Bool         -- no batch of the copy dispatched yet (R270)
  epoch   : Option Nat   -- epoch held by the entry's first instance; a stolen batch holds it too (R146)
  deriving DecidableEq, Repr, Inhabited

/-- A running SWEEP of a context (R183). -/
structure SweepRun where
  index    : Nat               -- descriptor index
  epoch    : Nat
  ownHold  : Bool              -- it holds that epoch itself: EPOCH_SEL = 1 (R146)
  pairs    : List (Nat × Nat)  -- (candidate, segment) not yet taken
  taken    : List (Nat × Nat)  -- taken by lanes, not finished, oldest first
  started  : Nat               -- candidates whose first pair has been taken
  acked    : Nat               -- acknowledged start reports (R304)
  waiting  : Bool              -- a start report awaits its answer (R304)
  cutTaken : Bool              -- the SWEEP has received the cut (R185)
  hits     : List (Nat × Nat)  -- candidate, lowest HIT segment found so far (R184)
  opened   : List Nat          -- candidates started whose header is not yet written (R183)
  deriving DecidableEq, Repr, Inhabited

/-- A pending SOLVE report (ITER, STATUS) of a SAFE copy with the CTRL and X_ACC writes it guards (R225). -/
structure SolveRun where
  index  : Nat
  iter   : Nat
  status : Nat
  writes : List (Nat × Bytes)
  deriving DecidableEq, Repr, Inhabited

/-- A solve's values of the iteration in progress, which WORK holds (R212, R219, R220; F64 bits), and how far it has come
(R225). -/
structure SolveWork where
  gradNorm : Nat
  maxDiag  : Nat
  stepNorm : Nat
  pivotCol : Nat
  shifts   : Nat
  shiftUsed : Bool
  shifted  : Bool              -- this iteration's shift is set
  desc     : Nat               -- descriptor of the start decision (R280, log entry 38)
  report   : Nat × Nat         -- last recorded (ITER, STATUS) (R225)
  cut      : Bool              -- the cut has acted on the solve (R224, R225)
  deriving DecidableEq, Repr, Inhabited

/-- A stream entry (R120). -/
structure StreamRun where
  wset       : Nat
  chunkFirst : Nat
  chunkCount : Nat
  slotFirst  : Nat
  slotCount  : Nat
  passes     : Nat
  deriving DecidableEq, Repr, Inhabited

/-- A MATMUL that waits for weight chunks (R39, R121). -/
structure MmRun where
  index   : Nat
  panel   : Nat
  block   : Nat            -- row block of the panel
  rot     : Nat            -- slots read in rotation so far
  got     : List Bytes     -- chunks of the panel read by the row block, oldest first
  deriving DecidableEq, Repr, Inhabited

/-- An instance running on an execution context of a logical tile (R41). -/
structure Inst where
  tile     : Nat
  ctx      : Nat
  task     : Task
  batch    : Nat             -- 0xFFFF when the task has no batches (R256)
  copy     : Nat
  epoch    : Nat             -- epoch held (R146)
  copied   : Bool            -- list copy complete (R124)
  pc       : Nat             -- index of the next descriptor to issue (R84)
  inflight : List (Nat × Nat) -- descriptor index and unit, issued and not completed
  stalled  : List Nat        -- EMITs and DMAREQs issued and not yet accepted (R101)
  ended    : Bool            -- LAST has issued
  finished : Bool            -- complete; its status waits in the completion queue (R258)
  flags    : Byte            -- ARITH_FLAGS (R75)
  sigs     : List (Nat × Bytes) -- signature contributions by descriptor index (R103)
  armed    : List Nat        -- channels armed by the instance's DMAREQs (R102)
  dmaArms  : List (Nat × Nat) -- descriptor index, arms made through it (R350)
  cut      : Bool            -- the cut has reached the instance (R185, R224)
  works    : List (Nat × SolveWork) -- by the tile-local address of the workspace (R212)
  sweeps   : List SweepRun
  solve    : Option SolveRun -- report awaiting its answer
  startAo  : Nat             -- AO cycle of the dispatch
  charge   : Nat             -- nJ debited (R270)
  grace    : Nat             -- Rein grace left (R298)
  acc      : Nat             -- Rein accumulator (R298)
  stream   : List StreamRun  -- stream entries not yet finished (R120, R122)
  streamPos : Nat            -- chunks written of the first of them, over all passes
  streamRot : Nat            -- slots taken in the first entry's rotation
  mm       : Option MmRun    -- the MATMUL in progress (R121)
  slots    : List Nat        -- slots filled for the instance (R123)
  wrote    : List (Nat × Nat) -- tile-store ranges its descriptors have written: address, bytes (R86)
  deriving DecidableEq, Repr, Inhabited

/-- A completion record (R258). -/
structure Completion where
  taskId : Nat
  batch  : Nat
  tile   : Nat
  ctx    : Nat
  copy   : Nat
  status : Nat
  flags  : Byte
  cycles : Nat
  charge : Nat
  deriving DecidableEq, Repr, Inhabited

structure Island where
  grant   : Nat            -- µJ after R268
  reserve : Nat
  scale   : Nat            -- Q4.12
  balance : Int            -- nJ
  opp     : Nat            -- 0 gated, 1 420, 2 560, 3 700 MHz (R501)
  deriving DecidableEq, Repr, Inhabited

/-- The values PMC has written for the next window (R267). -/
structure LedgerNext where
  grants   : List Nat
  reserves : List Nat
  scales   : List Nat
  pool     : Nat
  deriving DecidableEq, Repr, Inhabited

structure Dispatcher where
  ready     : List Ready
  placedCnt : Nat
  running   : List Inst
  leftover  : List Inst                -- completed instances whose stream entries are still pending (R123)
  compQ     : List (Nat × Completion)  -- cluster, record; oldest first (R258)
  recent    : List Completion          -- window of the 64 most recent records
  acks      : List (Nat × Nat × Nat × Nat) -- TASK_ID, BATCH, descriptor, highest acknowledged start count of a SAFE SWEEP's copies (R304)
  solveAcks : List (Nat × Nat × Nat × Nat × Nat) -- TASK_ID, BATCH, the solve by its start decision, highest recorded (ITER, STATUS) of a SAFE solve's copies (R225)
  openSafe  : List (Nat × Nat × Nat)   -- (TASK_ID, BATCH) of SAFE batches of which a copy was dispatched, with its epoch (R146, R304)
  schRun    : Bool
  cccRun    : List Bool
  tokens    : List (Nat × Half)        -- 32 × tile + counter; absent means 0 (R88)
  inbound   : List (Nat × Half × Nat × Nat × Nat) -- SIGNALs under way: key, amount, issuing tile, ctx, index (R90)
  full      : List (Nat × Bool)        -- FULL flag, key 8 × tile + slot; absent means clear (R39)
  islands   : List Island
  pool      : Nat                      -- remaining POOL, nJ
  poolSet   : Nat                      -- POOL in force, µJ
  window    : Word                     -- LEDGER_WINDOW
  windowAt  : Nat                      -- AO cycle of the last window start
  limited   : Bool
  frozen    : Bool
  next      : Option LedgerNext
  trip      : Bool                     -- hardware thermal trip active (R491)
  quarantined : List Nat               -- logical tiles taking no dispatch (R50)
  idleTiles : List Nat                 -- idle tiles, their clock gated (R483)
  tokensHeld : Nat                     -- wake tokens unused, 0 or 1 (R483)
  waiters   : List (Nat × Nat)         -- wake-token waiters: class 1 Latigo, 2 SAFE, 3 PLAIN with the tile; 4 with the island waking, or 16 + the island raised
  granted   : List (Nat × Nat)         -- waiters a token has been issued to
  tokenPtr  : List (Nat × Nat)         -- waiter class, cluster its pointer reaches first (R483)
  unitPtr   : List (Nat × Nat)         -- unit pointers, key 16 × tile + unit: context that goes first (R41)
  busyTo    : List (Nat × Nat)         -- tile, AO cycle in which a context of it last became free (R483)
  freedAt   : List (Nat × Nat)         -- context (2 × tile + ctx) free and not tested since, AO cycle in which it became so (R257)
  starved   : List (Nat × Word)        -- context whose ledger test failed, LEDGER_WINDOW of that test (R257, R273)
  ctxPtr    : List (Nat × Nat)         -- cluster, the context its pointer reaches first (R257)
  stealPtr  : List (Nat × Nat)         -- cluster of a victim list, the thief its pointer reaches first (R273)
  chunkPtr  : List (Nat × Nat)         -- weight bus and class (2 × cluster + PLAIN), the context its pointer reaches first (R122)
  flowPtr   : List (Nat × Nat)         -- flow, the context whose EMIT goes first (R273)
  freeCtr   : Nat                      -- the model's own: counter of free values
  deriving DecidableEq, Repr, Inhabited

/-! ### Ordered flows -/

/-- An item that waits in a reorder buffer (R263). -/
structure FlowItem where
  seq   : Word
  phase : Nat              -- of the emitting task
  owner : Nat × Nat × Nat  -- TASK_ID, BATCH and copy of the emitting instance
  bytes : Bytes
  deriving DecidableEq, Repr, Inhabited

/-- A flow's reorder buffer (R263). -/
structure Flow where
  flowId  : Nat
  nextSeq : Word
  items   : List FlowItem
  released : Word           -- RELEASED of the ring (R264)
  blocked : Bool            -- the consumer has no room (R264)
  room    : Nat             -- AO cycle of the last ACK read
  deriving DecidableEq, Repr, Inhabited

/-! ### World tree -/

/-- An epoch-table entry (R143, R144, R284). -/
structure Epoch where
  num    : Nat
  root   : Nat              -- root slot
  origin : List Int         -- ORIGIN x, y, z in GQ32 steps
  t0     : Nat              -- gPTP ns of the time-layer batch (R132)
  chain  : Bytes            -- 48 bytes (R284)
  holds  : Nat
  superseded : List Nat     -- slots this epoch's publish replaced (R144, R149)
  tl     : Bool             -- some time layer is present
  deriving DecidableEq, Repr, Inhabited

/-- A batch in the update engine (R141, R142). -/
structure Batch where
  host   : Bool
  bytes  : Bytes
  digest : Bytes
  msg    : Option Msg       -- the WORLD_DELTA to answer
  coll   : Option Nat       -- the BCAST_DELTA collective it completes (R458)
  held   : Bool             -- waits for the next WORLD phase (R141, R277)
  since  : Word             -- CYCLE_SEQ in which it was submitted (R277)
  phase  : Nat              -- the emitting task's phase; 0 for a host batch
  owner  : Option (Nat × Nat × Nat) -- TASK_ID, BATCH and copy of the instance that submitted it (R244)
  deriving DecidableEq, Repr, Inhabited

/-- A batch applied and waiting for acknowledgement and an epoch-table entry (R144, R148). -/
structure Built where
  batch  : Batch
  epoch  : Epoch
  slots  : List Nat
  source : Nat
  deriving DecidableEq, Repr, Inhabited

structure World where
  newest    : Nat
  table     : List (Nat × Epoch)     -- table entry index, epoch; live entries only (R148)
  nextSlot  : Nat                    -- slots from here on have never been used
  freed     : List Nat               -- freed slots below it, ascending
  hostQ     : List Batch             -- host batches accepted, arrival order
  taskQ     : List Batch             -- task batches released on 0xFFF0
  staged    : List Batch             -- copied to staging, not yet applied (R142)
  built     : Option Built
  hostTurn  : Bool                   -- the alternation of R141
  lastReject : Nat                   -- WT_STATUS.LAST_REJECT
  chains    : List (Nat × Bytes)     -- chain values of epochs published since the last boundary or live (R284)
  badSlots  : List (Nat × Nat)       -- (cluster, slot) with an uncorrectable error, not yet repaired (R137)
  badLines  : List (Nat × Nat)       -- (2 × tile + context, line) already refetched once in that context's instance (R46)
  cached    : List (Nat × Nat)       -- world-cache lines present: tile, slot div 8 (R44)
  filling   : List (Nat × Nat)       -- misses outstanding
  deriving DecidableEq, Repr, Inhabited

/-! ### DMA and ingress queues -/

/-- A DMA register set with the instance that armed it (R332, R333, R350). -/
structure RegSet where
  src : Nat
  dst : Nat
  length : Nat
  dctrl : Word
  sigTarget : Nat
  sigCounter : Nat
  sigInc : Nat
  highWm : Nat
  lowWm : Nat
  next : Nat
  safe : Bool
  owner : Nat × Nat            -- tile, context of the arming instance
  pairKey : Nat × Nat × Nat × Nat -- TASK_ID, BATCH, descriptor index, arm count (R350)
  copy : Nat
  cycle : Word                 -- CYCLE_SEQ in which the instance armed it
  deriving DecidableEq, Repr, Inhabited

/-- A DMA channel (R332 to R342, R353). -/
structure Channel where
  key       : Nat               -- 8 × engine + channel
  active    : Option RegSet
  shadow    : RegSet            -- zero until written (R489)
  armed     : Bool
  running   : Bool              -- its transfer has started
  moved     : Nat               -- words sampled for the transfer under way
  drain     : Bool
  drainQueue : Option Nat       -- the queue the DRAIN flag belongs to (R348)
  hop       : Nat               -- chain loads left; 0 unlimited
  hopEnd    : Bool
  lastStatus : Nat
  done      : Word              -- CH_DONE
  shared    : Bool              -- second side of a twinned queue transfer
  deriving DecidableEq, Repr, Inhabited

/-- A frame accepted into a queue (R285, R429). -/
structure QFrame where
  entry : Bytes                 -- queue, flags, source, counter: 8 bytes of the FRAMES_DIGEST entry
  words : Nat                   -- words not yet freed
  bytes : Bytes                 -- as written, until hashed
  hash  : Option Bytes
  deriving DecidableEq, Repr, Inhabited

/-- An ingress queue (R343 to R349). -/
structure Queue where
  words   : List (Bytes × Nat)  -- words from B to W: 64 bytes and the valid-byte tag
  wPtr    : Word
  rPtr    : Word
  mPtr    : Word
  markValid : Bool
  bPtr    : Word
  frames  : List QFrame         -- digest list (R285)
  fired   : Bool                -- TIMEOUT_FIRED
  timerAt : Nat                 -- AO cycle at which the read timer was last 0
  reading : Option Nat          -- channel reading the queue
  buffer  : List RxFrame        -- frame buffer (R428)
  rxAt    : Option Nat          -- AO cycle in which the port last received a frame (R309)
  wrAt    : Option Nat          -- AO cycle in which the queue was last written (R309)
  deriving DecidableEq, Repr, Inhabited

/-- A source entry's counter reference (R423, R424). -/
structure SrcRef where
  counter : Word
  valid   : Bool
  deriving DecidableEq, Repr, Inhabited

structure Ingress where
  queues   : List Queue          -- 14 (R343)
  refs     : List SrcRef         -- 32
  flagged  : List (Nat × Nat)    -- (queue, SOURCE_ID) flagged this cycle (R429)
  linkUp   : List Nat            -- sensor ports with link (R417)
  syncAt   : Nat                 -- AO cycle of the last Sync (R420)
  inRange  : Nat                 -- consecutive Syncs within ±100 ns
  synced   : Bool
  offset   : Int                 -- GPTP_STATUS.OFFSET
  timeBase : Nat                 -- gPTP ns at AO cycle 0
  syncTxAt : List (Nat × Nat)    -- port, AO cycle of its last Sync sent
  mdio     : List (Nat × Word)   -- operation in progress per MDIO interface (R441)
  intLow   : List Nat            -- PHYs whose PHY_INT_N is low
  deriving DecidableEq, Repr, Inhabited

/-! ### Vehicle link, field port, safety island -/

/-- A record in the transmit queue (R439). -/
structure VlFrame where
  counter : Word
  ident   : Half
  stamp   : Nat
  record  : Bytes                -- on-device form
  deriving DecidableEq, Repr, Inhabited

structure Output where
  linkUp    : Bool
  txq       : List VlFrame
  ident     : Half               -- next IPv4 identification (R436)
  toggling  : Bool               -- the valid lines (R443)
  validA    : Bool
  validB    : Bool
  degraded  : Bool
  toggleAt  : Nat                -- AO cycle of the last edge
  stopFilt  : Bool               -- filtered STOP (R446)
  stopRaw   : Bool
  syncLost  : Bool               -- R447
  acceptAt  : Option Nat         -- AO cycle of the last accepted FP_SYNC edge
  ignoredAt : List Nat           -- AO cycles of ignored edges within the last second
  readbackBad : Bool             -- a pin comparison has mismatched since the last passing class-8 slice (R324)
  thermN    : Bool               -- THERM_N asserted (R492)
  deriving DecidableEq, Repr, Inhabited

/-- A signature record (R302). -/
structure SigRec where
  taskId : Nat
  batch  : Nat
  tile   : Nat
  copy   : Nat
  status : Nat
  len    : Nat
  seq    : Word
  crc    : Word64
  deriving DecidableEq, Repr, Inhabited

/-- A pending stitch entry (R303). -/
structure StitchEntry where
  seq    : Word
  taskId : Nat
  batch  : Nat
  phase  : Nat
  first  : Option SigRec
  deriving DecidableEq, Repr, Inhabited

/-- A fault-bus event held in staging (R23). -/
structure Staging where
  source : Nat
  code   : Nat
  stamp  : Nat
  data   : Bytes
  count  : Nat                  -- 1 for an entry of its own
  folded : Bool
  deriving DecidableEq, Repr, Inhabited

structure Safety where
  safe       : Bool              -- the safe-state latch
  cause      : Half              -- SAFE_CAUSE
  present    : Half              -- cause conditions that have not ceased (SAFE_BLOCK.PRESENT before masking)
  clearPending : Bool
  entries    : Nat
  entrySeq   : Word
  entryAt    : Nat               -- AO cycle in which the cause of the running entry was decided
  causeAt    : Option Nat        -- AO cycle in which the last cause was decided (R329)
  missRun    : Nat
  mismatchMask : Word64
  mismatchNow  : Nat             -- outcomes found in the current cycle
  counted    : List (Word × List Nat) -- counted outcomes: boundaries passed when found, tiles that ran a copy (R321, R322)
  clean      : Nat
  primaryOk  : Bool              -- the primary met R241 apart from the safe state (R327)
  worldFullRun : Nat             -- consecutive cycles with a WORLD_FULL (R323)
  worldFullNow : Bool
  sigQ       : List (Nat × SigRec) -- signature records under way, by cluster
  stitch     : List StitchEntry
  staging    : List Staging
  folds      : List Staging      -- fold registers holding events
  foldCount  : Nat               -- FAULT_STATUS.FOLDS
  drainAt    : Option Nat        -- AO cycle in which the collector last drained an entry (R23)
  handshake  : List Staging      -- records offered to the log unit (R23)
  tail       : List Bytes        -- log tail, newest first, at most 64 (R412)
  logSeq     : Word              -- next LOG_SEQ
  selfSpec   : Nat               -- SLICES_PER_GAP (R312)
  selfSpecNext : Option Nat      -- SELFTEST_CONFIG received during a slice (R315)
  selfNext   : Nat × Nat         -- next class, slice (R316)
  selfRun    : Option (Nat × Nat × Nat) -- class, slice, AO cycle of the start
  selfGap    : Nat               -- slices run in this gap
  selfLast   : Nat               -- AO cycle of the last start while STOPPED or PAUSED
  selfPass   : List (Option Nat) -- AO cycle of each class's last complete pass
  selfBad    : List (Nat × Nat)  -- class, unit failed and not passed since (R324)
  selfCycles : List (Nat × Nat × Nat) -- class, unit, boundaries passed when last tested
  selfLate   : List Nat          -- classes whose SELFTEST_LATE has been sent
  rotations  : Nat
  stFlags    : Nat               -- STARVED, FAILED as ST_STATUS bits
  stFail     : Nat × Nat × Nat   -- class, unit, FAILS
  stStarved  : Nat × Nat         -- class, unit of the last starvation; class 0 for none
  deriving DecidableEq, Repr, Inhabited

/-! ### Tile map, memory, power, links -/

/-- A cluster's spare slot (R48). -/
structure Spare where
  st    : Nat                    -- 0 FREE, 1 IN_USE, 2 FACTORY, 3 FAILED
  subst : Nat
  lost  : Half
  pending : List Nat             -- logical tiles due for substitution
  begun : Option Nat             -- tile whose substitution has started (R50 step 3)
  power : Nat                    -- the slot's banks while it carries no name: 0 ON, 1 RET, 2 OFF (R360)
  deriving DecidableEq, Repr, Inhabited

structure Platform where
  spares    : List Spare         -- 16
  mapEpoch  : Word               -- SPARE_MAP_EPOCH
  bankBase  : Nat                -- power state of a bank not listed: 0 ON, 1 RET, 2 OFF
  banks     : List (Nat × Nat)   -- banks in another state, key 64 × tile + bank
  waking    : List (Nat × Nat)   -- banks waking: key, AO cycle of the request
  ueTimes   : List (Nat × Nat × Nat) -- cluster, slot, boundary count of its last uncorrectable error (R364)
  boundaries : Nat               -- boundaries passed since cold reset (R364)
  ceTimes   : List (Nat × Nat)   -- class, AO cycle of corrections within the last second (R362)
  poison    : List Nat           -- granules with a poisoned check line (R368), 512-byte index
  badWords  : List Nat           -- memory keys of words holding an uncorrectable error
  softWords : List Nat           -- memory keys of words holding a correctable error, ascending (R362)
  gddrTrained : Bool
  gddrRate  : Nat                -- GDDR6_STATUS.RATE
  retraining : Option Nat
  retrainAt : List (Nat × Nat)   -- channel, AO cycle of its last retraining
  refclkOk  : Bool
  rails     : Byte               -- RAIL_OK
  vddtSet   : Nat                -- VDD_T setpoint in mV
  vddtRelax : Option (Nat × Nat) -- AO cycle of the change and the old setpoint (R479)
  temps     : List Half          -- 20
  counters  : List (Nat × Word)  -- READ_COUNTERS image of the last boundary: nonzero words (R395)
  deriving DecidableEq, Repr, Inhabited

/-- A collective in progress (R457, R458). -/
structure Coll where
  collId : Nat
  kind   : Nat
  len    : Nat
  src    : Nat
  dst    : Nat
  rowBytes : Nat
  sigTarget : Nat
  sigCounter : Nat
  timeout : Nat
  startAo : Nat
  leader : Nat
  reach  : Nat
  rows   : List (Nat × Nat)      -- package, bytes arrived
  parts  : List (Nat × Nat)      -- package, offset of each part kept
  present : Nat
  submitted : Bool               -- BCAST_DELTA: the batch is with the world engine
  ended  : Bool                  -- completion line written (R458)
  deriving DecidableEq, Repr, Inhabited

structure Links where
  up     : Nat                   -- LINK_UP bits
  reach  : Nat
  leader : Nat
  seqs   : List Word             -- LINK_SEQ per port
  routed : Nat                   -- LINK_UP bits at the last boundary, which route broadcasts (R459)
  colls  : List Coll
  early  : List Bytes            -- frames of the cycle's collectives not yet issued here (log entry 42)
  deriving DecidableEq, Repr, Inhabited

/-- What the block puts on its outputs, newest first (the model's own record of its answers). -/
inductive Out where
  | aoResponse (data : Word64)
  | ntf (ring : Nat)
  | cpl (status : Nat) (tag : Nat) (data : Bytes)
  | replayRequest (fseq : Half)
  | vlFrame (frame : Bytes)
  | gptpSync (port : Nat)
  | linkFrame (port : Nat) (frame : Bytes)
  | mdioFrame (port : Nat) (cmd : Word) (addr : Half)
  | avsbus (millivolt : Nat)
  | trace (entry : Bytes)
  deriving DecidableEq, Repr, Inhabited

structure State where
  pending : List Instr           -- commands waiting, first in, first out
  ao      : Nat                  -- AO cycles since the last release of reset (R7, R23)
  mem     : Mem
  regs    : RegFile
  written : RegFile              -- register writes waiting for the next boundary (R505), against the values in force
  host    : HostPort
  load    : Loading
  fuses   : Fuses
  boot    : Boot
  procs   : List Proc            -- 19, by PROC code (R403)
  cyc     : Cycle
  lat     : Latigo
  rep     : Option Replay
  disp    : Dispatcher
  flows   : List Flow
  world   : World
  chans   : List Channel         -- channels that are not at their reset value
  dmaPtr  : List (Nat × Nat)     -- round-robin pointer, key 2 × engine + class (R337)
  ing     : Ingress
  outp    : Output
  safety  : Safety
  plat    : Platform
  links   : Links
  out     : List Out
  deriving DecidableEq, Repr, Inhabited

/-! ### Reset

Every field at the value the spec gives after a cold reset caused by power-on; a field the spec gives no
value for is named in log entry 2. -/

/-- The word of the epoch-0 root: eight UNKNOWN children (R129, R143). -/
def epochZeroRootCells : Mem := [(0x100000000006, 0xFF), (0x100000000007, 0xFF)]

def HostPort.reset : HostPort :=
  { queues := [], pieces := [], cmdTail := 0, lastCmdSeq := 0, agreedMinor := 2, session := false,
    hbAt := none, timerAt := 0, hostLost := false, lostPolicy := 0, lostAtSeq := 0xFFFFFFFF,
    helloDrops := [0, 0, 0], seqs := [0, 0, 0], ntfDue := [], ntfAt := [], linkUp := false, sbUp := false,
    linkRate := 2, linkRepaired := false, rxFseq := 0, rxReplay := false, rxFails := 0, rxBytes := [],
    burst := [[], []], burstDrop := [false, false], wraHeld := [], txFseq := 0, txKept := [],
    credits := (0, 0, 0), sbArmedAt := none }

def Loading.reset : Loading :=
  { staged := .none, active := none, weights := [], weightsNext := [], profilesNext := [] }

/-- Fuses of an unprogrammed GL-OX256 (log entry 2). -/
def Fuses.reset : Fuses :=
  { part := .ox256, fieldLock := false, imgSignReq := false,
    ikeyHash := List.replicate 4 (List.replicate 48 0), ikeyValid := List.replicate 4 false,
    ikeyRevoked := List.replicate 4 false, kkeyRevoked := List.replicate 4 false,
    rbFused := List.replicate 5 0, factory := [], setpoints := [720, 720, 720] }

def Proc.reset : Proc :=
  { state := .boot, restarts := 0, lastCause := 0, crashAts := [], failedOnce := false,
    warmBegun := false, warmMsg := none, version := 0, switched := false, code := none, data := none, watchAt := 0 }

def Boot.reset : Boot :=
  { stage := 1, taken := [], fwActive := [], fwStaged := [], verifying := none,
    inReset := false, resetAt := none, releasedAt := 0, resetCause := 1, phyRstN := [] }

/-- The defaults of R230. -/
def CycleParams.reset : CycleParams :=
  { period := 10000, deadline := 9950, emitMargin := 150, sync := false, recheckAccept := 0,
    minClear := 0, profileSlot := 0 }

def CycleCounts.reset : CycleCounts :=
  { candGenerated := 0, candChecked := 0, candCut := 0, unitsFull := 0, unitsThinned := 0, unitsCut := 0,
    checkRan := false, checkLo := 0, checkHi := 0 }

def Cycle.reset : Cycle :=
  { dev := .stopped, tack := false, seq := 0, seqRun := false, params := .reset, paramsNext := none,
    prevPeriod := 10000, prevSync := false, inCycle := false, startAo := 0, boundaryAt := none, cutT := none, everStarted := false,
    effectAo := 0, resumedGrid := false, earlyStart := none, cutDone := false,
    deadlineDone := false, released := [], phaseEpoch := [], phaseHeld := [], counts := .reset, facts := [], item := .none,
    planSeen := false, noPlan := false, refusedItem := false, stitchBad := false, stitchRefuse := false,
    lateAbort := false, lateAbortNext := false, refineDropped := false, thinned := false,
    cutActed := false, miss := false, record := none, earlyRecord := none,
    prevDigest := List.replicate 48 0, lastResult := List.replicate 48 0, framesDone := [],
    queueBytes := [], batchPos := [], startMsg := none, pauseMsg := none,
    stopMsg := none, factsSlots := [] }

def Latigo.reset : Latigo :=
  { stopMode := false, running := false, copies := [], runStop := false, complete := false, failed := false, blocked := false,
    startAo := 0, epoch := 0, state := none, usedStamp := 0, traj := [], prevTraj := [], fallbackT := 0,
    incumbentAge := 0 }

def Island.reset : Island := { grant := 0, reserve := 0, scale := 0x1000, balance := 0, opp := 0 }

def Dispatcher.reset : Dispatcher :=
  { ready := [], placedCnt := 0, running := [], leftover := [], compQ := [], recent := [], acks := [], solveAcks := [], openSafe := [],
    schRun := false, cccRun := List.replicate 16 false, tokens := [], inbound := [], full := [],
    islands := List.replicate 16 .reset, pool := 0, poolSet := 0, window := 0, windowAt := 0, limited := false,
    frozen := false, next := none, trip := false, quarantined := [], idleTiles := [], tokensHeld := 0,
    waiters := [], granted := [], tokenPtr := [], unitPtr := [], busyTo := [], freedAt := [], starved := [], ctxPtr := [],
    stealPtr := [], chunkPtr := [], flowPtr := [], freeCtr := 0 }

def Epoch.zero : Epoch :=
  { num := 0, root := 0, origin := [0, 0, 0], t0 := 0, chain := List.replicate 48 0, holds := 0,
    superseded := [], tl := false }

def World.reset : World :=
  { newest := 0, table := [(0, .zero)], nextSlot := 1, freed := [], hostQ := [], taskQ := [],
    staged := [], built := none, hostTurn := true, lastReject := 0, chains := [], badSlots := [], badLines := [],
    cached := [], filling := [] }

def Queue.reset : Queue :=
  { words := [], wPtr := 0, rPtr := 0, mPtr := 0, markValid := false, bPtr := 0, frames := [],
    fired := false, timerAt := 0, reading := none, buffer := [], rxAt := none, wrAt := none }

def Ingress.reset : Ingress :=
  { queues := List.replicate 14 .reset, refs := List.replicate 32 { counter := 0, valid := false },
    flagged := [], linkUp := [], syncAt := 0, inRange := 0, synced := false, offset := 0, timeBase := 0,
    syncTxAt := [], mdio := [], intLow := [] }

def Output.reset : Output :=
  { linkUp := false, txq := [], ident := 0, toggling := false, validA := false, validB := false,
    degraded := true, toggleAt := 0, stopFilt := false, stopRaw := false,
    syncLost := false, acceptAt := none, ignoredAt := [], readbackBad := false, thermN := false }

def Safety.reset : Safety :=
  { safe := false, cause := 0, present := 0, clearPending := false, entries := 0, entrySeq := 0,
    entryAt := 0, causeAt := none, missRun := 0, mismatchMask := 0, mismatchNow := 0, counted := [],
    clean := 0, primaryOk := false, worldFullRun := 0, worldFullNow := false, sigQ := [], stitch := [],
    staging := [], folds := [], foldCount := 0, drainAt := none, handshake := [], tail := [], logSeq := 0, selfSpec := 4, selfSpecNext := none,
    selfNext := (1, 0), selfRun := none, selfGap := 0, selfLast := 0, selfPass := List.replicate 11 none,
    selfBad := [], selfCycles := [], selfLate := [], rotations := 0, stFlags := 0, stFail := (0, 0, 0),
    stStarved := (0, 0) }

def Spare.reset : Spare := { st := 0, subst := 0, lost := 0, pending := [], begun := none, power := 0 }

def Platform.reset : Platform :=
  { spares := List.replicate 16 .reset, mapEpoch := 0, bankBase := 0, banks := [], waking := [], ueTimes := [],
    boundaries := 0, ceTimes := [], poison := [], badWords := [], softWords := [], gddrTrained := false, gddrRate := 0,
    retraining := none, retrainAt := [], refclkOk := true, rails := 0, vddtSet := 750, vddtRelax := none,
    temps := List.replicate 20 0, counters := [] }

def Links.reset : Links :=
  { up := 0, reach := 1, leader := 0, seqs := [0, 0], routed := 0, colls := [], early := [] }

/-- The machine right after the release of a power-on reset: nothing waits, no command has been taken. -/
def State.reset : State :=
  { pending := [], ao := 0, mem := epochZeroRootCells, regs := [], written := [], host := .reset,
    load := .reset, fuses := .reset, boot := .reset, procs := List.replicate 19 .reset, cyc := .reset,
    lat := .reset, rep := none, disp := .reset, flows := [], world := .reset, chans := [], dmaPtr := [],
    ing := .reset, outp := .reset, safety := .reset, plat := .reset, links := .reset, out := [] }

/-- Why a command stops with a fault. -/
inductive Fault where
  /-- A case the spec calls unguarded (R12): it defines no effect. The command's own meaning raises it,
  naming the rule. Safe: hardware may go on. -/
  | unguarded (rule : String)
  deriving DecidableEq, Repr

/-- Why a command is refused. -/
inductive Refusal where
  /-- Raised only by a refused arm of exec: the command has no meaning yet. Safe. -/
  | notModelled (mnemonic : String)
  deriving DecidableEq, Repr

end Sys2Proof.Machine
end

