-- ==== Sys2Proof/Machine/Bytes.lean ====
section
/-! DEFINITION. Byte strings and the fields in them (R8), and the checks computed over bytes: CRC-32C
(R390), CRC-64 (R301), SHA-384 (FIPS 180-4) and ECDSA P-384 verification (FIPS 186-4, SEC 1); the spec
names the last two by their standards (log entry 6). -/

namespace Sys2Proof.Machine

/-! ### Fields -/

def byteAt (bs : Bytes) (i : Nat) : Byte := bs.getD i 0

/-- The number a byte string holds, least significant byte first (R8). -/
def leNat : Bytes → Nat
  | [] => 0
  | b :: t => b.toNat + 256 * leNat t

/-- The number a byte string holds, most significant byte first (R8, external frames). -/
def beNat (bs : Bytes) : Nat := leNat bs.reverse

def sliceOf (bs : Bytes) (off n : Nat) : Bytes := (bs.drop off).take n

/-- The little-endian field of n bytes at off. -/
def fieldAt (bs : Bytes) (off n : Nat) : Nat := leNat (sliceOf bs off n)

/-- The big-endian field of n bytes at off. -/
def fieldBe (bs : Bytes) (off n : Nat) : Nat := beNat (sliceOf bs off n)

/-- n bytes of v, least significant first; v is reduced modulo 2^(8n). -/
def toLe : Nat → Nat → Bytes
  | 0, _ => []
  | n + 1, v => BitVec.ofNat 8 v :: toLe n (v / 256)

def toBe (n v : Nat) : Bytes := (toLe n v).reverse

def zeros (n : Nat) : Bytes := List.replicate n 0

/-- The first n bytes of bs, padded with zeros. -/
def padTo (n : Nat) (bs : Bytes) : Bytes := bs.take n ++ zeros (n - bs.length)

/-- bs padded with zeros to a multiple of k bytes. -/
def padMul (k : Nat) (bs : Bytes) : Bytes :=
  bs ++ zeros ((k - bs.length % k) % k)

/-- bs with the bytes at off replaced by new. -/
def putAt (bs : Bytes) (off : Nat) (new : Bytes) : Bytes :=
  bs.take off ++ new ++ bs.drop (off + new.length)

def allZero (bs : Bytes) : Bool := bs.all (· == 0)

/-- The bits lo to lo + n - 1 of a number. -/
def bitsOf (v lo n : Nat) : Nat := (v >>> lo) % 2 ^ n

def bitOf (v i : Nat) : Bool := v.testBit i

def boolNat (b : Bool) : Nat := if b then 1 else 0

/-- v read as a two's-complement number of w bits. -/
def toSigned (w v : Nat) : Int :=
  if v % 2 ^ w < 2 ^ (w - 1) then (v % 2 ^ w : Nat) else ((v % 2 ^ w : Nat) : Int) - (2 ^ w : Nat)

/-- The low w bits of an integer. -/
def ofSigned (w : Nat) (i : Int) : Nat := (i % (2 ^ w : Nat)).toNat

def ceilDiv (a b : Nat) : Nat := (a + b - 1) / b

/-- Serial-number order on 32-bit numbers: a is not older than b (R143). -/
def serialGe (a b : Nat) : Bool := (a + 4294967296 - b) % 4294967296 < 2147483648

/-- a is older than b (R143). -/
def serialLt (a b : Nat) : Bool := !serialGe a b

/-! ### CRC -/

/-- One bit step of a reflected CRC with the reflected polynomial. -/
def crcBit (poly c : Nat) : Nat := if c % 2 = 1 then (c / 2) ^^^ poly else c / 2

def crcByte (poly c : Nat) (b : Byte) : Nat :=
  let c := c ^^^ b.toNat
  crcBit poly (crcBit poly (crcBit poly (crcBit poly
    (crcBit poly (crcBit poly (crcBit poly (crcBit poly c)))))))

/-- CRC-32C (R390); 0x82F63B78 is 0x1EDC6F41 reflected. -/
def crc32c (bs : Bytes) : Nat := bs.foldl (crcByte 0x82F63B78) 0xFFFFFFFF ^^^ 0xFFFFFFFF

/-- The signature CRC-64 (R301); 0xC96C5795D7870F42 is 0x42F0E1EBA9EA3693 reflected. -/
def crc64 (bs : Bytes) : Nat :=
  bs.foldl (crcByte 0xC96C5795D7870F42) 0xFFFFFFFFFFFFFFFF ^^^ 0xFFFFFFFFFFFFFFFF

/-! ### SHA-384 -/

def two64 : Nat := 18446744073709551616

def rotr64 (n x : Nat) : Nat := ((x >>> n) ||| (x <<< (64 - n))) % two64

def shaK0 : List Nat := [
    0x428A2F98D728AE22, 0x7137449123EF65CD, 0xB5C0FBCFEC4D3B2F, 0xE9B5DBA58189DBBC,
    0x3956C25BF348B538, 0x59F111F1B605D019, 0x923F82A4AF194F9B, 0xAB1C5ED5DA6D8118,
    0xD807AA98A3030242, 0x12835B0145706FBE, 0x243185BE4EE4B28C, 0x550C7DC3D5FFB4E2,
    0x72BE5D74F27B896F, 0x80DEB1FE3B1696B1, 0x9BDC06A725C71235, 0xC19BF174CF692694,
    0xE49B69C19EF14AD2, 0xEFBE4786384F25E3, 0x0FC19DC68B8CD5B5, 0x240CA1CC77AC9C65]

def shaK1 : List Nat := [
    0x2DE92C6F592B0275, 0x4A7484AA6EA6E483, 0x5CB0A9DCBD41FBD4, 0x76F988DA831153B5,
    0x983E5152EE66DFAB, 0xA831C66D2DB43210, 0xB00327C898FB213F, 0xBF597FC7BEEF0EE4,
    0xC6E00BF33DA88FC2, 0xD5A79147930AA725, 0x06CA6351E003826F, 0x142929670A0E6E70,
    0x27B70A8546D22FFC, 0x2E1B21385C26C926, 0x4D2C6DFC5AC42AED, 0x53380D139D95B3DF,
    0x650A73548BAF63DE, 0x766A0ABB3C77B2A8, 0x81C2C92E47EDAEE6, 0x92722C851482353B]

def shaK2 : List Nat := [
    0xA2BFE8A14CF10364, 0xA81A664BBC423001, 0xC24B8B70D0F89791, 0xC76C51A30654BE30,
    0xD192E819D6EF5218, 0xD69906245565A910, 0xF40E35855771202A, 0x106AA07032BBD1B8,
    0x19A4C116B8D2D0C8, 0x1E376C085141AB53, 0x2748774CDF8EEB99, 0x34B0BCB5E19B48A8,
    0x391C0CB3C5C95A63, 0x4ED8AA4AE3418ACB, 0x5B9CCA4F7763E373, 0x682E6FF3D6B2B8A3,
    0x748F82EE5DEFB2FC, 0x78A5636F43172F60, 0x84C87814A1F0AB72, 0x8CC702081A6439EC]

def shaK3 : List Nat := [
    0x90BEFFFA23631E28, 0xA4506CEBDE82BDE9, 0xBEF9A3F7B2C67915, 0xC67178F2E372532B,
    0xCA273ECEEA26619C, 0xD186B8C721C0C207, 0xEADA7DD6CDE0EB1E, 0xF57D4F7FEE6ED178,
    0x06F067AA72176FBA, 0x0A637DC5A2C898A6, 0x113F9804BEF90DAE, 0x1B710B35131C471B,
    0x28DB77F523047D84, 0x32CAAB7B40C72493, 0x3C9EBE0A15C9BEBC, 0x431D67C49C100D4C,
    0x4CC5D4BECB3E42B6, 0x597F299CFC657E2A, 0x5FCB6FAB3AD6FAEC, 0x6C44198C4A475817]

def shaK : List Nat := shaK0 ++ shaK1 ++ shaK2 ++ shaK3

structure ShaRegs where
  a : Nat
  b : Nat
  c : Nat
  d : Nat
  e : Nat
  f : Nat
  g : Nat
  h : Nat
  deriving DecidableEq, Repr, Inhabited

def shaInit : ShaRegs :=
  { a := 0xCBBB9D5DC1059ED8,
    b := 0x629A292A367CD507, c := 0x9159015A3070DD17, d := 0x152FECD8F70E5939, e := 0x67332667FFC00B31, f := 0x8EB44A8768581511, g := 0xDB0C2E0D64F98FA7, h := 0x47B5481DBEFA4FA4 }

def shaSched : Nat → List Nat → List Nat
  | 0, w => w
  | n + 1, w =>
    let at' := fun i => w.getD (i - 1) 0        -- w is newest first
    let w15 := at' 15
    let w2 := at' 2
    let s0 := rotr64 1 w15 ^^^ rotr64 8 w15 ^^^ (w15 >>> 7)
    let s1 := rotr64 19 w2 ^^^ rotr64 61 w2 ^^^ (w2 >>> 6)
    shaSched n (((at' 16 + s0 + at' 7 + s1) % two64) :: w)

def shaRound (r : ShaRegs) (kw : Nat × Nat) : ShaRegs :=
  let s1 := rotr64 14 r.e ^^^ rotr64 18 r.e ^^^ rotr64 41 r.e
  let ch := (r.e &&& r.f) ^^^ ((two64 - 1 - r.e) &&& r.g)
  let t1 := r.h + s1 + ch + kw.1 + kw.2
  let s0 := rotr64 28 r.a ^^^ rotr64 34 r.a ^^^ rotr64 39 r.a
  let mj := (r.a &&& r.b) ^^^ (r.a &&& r.c) ^^^ (r.b &&& r.c)
  { a := (t1 + s0 + mj) % two64, b := r.a, c := r.b, d := r.c, e := (r.d + t1) % two64, f := r.e,
    g := r.f, h := r.g }

def shaBlock (r : ShaRegs) (block : Bytes) : ShaRegs :=
  let w0 := ((List.range 16).map fun i => fieldBe block (8 * i) 8).reverse
  let w := (shaSched 64 w0).reverse
  let z := (shaK.zip w).foldl shaRound r
  { a := (r.a + z.a) % two64, b := (r.b + z.b) % two64, c := (r.c + z.c) % two64,
    d := (r.d + z.d) % two64, e := (r.e + z.e) % two64, f := (r.f + z.f) % two64,
    g := (r.g + z.g) % two64, h := (r.h + z.h) % two64 }

def shaBlocks : Nat → ShaRegs → Bytes → ShaRegs
  | 0, r, _ => r
  | n + 1, r, bs => shaBlocks n (shaBlock r (bs.take 128)) (bs.drop 128)

/-- SHA-384, 48 bytes in digest order (R8). -/
def sha384 (bs : Bytes) : Bytes :=
  let k := (111 + 128 - bs.length % 128) % 128
  let m := bs ++ [0x80] ++ zeros k ++ toBe 16 (8 * bs.length)
  let r := shaBlocks (m.length / 128) shaInit m
  toBe 8 r.a ++ toBe 8 r.b ++ toBe 8 r.c ++ toBe 8 r.d ++ toBe 8 r.e ++ toBe 8 r.f

/-! ### ECDSA P-384 -/

def p384P : Nat := 2 ^ 384 - 2 ^ 128 - 2 ^ 96 + 2 ^ 32 - 1
def p384N : Nat := 0xFFFFFFFFFFFFFFFFFFFFFFFFFFFFFFFFFFFFFFFFFFFFFFFFC7634D81F4372DDF581A0DB248B0A77AECEC196ACCC52973
def p384B : Nat := 0xB3312FA7E23EE7E4988E056BE3F82D19181D9C6EFE8141120314088F5013875AC656398D8A2ED19D2A85C8EDD3EC2AEF
def p384Gx : Nat := 0xAA87CA22BE8B05378EB1C71EF320AD746E1D3B628BA79B9859F741E082542A385502F25DBF55296C3A545E3872760AB7
def p384Gy : Nat := 0x3617DE4A96262C6F5D9E98BF9292DC29F8F41DBD289A147CE9DA3113B5F0B8C00A60B1CE1D7E819D7A431D7C90EA0E5F

/-- b^e modulo m; n bits of e are used. -/
def powMod (m : Nat) : Nat → Nat → Nat → Nat
  | 0, _, _ => 1 % m
  | n + 1, b, e =>
    let t := powMod m n (b * b % m) (e / 2)
    if e % 2 = 1 then t * b % m else t

/-- The inverse modulo a prime of at most 384 bits. -/
def invMod (m a : Nat) : Nat := powMod m 384 (a % m) (m - 2)

/-- A point of P-384; none is the point at infinity. -/
abbrev EcPoint := Option (Nat × Nat)

def subMod (m a b : Nat) : Nat := (a + (m - b % m)) % m

def ecAdd (a b : EcPoint) : EcPoint :=
  match a, b with
  | none, q => q
  | q, none => q
  | some (x1, y1), some (x2, y2) =>
    if x1 = x2 ∧ (y1 + y2) % p384P = 0 then none
    else
      let l := if x1 = x2
        then (3 * x1 * x1 + (p384P - 3)) * invMod p384P (2 * y1) % p384P
        else subMod p384P y2 y1 * invMod p384P (subMod p384P x2 x1) % p384P
      let x3 := subMod p384P (subMod p384P (l * l) x1) x2
      some (x3, subMod p384P (l * subMod p384P x1 x3) y1)

def ecMul : Nat → Nat → EcPoint → EcPoint
  | 0, _, _ => none
  | n + 1, k, q =>
    let t := ecMul n (k / 2) (ecAdd q q)
    if k % 2 = 1 then ecAdd t q else t

/-- An uncompressed key of 97 bytes: 0x04, X, Y, on the curve. -/
def ecKey (pub : Bytes) : EcPoint :=
  let x := fieldBe pub 1 48
  let y := fieldBe pub 49 48
  if byteAt pub 0 = 4 ∧ pub.length = 97 ∧ x < p384P ∧ y < p384P ∧
      y * y % p384P = (x * x * x + (p384P - 3) * x + p384B) % p384P
    then some (x, y) else none

/-- ECDSA P-384 with SHA-384 verifies (R108, R465, R469). -/
def ecdsaVerify (pub msg r48 s48 : Bytes) : Bool :=
  let r := beNat r48
  let s := beNat s48
  match ecKey pub with
  | none => false
  | some q =>
    if 0 < r ∧ r < p384N ∧ 0 < s ∧ s < p384N then
      let e := beNat (sha384 msg)
      let w := invMod p384N s
      match ecAdd (ecMul 384 (e * w % p384N) (some (p384Gx, p384Gy))) (ecMul 384 (r * w % p384N) (some q)) with
      | none => false
      | some (x, _) => x % p384N = r
    else false

end Sys2Proof.Machine
end

