-- ==== Sys2Proof/Machine/Mem.lean ====
section
/-! DEFINITION. Sparse maps in canonical form: keys strictly rising, no entry equal to what an absent key
reads as. Memory (`Mem`) and the register file (`RegFile`) are such maps. -/

namespace Sys2Proof.Machine

/-- What key k holds; d is what an absent key holds. -/
def mapGet {β : Type} (d : Nat → β) : List (Nat × β) → Nat → β
  | [], k => d k
  | (j, v) :: t, k => if k < j then d k else if k = j then v else mapGet d t k

/-- The map with key k holding v. -/
def mapSet {β : Type} [DecidableEq β] (d : Nat → β) : List (Nat × β) → Nat → β → List (Nat × β)
  | [], k, v => if v = d k then [] else [(k, v)]
  | (j, w) :: t, k, v =>
    if k < j then (if v = d k then (j, w) :: t else (k, v) :: (j, w) :: t)
    else if k = j then (if v = d k then t else (k, v) :: t)
    else (j, w) :: mapSet d t k v

/-- The canonical form above a lower bound lo of the keys. -/
def mapWfFrom {β : Type} [DecidableEq β] (d : Nat → β) : Nat → List (Nat × β) → Bool
  | _, [] => true
  | lo, (j, v) :: t => decide (lo ≤ j) && decide (v ≠ d j) && mapWfFrom d (j + 1) t

def mapWf {β : Type} [DecidableEq β] (d : Nat → β) (m : List (Nat × β)) : Bool := mapWfFrom d 0 m

/-! ### Memory -/

/-- What an unlisted byte reads as (R463, log entry 4). -/
def memDefault : Nat → Byte := fun _ => 0

def memGet (m : Mem) (a : Nat) : Byte := mapGet memDefault m a

def memSet (m : Mem) (a : Nat) (v : Byte) : Mem := mapSet memDefault m a v

/-- The canonical form of memory. -/
def memWf (m : Mem) : Bool := mapWf memDefault m

/-- The n bytes from address a. -/
def memRead (m : Mem) (a : Nat) : Nat → Bytes
  | 0 => []
  | n + 1 => memGet m a :: memRead m (a + 1) n

/-- Memory with the bytes bs from address a. -/
def memWrite (m : Mem) (a : Nat) : Bytes → Mem
  | [] => m
  | b :: t => memWrite (memSet m a b) (a + 1) t

/-- Memory with the n bytes from a all zero. -/
def memClear (m : Mem) (a n : Nat) : Mem := m.filter fun c => decide (c.1 < a) || decide (a + n ≤ c.1)

/-- Memory with the bytes of bs from a whose mask bit is set written. -/
def memWriteMasked (m : Mem) (a : Nat) : Bytes → List Bool → Mem
  | [], _ => m
  | _, [] => m
  | b :: t, k :: ks => memWriteMasked (if k then memSet m a b else m) (a + 1) t ks

/-! ### Keyed lists with a default -/

def natGet (m : List (Nat × Nat)) (k : Nat) : Nat := mapGet (fun _ => 0) m k
def natSet (m : List (Nat × Nat)) (k v : Nat) : List (Nat × Nat) := mapSet (fun _ => 0) m k v
def halfGet (m : List (Nat × Half)) (k : Nat) : Half := mapGet (fun _ => 0) m k
def halfSet (m : List (Nat × Half)) (k : Nat) (v : Half) : List (Nat × Half) := mapSet (fun _ => 0) m k v
def boolGet (m : List (Nat × Bool)) (k : Nat) : Bool := mapGet (fun _ => false) m k
def boolSet (m : List (Nat × Bool)) (k : Nat) (v : Bool) : List (Nat × Bool) := mapSet (fun _ => false) m k v

/-- A list with its entry i replaced by f of it. -/
def listUpd {α : Type} (l : List α) (i : Nat) (f : α → α) : List α :=
  match l, i with
  | [], _ => []
  | x :: t, 0 => f x :: t
  | x :: t, i + 1 => x :: listUpd t i f

/-- The list without its entry i. -/
def listDel {α : Type} (l : List α) (i : Nat) : List α := l.take i ++ l.drop (i + 1)

/-- Insertion into an ascending list without repeats. -/
def sortedInsert (x : Nat) : List Nat → List Nat
  | [] => [x]
  | y :: t => if x < y then x :: y :: t else if x = y then y :: t else y :: sortedInsert x t

def sortNat (l : List Nat) : List Nat := l.foldr sortedInsert []

def addOnce {α : Type} [DecidableEq α] (l : List α) (x : α) : List α := if x ∈ l then l else x :: l

end Sys2Proof.Machine
end

