-- ==== Sys2Proof/Machine/Regs.lean ====
section
/-! DEFINITION. The register window (R382): what every offset reads, and which writes it takes. Registers
that only hold a written value, and free-running counters, live in `State.regs`; every other register is a
view of the part of State it reports (R9, R21: no read has a side effect). -/

namespace Sys2Proof.Machine

/-! ### The part (R1 to R3) -/

def clusterCount (s : State) : Nat := if s.fuses.part = .ox256 then 16 else 8

/-- Cluster n is present (R2, R3). -/
def presentCluster (s : State) (n : Nat) : Bool := decide (n < clusterCount s)

/-- Logical tile t exists (R2, R11). -/
def presentTile (s : State) (t : Nat) : Bool := presentCluster s (t / 16)

/-- The two Latigo tiles (R2). -/
def latigoTiles (s : State) : List Nat :=
  if s.fuses.part = .ox256 then [16 * 7 + 15, 16 * 15 + 15] else [16 * 3 + 15, 16 * 7 + 15]

/-! ### Reset values of the stored registers -/

/-- What an unlisted register holds: its reset value (R383, R354, R373, R434, R452, R462). -/
def resetVal (off : Nat) : Word :=
  if off = 0x28 then 0x800003E8
  else if 0x3000 ≤ off ∧ off < 0x30E0 ∧ off % 16 = 8 then 0x64
  else if off = 0x3180 then 0xF0000000
  else if off = 0x5040 then 0xB3F688B6
  else if off = 0x5044 then 0x000000FD
  else if off = 0x6000 then 0x00000001
  else if off = 0x601C then 0xB3F7B3F7
  else if off = 0x6020 then 0x0F000001
  else if off = 0x6040 then 0x80000000
  else if off = 0x7000 then 0x88B51010
  else 0

/-- The value in force of a stored register. -/
def regOf (s : State) (off : Nat) : Word := mapGet resetVal s.regs off

def regNat (s : State) (off : Nat) : Nat := (regOf s off).toNat

/-- The last value written to a register with a boundary rule (R9, R505). -/
def regWritten (s : State) (off : Nat) : Word := mapGet (fun k => regOf s k) s.written off

def setReg (s : State) (off : Nat) (v : Word) : State := { s with regs := mapSet resetVal s.regs off v }

/-- One more event in a counter; it wraps. -/
def bumpReg (s : State) (off : Nat) : State := setReg s off (regOf s off + 1)

def addReg (s : State) (off n : Nat) : State := setReg s off (regOf s off + BitVec.ofNat 32 n)

/-! ### Offsets -/

def offCmdHead : Nat := 0x0C
def offReplyDropped : Nat := 0x30
def offLogDropped : Nat := 0x38
def offMbxCrcErr : Nat := 0x3C
def offBadAccess : Nat := 0x40
def offHqDrop : Nat := 0x44
/-- HEAD, TAIL and DROPPED of device ring r: 0 REPLY, 1 EVENT, 2 LOG (R383). -/
def offHead (r : Nat) : Nat := 0x10 + 8 * r
def offTail (r : Nat) : Nat := 0x14 + 8 * r
def offDropped (r : Nat) : Nat := 0x30 + 4 * r
def offHostLossCfg : Nat := 0x28
def offPublished : Nat := 0x110C
def offRejected : Nat := 0x1110
def offFlowDup : Nat := 0x12D0
def offFlowGap : Nat := 0x12D4
def offStitchPairs : Nat := 0x1300
def offStitchMismatch : Nat := 0x1304
def offStitchIncomplete : Nat := 0x1308
def offReinOverrun : Nat := 0x130C
def offStitchDropped : Nat := 0x131C
def offDmaTimeouts : Nat := 0x2400
def offDmaRbErrors : Nat := 0x2404
def offQCfg (q : Nat) : Nat := 0x3008 + 16 * q
def offQLost (q : Nat) : Nat := 0x300C + 16 * q
def offTsMode (n : Nat) : Nat := 0x3100 + 4 * n
def offEccCe (c : Nat) : Nat := 0x3140 + 8 * c
def offEccUe (c : Nat) : Nat := 0x3144 + 8 * c
def offEccLastUe : Nat := 0x3180
def offEccLastLo : Nat := 0x3184
def offEccLastHi : Nat := 0x3188
def offEdcRetries : Nat := 0x3190
def offTraceDrop : Nat := 0x40C4
def offPortCfg (q : Nat) : Nat := 0x5000 + 4 * q
def offWeltId : Nat := 0x5040
def offGptpCfg : Nat := 0x5044
/-- RX_ACCEPT, DROP_BAD, DROP_FULL, FLAGGED of port q: k = 0 to 3 (R434). -/
def offPortCnt (q k : Nat) : Nat := 0x5100 + 16 * q + 4 * k
def offSrcCfg (e : Nat) : Nat := 0x5200 + 8 * e
def offSrcAge (e : Nat) : Nat := 0x5204 + 8 * e
def offVlCfg : Nat := 0x6000
def offVlTx : Nat := 0x6028
def offVlDrop : Nat := 0x602C
def offVlRxDiscard : Nat := 0x6030
def offVlCounter : Nat := 0x6034
def offFpCfg : Nat := 0x6040
def offSyncIgnored : Nat := 0x6048
def offStopEvents : Nat := 0x604C
def offSyncEarly : Nat := 0x6050
def offSyncLate : Nat := 0x6054
def offLkCfg : Nat := 0x7000
/-- LK_TX, LK_RX, LK_BAD of port l: k = 0 to 2 (R462). -/
def offLkCnt (l k : Nat) : Nat := 0x7010 + 16 * l + 4 * k
def offLkStale : Nat := 0x7030
def offLkDup : Nat := 0x7034
def offDbgCfg : Nat := 0x8014
def offTokenWaits : Nat := 0x900C

/-- PHY management interface k: 0 the vehicle link's, 1 to 4 those of sensor ports 0, 1, 6 and 7. The
offset of its PHY_CTRL; CMD, ADDR and STATUS follow (R434, R441, R452). -/
def offPhyCtrl (k : Nat) : Nat := if k = 0 then 0x6060 else 0x5400 + 16 * (k - 1)
def offMdioCmd (k : Nat) : Nat := offPhyCtrl k + 4
def offMdioAddr (k : Nat) : Nat := offPhyCtrl k + 8
def offMdioStatus (k : Nat) : Nat := offPhyCtrl k + 12

/-- The interface whose PHY_CTRL, CMD, ADDR or STATUS (j = 0 to 3) lies at an offset. -/
def phyOfOffset (off : Nat) : Option (Nat × Nat) :=
  if 0x6060 ≤ off ∧ off < 0x6070 then some (0, (off - 0x6060) / 4)
  else if 0x5400 ≤ off ∧ off < 0x5440 then some ((off - 0x5400) / 16 + 1, (off - 0x5400) % 16 / 4)
  else none

/-- The register index of an Ethernet port in mailbox order: the vehicle link is port 14 (R435). -/
def phyOfPort (port : Nat) : Option Nat :=
  if port = 14 then some 0 else if port = 0 then some 1 else if port = 1 then some 2
  else if port = 6 then some 3 else if port = 7 then some 4 else none

/-! ### gPTP roles (R419, R435) -/

/-- GPTP_ROLE of Ethernet port 0, 1, 6, 7 or 14: 0 DISABLED, 1 MASTER, 2 SLAVE. -/
def gptpRole (s : State) (port : Nat) : Nat :=
  if port = 14 then bitsOf (regNat s offVlCfg) 27 2
  else if regNat s (offPortCfg port) < 2 ^ 31 then 0          -- a port not enabled takes no part (R427)
  else bitsOf (regNat s (offPortCfg port)) 22 2

def gptpPorts : List Nat := [0, 1, 6, 7, 14]

/-- The port the engine follows: the lowest-numbered SLAVE port. -/
def gptpSlave (s : State) : Option Nat := gptpPorts.find? fun p => gptpRole s p = 2

/-- The device is grandmaster: no SLAVE port, once the ROM stage is over (log entry 30). -/
def gptpGm (s : State) : Bool := (gptpSlave s).isNone && decide (s.boot.stage ≠ 1)

/-- SYNCED; a grandmaster counts as SYNCED (R420). -/
def gptpSynced (s : State) : Bool := gptpGm s || s.ing.synced

/-! ### Derived safety values -/

def popCount : Nat → Nat → Nat
  | 0, _ => 0
  | n + 1, v => v % 2 + popCount n (v / 2)

/-- MISMATCH_64 (R321). -/
def mismatch64 (s : State) : Nat := s.safety.mismatchNow + popCount 63 (s.safety.mismatchMask.toNat % 2 ^ 63)

def devCode (d : DevState) : Nat :=
  match d with
  | .stopped => 0
  | .running => 1
  | .paused => 2
  | .replay => 3

/-- CLEAN_RUN of SAFE_BLOCK (R331). -/
def cleanRunBlocked (s : State) : Bool :=
  s.safety.safe && decide (s.cyc.dev = .running) && decide (s.safety.clean < 3)

/-- SAFE_BLOCK (R331): latched causes that have not ceased, and the clean run. -/
def safeBlock (s : State) : Nat :=
  (s.safety.cause &&& s.safety.present).toNat + 65536 * boolNat (cleanRunBlocked s)

/-- The age of self-test class i + 1 in units of 100 µs (R316). -/
def stAge (s : State) (i : Nat) : Nat :=
  match (s.safety.selfPass.getD i none) with
  | none => 0xFFFFFFFF
  | some t => min 0xFFFFFFFF ((s.ao - t) / 10000)

/-- LATE: a class that has passed is older than 100 ms (R316, log entry 31). -/
def stLate (s : State) : Bool :=
  (List.range 11).any fun i => (s.safety.selfPass.getD i none).isSome && decide (stAge s i > 1000)

def faultFold (s : State) : Bool := s.safety.staging.any (·.folded) || !s.safety.folds.isEmpty

/-! ### The self-test's classes (R308, R310, R314) -/

/-- Slices of a class, the longest time of one in µs, and the units of the class. -/
def classSlices (c : Nat) : Nat := if c = 2 then 2 else if c = 4 then 4 else 1
def sliceTime (c : Nat) : Nat := [0, 6, 8, 10, 15, 4, 12, 3, 2, 20, 3, 2].getD c 0
def classUnits (c : Nat) : Nat := [0, 4, 12, 512, 606, 14, 128, 1, 3, 20, 1, 2].getD c 0

/-- First unit of a slice, and the unit after its last. -/
def sliceUnits (c k : Nat) : Nat × Nat :=
  if c = 2 then (6 * k, 6 * k + 6)
  else if c = 4 then (if k = 0 then (0, 272) else if k = 1 then (272, 544) else if k = 2 then (544, 582) else (582, 606))
  else (0, classUnits c)

def inSlice (c k u : Nat) : Bool := decide ((sliceUnits c k).1 ≤ u ∧ u < (sliceUnits c k).2)

/-- The slice that tests a unit. -/
def sliceOfUnit (c u : Nat) : Nat := ((List.range (classSlices c)).find? fun k => inSlice c k u).getD 0

def cycleMark (l : List (Nat × Nat × Nat)) (c u : Nat) : Option Nat := (l.find? fun e => decide (e.1 = c ∧ e.2.1 = u)).map (·.2.2)

/-- Boundaries passed when a unit was last tested. -/
def lastTested (y : Safety) (c u : Nat) : Nat :=
  match cycleMark y.selfCycles c u with
  | some n => n
  | none => (cycleMark y.selfCycles c (4096 + sliceOfUnit c u)).getD 0

/-! ### Register views by block -/

def procCode (p : ProcState) : Nat :=
  match p with
  | .boot => 0
  | .running => 1
  | .restarting => 2
  | .rejoinWait => 3
  | .halted => 4
  | .warmPending => 5

/-- The image number a processor runs (R404). -/
def imageOfProc (p : Nat) : Nat := min p 3

def stagedVersion (s : State) (num : Nat) : Nat :=
  match s.boot.fwStaged.find? (·.num = num) with
  | some f => f.version
  | none => 0

def readHost (s : State) (off : Nat) : Nat :=
  if off = 0 then 0x0102
  else if off = 4 then
    s.host.linkRate * 64 + 4 * boolNat s.host.linkRepaired + 2 * boolNat s.host.sbUp + boolNat s.host.linkUp
  else if off = 8 then 0
  else if off = 0x2C then
    let since := match s.host.hbAt with
      | none => 0xFFFF
      | some t => min 0xFFFF ((s.ao - t) / 100000)
    since * 65536 + 4 * devCode s.cyc.dev + 2 * boolNat s.host.session + boolNat s.host.hostLost
  else if off ≤ 0x44 then regNat s off
  else 0

def readTileMap (s : State) (r : Nat) : Nat :=
  if r < 0x40 then
    match s.plat.spares[r / 4]? with
    | some sp =>
      if presentCluster s (r / 4) then
        sp.lost.toNat * 65536 + sp.st * 64 + (if sp.st = 1 ∨ sp.st = 2 then sp.subst else 0)
      else 0
    | none => 0
  else if r = 0x40 then s.plat.mapEpoch.toNat
  else if r = 0x44 then
    (List.range 16).foldl (fun v n =>
      if (s.plat.spares.getD n .reset).pending = [] then v else v + 2 ^ n) 0
  else 0

def worldFree (s : State) : Nat := 0x80000 - s.world.nextSlot + s.world.freed.length

def readWorld (s : State) (r : Nat) : Nat :=
  if r = 0 then s.world.newest
  else if r = 4 then worldFree s
  else if r = 8 then
    let live := s.world.table.foldl (fun v p => v + 2 ^ p.1) 0
    s.world.staged.length % 256 * 65536 + live * 256 + s.world.lastReject * 4
      + 2 * boolNat (s.world.built.isSome && decide (8 ≤ s.world.table.length))
      + boolNat s.world.built.isSome
  else if r = 0x0C ∨ r = 0x10 then regNat s (0x1100 + r)
  else if 0x20 ≤ r ∧ r < 0x60 then
    match s.world.table.find? (fun p => p.1 = (r - 0x20) / 8) with
    | some p => if r % 8 = 0 then p.2.num else p.2.holds % 65536
    | none => 0
  else 0

def readDispatch (s : State) (r : Nat) : Nat :=
  let isl := fun n => if presentCluster s n then s.disp.islands.getD n .reset
    else { grant := 0, reserve := 0, scale := 0, balance := 0, opp := 0 }
  if r < 0x40 then (isl (r / 4)).reserve * 65536 + (isl (r / 4)).grant
  else if r < 0x80 then ofSigned 32 (isl ((r - 0x40) / 4)).balance
  else if r < 0xC0 then (isl ((r - 0x80) / 4)).scale
  else if r = 0xC0 then s.disp.pool % 2 ^ 32
  else if r = 0xC4 then s.disp.window.toNat
  else if r = 0xC8 then 4 * boolNat s.disp.trip + 2 * boolNat s.disp.limited + boolNat s.disp.frozen
  else if r = 0xCC then
    131072 * boolNat s.cyc.tack + 65536 * boolNat s.disp.schRun
      + (List.range 16).foldl (fun v n => if s.disp.cccRun.getD n false then v + 2 ^ n else v) 0
  else if r = 0xD0 ∨ r = 0xD4 then regNat s (0x1200 + r)
  else 0

/-- The safety-island block, also AO addresses 0x000 to 0x07F (R316, R331, R381). -/
def readSafety (s : State) (r : Nat) : Nat :=
  let y := s.safety
  if r ≤ 0x0C ∨ r = 0x1C then regNat s (0x1300 + r)
  else if r = 0x10 then
    y.rotations % 256 * 2 ^ 24 + y.selfNext.1 * 2 ^ 20 + y.selfNext.2 * 2 ^ 18 + 2048 * boolNat (stLate s)
      + y.stFlags + 256 * boolNat y.selfRun.isSome
  else if r = 0x14 then y.stFail.1 * 2 ^ 28 + y.stFail.2.1 * 65536 + y.stFail.2.2
  else if r = 0x18 then
    if y.stStarved.1 = 0 then 0
    else y.stStarved.1 * 2 ^ 28 + y.stStarved.2 * 65536
      + min 65535 (s.plat.boundaries - lastTested y y.stStarved.1 y.stStarved.2)
  else if 0x20 ≤ r ∧ r < 0x4C then stAge s ((r - 0x20) / 4)
  else if r = 0x60 then
    y.entries * 2 ^ 24 + min 255 (mismatch64 s) * 65536 + y.missRun * 256 + y.clean * 16
      + 4 * boolNat s.lat.stopMode + 2 * boolNat y.clearPending + boolNat y.safe
  else if r = 0x64 then y.cause.toNat
  else if r = 0x68 then safeBlock s
  else if r = 0x6C then y.entrySeq.toNat
  else if r = 0x70 then y.mismatchMask.toNat % 2 ^ 32
  else if r = 0x74 then y.mismatchMask.toNat / 2 ^ 32
  else if r = 0x78 then y.foldCount * 65536 + boolNat (faultFold s)
  else 0

def chanOf (s : State) (key : Nat) : Option Channel := s.chans.find? (·.key = key)

/-- The DMA block (R353). Whether a transfer under way has come to its read-back is not given: a free value (log entry 9). -/
def readDma (s : State) (r : Nat) : Nat :=
  if r < 0x400 then
    match chanOf s (r / 8) with
    | none => 0
    | some c =>
      if r % 8 = 0 then
        c.lastStatus * 2 ^ 24 + 2 ^ 19 * boolNat c.hopEnd + 2 ^ 18 * boolNat c.drain
          + 2 ^ 17 * boolNat (match c.active with | some a => a.safe | none => false)
          + 65536 * boolNat c.armed
          + 16384 * (if c.running then 2 + Config.freeNat 79 s.disp.freeCtr % 2 else if c.active.isSome then 1 else 0)
      else c.done.toNat
  else if r = 0x400 ∨ r = 0x404 then regNat s (0x2000 + r)
  else 0

/-- Size of queue q in words (R343). -/
def queueSize (q : Nat) : Nat :=
  if q = 0 ∨ q = 1 ∨ q = 6 ∨ q = 7 then 0x2000 else if q ≤ 11 then 0x1000 else 0x0800

def queueOf (s : State) (q : Nat) : Queue := s.ing.queues.getD q .reset

/-- W − B and W − R (R345). -/
def queueHeld (x : Queue) : Nat := (x.wPtr - x.bPtr).toNat
def queueUnread (x : Queue) : Nat := (x.wPtr - x.rPtr).toNat

def readQueues (s : State) (r : Nat) : Nat :=
  let q := r / 16
  let x := queueOf s q
  if 14 ≤ q then 0
  else if r % 16 = 0 then
    queueUnread x % 65536 * 65536 + 32768 * boolNat x.fired + 16384 * boolNat x.markValid
      + 8192 * boolNat (decide (queueHeld x = queueSize q)) + 4096 * boolNat x.reading.isSome
  else if r % 16 = 4 then queueHeld x % 65536
  else if r % 16 = 8 then queueSize q * 65536 + (regWritten s (offQCfg q)).toNat % 16384
  else if r % 16 = 12 then regNat s (offQLost q)
  else 0

def gddrChannels (s : State) : Nat := if s.fuses.part = .ox256 then 24 else 12

def readMemory (s : State) (r : Nat) : Nat :=
  if r < 0x40 then (if presentCluster s (r / 4) then (regWritten s (0x3100 + r)).toNat else 0)
  else if r = 0x8C then gddrChannels s * 2 ^ 24 + s.plat.gddrRate * 16 + boolNat s.plat.retraining.isSome
  else if r ≤ 0x90 then regNat s (0x3100 + r)
  else 0

def readFirmware (s : State) (r : Nat) : Nat :=
  let shown := fun p => decide (p < 19) && (decide (p < 3) || presentCluster s (p - 3))
  if r < 0x4C then
    match s.procs[r / 4]? with
    | some p => if shown (r / 4) then p.restarts * 2 ^ 24 + p.lastCause * 4096 + procCode p.state else 0
    | none => 0
  else if 0x60 ≤ r ∧ r < 0xAC then
    let k := (r - 0x60) / 4
    match s.procs[k]? with
    | some p => if shown k then (if p.switched then 0 else stagedVersion s (imageOfProc k)) * 65536 + p.version else 0
    | none => 0
  else if r = 0xC0 then s.safety.logSeq.toNat
  else if r = 0xC4 then regNat s offTraceDrop
  else 0

def readPhy (s : State) (k j : Nat) : Nat :=
  if j = 0 then
    let v := regNat s (offPhyCtrl k)
    (v / 2 ^ 31) * 2 ^ 31 + 2 ^ 30 * boolNat (decide (k ∈ s.ing.intLow)) + v % 65536
  else if j = 1 then 0
  else if j = 2 then regNat s (offMdioAddr k)
  else 2 ^ 31 * boolNat (s.ing.mdio.any (·.1 = k)) + regNat s (offMdioStatus k)

def satHalf (i : Int) : Nat :=
  ofSigned 16 (if i > 32767 then 32767 else if i < -32768 then -32768 else i)

def readIngress (s : State) (r : Nat) : Nat :=
  if r = 0x48 then
    2 ^ 31 * boolNat (gptpSynced s) + 2 ^ 30 * boolNat (gptpGm s)
      + 2 ^ 24 * (match gptpSlave s with | some p => p | none => 15) + satHalf s.ing.offset
  else match phyOfOffset (0x5000 + r) with
    | some (k, j) => readPhy s k j
    | none =>
      if r < 0x30 ∨ r = 0x40 ∨ r = 0x44 ∨ (0x200 ≤ r ∧ r < 0x300) then (regWritten s (0x5000 + r)).toNat
      else if 0x100 ≤ r ∧ r < 0x1E0 then regNat s (0x5000 + r)
      else 0

def readVehicle (s : State) (r : Nat) : Nat :=
  let o := s.outp
  if r ≤ 0x20 then (regWritten s (0x6000 + r)).toNat
  else if r = 0x24 then 2 ^ 31 * boolNat o.linkUp + o.txq.length
  else if r ≤ 0x34 then regNat s (0x6000 + r)
  else if r = 0x44 then
    2 ^ 31 * boolNat o.toggling + 2 ^ 30 * boolNat o.validA + 2 ^ 29 * boolNat o.validB
      + 2 ^ 28 * boolNat o.degraded + 2 ^ 27 * boolNat o.stopFilt + 2 ^ 26 * boolNat o.stopRaw
      + 2 ^ 25 * boolNat o.syncLost
  else if r = 0x40 ∨ (0x48 ≤ r ∧ r ≤ 0x54) then regNat s (0x6000 + r)
  else match phyOfOffset (0x6000 + r) with
    | some (k, j) => readPhy s k j
    | none => 0

def readLinks (s : State) (r : Nat) : Nat :=
  if r = 0 ∨ r = 8 ∨ r = 0x0C then (regWritten s (0x7000 + r)).toNat
  else if r = 4 then s.links.up % 4 * 256 + s.links.reach * 16 + s.links.leader
  else if r ≤ 0x34 then regNat s (0x7000 + r)
  else 0

def boolsNat : List Bool → Nat
  | [] => 0
  | b :: t => boolNat b + 2 * boolsNat t

/-- FUSE_FLAGS (R475). -/
def fuseFlags (s : State) : Nat :=
  boolNat s.fuses.fieldLock + 2 * boolNat s.fuses.imgSignReq + 16 * (boolsNat s.fuses.ikeyValid % 16)
    + 256 * (boolsNat s.fuses.ikeyRevoked % 16) + 4096 * (boolsNat s.fuses.kkeyRevoked % 16)

/-- RB_FUSED (R475). -/
def rbFusedWord (s : State) : Nat :=
  (s.fuses.rbFused.take 5).foldr (fun c v => c + 64 * v) 0

/-- OPP (R501). -/
def oppWord (s : State) : Nat :=
  (s.disp.islands.take (clusterCount s)).foldr (fun i v => i.opp + 4 * v) 0

/-- PWR_STATUS and RESET_CAUSE (R501), also AO addresses 0x200 and 0x204. -/
def pwrStatus (s : State) : Nat :=
  s.plat.vddtSet % 1024 * 2 ^ 22 + 256 * boolNat s.outp.thermN + s.plat.rails.toNat

def readPower (s : State) (r : Nat) : Nat :=
  if r = 0 then pwrStatus s
  else if r = 4 then s.boot.resetCause.toNat
  else if r = 8 then oppWord s
  else if r = 0x0C then regNat s offTokenWaits
  else if 0x40 ≤ r ∧ r < 0x90 then
    let i := (r - 0x40) / 4
    if 16 ≤ i ∨ presentCluster s i then (s.plat.temps.getD i 0).toNat else 0
  else 0

/-- The part has the sensor (R501). -/
def sensorPresent (s : State) (k : Nat) : Bool := decide (k < 20) && (decide (16 ≤ k) || presentCluster s k)

end Sys2Proof.Machine
end

