-- ==== Sys2Proof/Machine/Ops.lean ====
section
/-! DEFINITION. The shared operations every family uses: memory and tile stores, free values, the device
rings (R384 to R389), replies and events (R396, R397), the log unit (R412), the trace unit (R413) and the
fault-bus collector (R23). -/

namespace Sys2Proof.Machine

abbrev Result := Host.Outcome State Fault Refusal

/-- An event happens when its condition holds and no internal reset holds the block; otherwise nothing
happens (R487, log entry 3). -/
def onlyIf (s : State) (c : Bool) (t : State) : Result := .next (if !s.boot.inReset && c then t else s)

/-- A next state, or the stop of an unguarded case (R12). -/
abbrev Attempt := Except String State

def ofAttempt (a : Attempt) : Result :=
  match a with
  | .ok s => .next s
  | .error r => .fault (.unguarded r)

/-! ### Memory -/

/-- Device addresses of R370 and R371. -/
def mailboxBase : Nat := 0x200000000000
def bankBase : Nat := 0x100000000000
def stagingBase : Nat := 0x08000000
def factsBase : Nat := 0x09000000
def ckptBase : Nat := 0x0A000000
def profileBase : Nat := 0x10000000
def incumbentBase : Nat := 0x10001000
def latigoStateBase : Nat := 0x10001800
def flowBase : Nat := 0x11000000
def reorderBase : Nat := 0x12000000
def persistBase : Nat := 0x17000000
def weightBase : Nat := 0x11A000000
/-- The end of the GDDR6 data space (R370). -/
def gddrEnd (s : State) : Nat := if s.fuses.part = .ox256 then 0x555555000 else 0x2AAAAA800

/-- The memory key of tile-local address a of logical tile t (R36, R47). -/
def tileBase (t : Nat) : Nat := 2 ^ 48 + t * 2 ^ 20

def devRead (s : State) (a n : Nat) : Bytes := memRead s.mem a n

/-- Words (8 bytes) and granules (512 bytes) written whole are good again (R362, R368). -/
def healed (p : Platform) (a n : Nat) : Platform :=
  let whole := fun w => decide (a ≤ w) && decide (w + 8 ≤ a + n)
  { p with badWords := p.badWords.filter fun w => !whole w
           softWords := p.softWords.filter fun w => !whole w
           poison := p.poison.filter fun g => !(decide (a ≤ 512 * g) && decide (512 * g + 512 ≤ a + n)) }

def devWrite (s : State) (a : Nat) (bs : Bytes) : State :=
  { s with mem := memWrite s.mem a bs, plat := healed s.plat a bs.length }

/-- A read of n bytes from a meets an uncorrectable error: a bad word or a poisoned granule (R363, R368). -/
def badRead (s : State) (a n : Nat) : Bool :=
  (s.plat.badWords.any fun w => decide (w < a + n) && decide (a < w + 8))
    || (s.plat.poison.any fun g => decide (512 * g < a + n) && decide (a < 512 * g + 512))

def tileRead (s : State) (t a n : Nat) : Bytes := memRead s.mem (tileBase t + a) n

def tileWrite (s : State) (t a : Nat) (bs : Bytes) : State := devWrite s (tileBase t + a) bs

/-! ### Free values -/

/-- n bytes the spec leaves unspecified; the counter moves on. -/
def freeBytes (s : State) (n : Nat) : Bytes := (List.range n).map (Config.freeByte s.disp.freeCtr)

def tickFree (s : State) : State := { s with disp := { s.disp with freeCtr := s.disp.freeCtr + 1 } }

/-- The n bytes from a become unspecified. -/
def devScramble (s : State) (a n : Nat) : State := tickFree (devWrite s a (freeBytes s n))

/-! ### Time -/

/-- The gPTP clock in ns (R419). -/
def gptpNow (s : State) : Nat := s.ing.timeBase + 10 * s.ao

/-- The gPTP reading at an AO cycle (R419). -/
def gptpAt (s : State) (ao : Nat) : Nat := s.ing.timeBase + 10 * ao

/-! ### Stirrup, outgoing (R376 to R378) -/

/-- A transaction the device sends, with its data padded to 8 bytes (R377). -/
def transBytes (o : Out) : Bytes :=
  match o with
  | .cpl status tag data => [4] ++ toLe 1 tag ++ toLe 2 data.length ++ zeros 4 ++ toLe 1 status ++ zeros 7 ++ padMul 8 data
  | .ntf ring => [5] ++ zeros 3 ++ toLe 4 ring ++ zeros 8
  | _ => []

/-- A flit (R376); bytes that no transaction fills are zero (log entry 13). -/
def flitBytes (fseq ack : Nat) (credits : Nat × Nat × Nat) (data : Bytes) : Bytes :=
  let body := toLe 2 fseq ++ toLe 2 ack ++ toLe 1 credits.1 ++ toLe 1 credits.2.1 ++ toLe 1 credits.2.2 ++ [0] ++ padTo 244 data
  body ++ toLe 4 (crc32c body)

/-- The most credits of a pool that one flit returns. -/
def creditTake (c : Nat × Nat × Nat) : Nat × Nat × Nat := (min 255 c.1, min 255 c.2.1, min 255 c.2.2)

/-- One flit is sent: it returns what credits it can and is kept for replay (R376, R378). -/
def sendFlit (h : HostPort) (data : Bytes) : HostPort :=
  let c := creditTake h.credits
  { h with txFseq := h.txFseq + 1,
           txKept := (flitBytes h.txFseq.toNat (h.rxFseq - 1).toNat c data :: h.txKept).take 128,
           credits := (h.credits.1 - c.1, h.credits.2.1 - c.2.1, h.credits.2.2 - c.2.2) }

/-- The flits that n pieces of 244 bytes take. -/
def sendFlits : Nat → Bytes → HostPort → HostPort
  | 0, _, h => h
  | n + 1, bs, h => sendFlits n (bs.drop 244) (sendFlit h (bs.take 244))

/-- The device sends a transaction to the host. -/
def sendTrans (s : State) (o : Out) : State :=
  let bs := transBytes o
  { s with host := sendFlits (ceilDiv bs.length 244) bs s.host, out := o :: s.out }

/-! ### Status codes (R396) -/

def stOk : Nat := 0
def stBadCrc : Nat := 1
def stBadLength : Nat := 2
def stUnknownOpcode : Nat := 3
def stVersionMismatch : Nat := 4
def stNoSession : Nat := 5
def stSessionActive : Nat := 6
def stReattachRequired : Nat := 7
def stProcDown : Nat := 8
def stProcRestarted : Nat := 9
def stSecDown : Nat := 10
def stNotRunning : Nat := 11
def stNotPaused : Nat := 12
def stNotStopped : Nat := 13
def stNotReady : Nat := 14
def stNoImage : Nat := 15
def stPieceOrder : Nat := 16
def stImageTooLarge : Nat := 17
def stBadImage : Nat := 18
def stImageVersion : Nat := 19
def stBadDigest : Nat := 20
def stBadSignature : Nat := 21
def stSignatureRequired : Nat := 22
def stBadPlacement : Nat := 23
def stSuperseded : Nat := 24
def stNoSpace : Nat := 25
def stBadDelta : Nat := 26
def stWorldFull : Nat := 27
def stBadProfile : Nat := 28
def stBadConfig : Nat := 29
def stBadCheckpoint : Nat := 30
def stResumeMismatch : Nat := 31
def stNotReplayable : Nat := 32
def stFactsGone : Nat := 33
def stSafeClearRefused : Nat := 34
def stRollback : Nat := 35
def stBadArgument : Nat := 36

/-! ### Device rings -/

/-- Device address and size of device ring r: 0 REPLY, 1 EVENT, 2 LOG (R384). -/
def ringBase (r : Nat) : Nat :=
  mailboxBase + (if r = 0 then 0x80000 else if r = 1 then 0xA0000 else 0xB0000)

def ringSize (r : Nat) : Nat := if r = 0 then 0x20000 else 0x10000

/-- Memory with bs written at ring position pos, wrapping at the ring's end (R385). -/
def ringWrite (m : Mem) (base size pos : Nat) (bs : Bytes) : Mem :=
  let room := size - pos % size
  memWrite (memWrite m (base + pos % size) (bs.take room)) base (bs.drop room)

/-- The n bytes at ring position pos (R385). -/
def ringRead (m : Mem) (base size pos n : Nat) : Bytes :=
  let room := min n (size - pos % size)
  memRead m (base + pos % size) room ++ memRead m base (n - room)

/-- The bytes of a device message (R389, R390); FLAGS has DEVICE set. -/
def msgBytes (minor : Byte) (opcode seq corr : Nat) (payload : Bytes) : Bytes :=
  let head := [1, minor] ++ toLe 2 opcode ++ toLe 4 seq ++ toLe 4 corr ++ toLe 4 payload.length
    ++ toLe 2 2 ++ zeros 10
  padMul 64 (head ++ toLe 4 (crc32c (head ++ payload)) ++ payload)

/-- An entry of n bytes fits between TAIL and HEAD + size (R387). -/
def ringFits (s : State) (r n : Nat) : Bool :=
  decide ((regOf s (offTail r) + BitVec.ofNat 32 n - regOf s (offHead r)).toNat ≤ ringSize r)

/-- The device writes one entry into ring r, or drops and counts it (R387); an NTF becomes due (R388). -/
def ringSend (s : State) (r : Nat) (minor : Byte) (opcode corr : Nat) (payload : Bytes) : State :=
  let seq := s.host.seqs.getD r 0
  let bs := msgBytes minor opcode seq.toNat corr payload
  let s1 := { s with host := { s.host with seqs := s.host.seqs.set r (seq + 1) } }
  if ringFits s r bs.length then
    { s1 with
      mem := ringWrite s.mem (ringBase r) (ringSize r) (regNat s (offTail r)) bs
      regs := mapSet resetVal s.regs (offTail r) (regOf s (offTail r) + BitVec.ofNat 32 bs.length)
      host := { s1.host with ntfDue := addOnce s1.host.ntfDue r } }
  else bumpReg s1 (offDropped r)

/-! ### Replies and events -/

/-- The reply payload (R396). -/
def replyPayload (status info : Nat) (data : Bytes) : Bytes := toLe 2 status ++ toLe 2 info ++ zeros 12 ++ data

/-- A reply in the agreed format; a successful NO_REPLY command gets none (R389). -/
def replyInfo (s : State) (m : Msg) (status info : Nat) (data : Bytes) : State :=
  if status = 0 ∧ m.flags.toNat % 2 = 1 then s
  else ringSend s 0 s.host.agreedMinor (m.opcode.toNat ||| 0x8000) m.seq.toNat (replyPayload status info data)

def reply (s : State) (m : Msg) (status : Nat) : State := replyInfo s m status 0 []

def replyData (s : State) (m : Msg) (data : Bytes) : State := replyInfo s m 0 0 data

/-- Piece header (R394). -/
def pieceHeader (obj off total flags : Nat) : Bytes :=
  toLe 4 obj ++ toLe 4 off ++ toLe 4 total ++ toLe 1 flags ++ zeros 3

/-- One piece of bulk reply data from an offset (R394, R395; log entry 12). -/
def replyPiece (s : State) (m : Msg) (off : Nat) (obj : Bytes) : State :=
  let part := sliceOf obj off 65472
  let last := if off + part.length ≥ obj.length then 1 else 0
  replyData s m (pieceHeader 0 off obj.length last ++ part)

/-- Event payload head (R397). -/
def eventHead (s : State) (code : Nat) : Bytes :=
  toLe 2 code ++ zeros 2 ++ toLe 4 s.cyc.seq.toNat ++ toLe 8 s.ao

/-- The pieces of a long event (R397). -/
def eventPieces (data : Bytes) (total : Nat) : Nat → Nat → List Bytes
  | 0, _ => []
  | n + 1, off =>
    let part := sliceOf data off 65472
    (pieceHeader 0 off total (if off + 65472 ≥ total then 1 else 0) ++ part)
      :: eventPieces data total n (off + 65472)

/-- An event to the EVENT ring (R397). -/
def sendEvent (s : State) (code : Nat) (data : Bytes) : State :=
  if data.length ≤ 65488 then ringSend s 1 s.host.agreedMinor 0xE000 0 (eventHead s code ++ data)
  else (eventPieces data data.length (ceilDiv data.length 65472) 0).foldl
    (fun t p => ringSend t 1 t.host.agreedMinor 0xE000 0 (eventHead t code ++ p)) s

/-- An event whose data the spec does not give (log entry 8). -/
def sendOpenEvent (s : State) (code : Nat) : State :=
  tickFree (sendEvent s code (Config.eventData code s.disp.freeCtr))

/-! ### Log and trace -/

/-- SOURCE codes of log records (R412). -/
def srcCollector : Nat := 0x20
def srcIsland : Nat := 0x21
def srcDispatch : Nat := 0x22
def srcWorld : Nat := 0x23
def srcDma : Nat := 0x24
def srcIngress : Nat := 0x25
def srcRouter : Nat := 0x26
def srcMemory : Nat := 0x27

/-- Numbers of the non-fault log records, for `Config.logCode` (log entry 8). -/
def lcHello : Nat := 0
def lcHeartbeat : Nat := 1
def lcSafeRequest : Nat := 2
def lcAoSafeRequest : Nat := 3
def lcDeadlineAbort : Nat := 4
def lcProcRestart : Nat := 5
def lcDmaAborted : Nat := 6
def lcSyncIgnored : Nat := 7
def lcStopInput : Nat := 8
def lcSpareIn : Nat := 9
def lcMismatchPair : Nat := 10
def lcCorrected : Nat := 11
def lcSelftest : Nat := 12

/-- A log record (R412), 64 bytes. -/
def logBytes (seq code source flags stamp cycle : Nat) (data : Bytes) : Bytes :=
  toLe 4 seq ++ toLe 2 code ++ toLe 1 source ++ toLe 1 flags ++ toLe 8 stamp ++ toLe 4 cycle
    ++ toLe 1 (min 40 data.length) ++ zeros 3 ++ padTo 40 data

/-- The tail keeps the newest 64 records (R412). -/
def tailPush (s : State) (entry : Bytes) : State :=
  { s with safety := { s.safety with tail := (entry :: s.safety.tail).take 64 } }

/-- The trace port is enabled and not locked (R413, R473). -/
def traceOn (s : State) : Bool := !s.fuses.fieldLock && decide (regNat s offDbgCfg % 2 = 1)

/-- The log unit takes a record: LOG_SEQ, LOG ring, tail and trace (R412). A record that reached the tail
directly is not written there again. -/
def logTake (s : State) (code source flags stamp : Nat) (data : Bytes) (direct : Bool) : State :=
  let entry := logBytes s.safety.logSeq.toNat code source flags stamp s.cyc.seq.toNat data
  let s1 := ringSend s 2 s.host.agreedMinor 0xF000 0 entry
  let s2 := if direct then s1 else tailPush s1 entry
  { s2 with
    safety := { s2.safety with logSeq := s.safety.logSeq + 1 }
    out := if traceOn s then .trace entry :: s2.out else s2.out }

/-- A record of a source other than the fault bus, taken now. -/
def logNow (s : State) (code source : Nat) (data : Bytes) : State :=
  logTake s code source 0 s.ao data false

/-- A record of the safety island with L_FLAGS TEST (4) or 0: it reaches the log tail directly, where LOG_SEQ is not
yet assigned, and the log unit as well (R412; log entry 8). -/
def logIslandAs (s : State) (code test : Nat) (data : Bytes) : State :=
  let entry := logBytes (Config.tailSeq s.disp.freeCtr) code srcIsland (2 + test) s.ao s.cyc.seq.toNat data
  tickFree (logTake (tailPush s entry) code srcIsland test s.ao data true)

def logIsland (s : State) (code : Nat) (data : Bytes) : State := logIslandAs s code 0 data

/-- A trace record (R413); FSTAMP counts fabric cycles, ten to an AO cycle (log entry 11). -/
def traceRec (s : State) (tp src arg16 a b : Nat) : State :=
  if traceOn s then
    { s with out := .trace (toLe 1 tp ++ toLe 1 src ++ toLe 2 arg16 ++ toLe 4 (10 * s.ao) ++ toLe 4 a ++ toLe 4 b) :: s.out }
  else s

/-! ### Fault bus (R23) -/

/-- The faults of the spec in the model's numbering (log entry 8): the code operand of FAULT_EVENT. -/
def fStitch : Nat := 0
def fReinOverrun : Nat := 1
def fTileStoreEcc : Nat := 2
def fWorldCacheEcc : Nat := 3
def fWorldBankEcc : Nat := 4
def fFwMemEcc : Nat := 5
def fQueueEcc : Nat := 6
def fGddr6Ecc : Nat := 7
def fEdcRetryLimit : Nat := 8
def fWeltCrc : Nat := 9
def fWeltSeq : Nat := 10
def fWeltAge : Nat := 11
def fQueuePtr : Nat := 12
def fDmaReadback : Nat := 13
def fMailboxCrc : Nat := 14
def fWorldFull : Nat := 15
def fSelftestFail : Nat := 16
def fSelftestStarved : Nat := 17
def fThermalTrip : Nat := 18
def fRefclkLoss : Nat := 19
def fFpReadback : Nat := 20
def fSpareExhausted : Nat := 21
def fDmaTimeout : Nat := 22

/-- Fault-bus source numbers of the model (log entry 8): logical tiles 0 to 255, then the units below; a
tile's Rein timers are sources of their own. -/
def fsTile (t : Nat) : Nat := t
def fsBank (n : Nat) : Nat := 256 + n
def fsDma (e : Nat) : Nat := 272 + e
def fsQueue (q : Nat) : Nat := 288 + q
def fsGddr (c : Nat) : Nat := 304 + c
def fsProc (p : Nat) : Nat := 328 + p
def fsRouter : Nat := 347
def fsWorld : Nat := 348
def fsStitch : Nat := 349
def fsSelftest : Nat := 350
def fsThermal : Nat := 351
def fsRefclk : Nat := 352
def fsFieldPort : Nat := 353
def fsTileMap : Nat := 354
def fsRein (t : Nat) : Nat := 512 + t

/-- A staged event takes its place: oldest first, and within one AO cycle lowest source first. -/
def stageInsert (e : Staging) : List Staging → List Staging
  | [] => [e]
  | x :: t => if x.stamp = e.stamp ∧ e.source < x.source then e :: x :: t else x :: stageInsert e t

/-- The events of e in a folded entry; the count saturates at 255. -/
def foldInto (e x : Staging) : Staging := { x with count := min 255 (x.count + e.count), folded := true }

/-- Fold into the newest entry of the source, if there is one. -/
def foldNewest (e : Staging) (l : List Staging) : Option (List Staging) :=
  match l.reverse.findIdx? (·.source = e.source) with
  | none => none
  | some i => some (listUpd l (l.length - 1 - i) (foldInto e))

/-- Fold into the source's fold register (R23). -/
def foldRegister (e : Staging) : List Staging → List Staging
  | [] => [{ e with folded := true }]
  | x :: t =>
    if x.source = e.source then foldInto e x :: t
    else if e.source < x.source then { e with folded := true } :: x :: t
    else x :: foldRegister e t

/-- An event that gets no entry of its own is folded and counted in FOLDS. -/
def foldEvent (e : Staging) (y : Safety) : Safety :=
  let n := min 65535 (y.foldCount + 1)
  match foldNewest e y.staging with
  | some l => { y with staging := l, foldCount := n }
  | none => { y with folds := foldRegister e y.folds, foldCount := n }

/-- The newest entry of a full buffer that gives way: one of the same AO cycle and of a higher source. -/
def givesWay (y : Safety) (e : Staging) : Option Staging :=
  y.staging.getLast?.filter fun z => decide (z.stamp = e.stamp ∧ e.source < z.source)

/-- The collector stamps an event and stages or folds it; of the events of one AO cycle the lowest sources get the entries
(R23). -/
def stageFault (s : State) (source code : Nat) (data : Bytes) : State :=
  let e : Staging := { source := source, code := code, stamp := s.ao, data := data.take 40, count := 1, folded := false }
  let y := s.safety
  if y.staging.length < 32 then { s with safety := { y with staging := stageInsert e y.staging } }
  else match givesWay y e with
    | some z => { s with safety := foldEvent z { y with staging := stageInsert e y.staging.dropLast } }
    | none => { s with safety := foldEvent e y }

/-- An uncorrectable error is counted and recorded (R362, R373): class, unit (R310), address within the unit. -/
def eccReport (s : State) (cls unit addr : Nat) : State :=
  let s1 := setReg (bumpReg s (offEccUe cls)) offEccLastUe (BitVec.ofNat 32 (cls * 2 ^ 28 + unit * 2 ^ 16))
  setReg (setReg s1 offEccLastLo (BitVec.ofNat 32 addr)) offEccLastHi (BitVec.ofNat 32 (addr / 2 ^ 32 % 65536))

/-! ### Mailbox owners (R393) -/

def ownerQueue (s : State) (o : Owner) : List Msg :=
  match s.host.queues.find? (·.1 = o) with
  | some p => p.2
  | none => []

def setOwnerQueue (s : State) (o : Owner) (l : List Msg) : State :=
  { s with host := { s.host with queues := (o, l) :: s.host.queues.filter (fun p => p.1 ≠ o) } }

/-- The owner of a queue runs, as the router sees it: a planned restart loses no command (R391, R405). The
router, the world engine and the safety island are hardware (R393, R403). -/
def ownerRuns (s : State) (o : Owner) : Bool :=
  let runs := fun p => decide ((s.procs.getD p .reset).state = .running)
    || decide ((s.procs.getD p .reset).state = .warmPending) || (s.procs.getD p .reset).warmBegun
  match o with
  | .router | .world | .island => true
  | .sec => runs 0 || decide (s.boot.stage = 2)
  | .pmc => runs 1
  | .sch => runs 2

/-- The owner is inside a planned restart: its commands wait (R405). -/
def ownerAway (s : State) (o : Owner) : Bool :=
  match o with
  | .sec => (s.procs.getD 0 .reset).warmBegun
  | .pmc => (s.procs.getD 1 .reset).warmBegun
  | .sch => (s.procs.getD 2 .reset).warmBegun
  | _ => false

/-- Execute the message at the front of an owner's queue when it is the command meant; otherwise nothing
happens (log entry 3). -/
def withFront (s : State) (o : Owner) (isIt : Msg → Bool) (f : Msg → State → Result) : Result :=
  match ownerQueue s o with
  | m :: rest =>
    if isIt m && ownerRuns s o && !ownerAway s o && !s.boot.inReset then f m (setOwnerQueue s o rest) else .next s
  | [] => .next s

def isOp (code : Nat) (m : Msg) : Bool := decide (m.opcode.toNat = code)

/-- The payload bytes of the given ranges (offset, length) are zero, as reserved fields must be (R10, R395). -/
def rsvdZero (bs : Bytes) (l : List (Nat × Nat)) : Bool := l.all fun r => allZero (sliceOf bs r.1 r.2)

/-- A reply of BAD_ARGUMENT naming the first failing payload byte (R396). -/
def replyBadArg (s : State) (m : Msg) (off : Nat) : State := replyInfo s m stBadArgument off []

end Sys2Proof.Machine
end

