-- ==== Sys2Proof/Machine/Record.lean ====
section
/-! DEFINITION. The cycle facts record (R279 to R282), the result digest (R283 to R285), the result record
(R246 to R248) and its hand-over to the vehicle link (R436 to R439, R443, R444). -/

namespace Sys2Proof.Machine

/-! ### Facts -/

/-- The sort key of a facts entry; PUBLISH entries keep their order (R280). -/
def factKey (f : Fact) : Nat :=
  if f.kind = 9 then 9 * 2 ^ 80
  else f.kind * 2 ^ 80 + f.taskId * 2 ^ 64 + f.copy * 2 ^ 48 + f.batch * 2 ^ 24 + f.desc

def factInsert (f : Fact) : List Fact → List Fact
  | [] => [f]
  | g :: t => if factKey f < factKey g then f :: g :: t else g :: factInsert f t

/-- Entries in the record's order; equal keys keep their order. -/
def factSort (l : List Fact) : List Fact := l.foldl (fun acc f => factInsert f acc) []

def factBytes (f : Fact) : Bytes :=
  toLe 1 f.kind ++ toLe 1 f.copy ++ toLe 2 f.taskId ++ toLe 2 f.batch ++ toLe 2 f.desc ++ toLe 4 f.valA ++ toLe 4 f.valB

/-- The QUEUE entries of the cycle (R280). -/
def queueFacts (s : State) : List Fact :=
  (List.range 14).filterMap fun q =>
    let n := natGet s.cyc.queueBytes q
    if n = 0 then none
    else some { kind := 8, copy := q, taskId := 0, batch := 0xFFFF, desc := 0xFFFF, valA := n,
                valB := (s.cyc.framesDone.filter fun e => fieldAt e 0 1 = q).length }

def allFacts (s : State) : List Fact := factSort (s.cyc.facts ++ queueFacts s)

/-- What a record says that the facts header repeats. -/
structure RecordHead where
  state : Nat
  source : Nat
  cause : Nat
  recheckEpoch : Nat
  deriving DecidableEq, Repr, Inhabited

/-- The package of the cycle being replayed. -/
def curPkg (s : State) : Option ReplayPkg :=
  match s.rep with
  | some r => if s.cyc.dev = .replay then r.packages.find? (·.index = r.index) else none
  | none => none

/-- gPTP ns of the cycle's cut as the timer raised it (R231, R279); in replay, the recorded CUT_T (R292). -/
def cutTime (s : State) : Nat :=
  match curPkg s with
  | some p => fieldAt p.header 0x20 8
  | none => s.cyc.cutT.getD (gptpAt s s.cyc.startAo + 1000 * (s.cyc.params.deadline - s.cyc.params.emitMargin))

/-- SPARE_MAP_EPOCH as the cycle in progress has it: with the substitutions that its boundary began, which the register counts
only at their end (R50, R53). -/
def mapEpochOf (s : State) : Nat :=
  (s.plat.mapEpoch + BitVec.ofNat 32 (s.plat.spares.filter (·.begun.isSome)).length).toNat

/-- The substitutions that the coming boundary begins (R49, R53). -/
def substDue (s : State) : Nat :=
  ((List.range 16).filter fun n =>
    let sp := s.plat.spares.getD n .reset
    decide (sp.st = 0 ∧ sp.begun.isNone ∧ sp.pending ≠ []) && s.disp.cccRun.getD n false).length

/-- The facts record (R279); at most 16,380 entries are stored (R282). -/
def factsRecord (s : State) (h : RecordHead) (replayed : Bool) : Bytes :=
  let all := allFacts s
  let kept := all.take 16380
  toLe 4 0x53544346 ++ [1] ++ toLe 1 (boolNat s.cyc.tack)
    ++ toLe 1 (boolNat (decide (16380 < all.length)) + 2 * boolNat replayed) ++ [0]
    ++ toLe 4 s.cyc.seq.toNat ++ toLe 4 kept.length ++ toLe 4 (mapEpochOf s) ++ toLe 4 h.recheckEpoch
    ++ toLe 4 s.lat.epoch ++ toLe 1 h.state ++ toLe 1 h.source ++ toLe 2 h.cause ++ toLe 8 (cutTime s)
    ++ zeros 24 ++ (kept.map factBytes).flatten

/-- FACTS_DIGEST (R281). -/
def factsDigest (rec : Bytes) : Bytes :=
  sha384 (putAt (putAt (putAt rec 6 [0]) 0x10 (zeros 4)) 0x20 (zeros 8))

/-! ### The digest block -/

def chainOf (s : State) (e : Nat) : Bytes :=
  match s.world.chains.find? (·.1 = e) with
  | some p => p.2
  | none => zeros 48

def imageDigest (s : State) : Bytes :=
  match s.load.active with
  | some i => i.digest
  | none => zeros 48

def weightOf (s : State) (w : Nat) : Option WeightSet := s.load.weights.find? (·.wsetId = w)

/-- WSET_DIGEST over the active image's WSETS entries (R283). -/
def wsetDigest (s : State) : Bytes :=
  match s.load.active with
  | none => sha384 []
  | some i => sha384 (i.wsets.map fun w =>
      toLe 4 w ++ (match weightOf s w with | some x => x.digest | none => zeros 48)).flatten

def profileSlot (s : State) (i : Nat) : Bytes := devRead s (profileBase + 512 * i) 320

def profilesBytes (s : State) : Bytes := ((List.range 8).map (profileSlot s)).flatten

/-- The 32-byte CONFIG layout (R283, R395). -/
def configBytes (c : CycleParams) : Bytes :=
  toLe 4 c.period ++ toLe 4 c.deadline ++ toLe 4 c.emitMargin ++ toLe 1 (boolNat c.sync) ++ toLe 1 c.recheckAccept
    ++ toLe 1 c.minClear ++ toLe 1 c.profileSlot ++ zeros 16

/-- Entries ordered by queue, then by acceptance (R285). -/
def framesDigest (s : State) : Bytes :=
  sha384 ((List.range 14).map fun q => (s.cyc.framesDone.filter fun e => fieldAt e 0 1 = q).flatten).flatten

/-- RESULT_DIGEST (R283) of a record whose on-device header without digest and trajectory are given. -/
def resultDigest (s : State) (seq : Nat) (prev head traj facts : Bytes) (epoch : Nat) : Bytes :=
  sha384 (toLe 4 seq ++ [1, 0] ++ toLe 1 (boolNat s.cyc.tack) ++ [0] ++ prev ++ imageDigest s ++ wsetDigest s
    ++ sha384 (profilesBytes s) ++ configBytes s.cyc.params ++ chainOf s epoch ++ framesDigest s ++ factsDigest facts
    ++ sha384 (sliceOf head 0x20 0x14 ++ sliceOf head 0x38 0x38 ++ traj))

/-! ### The record -/

/-- FALLBACK_T if this cycle releases no PRIMARY record (R319). -/
def fallbackNext (s : State) : Nat := min 0xFFFFFFFF (s.lat.fallbackT + s.cyc.params.period / 100)

def ageNext (s : State) : Nat := min 0xFFFFFFFF (s.lat.incumbentAge + 1)

/-- Where and when a record belongs: its cycle, that cycle's start, and whether it has begun. -/
structure RecordSlot where
  seq : Nat
  startAo : Nat
  begun : Bool
  prev : Bytes
  deriving DecidableEq, Repr, Inhabited

/-- The slot of the cycle in progress. -/
def currentSlot (s : State) : RecordSlot :=
  { seq := s.cyc.seq.toNat, startAo := s.cyc.startAo, begun := true, prev := s.cyc.prevDigest }

/-- The result record (R246), on-device form, with its digest. -/
def buildRecord (s : State) (p : RecordSlot) (h : RecordHead) (rank refine : Nat) (traj : Bytes) : Released :=
  let c := if p.begun then s.cyc.counts else CycleCounts.reset
  let primary := decide (h.source = 0)
  let prof := profileSlot s s.cyc.params.profileSlot
  let start := gptpAt s p.startAo
  let head : Bytes := ([1, 0] : Bytes) ++ toLe 2 (160 + traj.length) ++ toLe 4 p.seq ++ toLe 8 start
    ++ toLe 8 (start + 1000 * s.cyc.params.deadline) ++ toLe 8 (gptpNow s)
    ++ toLe 1 h.state ++ toLe 1 h.source ++ toLe 2 h.cause ++ toLe 1 rank ++ toLe 1 refine
    ++ toLe 1 (if s.cyc.miss && p.begun then s.safety.missRun else 0) ++ toLe 1 (min 255 (mismatch64 s))
    ++ toLe 4 c.checkLo ++ toLe 4 c.checkHi ++ toLe 4 h.recheckEpoch ++ toLe 4 (mapEpochOf s)
    ++ toLe 4 c.candGenerated ++ toLe 4 c.candChecked ++ toLe 4 c.candCut ++ toLe 4 c.unitsFull
    ++ toLe 4 (c.unitsFull - c.unitsThinned - c.unitsCut) ++ toLe 4 c.unitsThinned ++ toLe 4 c.unitsCut
    ++ sliceOf prof 0 4
    ++ toLe 8 (match s.load.active with | some i => i.imageId.toNat | none => 0)
    ++ toLe 4 (if primary then 0 else fallbackNext s) ++ toLe 4 (if primary then 0 else ageNext s)
    ++ sliceOf prof 8 8
  let digest := resultDigest s p.seq p.prev head traj (factsRecord s h s.rep.isSome) h.recheckEpoch
  { state := h.state, source := h.source, cause := BitVec.ofNat 16 h.cause, bytes := head ++ digest ++ traj,
    trajectory := traj, digest := digest }

/-- CAUSE bits of the cycle in progress (R247), without FALLTHROUGH. A SWEEP or a solve that took the cut shows
in the facts; a solve's REFINE is then dropped (R237). -/
def causeBits (s : State) : Nat :=
  let took := fun k => s.cyc.facts.any fun f => decide (f.kind = k)
  boolNat (s.cyc.cutActed || took 4 || took 5) + 2 * boolNat s.cyc.thinned + 4 * boolNat (s.cyc.refineDropped || took 5) + 16 * boolNat s.cyc.noPlan
    + 32 * boolNat s.cyc.refusedItem + 64 * boolNat s.cyc.stitchBad + 128 * boolNat s.cyc.miss
    + 256 * boolNat s.cyc.lateAbort + 512 * boolNat s.safety.safe + 1024 * boolNat s.host.hostLost

/-! ### Hand-over -/

/-- A record handed to the vehicle link: counters advance, and it queues or is dropped (R436, R438, R439). -/
def vlHandOver (s : State) (bytes : Bytes) : State :=
  let f : VlFrame :=
    { counter := regOf s offVlCounter, ident := s.outp.ident, stamp := gptpNow s, record := bytes }
  let room := decide (2 ^ 31 ≤ regNat s offVlCfg) && s.outp.linkUp && decide (s.outp.txq.length < 4)
  let s1 := bumpReg s offVlCounter
  if room then { s1 with outp := { s1.outp with ident := s.outp.ident + 1, txq := s.outp.txq ++ [f] } }
  else
    let s2 := bumpReg s1 offVlDrop
    { s2 with outp := { s2.outp with ident := s.outp.ident + 1 } }

/-- The field-port lines at the release of a record with STATE st (R443, R444). -/
def releaseLines (s : State) (st : Nat) : State :=
  if st = 0 then
    if s.outp.toggling then { s with outp := { s.outp with degraded := false } }
    else { s with outp := { s.outp with toggling := true, validA := true, validB := false, degraded := false, toggleAt := s.ao } }
  else { s with outp := { s.outp with degraded := true } }

/-- The valid lines go STATIC (R443, R444). -/
def linesStatic (s : State) : State :=
  { s with outp := { s.outp with toggling := false, validA := false, validB := false, degraded := true } }

/-- Host batches no longer wait (R286, R287). -/
def unholdHost (s : State) : State :=
  let go := fun b : Batch => if b.host then { b with held := false } else b
  { s with world := { s.world with hostQ := s.world.hostQ.map go, staged := s.world.staged.map go } }

/-- The run ends at once (R286). -/
def stopNow (s : State) : State := unholdHost (linesStatic { s with cyc := { s.cyc with dev := .stopped } })

/-- The cycle's one record goes out (R243): hand-over, lines, and the counts of R319 and R246. In replay
nothing is sent and the lines stay static (R291). -/
def releaseRecord (s : State) (r : Released) : State :=
  let s1 := if s.cyc.dev = .replay then s else releaseLines (vlHandOver s r.bytes) r.state
  let s2 := if r.source = 0 then
      { s1 with lat := { s1.lat with fallbackT := 0, incumbentAge := 0, stopMode := s1.safety.safe } }
    else { s1 with lat := { s1.lat with fallbackT := fallbackNext s, incumbentAge := ageNext s } }
  { s2 with cyc := { s2.cyc with record := some r, lastResult := r.digest, lateAbort := false } }

/-- The INVALID record of the cycle in progress (R326). -/
def invalidRecord (s : State) : Released :=
  buildRecord s (currentSlot s) { state := 2, source := 2, cause := causeBits s, recheckEpoch := s.lat.epoch }
    0xFF 0xFF []

/-- PERIOD and START_MODE that decide the next start: those in force during the cycle before it (R230, R231). -/
def gapPeriod (s : State) : Nat := s.cyc.prevPeriod
def gapSync (s : State) : Bool := s.cyc.prevSync

/-- The start that the next interval counts from. -/
def lastStart (s : State) : Nat := s.cyc.earlyStart.getD s.cyc.startAo

/-- The first start after START or RESUME by the timer in LOCAL mode (R231): a point of the paused run's grid
after a RESUME without a checkpoint. -/
def firstStart (s : State) : Nat :=
  if s.cyc.resumedGrid then
    s.cyc.startAo + 100 * s.cyc.prevPeriod * ceilDiv (s.cyc.effectAo - s.cyc.startAo) (100 * max 1 s.cyc.prevPeriod)
  else s.cyc.effectAo

/-- The start scheduled for the next cycle (R326). -/
def nextStartAo (s : State) : Nat :=
  match s.cyc.earlyStart with
  | some t => t
  | none =>
    if s.cyc.everStarted then s.cyc.startAo + gapPeriod s * (if gapSync s then 98 else 100)
    else if s.cyc.params.sync then s.cyc.effectAo else firstStart s

/-- The cycle that an early record reports: it has no fact and no frame of a cycle still in progress, and its
LATIGO_EPOCH is 0 (R246, R279, R326). -/
def earlyView (s : State) (seq : Nat) : State :=
  { s with
    cyc := { s.cyc with
      seq := BitVec.ofNat 32 seq, facts := if s.cyc.inCycle then [] else s.cyc.facts,
      framesDone := if s.cyc.inCycle then [] else s.cyc.framesDone,
      queueBytes := if s.cyc.inCycle then [] else s.cyc.queueBytes }
    lat := { s.lat with epoch := 0 }
    plat := { s.plat with mapEpoch := s.plat.mapEpoch + BitVec.ofNat 32 (if s.cyc.inCycle then substDue s else 0) } }

/-- The INVALID record of a cycle not yet started (R326). -/
def earlyInvalid (s : State) : Released :=
  let seq := if s.cyc.inCycle then (s.cyc.seq + 1).toNat else s.cyc.seq.toNat
  let prev := match s.cyc.record with
    | some r => if s.cyc.inCycle then r.digest else s.cyc.prevDigest
    | none => s.cyc.prevDigest
  buildRecord (earlyView s seq) { seq := seq, startAo := nextStartAo s, begun := false, prev := prev }
    { state := 2, source := 2, cause := 512 + 256 * boolNat s.cyc.lateAbortNext + 1024 * boolNat s.host.hostLost,
      recheckEpoch := 0 } 0xFF 0xFF []

/-! ### The safe state (R324 to R326) -/

/-- Causes whose condition does not cease at once (R324): bits 4, 5 and 7 to 12. -/
def lastingCauses : Nat := 0x1FB0

/-- The INVALID record that follows an entry (R325, R326, R329). -/
def entryRecord (s : State) : State :=
  match s.cyc.dev with
  | .stopped => s
  | .replay =>
    if s.cyc.inCycle && s.cyc.record.isNone then releaseRecord s (invalidRecord s) else s
  | _ =>
    if s.cyc.inCycle && s.cyc.record.isNone then releaseRecord s (invalidRecord s)
    else if s.cyc.earlyRecord.isSome then s
    else
      let r := earlyInvalid s
      let s1 := vlHandOver s r.bytes
      { s1 with cyc := { s1.cyc with earlyRecord := some r, lastResult := r.digest, lateAbortNext := false } }

/-- The latch is set with cause bits mask, decided in this AO cycle: lines static, one event, one INVALID
record. A later cause only adds its bit (R324, R325); an accepted SAFE_CLEAR lapses (R328). -/
def enterSafe (s : State) (mask : Nat) : State :=
  let y := s.safety
  let bits := BitVec.ofNat 16 mask
  let lasting := BitVec.ofNat 16 (mask &&& lastingCauses)
  if y.safe then
    { s with safety := { y with cause := y.cause ||| bits, present := y.present ||| lasting, clearPending := false,
                                causeAt := some s.ao } }
  else
    let s1 := linesStatic { s with
      safety := { y with safe := true, cause := y.cause ||| bits, present := y.present ||| lasting,
                         clearPending := false, entries := min 255 (y.entries + 1), entrySeq := s.cyc.seq,
                         entryAt := s.ao, causeAt := some s.ao }
      lat := { s.lat with stopMode := true } }
    let s2 := entryRecord (sendOpenEvent s1 0x000C)
    { s2 with safety := { s2.safety with safe := true } }

/-- A cause condition ceases (R324). -/
def ceaseCause (s : State) (bit : Nat) : State :=
  { s with safety := { s.safety with present := s.safety.present &&& ~~~(BitVec.ofNat 16 (2 ^ bit)) } }

/-! ### Faults and their reactions (R23, R323) -/

/-- One WORLD_FULL: the first of the eighth consecutive cycle with one is a cause (R323). -/
def worldFullRaised (s : State) : State :=
  let s1 := { s with safety := { s.safety with worldFullNow := true } }
  if !s.safety.worldFullNow && decide (7 ≤ s.safety.worldFullRun) then enterSafe s1 4096 else s1

/-- The safe-state reaction of a fault that is a cause by itself (R323, R324). -/
def faultReact (s : State) (code : Nat) : State :=
  if code = fSelftestFail then enterSafe s 32
  else if code = fThermalTrip then enterSafe s 512
  else if code = fRefclkLoss then enterSafe s 1024
  else if code = fFpReadback then enterSafe s 2048
  else if code = fWorldFull then worldFullRaised s
  else s

/-- A fault reaches the fault bus: staged, then reacted to. -/
def raiseFault (s : State) (source code : Nat) (data : Bytes) : State :=
  faultReact (stageFault s source code data) code

/-- A fault whose record data the spec does not give (log entry 8). -/
def raiseOpenFault (s : State) (source code : Nat) : State :=
  tickFree (raiseFault s source code (Config.eventData (0x10000 + code) s.disp.freeCtr))

end Sys2Proof.Machine
end

