-- ==== Sys2Proof/Machine/VehicleLink.lean ====
section
/-! DEFINITION. The vehicle link (R435 to R440): frames of result records, the transmit queue, link state. -/

namespace Sys2Proof.Machine

/-- bs with the fields of the given widths each reversed: little-endian to big-endian (R8, R246). -/
def swapFields : List Nat → Bytes → Bytes
  | [], bs => bs
  | w :: t, bs => (bs.take w).reverse ++ swapFields t (bs.drop w)

/-- Widths of the result record's numeric header fields, up to RESULT_DIGEST (R246). -/
def recordWidths : List Nat :=
  [1, 1, 2, 4, 8, 8, 8, 1, 1, 2, 1, 1, 1, 1, 4, 4, 4, 4, 4, 4, 4, 4, 4, 4, 4, 4, 8, 4, 4, 4, 4]

/-- Widths of a candidate header's and a segment record's fields (R168). -/
def candidateWidths : List Nat := [4, 1, 1, 1, 1, 1, 1, 2, 4, 8, 4, 4, 4, 4, 4, 4, 4, 4, 4, 4]
def segmentWidths : List Nat := [4, 4, 4, 4, 4, 4, 4, 2, 1, 1]

/-- A record as sent: numeric fields big-endian, RESULT_DIGEST unchanged (R8, R246). -/
def recordOnWire (bs : Bytes) : Bytes :=
  let traj := bs.drop 160
  swapFields recordWidths (bs.take 0x70) ++ sliceOf bs 0x70 48
    ++ swapFields (candidateWidths ++ ((List.replicate ((traj.length - 64) / 32) segmentWidths).flatten)) traj

/-- The IPv4 header checksum over a header whose checksum field is zero. -/
def ipChecksum (hdr : Bytes) : Nat :=
  let sum := (List.range 10).foldl (fun a i => a + fieldBe hdr (2 * i) 2) 0
  let f := sum % 65536 + sum / 65536
  65535 - (f % 65536 + f / 65536)

/-- The Ethernet frame check sequence (IEEE 802.3; log entry 6). -/
def etherFcs (bs : Bytes) : Bytes := toLe 4 (bs.foldl (crcByte 0xEDB88320) 0xFFFFFFFF ^^^ 0xFFFFFFFF)

/-- The six bytes of a MAC address register pair (R452). -/
def macBytes (s : State) (lo hi : Nat) : Bytes := toBe 2 (regNat s hi) ++ toBe 4 (regNat s lo)

/-- The Welt frame of a result record (R437). -/
def vlWelt (s : State) (f : VlFrame) : Bytes :=
  let body := recordOnWire f.record
  let head := toBe 4 (regNat s 0x6020) ++ toBe 4 f.counter.toNat ++ toBe 8 f.stamp ++ toBe 4 body.length ++ zeros 8
  head ++ toBe 4 (crc32c (head ++ body)) ++ body

/-- The Ethernet frame of a result record (R436). -/
def vlFrameBytes (s : State) (f : VlFrame) : Bytes :=
  let cfg := regNat s offVlCfg
  let welt := vlWelt s f
  let tag := if bitOf cfg 26 then toBe 2 0x8100 ++ toBe 2 (bitsOf cfg 23 3 * 8192 + bitsOf cfg 8 12) else []
  let ip := fun sum => [0x45, 0x00] ++ toBe 2 (28 + welt.length) ++ toBe 2 f.ident.toNat ++ [0x40, 0x00]
    ++ toBe 1 (cfg % 256) ++ [17] ++ toBe 2 sum ++ toBe 4 (regNat s 0x6014) ++ toBe 4 (regNat s 0x6018)
  let udp := toBe 4 (regNat s 0x601C) ++ toBe 2 (8 + welt.length) ++ [0, 0]
  let frame := macBytes s 0x6004 0x6008 ++ macBytes s 0x600C 0x6010 ++ tag ++ toBe 2 0x0800
    ++ ip (ipChecksum (ip 0)) ++ udp ++ welt
  frame ++ etherFcs frame

/-- VL_FRAME_SEND (R439). -/
def execVlFrameSend (s : State) : Result :=
  match s.outp.txq with
  | [] => .next s
  | f :: rest =>
    onlyIf s s.outp.linkUp
      (let s1 := bumpReg s offVlTx
       { s1 with outp := { s1.outp with txq := rest }, out := .vlFrame (vlFrameBytes s f) :: s.out })

/-- The link comes up, or goes down: then every frame is discarded and counted (R439). -/
def vlLink (s : State) (up : Bool) : State :=
  if up then { s with outp := { s.outp with linkUp := true } }
  else
    let s1 := addReg s offVlDrop s.outp.txq.length
    { s1 with outp := { s1.outp with linkUp := false, txq := [] } }

/-- VL_LINK_CHANGE (R439). -/
def execVlLinkChange (up : Bool) (s : State) : Result := onlyIf s true (vlLink s up)

/-- A frame bears gPTP (IEEE 802.1AS; log entry 6). -/
def isGptpFrame (frame : Bytes) : Bool := decide (fieldBe frame 12 2 = 0x88F7)

/-- VL_RX_FRAME (R435). -/
def execVlRxFrame (frame : Bytes) (s : State) : Result :=
  onlyIf s (s.outp.linkUp && !isGptpFrame frame) (bumpReg s offVlRxDiscard)

/-! ### Cold reset (R486, R487, R489) -/

/-- Frames still queued leave before internal reset begins (R439, R487). -/
def drainVl (s : State) : List Out :=
  if s.outp.linkUp then (s.outp.txq.map fun f => Out.vlFrame (vlFrameBytes s f)).reverse ++ s.out else s.out

/-- SEC may be blowing fuses for a staged image: its planned restart has been requested, or it is the Latigo lists' (R404). -/
def blowing (s : State) (f : FwImage) : Bool :=
  decide (f.num = 4) || (List.range 19).any fun p => decide (imageOfProc p = f.num) &&
    (decide ((s.procs.getD p .reset).state = .warmPending) || (s.procs.getD p .reset).warmBegun)

/-- A reset while SEC blows fuses leaves a count between the old level and the new one (R466); which one, the spec leaves open
(log entry 9). -/
def cutBlow (s : State) (u : Fuses) (f : FwImage) : Fuses :=
  if blowing s f then
    { u with rbFused := listUpd u.rbFused f.num fun c => c + Config.freeNat (120 + f.num) s.disp.freeCtr % (f.rbLevel - c + 1) }
  else u

def fusesLeft (s : State) : Fuses := s.boot.fwStaged.foldl (cutBlow s) s.fuses

/-- Internal reset holds every die: everything at its reset value but the fuses, RESET_CAUSE, and the
model's own queue, output record and free counter (R489). -/
def heldReset (s : State) (cause : Byte) : State :=
  { State.reset with
    pending := s.pending
    ao := s.ao
    fuses := fusesLeft s
    out := s.out
    disp := { Dispatcher.reset with freeCtr := s.disp.freeCtr }
    boot := { Boot.reset with resetCause := cause, inReset := true, resetAt := some s.ao } }

/-- A cold reset from a source other than power-on (R487): the latch, the lines and, while RUNNING, the
INVALID record first; then internal reset. A source during internal reset adds its bit (R500). -/
def coldReset (s : State) (cause : Byte) : State :=
  if s.boot.inReset then { s with boot := { s.boot with resetCause := s.boot.resetCause ||| cause } }
  else
    let s1 := linesStatic { s with safety := { s.safety with safe := true } }
    let s2 := if s.cyc.dev = .running then entryRecord s1 else s1
    heldReset { s2 with out := drainVl s2 } cause

end Sys2Proof.Machine
end

