-- ==== Sys2Proof/Machine/Ingress.lean ====
section
/-! DEFINITION. Sensor ingress and the host queues' staging unit (R415 to R431), and the ingress queues
themselves (R343 to R349). -/

namespace Sys2Proof.Machine

/-! ### Carriers (R416, R418) -/

/-- Ethernet sensor ports are queues 0, 1, 6 and 7 (R415). -/
def isEthernet (port : Nat) : Bool := decide (port = 0 ∨ port = 1 ∨ port = 6 ∨ port = 7)

/-- The EtherType and what follows it, behind at most one IEEE 802.1Q tag. -/
def etherBody (frame : Bytes) : Nat × Bytes :=
  let body := frame.take (frame.length - 4)
  if fieldBe body 12 2 = 0x8100 then (fieldBe body 16 2, body.drop 18) else (fieldBe body 12 2, body.drop 14)

/-- The Welt frame of an Ethernet frame in ETHERTYPE mode (R416). -/
def weltOfEtherType (s : State) (frame : Bytes) : Option Bytes :=
  let b := etherBody frame
  if b.1 ≠ regNat s offWeltId % 65536 then none
  else if frame.length = 64 then some (b.2.take (32 + fieldBe b.2 16 4))
  else some b.2

/-- The Welt frame of an Ethernet frame in UDP mode (R416). -/
def weltOfUdp (s : State) (frame : Bytes) : Option Bytes :=
  let b := etherBody frame
  let ip := b.2
  let udp := ip.drop 20
  let total := fieldBe udp 4 2
  if b.1 = 0x0800 ∧ byteAt ip 0 = 0x45 ∧ fieldBe ip 6 2 % 0x4000 = 0 ∧ byteAt ip 9 = 17
      ∧ ipChecksum (putAt (ip.take 20) 10 [0, 0]) = fieldBe ip 10 2
      ∧ fieldBe udp 2 2 = regNat s offWeltId / 65536 ∧ 8 ≤ total ∧ total ≤ udp.length
    then some (sliceOf udp 8 (total - 8)) else none

/-- The Welt frame of a sensor Ethernet frame: FCS good, at most 9,216 bytes, of the port's encapsulation. -/
def weltOfEthernet (s : State) (port : Nat) (frame : Bytes) : Option Bytes :=
  let n := frame.length
  if n < 64 ∨ 9216 < n ∨ frame.drop (n - 4) ≠ etherFcs (frame.take (n - 4)) then none
  else
    let w := if bitsOf (regNat s (offPortCfg port)) 26 2 = 1 then weltOfUdp s frame else weltOfEtherType s frame
    match w with
    | some x => if x.length ≤ 9120 then some x else none
    | none => none

/-- The long packets of a CSI-2 carrier: data type, 4 bytes of length, payload (log entry 16). -/
def csiPackets : Nat → Bytes → List (Nat × Bytes)
  | 0, _ => []
  | n + 1, bs =>
    if bs.length < 5 then []
    else
      let len := fieldAt bs 1 4
      (fieldAt bs 0 1, sliceOf bs 5 len) :: csiPackets n (bs.drop (5 + len))

/-- Header from the first embedded-data packet, payload from every later one (R418). -/
def csiWelt : List (Nat × Bytes) → Option Bytes
  | [] => none
  | p :: rest => if p.1 = 0x12 then (if 32 ≤ p.2.length then some (p.2.take 32 ++ (rest.map (·.2)).flatten) else none)
                 else csiWelt rest

/-- The Welt frame of a CSI-2 frame: virtual channel, a byte telling whether a new Frame Start ended it, and
its long packets in order (R418; log entry 16). -/
def weltOfCsi (s : State) (port : Nat) (carrier : Bytes) : Option Bytes :=
  if fieldAt carrier 0 1 ≠ bitsOf (regNat s (offPortCfg port)) 18 2 ∨ byteAt carrier 1 ≠ 0 then none
  else match csiWelt (csiPackets carrier.length (carrier.drop 2)) with
    | some x => if x.length ≤ 131072 then some x else none
    | none => none

def weltOf (s : State) (port : Nat) (carrier : Bytes) : Option Bytes :=
  if isEthernet port then weltOfEthernet s port carrier else weltOfCsi s port carrier

/-! ### Checks (R422 to R427) -/

/-- The governing source entry of (SOURCE_ID, queue): the lowest-numbered valid one (R423). -/
def sourceEntry (s : State) (source queue : Nat) : Option Nat :=
  (List.range 32).find? fun e =>
    let v := regNat s (offSrcCfg e)
    bitOf v 31 && decide (bitsOf v 24 4 = queue ∧ v % 65536 = source)

/-- The 32-bit check of a Welt frame (R421). -/
def weltCrcOk (w : Bytes) : Bool := decide (fieldBe w 28 4 = crc32c (w.take 28 ++ w.drop 32))

/-- Arrival minus TIMESTAMP in signed 64-bit arithmetic (R425). -/
def weltAge (w : Bytes) (stamp : Nat) : Int := toSigned 64 (ofSigned 64 ((stamp : Int) - (fieldBe w 8 8 : Int)))

/-- A Welt frame kept for a queue: checks at its last byte; none when it is dropped (R427, R428). -/
def weltCheck (s : State) (queue : Nat) (w : Bytes) (stamp : Nat) : Option RxFrame :=
  if w.length < 32 ∨ w.length ≠ 32 + fieldBe w 16 4 ∨ s.cyc.dev = .replay then none
  else match sourceEntry s (fieldBe w 0 2) queue with
    | none => none
    | some e =>
      let age := weltAge w stamp
      let limit := regNat s (offSrcAge e) % 65536
      some { bytes := w, entry := e, entryCfg := regOf s (offSrcCfg e),
             flags := BitVec.ofNat 8 (boolNat (!weltCrcOk w)
               + 16 * boolNat (decide (limit ≠ 0 ∧ (limit * 10000 : Int) < age))
               + 32 * boolNat (decide (age < -100000)) + 128 * boolNat (!gptpSynced s)),
             age := min 0xFFFF (age.toNat / 10000) }

/-! ### Queue operations (R343 to R345) -/

def setQueue (s : State) (q : Nat) (f : Queue → Queue) : State :=
  { s with ing := { s.ing with queues := listUpd s.ing.queues q f } }

/-- The queue words of one write burst: 64 bytes and the valid-byte tag (R344). -/
def wordsOf : Nat → Bytes → List (Bytes × Nat)
  | 0, _ => []
  | n + 1, bs => if bs = [] then [] else (padTo 64 bs, min 64 bs.length) :: wordsOf n (bs.drop 64)

def burstWords (bs : Bytes) : List (Bytes × Nat) := wordsOf (ceilDiv bs.length 64) bs

/-- Words are closed at the write side; the read timer starts when the queue had none unread (R344, R349). -/
def queuePush (ao : Nat) (bs : Bytes) (x : Queue) : Queue :=
  let w := burstWords bs
  { x with words := x.words ++ w, wPtr := x.wPtr + BitVec.ofNat 32 w.length,
           timerAt := if queueUnread x = 0 then ao else x.timerAt, wrAt := some ao }

/-! ### DRAIN (R334, R348) -/

def srcKind (r : RegSet) : Nat := bitsOf r.dctrl.toNat 4 2
def setQueueNo (r : RegSet) : Nat := bitsOf r.dctrl.toNat 12 4
def fromQueue (r : RegSet) : Bool := decide (srcKind r = 2)

/-- DRAIN once readiness is evaluated with f words unread. -/
def drainNext (c : Channel) (r : RegSet) (f : Nat) : Bool :=
  let d := c.drain || decide (r.highWm ≤ f)
  d && decide (r.lowWm ≤ f)

/-- Readiness of the chosen queue channels is evaluated; a fired timeout answers before DRAIN is looked at. -/
def drainWhere (s : State) (p : Channel → RegSet → Bool) : State :=
  { s with chans := s.chans.map fun c => match c.active with
      | some r =>
        let x := queueOf s (setQueueNo r)
        if fromQueue r && p c r && !(x.fired && decide (queueUnread x ≠ 0)) then { c with drain := drainNext c r (queueUnread x) } else c
      | none => c }

/-- The unread count of a queue has changed. -/
def drainQueue (s : State) (q : Nat) : State := drainWhere s fun _ r => decide (setQueueNo r = q)

/-- Free space of a queue in words (R345). -/
def queueFree (s : State) (q : Nat) : Nat := queueSize q - queueHeld (queueOf s q)

/-! ### Frame buffers and acceptance (R424, R426, R428, R429) -/

def bufferSize (port : Nat) : Nat := if isEthernet port then 32768 else if port ≤ 11 then 393216 else 65536

def buffered (x : Queue) : Nat := (x.buffer.map (·.bytes.length)).sum

/-- The counter check (R424): flags and gap, and the reference afterwards. -/
def counterCheck (r : SrcRef) (sameEntry : Bool) (c : Word) (crcOk : Bool) : Nat × Nat × SrcRef :=
  let taken : SrcRef := if crcOk then { counter := c, valid := true } else r
  if !(r.valid && sameEntry) then (64, 0, taken)
  else
    let d := (c - r.counter).toNat
    if d = 0 then (4, 0, r)
    else if 2 ^ 31 ≤ d then (8, 0, r)
    else (if 1 < d then 2 else 0, d - 1, taken)

/-- The ingress record in header bytes 0x14 to 0x1B (R426). -/
def withIngressRecord (w : Bytes) (flags queue age gap : Nat) : Bytes :=
  putAt w 0x14 (toBe 1 flags ++ toBe 1 queue ++ toBe 2 age ++ toBe 4 gap)

/-- A flagged frame: counted, its faults raised, and the source's first one in the cycle reported (R429). -/
def frameFlagged (s : State) (q flags source counter : Nat) : State :=
  let s1 := bumpReg s (offPortCnt q 3)
  let s2 := if bitOf flags 0 then raiseOpenFault s1 (fsQueue q) fWeltCrc else s1
  let s3 := if flags &&& 0x0E ≠ 0 then raiseOpenFault s2 (fsQueue q) fWeltSeq else s2
  let s4 := if flags &&& 0x30 ≠ 0 then raiseOpenFault s3 (fsQueue q) fWeltAge else s3
  if (q, source) ∈ s.ing.flagged then s4
  else sendEvent { s4 with ing := { s4.ing with flagged := (q, source) :: s4.ing.flagged } } 0x000B
    (toLe 1 q ++ toLe 1 flags ++ toLe 2 source ++ toLe 4 counter)

/-- Acceptance of the frame at the front of a buffer (R429). -/
def acceptFrame (s : State) (q : Nat) (f : RxFrame) (rest : List RxFrame) : State :=
  let ref := s.ing.refs.getD f.entry { counter := 0, valid := false }
  let c := BitVec.ofNat 32 (fieldBe f.bytes 4 4)
  let chk := counterCheck ref (decide (regOf s (offSrcCfg f.entry) = f.entryCfg)) c (!bitOf f.flags.toNat 0)
  let flags := f.flags.toNat ||| chk.1
  let w := withIngressRecord f.bytes flags q f.age chk.2.1
  let source := fieldBe f.bytes 0 2
  let entry := toLe 1 q ++ toLe 1 flags ++ toLe 2 source ++ toLe 4 c.toNat
  let s0 := setQueue s q fun x =>
    let x1 := queuePush s.ao w x
    { x1 with buffer := rest, frames := x.frames ++ [{ entry := entry, words := ceilDiv w.length 64, bytes := w, hash := none }] }
  let s1 := drainQueue s0 q
  let s2 := { s1 with ing := { s1.ing with refs := listUpd s1.ing.refs f.entry fun _ => chk.2.2 } }
  let s3 := bumpReg s2 (offPortCnt q 0)
  if flags &&& 0x3F ≠ 0 then frameFlagged s3 q flags source c.toNat else s3

/-- CPLs of WRAs go out in the order of their requests, up to one that is withheld (R378). -/
def flushCpls : List HeldWra → State → State
  | [], s => { s with host := { s.host with wraHeld := [] } }
  | h :: t, s =>
    if h.ready then
      flushCpls t (sendTrans { s with host := { s.host with credits := (s.host.credits.1, s.host.credits.2.1 + 1, s.host.credits.2.2) } }
        (.cpl h.status h.tag []))
    else { s with host := { s.host with wraHeld := h :: t } }

/-- The oldest closing WRA withheld for a queue waits no more. -/
def readyFirst (q : Nat) : List HeldWra → List HeldWra
  | [] => []
  | h :: t => if h.queue = q ∧ h.closing ∧ !h.ready then { h with ready := true } :: t else h :: readyFirst q t

/-- A waiting burst of a host queue has been written: its CPL goes out (R347, R431). -/
def releaseHeldCpls (s : State) (q : Nat) : State := flushCpls (readyFirst q s.host.wraHeld) s

/-- The CPL of a WRA goes out behind those of earlier ones (R378). -/
def answerWra (s : State) (h : HeldWra) : State := flushCpls (s.host.wraHeld ++ [h]) s

/-- FRAME_ACCEPT (R428, R429): the queue has room for the whole frame; in REPLAY the queues take the recorded bytes alone
(R291, log entry 48). -/
def execFrameAccept (queue : Nat) (s : State) : Result :=
  match (queueOf s queue).buffer with
  | [] => .next s
  | f :: rest =>
    onlyIf s (decide (ceilDiv f.bytes.length 64 ≤ queueFree s queue) && decide (s.cyc.dev ≠ .replay))
      (releaseHeldCpls (acceptFrame s queue f rest) queue)

/-- A checked frame enters its port's buffer, or is dropped and counted (R427, R428). -/
def bufferFrame (s : State) (q : Nat) (w : Option RxFrame) : State :=
  match w with
  | none => bumpReg s (offPortCnt q 1)
  | some f =>
    if buffered (queueOf s q) + f.bytes.length ≤ bufferSize q then
      setQueue s q fun x => { x with buffer := x.buffer ++ [f] }
    else bumpReg s (offPortCnt q 2)

/-- A gPTP message is the time engine's, not a Welt carrier (R415, R419). -/
def isGptpCarrier (port : Nat) (carrier : Bytes) : Bool := isEthernet port && isGptpFrame carrier

/-- The port can receive: enabled, and an Ethernet port has link (R417, R427). -/
def portReceives (s : State) (port : Nat) : Bool :=
  bitOf (regNat s (offPortCfg port)) 31 && (!isEthernet port || decide (port ∈ s.ing.linkUp))

/-- A frame has come in on a port (R309). -/
def noteRx (s : State) (port : Nat) : State := setQueue s port fun x => { x with rxAt := some s.ao }

/-- FRAME_RECEIVED: the last byte of a frame has arrived (R428); in REPLAY it is dropped (R291, R427). -/
def execFrameReceived (port : Nat) (carrier : Bytes) (stamp : Nat) (s : State) : Result :=
  onlyIf s (decide (port < 12) && portReceives s port && !isGptpCarrier port carrier)
    (if s.cyc.dev = .replay then bumpReg s (offPortCnt port 1)
     else bufferFrame (noteRx s port) port ((weltOf s port carrier).bind fun w => weltCheck s port w stamp))

/-- FRAME_HASH_DONE (R430): the oldest frame not yet hashed. -/
def hashFirst : List QFrame → List QFrame
  | [] => []
  | f :: t => if f.hash.isNone then { f with hash := some (sha384 f.bytes), bytes := [] } :: t else f :: hashFirst t

def execFrameHashDone (queue : Nat) (s : State) : Result :=
  onlyIf s ((queueOf s queue).frames.any (·.hash.isNone))
    (setQueue s queue fun x => { x with frames := hashFirst x.frames })

/-! ### Freeing words (R285, R345) -/

/-- n freed words leave the digest list; frames whose last word they hold are complete. -/
def freeFrames : Nat → List QFrame → List Bytes × List QFrame
  | _, [] => ([], [])
  | n, f :: t =>
    if n < f.words then ([], { f with words := f.words - n } :: t)
    else
      let r := freeFrames (n - f.words) t
      ((f.entry ++ (match f.hash with | some h => h | none => sha384 f.bytes)) :: r.1, r.2)

/-- A release: B moves to R (R345); valid bytes and completed frames belong to the cycle (R280, R285). -/
def releaseQueue (s : State) (q : Nat) : State :=
  let x := queueOf s q
  let n := (x.rPtr - x.bPtr).toNat
  let freed := x.words.take n
  let fr := freeFrames n x.frames
  let markPassed := x.markValid && decide ((x.mPtr - x.bPtr).toNat < n)
  let s1 := setQueue s q fun y => { y with words := y.words.drop n, bPtr := y.rPtr, frames := fr.2,
                                           markValid := y.markValid && !markPassed }
  { s1 with cyc := { s1.cyc with
      queueBytes := natSet s1.cyc.queueBytes q (natGet s1.cyc.queueBytes q + (freed.map (·.2)).sum)
      framesDone := s1.cyc.framesDone ++ fr.1 } }

/-- RD_TIMEOUT in force, in AO cycles (R349, R354). -/
def readTimeout (s : State) (q : Nat) : Nat := 100 * (regNat s (offQCfg q) % 16384)

/-- QUEUE_READ_TIMEOUT (R349). -/
def execQueueReadTimeout (queue : Nat) (s : State) : Result :=
  let x := queueOf s queue
  onlyIf s (decide (queue < 14) && !x.fired && decide (queueUnread x ≠ 0) && decide (x.timerAt + readTimeout s queue ≤ s.ao))
    (setQueue s queue fun y => { y with fired := true })

/-! ### Host queue ports (R379, R431) -/

/-- The open burst of host queue q. -/
def setBurst (s : State) (q : Nat) (b : Bytes) (dropped : Bool) : State :=
  { s with host := { s.host with burst := s.host.burst.set (q - 12) b, burstDrop := s.host.burstDrop.set (q - 12) dropped } }

/-- A closed burst: one Welt frame, checked like a sensor frame. The result tells whether it waits for space. -/
def closeBurst (s : State) (q : Nat) (frame : Bytes) (dropped : Bool) : State × Bool :=
  if dropped then (bumpReg s offHqDrop, false)
  else match weltCheck s q frame (gptpNow s) with
    | none => (bumpReg s (offPortCnt q 1), false)
    | some f =>
      (setQueue s q fun x => { x with buffer := x.buffer ++ [f] },
        decide ((queueOf s q).buffer ≠ []) || decide (queueFree s q < ceilDiv frame.length 64) || decide (s.cyc.dev = .replay))

/-- One WRA to a host queue port (R379): offsets from 0x800 close the burst. -/
def hostWra (s : State) (q off tag : Nat) (data : Bytes) : State :=
  let bytes := s.host.burst.getD (q - 12) [] ++ data
  let drop := s.host.burstDrop.getD (q - 12) false || decide (65536 < bytes.length)
  if 0x800 ≤ off then
    let r := closeBurst (setBurst s q [] false) q bytes drop
    answerWra r.1 { queue := q, tag := tag, len := data.length, closing := true, status := 0, ready := !r.2 }
  else
    answerWra (setBurst s q (if drop then [] else bytes) drop)
      { queue := q, tag := tag, len := data.length, closing := false, status := 0, ready := true }

/-- A WRA in flight when the mainband drops counts as never sent (R375): its burst stands as before it. A frame that
has been written or dropped already is past taking back (log entry 13). -/
def undoWra (s : State) (h : HeldWra) : State :=
  if h.closing then
    if h.ready then s
    else match (queueOf s h.queue).buffer.getLast? with
      | none => s
      | some f => setBurst (setQueue s h.queue fun x => { x with buffer := x.buffer.dropLast }) h.queue
          (f.bytes.take (f.bytes.length - h.len)) false
  else
    let b := s.host.burst.getD (h.queue - 12) []
    if 12 ≤ h.queue then setBurst s h.queue (b.take (b.length - h.len)) (s.host.burstDrop.getD (h.queue - 12) false) else s

/-- The transactions in flight are lost (R375). -/
def dropTransactions (s : State) : State :=
  let s1 := s.host.wraHeld.reverse.foldl undoWra s
  { s1 with host := { s1.host with linkUp := false, rxBytes := [], rxReplay := false, rxFails := 0, wraHeld := [], credits := (0, 0, 0) } }

/-- HOST_QUEUE_WRA (R379, R431). -/
def execHostQueueWra (queue offset tag : Nat) (data : Bytes) (s : State) : Result :=
  onlyIf s (s.host.linkUp && decide (queue = 12 ∨ queue = 13)) (hostWra s queue offset tag data)

/-! ### Links and gPTP (R417, R419, R420) -/

/-- SENSOR_LINK_CHANGE (R417). -/
def execSensorLinkChange (port : Nat) (up : Bool) (s : State) : Result :=
  onlyIf s true { s with ing := { s.ing with
    linkUp := if up then addOnce s.ing.linkUp port else s.ing.linkUp.filter (· ≠ port) } }

/-- A Sync interval in AO cycles (R434). -/
def syncInterval (s : State) : Nat :=
  100000000 / 2 ^ (-(toSigned 8 (regNat s offGptpCfg % 256))).toNat

/-- GPTP_SYNC_RX on the slave port (R419, R420). The clock then follows the master; what it reads is not
given (log entry 30). -/
def execGptpSyncRx (port : Nat) (offset : Int) (s : State) : Result :=
  let near := decide (-100 ≤ offset ∧ offset ≤ 100)
  let n := if near then s.ing.inRange + 1 else 0
  onlyIf s (decide (gptpSlave s = some port))
    (tickFree { s with ing := { s.ing with
      syncAt := s.ao, inRange := min 8 n, synced := s.ing.synced || decide (8 ≤ n), offset := offset,
      timeBase := Config.freeNat 1 s.disp.freeCtr } })

/-- GPTP_SYNC_TIMEOUT: no Sync for three intervals (R420). -/
def execGptpSyncTimeout (s : State) : Result :=
  onlyIf s ((gptpSlave s).isSome && decide (s.ing.syncAt + 3 * syncInterval s ≤ s.ao))
    { s with ing := { s.ing with synced := false, inRange := 0 } }

/-- GPTP_SYNC_TX on a MASTER port with link, each interval (R419); on the vehicle link result frames go first (R451), and
until READY nothing is sent (R463). -/
def execGptpSyncTx (port : Nat) (s : State) : Result :=
  let link := if port = 14 then s.outp.linkUp && decide (s.outp.txq = [] ∧ s.boot.stage = 7) else decide (port ∈ s.ing.linkUp)
  let due := match s.ing.syncTxAt.find? (·.1 = port) with
    | some p => decide (p.2 + syncInterval s ≤ s.ao)
    | none => true
  onlyIf s (decide (gptpRole s port = 1) && link && due)
    { s with ing := { s.ing with syncTxAt := (port, s.ao) :: s.ing.syncTxAt.filter (·.1 ≠ port) }
             out := .gptpSync port :: s.out }

end Sys2Proof.Machine
end

