-- ==== Sys2Proof/Machine/Registers.lean ====
section
/-! DEFINITION. Reads of the whole window and writes of registers without behaviour of their own (R9, R10,
R505): REGISTER_WRITE, and what a boundary applies. -/

namespace Sys2Proof.Machine

/-- DEVICE_ID: the first 8 bytes of the SHA-384 of the identity key, stored in digest order (R467, log
entry 7). -/
def deviceIdBytes : Bytes := (sha384 Config.identityPub).take 8

def deviceId : Nat := leNat deviceIdBytes

def readBoot (s : State) (r : Nat) : Nat :=
  if r = 0 then Config.romVersion.toNat * 256 + s.boot.stage
  else if r = 4 then fuseFlags s
  else if r = 8 then deviceId % 2 ^ 32
  else if r = 0x0C then deviceId / 2 ^ 32
  else if r = 0x10 then rbFusedWord s
  else if r = 0x14 then (if s.fuses.fieldLock then 0 else regNat s offDbgCfg)
  else 0

/-- What a read of a window offset returns (R382); no read has a side effect (R21). -/
def regRead (s : State) (off : Nat) : Nat :=
  if off % 4 ≠ 0 then 0
  else if off < 0x1000 then readHost s off
  else if off < 0x1100 then readTileMap s (off - 0x1000)
  else if off < 0x1200 then readWorld s (off - 0x1100)
  else if off < 0x1300 then readDispatch s (off - 0x1200)
  else if off < 0x1380 then readSafety s (off - 0x1300)
  else if 0x2000 ≤ off ∧ off < 0x3000 then readDma s (off - 0x2000)
  else if 0x3000 ≤ off ∧ off < 0x3100 then readQueues s (off - 0x3000)
  else if 0x3100 ≤ off ∧ off < 0x4000 then readMemory s (off - 0x3100)
  else if 0x4000 ≤ off ∧ off < 0x5000 then readFirmware s (off - 0x4000)
  else if 0x5000 ≤ off ∧ off < 0x6000 then readIngress s (off - 0x5000)
  else if 0x6000 ≤ off ∧ off < 0x7000 then readVehicle s (off - 0x6000)
  else if 0x7000 ≤ off ∧ off < 0x8000 then readLinks s (off - 0x7000)
  else if 0x8000 ≤ off ∧ off < 0x9000 then readBoot s (off - 0x8000)
  else if 0x9000 ≤ off ∧ off < 0xA000 then readPower s (off - 0x9000)
  else 0

/-! ### Registers that only hold what is written -/

/-- How a register without behaviour of its own takes a write. -/
structure RwInfo where
  atBoundary : Bool           -- R505
  keep       : Nat            -- the bits a write sets
  rsvd       : Nat            -- reserved bits (R10)
  ok         : Nat → Bool     -- field values in range; a write outside is ignored whole

def isEthQueue (q : Nat) : Bool := decide (q = 0 ∨ q = 1 ∨ q = 6 ∨ q = 7)

/-- The RW registers without behaviour of their own (R354, R358, R434, R440, R441, R462, R474). -/
def rwInfo (s : State) (off : Nat) : Option RwInfo :=
  if 0x3000 ≤ off ∧ off < 0x30E0 ∧ off % 16 = 8 then
    some { atBoundary := true, keep := 0x3FFF, rsvd := 0xC000,
           ok := fun v => decide (1 ≤ v % 0x4000 ∧ v % 0x4000 ≤ 10000) }
  else if 0x3100 ≤ off ∧ off < 0x3140 then
    if presentCluster s ((off - 0x3100) / 4) then
      some { atBoundary := true, keep := 0xFFFF, rsvd := 0xFFFF0000, ok := fun _ => true }
    else none
  else if 0x5000 ≤ off ∧ off < 0x5030 then
    if isEthQueue ((off - 0x5000) / 4) then
      some { atBoundary := true, keep := 0x8FC00000, rsvd := 0x703FFFFF,
             ok := fun v => decide (bitsOf v 26 2 ≤ 1 ∧ bitsOf v 24 2 ≤ 2 ∧ bitsOf v 22 2 ≤ 2) }
    else
      some { atBoundary := true, keep := 0x800F0000, rsvd := 0x7FF0FFFF,
             ok := fun v => decide (bitsOf v 16 2 ≤ 2) }
  else if off = 0x5040 then some { atBoundary := true, keep := 0xFFFFFFFF, rsvd := 0, ok := fun _ => true }
  else if off = 0x5044 then
    some { atBoundary := true, keep := 0xFFFF, rsvd := 0xFFFF0000,
           ok := fun v => decide (-3 ≤ toSigned 8 (v / 256) ∧ toSigned 8 (v / 256) ≤ 3 ∧ -5 ≤ toSigned 8 v ∧ toSigned 8 v ≤ 0) }
  else if 0x5200 ≤ off ∧ off < 0x5300 then
    if off % 8 = 0 then
      some { atBoundary := true, keep := 0x8F00FFFF, rsvd := 0x70FF0000, ok := fun v => decide (bitsOf v 24 4 ≤ 13) }
    else some { atBoundary := true, keep := 0xFFFF, rsvd := 0xFFFF0000, ok := fun _ => true }
  else if off = 0x6000 then
    some { atBoundary := true, keep := 0x9F8FFFFF, rsvd := 0x60700000,
           ok := fun v => decide (bitsOf v 27 2 ≤ 2 ∧ bitsOf v 8 12 ≤ 4094 ∧ 1 ≤ v % 256) }
  else if off = 0x6008 ∨ off = 0x6010 then
    some { atBoundary := true, keep := 0xFFFF, rsvd := 0xFFFF0000, ok := fun _ => true }
  else if 0x6004 ≤ off ∧ off ≤ 0x6020 then
    some { atBoundary := true, keep := 0xFFFFFFFF, rsvd := 0, ok := fun _ => true }
  else if off = 0x7000 then
    some { atBoundary := true, keep := 0xFFFF1CFF, rsvd := 0x0000E300,
           ok := fun v => decide (1 ≤ bitsOf v 4 4 ∧ bitsOf v 4 4 ≤ 4 ∧ bitsOf v 0 4 < bitsOf v 4 4) }
  else if off = 0x7008 then some { atBoundary := false, keep := 0xFFFFFFFF, rsvd := 0, ok := fun _ => true }
  else if off = 0x700C then some { atBoundary := false, keep := 0xFFFF, rsvd := 0xFFFF0000, ok := fun _ => true }
  else if off = 0x8014 then some { atBoundary := false, keep := 1, rsvd := 0xFFFFFFFE, ok := fun _ => !s.fuses.fieldLock }
  else match phyOfOffset off with
    | some (_, 2) => some { atBoundary := false, keep := 0xFFFF, rsvd := 0xFFFF0000, ok := fun _ => true }
    | _ => none

/-- Tiles of cluster n whose addressing mode changes have unspecified contents afterwards (R358). -/
def scrambleTiles (s : State) (n changed : Nat) : State :=
  (List.range 16).foldl (fun t m =>
    if bitOf changed m then devScramble t (tileBase (16 * n + m)) 0xC0000 else t) s

/-- A register value comes into force; a changed source entry loses its reference (R423), a changed
addressing mode its tile-store contents (R358). -/
def applySetting (s : State) (off : Nat) (v : Word) : State :=
  let s1 := setReg s off v
  if regOf s off = v then s1
  else if 0x5200 ≤ off ∧ off < 0x5300 then
    { s1 with ing := { s1.ing with refs := listUpd s1.ing.refs ((off - 0x5200) / 8) fun r => { r with valid := false } } }
  else if 0x3100 ≤ off ∧ off < 0x3140 then
    scrambleTiles s1 ((off - 0x3100) / 4) ((regOf s off ^^^ v).toNat % 65536)
  else s1

/-- The pending writes come into force (R505). -/
def applyWritten (s : State) : State :=
  s.written.foldl (fun t p => applySetting t p.1 p.2) { s with written := [] }

/-- Settings wait for a boundary while cycles run (R505). -/
def boundaryDue (s : State) : Bool := decide (s.cyc.dev = .running) || decide (s.cyc.dev = .replay)

/-- A write to a register without behaviour of its own (R9): ignored for a register that takes none, or with
a field out of range; with a reserved bit set it is unguarded (R10). -/
def plainWrite (s : State) (off : Nat) (v : Word) : Attempt :=
  match rwInfo s off with
  | none => .ok s
  | some i =>
    if !i.ok v.toNat then .ok s
    else if v.toNat &&& i.rsvd ≠ 0 then .error "R10"
    else
      let w := BitVec.ofNat 32 (v.toNat &&& i.keep)
      if i.atBoundary && boundaryDue s then
        .ok { s with written := mapSet (fun k => regOf s k) s.written off w }
      else .ok (applySetting s off w)

/-- Offsets whose writes have behaviour of their own: doorbell, HEADs, HOST_LOSS_CFG, FP_CFG, PHY_CTRL and
MDIO_CMD. -/
def ownBehaviour (off : Nat) : Bool :=
  decide (off = 8 ∨ off = 0x10 ∨ off = 0x18 ∨ off = 0x20 ∨ off = 0x28 ∨ off = 0x6040)
    || (match phyOfOffset off with | some (_, j) => decide (j = 0 ∨ j = 1) | none => false)

/-- A window write of the wrong kind: discarded and counted (R379). -/
def badAccess (s : State) : State := bumpReg s offBadAccess

/-- REGISTER_WRITE (R9, R505). It reaches the block only while the mainband is up (R375). -/
def execRegisterWrite (off : Nat) (v : Word) (s : State) : Result :=
  if s.boot.inReset || !s.host.linkUp || ownBehaviour off then .next s
  else if 65536 ≤ off ∨ off % 4 ≠ 0 then .next (badAccess s)
  else ofAttempt (plainWrite s off v)

end Sys2Proof.Machine
end

