-- ==== Sys2Proof/Machine/Ecc.lean ====
section
/-! DEFINITION. Physical slots (R47, R48, R54), uncorrectable errors by memory (R363, R364, R367), and the
parts of the device map an image may reach (R370, R371). -/

namespace Sys2Proof.Machine

/-- The physical slot of its cluster that logical tile t occupies (R47, R54). -/
def slotOf (s : State) (t : Nat) : Nat :=
  let sp := s.plat.spares.getD (t / 16) .reset
  if (sp.st = 1 ∨ sp.st = 2) ∧ sp.subst = t % 16 then 16 else t % 16

/-- The tile-store unit number of logical tile t (R310). -/
def unitOfTile (s : State) (t : Nat) : Nat := 17 * (t / 16) + slotOf s t

/-- The GDDR6 channel of a device address (R367). -/
def gddrChannel (s : State) (a : Nat) : Nat :=
  let n := gddrChannels s
  let k := a / 512 % n
  if n = 12 ∧ 6 ≤ k then k + 6 else k

/-- Where a device address lies within its channel, with inline check lines: its data byte, and the check line of its
granule (R367). -/
def gddrBlock (s : State) (a : Nat) : Nat := a / 512 / gddrChannels s
def gddrDataOffset (s : State) (a : Nat) : Nat := 576 * gddrBlock s a + a % 512
def gddrCheckLine (s : State) (a : Nat) : Nat := 576 * gddrBlock s a + 512

def setSpare (s : State) (n : Nat) (f : Spare → Spare) : State :=
  { s with plat := { s.plat with spares := listUpd s.plat.spares n f } }

/-- Logical tile t becomes due for substitution (R364, SPARE_PENDING of R54). -/
def pendSubst (s : State) (t : Nat) : State :=
  setSpare s (t / 16) fun sp => { sp with pending := sortedInsert t sp.pending }

/-- The second error in one slot within 1,024 plan cycles makes its name due (R364). -/
def countUe (s : State) (t : Nat) : State :=
  let key := (t / 16, slotOf s t)
  let recent := match s.plat.ueTimes.find? (fun u => decide ((u.1, u.2.1) = key)) with
    | some u => decide (s.plat.boundaries < u.2.2 + 1024)
    | none => false
  let s1 := { s with plat := { s.plat with
    ueTimes := (key.1, key.2, s.plat.boundaries) :: s.plat.ueTimes.filter (fun u => decide ((u.1, u.2.1) ≠ key)) } }
  if recent then pendSubst s1 t else s1

/-- The words in error among the n bytes from a; every word of a poisoned granule is (R368). -/
def badIn (s : State) (a n : Nat) : List Nat :=
  (s.plat.badWords.filter fun w => decide (w < a + n) && decide (a < w + 8))
    ++ ((s.plat.poison.filter fun g => decide (512 * g < a + n) && decide (a < 512 * g + 512)).map fun g => max (a / 8 * 8) (512 * g))

/-- The first of them. -/
def firstBad (s : State) (a n : Nat) : Nat := (sortNat (badIn s a n)).headD a

/-- The word of an uncorrectable tile-store error is counted and rewritten as zero with valid check bits (R363, R364). -/
def tileWordLost (s : State) (t a : Nat) : State :=
  countUe (devWrite (eccReport s 0 (unitOfTile s t) a) (tileBase t + a / 8 * 8) (zeros 8)) t

/-- An uncorrectable tile-store error at tile-local address a. -/
def tileStoreUe (s : State) (t a : Nat) : State := raiseOpenFault (tileWordLost s t a) (fsTile t) fTileStoreEcc

/-- An uncorrectable error in the mailbox and log area, at a byte of it. -/
def mailboxUe (s : State) (off : Nat) : State := raiseOpenFault (eccReport s 5 581 off) (fsQueue 0) fQueueEcc

/-- An uncorrectable GDDR6 error at device address a. -/
def gddrUe (s : State) (a : Nat) : State :=
  raiseOpenFault (eccReport s 6 (582 + gddrChannel s a) a) (fsGddr (gddrChannel s a)) fGddr6Ecc

/-! ### Corrections (R362) -/

/-- Corrections of a class within the last second. -/
def recentCe (s : State) (c : Nat) : List (Nat × Nat) := s.plat.ceTimes.filter fun e => decide (e.1 = c ∧ s.ao < e.2 + 100000000)

/-- A correction is counted; the 65th within a second is reported. -/
def corrected (s : State) (c : Nat) : State :=
  let l := (c, s.ao) :: recentCe s c
  let s1 := { bumpReg s (offEccCe c) with plat := { s.plat with ceTimes := l ++ s.plat.ceTimes.filter fun e => decide (e.1 ≠ c) } }
  if l.length = 65 then sendEvent s1 0x000F (toLe 1 c) else s1

/-- Keys of words that memory keys do not reach: a world-cache line, a queue word by its position, a firmware memory. -/
def cacheKey (tile line : Nat) : Nat := 2 ^ 52 + 2 ^ 22 * tile + 64 * line
def queueKey (q : Nat) (pos : Word) : Nat := 2 ^ 53 + 2 ^ 20 * q + 64 * (pos.toNat % queueSize q)
def fwKey (p a : Nat) : Nat := 2 ^ 54 + 2 ^ 20 * p + a

/-- The ECC class of a key (R373). -/
def classOfKey (a : Nat) : Nat :=
  if 2 ^ 54 ≤ a then 3 else if 2 ^ 53 ≤ a then 4 else if 2 ^ 52 ≤ a then 1 else if 2 ^ 48 ≤ a then 0
  else if mailboxBase ≤ a then 5 else if bankBase ≤ a then 2 else 6

/-- The words with a correctable error among the n bytes from a key. -/
def softIn (s : State) (a n : Nat) : List Nat := s.plat.softWords.filter fun w => decide (w < a + n) && decide (a < w + 8)

/-- A read of n bytes from a key delivers corrected values: each is counted in its class, and an SRAM word is written back
good. -/
def correctRead (s : State) (a n : Nat) : State :=
  let l := softIn s a n
  let s1 := l.foldl (fun t _ => corrected t (classOfKey a)) s
  if classOfKey a = 6 then s1
  else { s1 with plat := { s1.plat with softWords := s1.plat.softWords.filter fun w => decide (w ∉ l) } }

/-- The unit of an ingress queue's memory (R310). -/
def queueUnit (q : Nat) : Nat := if q < 6 then 579 else if q < 12 then 580 else 581

/-! ### The device map (R370, R371) -/

/-- The key of a device address: every world bank holds the same tree (R136). -/
def devKey (a : Nat) : Nat :=
  if bankBase ≤ a ∧ a < bankBase + 16 * 0x400000 then bankBase + (a - bankBase) % 0x400000 else a

def inRange (a n lo size : Nat) : Bool := decide (lo ≤ a) && decide (a + n ≤ lo + size)

/-- Mailbox and log area outside the host queues. -/
def inMailbox (a n : Nat) : Bool := inRange a n mailboxBase 0xC0000

/-- What an image owns of GDDR6 (R371): the Latigo state, the flow area, and the persistent and scratch areas, which adjoin. -/
def imageArea (a n : Nat) : Bool :=
  inRange a n latigoStateBase 64 || inRange a n flowBase 0x1000000 || inRange a n persistBase 0x103000000

/-- The world banks of the present clusters, one after another (R370). -/
def inBank (s : State) (a n : Nat) : Bool := inRange a n bankBase (clusterCount s * 0x400000)

/-- What a DMA transfer may write: never a device-owned area. -/
def dmaWritable (a n : Nat) : Bool := imageArea a n || inMailbox a n

def dmaReadable (s : State) (a n : Nat) : Bool := imageArea a n || inMailbox a n || inBank s a n

/-- The cluster whose world bank holds a device address, and the slot of it. -/
def bankOf (a : Nat) : Nat := (a - bankBase) / 0x400000
def slotAt (a : Nat) : Nat := (a - bankBase) % 0x400000 / 8

/-- A byte range of device addresses meets an uncorrectable error, its own replica's slots among them (R137, R363). -/
def badDev (s : State) (a n : Nat) : Bool :=
  if bankBase ≤ a ∧ a < mailboxBase then
    (s.world.badSlots.any fun b => decide (b.1 = bankOf a ∧ 8 * b.2 < a % 0x400000 + n ∧ a % 0x400000 < 8 * b.2 + 8))
      || badRead s (devKey a) n
  else badRead s a n

/-- The first byte of a range that lies in a word in error. -/
def firstBadDev (s : State) (a n : Nat) : Nat := ((List.range n).find? fun k => badDev s (a + k) 1).elim a fun k => (a + k) / 8 * 8

/-- The bytes at device addresses as a reader gets them: those of words in error are unspecified. -/
def readDev (s : State) (a n : Nat) : Bytes :=
  if badDev s a n then (List.range n).map fun k =>
    if badDev s (a + k) 1 then Config.freeByte s.disp.freeCtr k else memGet s.mem (devKey (a + k))
  else (List.range n).map fun k => memGet s.mem (devKey (a + k))

/-- A world bank's word in error: reported, its slot to be repaired (R137). -/
def bankUe (s : State) (n slot : Nat) : State :=
  { eccReport s 2 (544 + n) (8 * slot) with world := { s.world with badSlots := addOnce s.world.badSlots (n, slot) } }

/-- What a device reader of the word at a raises. -/
def devUe (s : State) (a : Nat) : State :=
  if mailboxBase ≤ a then mailboxUe s (a - mailboxBase)
  else if bankBase ≤ a then raiseOpenFault (bankUe s (bankOf a) (slotAt a)) (fsBank (bankOf a)) fWorldBankEcc
  else gddrUe s a

/-- A tile-local range (R36). -/
def inTile (a n : Nat) : Bool := decide (a + n ≤ 0xC0000)

/-- The bank that holds tile-local address a below the handoff region, and its byte within the bank (R36, R356). -/
def bankAt (s : State) (t a : Nat) : Nat :=
  if bitOf (regNat s (offTsMode (t / 16))) (t % 16) ∧ a < 0x80000 then a / 8 % 32 else a / 16384
def bankByte (s : State) (t a : Nat) : Nat :=
  if bitOf (regNat s (offTsMode (t / 16))) (t % 16) ∧ a < 0x80000 then a / 8 / 32 * 8 + a % 8 else a % 16384

/-- The banks that a native tile-local range touches (R36, R356): 46 banks; the handoff region has none. -/
def banksOf (a n : Nat) : List Nat := (List.range 46).filter fun b => decide (16384 * b < a + n) && decide (a < 16384 * (b + 1))

/-- The interleaved lines of a range touch eight banks each (R357). -/
def banksInterleaved (a n : Nat) : List Nat :=
  (List.range 32).filter fun b => (List.range (min 4 (ceilDiv (a % 64 + n) 64))).any fun i => decide (b / 8 = (a / 64 + i) % 4)

/-- Every bank of the range, as the tile's addressing mode lays it out (R356, R357). -/
def banksUsed (s : State) (t a n : Nat) : List Nat :=
  if bitOf (regNat s (offTsMode (t / 16))) (t % 16) ∧ a < 0x80000 then
    banksInterleaved a (min n (0x80000 - a)) ++ (banksOf a n).filter (32 ≤ ·)
  else banksOf a n

/-- A bank's power state: 0 ON, 1 in retention, 2 OFF (R359). -/
def bankState (s : State) (key : Nat) : Nat := mapGet (fun _ => s.plat.bankBase) s.plat.banks key

def setBank (s : State) (key v : Nat) : State :=
  { s with plat := { s.plat with banks := mapSet (fun _ => s.plat.bankBase) s.plat.banks key v } }

/-- No bank of the range is OFF (R37, R361). -/
def banksOn (s : State) (t a n : Nat) : Bool := (banksUsed s t a n).all fun b => decide (bankState s (64 * t + b) ≠ 2)

/-- A bank of the range is in retention, or waking: a request waits for the wake (R361). -/
def banksRest (s : State) (t a n : Nat) : Bool := (banksUsed s t a n).any fun b => decide (bankState s (64 * t + b) = 1)

/-- A request to a bank in retention wakes it (R360, R361); BANK_WAKE ends the wake. -/
def wakeBanks (s : State) (t a n : Nat) : State :=
  let ask := fun (w : List (Nat × Nat)) b =>
    let key := 64 * t + b
    if bankState s key = 1 ∧ !w.any (·.1 = key) then (key, s.ao) :: w else w
  { s with plat := { s.plat with waking := (banksUsed s t a n).foldl ask s.plat.waking } }

end Sys2Proof.Machine
end

