-- ==== Sys2Proof/Machine/Router.lean ====
section
/-! DEFINITION. The mailbox router (R386, R391 to R393): CMD_DOORBELL. -/

namespace Sys2Proof.Machine

def commandBase : Nat := mailboxBase
def commandSize : Nat := 0x80000

/-- The owner of an opcode (R393, R395, R403); none for a code that R395 does not list. -/
def opcodeOwner (c : Nat) : Option Owner :=
  if c = 0x01 ∨ c = 0x02 ∨ c = 0x11 then some .router
  else if c = 0x03 ∨ c = 0x04 ∨ c = 0x22 ∨ c = 0x23 ∨ (0x40 ≤ c ∧ c ≤ 0x47) then some .sch
  else if c = 0x10 ∨ c = 0x12 ∨ c = 0x20 ∨ c = 0x21 then some .sec
  else if c = 0x24 then some .pmc
  else if c = 0x30 then some .world
  else if c = 0x50 ∨ c = 0x51 then some .island
  else none

/-- The fixed payload length of an opcode, if it has one (R395). -/
def fixedLength (c : Nat) : Option Nat :=
  if c = 0x01 ∨ c = 0x02 ∨ c = 0x03 ∨ c = 0x24 ∨ c = 0x40 ∨ c = 0x43 ∨ c = 0x46 then some 16
  else if c = 0x04 ∨ c = 0x41 ∨ c = 0x42 ∨ c = 0x44 ∨ c = 0x50 ∨ c = 0x51 then some 0
  else if c = 0x12 then some 64
  else if c = 0x22 then some 384
  else if c = 0x23 then some 32
  else none

/-- The payload travels in pieces (R394). -/
def inPieces (c : Nat) : Bool := decide (c = 0x10 ∨ c = 0x20 ∨ c = 0x21 ∨ c = 0x30 ∨ c = 0x45 ∨ c = 0x47)

/-- The header as the router reads it. -/
structure CmdHeader where
  major : Nat
  msg   : Msg
  len   : Nat
  rsvd  : Bool          -- RSVD and FLAGS bits 15:1 are zero
  crcOk : Bool
  deriving DecidableEq, Repr, Inhabited

/-- The pieces of the mailbox area that n bytes from a position of the command ring occupy. -/
def ringPieces (pos n : Nat) : List (Nat × Nat) :=
  let room := min n (commandSize - pos % commandSize)
  [(commandBase + pos % commandSize, room), (commandBase, n - room)]

/-- The entry at CMD_HEAD; one whose LENGTH is out of range has no payload. -/
def readEntry (s : State) : CmdHeader :=
  let pos := regNat s offCmdHead
  let h := ringRead s.mem commandBase commandSize pos 32
  let len := fieldAt h 12 4
  let payload := if len ≤ 65504 then ringRead s.mem commandBase commandSize (pos + 32) len else []
  let flags := fieldAt h 16 2
  { major := fieldAt h 0 1
    msg := { minor := byteAt h 1, opcode := BitVec.ofNat 16 (fieldAt h 2 2), seq := BitVec.ofNat 32 (fieldAt h 4 4),
             flags := BitVec.ofNat 16 flags, payload := payload, prevSeq := s.host.lastCmdSeq,
             headAt := regOf s offCmdHead }
    len := len
    rsvd := allZero (sliceOf h 0x12 10) && decide (flags < 2)
    crcOk := decide (fieldAt h 28 4 = crc32c (h.take 28 ++ payload))
      && !(ringPieces pos (32 + payload.length)).any fun r => badRead s r.1 r.2 }

/-- The bytes an entry takes in the ring (R385); an entry of undetermined length extends to the tail (log
entry 15). -/
def entrySize (s : State) (h : CmdHeader) : Nat :=
  if h.len ≤ 65504 then 64 * ceilDiv (32 + h.len) 64 else (s.host.cmdTail - regOf s offCmdHead).toNat

/-- Payload checks the router makes: fixed length, and a piece header's presence (R394, R395). -/
def payloadStatus (c len : Nat) : Nat :=
  match fixedLength c with
  | some n => if len = n then stOk else stBadLength
  | none => if inPieces c ∧ len < 16 then stBadLength else stOk

/-- The state of the session lets an opcode through (R391). -/
def sessionStatus (s : State) (m : Msg) : Nat :=
  let c := m.opcode.toNat
  if ¬s.host.session ∧ c ≠ 1 then stNoSession
  else if s.host.hostLost ∧ ¬((c = 1 ∧ bitOf (fieldAt m.payload 0 4) 0) ∨ c = 3 ∨ c = 0x51) then stReattachRequired
  else stOk

def versionOk (s : State) (h : CmdHeader) : Bool :=
  let limit := if h.msg.opcode = 1 then 2 else s.host.agreedMinor.toNat
  decide (h.major = 1) && decide (h.msg.minor.toNat ≤ limit)

/-- The owner takes the message: in WAIT_SEC the ROM loader stands in for SEC, with image 0 alone (R463, R465). -/
def ownerTakes (s : State) (o : Owner) (m : Msg) : Bool :=
  ownerRuns s o && (decide (o ≠ .sec ∨ s.boot.stage ≠ 2) || decide (m.opcode = 0x10 ∧ fieldAt m.payload 0 4 = 0))

/-- The checks of R391 in order: the status, OK for an entry that goes to its owner. -/
def routeStatus (s : State) (h : CmdHeader) : Nat :=
  let c := h.msg.opcode.toNat
  if 65504 < h.len ∨ !h.rsvd then stBadLength
  else if !h.crcOk then stBadCrc
  else if !versionOk s h then stVersionMismatch
  else match opcodeOwner c with
    | none => stUnknownOpcode
    | some o =>
      if sessionStatus s h.msg ≠ stOk then sessionStatus s h.msg
      else if !ownerTakes s o h.msg then (if o = .sec then stSecDown else stProcDown)
      else payloadStatus c h.len

/-- A refusal by the router (R391, R392). -/
def routeRefuse (s : State) (m : Msg) (st : Nat) : State :=
  if st = stBadCrc then reply (raiseOpenFault (bumpReg s offMbxCrcErr) fsRouter fMailboxCrc) m st
  else if st = stVersionMismatch ∧ m.opcode = 1 then
    ringSend s 0 0 0x8001 m.seq.toNat (replyPayload st 0 [1, 2])
  else reply s m st

/-- The words of the entry (R363). -/
def entryPieces (s : State) (h : CmdHeader) : List (Nat × Nat) := ringPieces (regNat s offCmdHead) (32 + h.msg.payload.length)

/-- An uncorrectable error in the entry's words is reported; correctable ones are corrected (R362, R363). -/
def entryEcc (s : State) (h : CmdHeader) : State :=
  let s1 := (entryPieces s h).foldl (fun t r => correctRead t r.1 r.2) s
  match (entryPieces s h).find? fun r => badRead s r.1 r.2 with
  | some r => mailboxUe s1 (firstBad s r.1 r.2 - mailboxBase)
  | none => s1

/-- The entry counts as taken: CMD_HEAD passes it (R386). -/
def takeEntry (s : State) (h : CmdHeader) : State :=
  let s1 := setReg s offCmdHead (regOf s offCmdHead + BitVec.ofNat 32 (entrySize s h))
  { s1 with host := { s1.host with lastCmdSeq := h.msg.seq } }

/-- One entry goes to its owner's queue or is refused. -/
def routeEntry (s : State) (h : CmdHeader) : State :=
  let st := routeStatus s h
  let s1 := takeEntry (entryEcc s h) h
  if st ≠ stOk then routeRefuse s1 h.msg st
  else match opcodeOwner h.msg.opcode.toNat with
    | none => s
    | some o => setOwnerQueue s1 o (ownerQueue s o ++ [h.msg])

/-- A HELLO taken and not yet executed: the format of every later message waits for it (R392). -/
def helloWaits (s : State) : Bool := (ownerQueue s .router).any fun m => decide (m.opcode = 1)

/-- The next entry can be taken: it lies before the tail, no HELLO is still to set its format, and its owner's queue
has room (R392, R393). -/
def canTake (s : State) (h : CmdHeader) : Bool :=
  let avail := (s.host.cmdTail - regOf s offCmdHead).toNat
  decide (avail ≠ 0) && decide (entrySize s h ≤ avail) && !helloWaits s
    && (decide (routeStatus s h ≠ stOk) || (match opcodeOwner h.msg.opcode.toNat with
      | some o => decide ((ownerQueue s o).length < 256)
      | none => true))

/-- Entries in ring order up to the tail (R386). -/
def routeAll : Nat → State → State
  | 0, s => s
  | n + 1, s => if canTake s (readEntry s) then routeAll n (routeEntry s (readEntry s)) else s

/-- The router takes what it can: it works from the firmware stage on (R463, R464). -/
def routeRun (s : State) : State :=
  if 2 ≤ s.boot.stage ∧ s.boot.stage ≤ 7 then routeAll 8192 s else s

/-- A doorbell value is valid (R386). -/
def doorbellOk (s : State) (tail : Word) : Bool :=
  decide (tail.toNat % 64 = 0) && serialGe tail.toNat s.host.cmdTail.toNat
    && decide ((tail - regOf s offCmdHead).toNat ≤ commandSize)

/-- CMD_DOORBELL (R386). -/
def execCmdDoorbell (tail : Word) (s : State) : Result :=
  onlyIf s s.host.linkUp
    (if doorbellOk s tail then routeRun { s with host := { s.host with cmdTail := tail } } else bumpReg s offBadAccess)

end Sys2Proof.Machine
end

