-- ==== Sys2Proof/Machine/HostPort.lean ====
section
/-! DEFINITION. The host's session, queries, host loss, the device rings' pointers, and the sideband
(R380, R381, R383, R385, R387, R388, R392, R395 to R401). -/

namespace Sys2Proof.Machine

/-! ### HELLO and HEARTBEAT (R398, R400) -/

/-- The host-loss timer restarts (R398). -/
def restartTimer (s : State) : State :=
  { s with host := { s.host with hbAt := some s.ao, timerAt := s.ao } }

/-- Milliseconds since the timer's last restart; unstated when there was none (log entry 9). -/
def sinceHb (s : State) : Nat :=
  match s.host.hbAt with
  | some t => (s.ao - t) / 100000
  | none => Config.freeNat 0 s.disp.freeCtr

/-- Entries of a device ring discarded since the previous successful HELLO (R400). -/
def dropsSince (s : State) (r : Nat) : Nat :=
  (regOf s (offDropped r) - s.host.helloDrops.getD r 0).toNat

/-- HELLO's reply data (R400). -/
def helloData (s : State) (m : Msg) : Bytes :=
  ([1, 2] : Bytes) ++ [m.minor] ++ toLe 1 (devCode s.cyc.dev) ++ toLe 4 m.prevSeq.toNat ++ toLe 4 m.headAt.toNat
    ++ toLe 4 (dropsSince s 0) ++ toLe 4 (dropsSince s 1) ++ toLe 4 (dropsSince s 2)
    ++ toLe 4 s.host.lostAtSeq.toNat ++ toLe 4 (sinceHb s)

/-- DRIVER_ID is logged, and HOST_TIME (R395). -/
def logHost (s : State) (code : Nat) (data : Bytes) : State := logNow s (Config.logCode code) srcRouter data

/-- What every accepted HELLO does (R392, R398, R400). -/
def helloCommon (s : State) (m : Msg) : State :=
  let s1 := restartTimer (tickFree (logHost s lcHello (sliceOf m.payload 4 4)))
  { s1 with host := { s1.host with session := true, agreedMinor := m.minor } }

/-- Every ring pointer and DROPPED register at 0 (R400). -/
def clearRings (s : State) : State :=
  let s1 := [0, 1, 2].foldl (fun t r => setReg (setReg (setReg t (offHead r) 0) (offTail r) 0) (offDropped r) 0) s
  let s2 := setReg s1 offCmdHead 0
  { s2 with host := { s2.host with cmdTail := 0, helloDrops := [0, 0, 0], ntfDue := [] } }

/-- HELLO without REATTACH: in STOPPED, or when no session exists (R400). -/
def helloFresh (s : State) (m : Msg) : State :=
  if s.host.session ∧ s.cyc.dev ≠ .stopped then reply s m stSessionActive
  else replyData (clearRings (helloCommon s m)) m (helloData s m)

/-- HELLO with REATTACH: pointers kept, HOST_LOST cleared, the HOST_LOSS cause ceases (R400). -/
def helloReattached (s : State) (m : Msg) : State :=
  let s1 := helloCommon s m
  let drops := [regOf s (offDropped 0), regOf s (offDropped 1), regOf s (offDropped 2)]
  replyData (ceaseCause { s1 with host := { s1.host with hostLost := false, helloDrops := drops } } 8) m (helloData s m)

def isReattach (m : Msg) : Bool := bitOf (fieldAt m.payload 0 4) 0

/-- The timer has run out by AO cycle t. -/
def lossBy (s : State) (t : Nat) : Bool :=
  s.host.session && decide (s.cyc.dev ≠ .stopped) && !s.host.hostLost
    && decide (s.host.timerAt + 100000 * (regNat s offHostLossCfg % 16384) ≤ t)

/-- POLICY of HOST_LOSS_CFG: 0 CONTINUE, 1 DEGRADE_AFTER, 2 SAFE_AFTER. -/
def lossPolicy (s : State) : Nat := regNat s offHostLossCfg / 2 ^ 30

/-- The host is lost (R399). -/
def loseHost (s : State) : State :=
  let s1 := sendOpenEvent { s with host := { s.host with
    hostLost := true, lostPolicy := lossPolicy s, lostAtSeq := s.cyc.seq } } 0x000D
  if lossPolicy s = 2 then enterSafe s1 256 else s1

/-- A HELLO with REATTACH in the AO cycle of the expiry: the expiry acts, then the reattach ends it (R401). -/
def meetExpiry (s : State) : State := if lossBy s s.ao then loseHost s else s

/-- H_FLAGS and the unlisted bytes are reserved (R10, R395). -/
def helloRsvd (m : Msg) : Bool := decide (fieldAt m.payload 0 4 < 2) && rsvdZero m.payload [(8, 8)]

/-- HELLO; the router goes on with the entries behind it in the agreed format (R392). -/
def execHello (s : State) : Result :=
  withFront s .router (fun m => isOp 1 m && !isReattach m) fun m t =>
    if helloRsvd m then .next (routeRun (helloFresh t m)) else .fault (.unguarded "R10")

def execHelloReattach (s : State) : Result :=
  withFront s .router (fun m => isOp 1 m && isReattach m) fun m t =>
    if helloRsvd m then .next (routeRun (helloReattached (meetExpiry t) m)) else .fault (.unguarded "R10")

/-- HEARTBEAT (R398). -/
def execHeartbeat (s : State) : Result :=
  withFront s .router (isOp 2) fun m t =>
    if rsvdZero m.payload [(8, 8)] then .next (reply (restartTimer (logHost t lcHeartbeat (m.payload.take 8))) m stOk)
    else .fault (.unguarded "R10")

/-! ### Queries (R395, R397) -/

def stagedCode (s : State) : Nat :=
  match s.load.staged with
  | .none => 0
  | .loading => 1
  | .verifying _ _ _ => 2
  | .verified _ _ => 3

/-- The DEVICE block (R397). -/
def deviceBlock (s : State) : Bytes :=
  toLe 1 (devCode s.cyc.dev) ++ toLe 1 (boolNat s.cyc.tack) ++ zeros 2 ++ toLe 4 s.cyc.seq.toNat
    ++ toLe 4 s.world.newest ++ toLe 4 (readSafety s 0x60)
    ++ toLe 8 (match s.load.active with | some i => i.imageId.toNat | none => 0) ++ imageDigest s
    ++ toLe 1 (stagedCode s) ++ zeros 7 ++ toLe 4 s.plat.mapEpoch.toNat ++ zeros 4

def queryKind (m : Msg) : Nat := fieldAt m.payload 0 1
def queryArg (m : Msg) : Nat := fieldAt m.payload 4 4
def queryOffset (m : Msg) : Nat := fieldAt m.payload 8 4

def isQuery (kind : Nat) (m : Msg) : Bool := isOp 3 m && decide (queryKind m = kind)

/-- A query with its reserved bytes checked (R10, R395). -/
def queryRun (s : State) (isIt : Msg → Bool) (f : Msg → State → State) : Result :=
  withFront s .sch isIt fun m t =>
    if rsvdZero m.payload [(1, 3), (12, 4)] then .next (f m t) else .fault (.unguarded "R10")

/-- One piece of an object of total bytes that stands in device memory (R394, log entry 12). -/
def replyMemPiece (s : State) (m : Msg) (addr total : Nat) : State :=
  let off := queryOffset m
  let n := min 65472 (total - off)
  replyData s m (pieceHeader 0 off total (boolNat (decide (total ≤ off + n))) ++ devRead s (addr + off) n)

/-- QUERY_STATUS DEVICE; a Q_KIND outside 0 to 3 is refused (R395). -/
def execQueryDevice (s : State) : Result :=
  queryRun s (fun m => isOp 3 m && decide (queryKind m = 0 ∨ 3 < queryKind m)) fun m t =>
    if queryKind m = 0 then replyPiece t m (queryOffset m) (deviceBlock t) else replyBadArg t m 0

/-- Address of the facts-ring slot of a cycle (R279). -/
def factsSlot (seq : Nat) : Nat := factsBase + 0x40000 * (seq % 64)

/-- QUERY_STATUS FACTS: the record still in the ring, or FACTS_GONE (R279). -/
def execQueryFacts (s : State) : Result :=
  queryRun s (isQuery 1) fun m t =>
    if queryArg m ∈ t.cyc.factsSlots then
      replyMemPiece t m (factsSlot (queryArg m)) (64 + 16 * leNat (devRead t (factsSlot (queryArg m) + 12) 4))
    else reply t m stFactsGone

/-- QUERY_STATUS CKPT_READ: the checkpoint in the checkpoint area (R288). -/
def execQueryCkptRead (s : State) : Result :=
  queryRun s (isQuery 2) fun m t =>
    replyMemPiece t m ckptBase (min 0x6000000 (leNat (devRead t (ckptBase + 0x0C) 4)))

/-- A directory entry as QUERY_STATUS gives it (R395). -/
def weightDirEntry (w : WeightSet) : Bytes := toLe 4 w.wsetId ++ toLe 4 w.len ++ toLe 8 w.addr ++ padTo 48 w.digest

/-- QUERY_STATUS WEIGHT_DIR from entry ARG on (R395). -/
def execQueryWeightDir (s : State) : Result :=
  queryRun s (isQuery 3) fun m t =>
    replyPiece t m (queryOffset m) ((t.load.weights.drop (queryArg m)).map weightDirEntry).flatten

/-- The window image of the last boundary (R395). -/
def counterImage (s : State) : Bytes :=
  ((List.range 9216).map fun i => toLe 4 (mapGet (fun _ => (0 : Word)) s.plat.counters (0x1000 + 4 * i)).toNat).flatten

/-- READ_COUNTERS (R395). -/
def execReadCounters (s : State) : Result :=
  withFront s .sch (isOp 4) fun m t => .next (replyData t m (counterImage t))

/-! ### Safe state by mailbox (R324, R327, R328) -/

/-- SAFE_REQUEST: OK once the latch is set (R395). -/
def execSafeRequest (s : State) : Result :=
  withFront s .island (isOp 0x51) fun m t =>
    .next (reply (logIsland (enterSafe t 64) (Config.logCode lcSafeRequest) []) m stOk)

/-- An accepted SAFE_CLEAR takes effect: cause, counts and latch clear (R328). -/
def clearSafe (s : State) : State :=
  { s with safety := { s.safety with
      safe := false, cause := 0, present := 0, clearPending := false, missRun := 0, mismatchMask := 0, clean := 0, counted := [] } }

/-- A cause is decided in this AO cycle: SAFE_CLEAR yields to it (R329, R401). -/
def causeNow (s : State) : Bool := decide (s.safety.causeAt = some s.ao) || (decide (lossPolicy s = 2) && lossBy s s.ao)

/-- SAFE_CLEAR (R327, R328). -/
def safeClearRun (s : State) (m : Msg) : State :=
  if ¬s.safety.safe ∨ safeBlock s ≠ 0 ∨ causeNow s then replyInfo s m stSafeClearRefused 0 (toLe 4 (safeBlock s))
  else if s.cyc.dev = .stopped then replyData (clearSafe s) m (toLe 4 0)
  else replyData { s with safety := { s.safety with clearPending := true } } m (toLe 4 0)

def execSafeClear (s : State) : Result :=
  withFront s .island (isOp 0x50) fun m t => .next (safeClearRun t m)

/-! ### Rings and host-loss settings -/

/-- A HEAD beyond its TAIL, or not a multiple of 64, is ignored and counted (R385). -/
def execHeadWrite (off : Nat) (value : Word) (s : State) : Result :=
  if s.boot.inReset || !s.host.linkUp || !decide (off = 0x10 ∨ off = 0x18 ∨ off = 0x20) then .next s
  else if value.toNat % 64 = 0 ∧ serialGe (regNat s (off + 4)) value.toNat then .next (setReg s off value)
  else .next (badAccess s)

/-- HOST_LOSS_CFG (R383, R398): out of range is ignored whole. -/
def execHostLossCfgWrite (value : Word) (s : State) : Result :=
  let v := value.toNat
  if s.boot.inReset || !s.host.linkUp then .next s
  else if v / 2 ^ 30 = 3 ∨ v % 16384 < 10 ∨ 10000 < v % 16384 then .next s
  else if bitsOf v 14 16 ≠ 0 then .fault (.unguarded "R10")
  else .next (setReg s offHostLossCfg value)

/-- NTF for device ring r: 1 REPLY, 2 EVENT, 3 LOG; at most one a µs (R388). -/
def execNtf (ring : Nat) (s : State) : Result :=
  let r := ring - 1
  let free := match s.host.ntfAt.find? (·.1 = r) with
    | some p => decide (p.2 + 100 ≤ s.ao)
    | none => true
  onlyIf s (s.host.linkUp && free && decide (1 ≤ ring ∧ ring ≤ 3) && decide (r ∈ s.host.ntfDue))
    (sendTrans { s with host := { s.host with ntfDue := s.host.ntfDue.filter (· ≠ r),
                                              ntfAt := (r, s.ao) :: s.host.ntfAt.filter (·.1 ≠ r) } } (.ntf ring))

/-! ### Host loss (R398, R399) -/

/-- The timer ran out in an earlier AO cycle: a restart in the cycle of expiry itself counts as in time (R398). -/
def lossDue (s : State) : Bool := decide (0 < s.ao) && lossBy s (s.ao - 1)

/-- HOST_LOSS_EXPIRY (R399). -/
def execHostLossExpiry (s : State) : Result := onlyIf s (lossDue s) (loseHost s)

/-! ### The links (R375, R383) -/

/-- MAINBAND_DOWN (R375). -/
def execMainbandDown (s : State) : Result := onlyIf s s.host.linkUp (dropTransactions s)

/-- MAINBAND_UP: trained at a rate; flit numbers start afresh (R374, R375, log entry 13). -/
def execMainbandUp (rate : Nat) (repaired : Bool) (s : State) : Result :=
  onlyIf s (!s.host.linkUp && decide (rate < 3))
    { s with host := { s.host with linkUp := true, linkRate := rate, linkRepaired := repaired, rxFseq := 0,
                                   rxReplay := false, rxFails := 0, rxBytes := [], txFseq := 0, txKept := [] } }

/-- SIDEBAND_LINK_CHANGE (R383). -/
def execSidebandLinkChange (up : Bool) (s : State) : Result :=
  onlyIf s true { s with host := { s.host with sbUp := up } }

/-! ### The sideband (R380, R381) -/

/-- The AO address space (R381). -/
def aoWord (s : State) (a : Nat) : Nat :=
  if a % 4 ≠ 0 then 0
  else if a < 0x80 then readSafety s a
  else if a = 0x100 then devCode s.cyc.dev + 4 * boolNat s.host.hostLost + 8 * boolNat s.host.linkUp
  else if a = 0x200 then pwrStatus s
  else if a = 0x204 then s.boot.resetCause.toNat
  else if 0x240 ≤ a ∧ a < 0x290 then readPower s (a - 0x200)
  else if 0x400 ≤ a ∧ a < 0x1400 then fieldAt (s.safety.tail.getD ((a - 0x400) / 64) []) ((a - 0x400) % 64) 4
  else 0

/-- The responder answers on the sideband. -/
def aoAnswer (s : State) (v : Nat) : State := { s with out := .aoResponse (BitVec.ofNat 64 v) :: s.out }

def execAoRead (addr : Nat) (s : State) : Result := onlyIf s s.host.sbUp (aoAnswer s (aoWord s addr))

def execAoLogRead (index word : Nat) (s : State) : Result :=
  onlyIf s s.host.sbUp (aoAnswer s (fieldAt (s.safety.tail.getD index []) (8 * word) 8))

def execAoSafeRequest (s : State) : Result :=
  onlyIf s s.host.sbUp (aoAnswer (logIsland (enterSafe s 64) (Config.logCode lcAoSafeRequest) []) 1)

def resetKey : Word := 0x4B595253

/-- AO_RESET_ARM; another datum arms nothing and is answered 0 (log entry 14). -/
def execAoResetArm (data : Word) (s : State) : Result :=
  onlyIf s s.host.sbUp
    (if data = resetKey then aoAnswer { s with host := { s.host with sbArmedAt := some s.ao } } 1 else aoAnswer s 0)

/-- Armed within the last millisecond. -/
def resetArmed (s : State) : Bool :=
  match s.host.sbArmedAt with
  | some t => decide (s.ao ≤ t + 100000)
  | none => false

/-- AO_RESET_GO: answered, then a cold reset (R330, R380, R486). -/
def execAoResetGo (data : Word) (s : State) : Result :=
  onlyIf s s.host.sbUp
    (if data = resetKey ∧ resetArmed s then coldReset (aoAnswer s 1) 4 else aoAnswer s 0)

end Sys2Proof.Machine
end

