-- ==== Sys2Proof/Machine/Dma.lean ====
section
/-! DEFINITION. The DMA engines (R332 to R342, R348, R350). A transfer reads and writes when it completes
(log entry 17). -/

namespace Sys2Proof.Machine

/-! ### Channels -/

/-- A register set that nothing has written (R489). -/
def RegSet.reset : RegSet :=
  { src := 0, dst := 0, length := 0, dctrl := 0, sigTarget := 0, sigCounter := 0, sigInc := 0, highWm := 0, lowWm := 0, next := 0,
    safe := false, owner := (0, 0), pairKey := (0, 0, 0, 0), copy := 0, cycle := 0 }

def Channel.reset (key : Nat) : Channel :=
  { key := key, active := none, shadow := .reset, armed := false, running := false, moved := 0,
    drain := false, drainQueue := none, hop := 0, hopEnd := false, lastStatus := 0, done := 0, shared := false }

def chanGet (s : State) (key : Nat) : Channel := (chanOf s key).getD (.reset key)

def chanInsert (c : Channel) : List Channel → List Channel
  | [] => [c]
  | x :: t => if c.key < x.key then c :: x :: t else x :: chanInsert c t

/-- The channel's new value; a channel at its reset value is not listed. -/
def setChan (s : State) (c : Channel) : State :=
  let rest := s.chans.filter (·.key ≠ c.key)
  { s with chans := if c = .reset c.key then rest else chanInsert c rest }

/-! ### Register sets (R333, R334) -/

def dstKind (r : RegSet) : Nat := bitsOf r.dctrl.toNat 8 2
def dctrlBit (r : RegSet) (i : Nat) : Bool := bitOf r.dctrl.toNat i

/-- The 40-byte image of a set, with the class and the owner it takes (R332, R333). -/
def parseSet (bs : Bytes) (safe : Bool) (owner : Nat × Nat) (pairKey : Nat × Nat × Nat × Nat) (copy : Nat) (cycle : Word) : RegSet :=
  { src := fieldAt bs 0 8, dst := fieldAt bs 8 8, length := fieldAt bs 16 4, dctrl := BitVec.ofNat 32 (fieldAt bs 20 4),
    sigTarget := fieldAt bs 24 1, sigCounter := fieldAt bs 25 1, sigInc := fieldAt bs 26 2, highWm := fieldAt bs 28 2,
    lowWm := fieldAt bs 30 2, next := fieldAt bs 32 8, safe := safe, owner := owner, pairKey := pairKey, copy := copy, cycle := cycle }

/-- Reserved fields, kinds, watermarks, alignment and ranges hold (R333 to R335, R355). -/
def setOk (s : State) (r : RegSet) : Bool :=
  let d := r.dctrl.toNat
  let q := setQueueNo r
  let n := r.length
  let tileOk := fun v : Nat => presentTile s (v / 2 ^ 56) && decide (bitsOf v 20 36 = 0 ∧ v % 64 = 0) && inTile (v % 2 ^ 20) n
      && banksOn s (v / 2 ^ 56) (v % 2 ^ 20) n
  decide (d / 2 ^ 24 = 0 ∧ bitsOf d 16 2 = 0 ∧ bitsOf d 10 2 = 0 ∧ bitsOf d 6 2 = 0 ∧ d % 16 = 0)
    && decide (n % 64 = 0 ∧ 64 ≤ n ∧ n ≤ 2 ^ 24)
    && (match srcKind r with
      | 0 => decide (r.src % 64 = 0) && dmaReadable s r.src n
      | 1 => tileOk r.src
      | 2 => decide (r.src = 0 ∧ q < 14 ∧ 1 ≤ r.lowWm ∧ r.lowWm ≤ r.highWm ∧ r.highWm ≤ queueSize q)
      | _ => false)
    && (fromQueue r || decide (q = 0 ∧ r.highWm = 0 ∧ r.lowWm = 0))
    && (match dstKind r with
      | 0 => decide (r.dst % 64 = 0) && dmaWritable r.dst n
      | 1 => tileOk r.dst
      | _ => false)
    && (dctrlBit r 22 || decide (r.next = 0))
    && (!dctrlBit r 21 || (presentTile s r.sigTarget && decide (r.sigCounter < 32 ∧ 1 ≤ r.sigInc)))

/-! ### Sets taking effect (R336, R341, R342, R348) -/

/-- A set becomes active; DRAIN is carried while the queue stays the same (R348). -/
def activate (c : Channel) (r : RegSet) : Channel :=
  let q := if fromQueue r then some (setQueueNo r) else none
  { c with active := some r, running := false, moved := 0, shared := false,
           drain := c.drain && decide (q = c.drainQueue), drainQueue := q }

/-- The armed shadow becomes the active set; it keeps its content, unarmed (R336). -/
def takeShadow (c : Channel) : Channel :=
  if c.armed then { activate c c.shadow with armed := false, hop := c.shadow.next / 2 ^ 48, hopEnd := false } else c

/-- Shadow written by a DMAREQ (R336); `arm` arms it, at once active when the channel is idle. -/
def writeShadow (s : State) (key : Nat) (r : RegSet) (arm : Bool) : State :=
  let c := { chanGet s key with shadow := r, armed := arm }
  setChan s (if c.active.isNone then takeShadow c else c)

/-- ARM_ONLY arms the shadow's content, for the instance that arms it now (R334, R336). -/
def rearmed (old r : RegSet) : RegSet :=
  { old with safe := r.safe, owner := r.owner, pairKey := r.pairKey, copy := r.copy, cycle := r.cycle }

/-- The queue is no longer being read by the channel. -/
def stopReading (s : State) (key : Nat) (r : RegSet) : State :=
  if fromQueue r ∧ (queueOf s (setQueueNo r)).reading = some key then
    setQueue s (setQueueNo r) fun x => { x with reading := none }
  else s

/-- A set ends with a status other than an OK chain: DONE_BYTES and LAST_STATUS, then the armed shadow
(R338 step 3 and 4, R339). -/
def endSet (s : State) (key status done : Nat) : State :=
  let c := chanGet s key
  let s1 := match c.active with
    | some r => stopReading s key r
    | none => s
  setChan s1 (takeShadow { c with active := none, running := false, moved := 0, shared := false,
                                  lastStatus := status, done := BitVec.ofNat 32 done })

/-! ### Pairing (R350) -/

/-- Two sets are the two copies' sides of one twinned queue transfer. -/
def twinSets (r p : RegSet) : Bool :=
  r.safe && p.safe && fromQueue r && fromQueue p && decide (p.pairKey = r.pairKey ∧ p.copy ≠ r.copy ∧ p.cycle = r.cycle)

/-- The channel whose active set is the other copy's. -/
def partnerOf (s : State) (r : RegSet) : Option Channel :=
  s.chans.find? fun c => match c.active with
    | some p => twinSets r p
    | none => false

/-- The channel in which the other copy's set still waits, armed, as the shadow. -/
def waitingPartner (s : State) (r : RegSet) : Option Nat :=
  (s.chans.find? fun c => c.armed && twinSets r c.shadow).map (·.key)

/-! ### Service order (R337, R348) -/

/-- The pacing rule of a queue source (R348). -/
def paced (s : State) (c : Channel) (r : RegSet) : Bool :=
  let x := queueOf s (setQueueNo r)
  let f := queueUnread x
  (x.fired && decide (0 < f)) || drainNext c r f

/-- A channel is ready (R337); a twinned queue set starts through the HOME copy's channel (R350). -/
def chanReady (s : State) (c : Channel) : Bool :=
  match c.active with
  | none => false
  | some r =>
    if c.running then false
    else if !fromQueue r then true
    else (queueOf s (setQueueNo r)).reading.isNone && paced s c r
      && (!r.safe || (decide (r.copy = 0) && (partnerOf s r).isSome))

/-- The engine serves one channel at a time; the second side of a pair is served by the other engine. -/
def engineBusy (s : State) (e : Nat) : Bool := s.chans.any fun c => decide (c.key / 8 = e) && c.running && !c.shared

/-- The channel of a class that the pointer reaches first. -/
def pickClass (s : State) (e : Nat) (safe : Bool) : Option Nat :=
  let ptr := natGet s.dmaPtr (2 * e + boolNat (!safe))
  ((List.range 8).map fun i => (ptr + i) % 8).find? fun ch =>
    let c := chanGet s (8 * e + ch)
    chanReady s c && (match c.active with | some r => decide (r.safe = safe) | none => false)

/-- engine_pick (R337): SAFE before PLAIN; the pointer moves past the winner. -/
def enginePick (s : State) (e : Nat) : Option (Nat × Nat) :=
  match pickClass s e true with
  | some ch => some (ch, 2 * e)
  | none => match pickClass s e false with
    | some ch => some (ch, 2 * e + 1)
    | none => none

/-- A queue transfer starts: rewind, then mark, then the sample of f (R334, R345, R348, R349). -/
def startQueue (s : State) (key : Nat) (r : RegSet) : State :=
  setQueue s (setQueueNo r) fun x =>
    let x1 := if dctrlBit r 19 then { x with rPtr := x.mPtr } else x
    let x2 := if dctrlBit r 18 then { x1 with mPtr := x1.rPtr, markValid := true } else x1
    { x2 with fired := false, reading := some key }

/-- A bank in retention that the transfer reads or writes (R361). -/
def transferRests (s : State) (c : Channel) (r : RegSet) : Bool :=
  (decide (srcKind r = 1) && banksRest s (r.src / 2 ^ 56) (r.src % 2 ^ 20) (64 * c.moved))
    || (decide (dstKind r = 1) && banksRest s (r.dst / 2 ^ 56) (r.dst % 2 ^ 20) (64 * c.moved))

/-- Its requests wake them. -/
def wakeTransfer (s : State) (c : Channel) (r : RegSet) : State :=
  let s1 := if srcKind r = 1 then wakeBanks s (r.src / 2 ^ 56) (r.src % 2 ^ 20) (64 * c.moved) else s
  if dstKind r = 1 then wakeBanks s1 (r.dst / 2 ^ 56) (r.dst % 2 ^ 20) (64 * c.moved) else s1

/-- A channel's transfer has started: its banks are asked to wake. -/
def wakeStarted (s : State) (key : Nat) : State :=
  match (chanGet s key).active with
  | some r => wakeTransfer s (chanGet s key) r
  | none => s

/-- The chosen channel's transfer starts; a queue source samples its words (R337, R348, R350). -/
def startTransfer (s : State) (key : Nat) : State :=
  let c := chanGet s key
  match c.active with
  | none => s
  | some r =>
    if !fromQueue r then wakeStarted (setChan s { c with running := true, moved := r.length / 64 }) key
    else
      let q := setQueueNo r
      let badMark := dctrlBit r 19 && !(queueOf s q).markValid
      let partner := if r.safe then partnerOf s r else none
      if badMark then
        let s1 := endSet s key 5 0
        match partner with
        | some p => endSet s1 p.key 5 0
        | none => s1
      else
        let s1 := startQueue s key r
        let s2 := if dctrlBit r 19 then drainQueue s1 q else s1
        let n := min (r.length / 64) (queueUnread (queueOf s2 q))
        let s3 := setChan s2 { chanGet s2 key with running := true, moved := n }
        match partner with
        | some p => wakeStarted (wakeStarted (setChan s3 { chanGet s3 p.key with running := true, moved := n, shared := true }) key) p.key
        | none => wakeStarted s3 key

/-- A service decision of an engine, its pointer moved: its channels' readiness is evaluated (R348). -/
def serviceDecision (s : State) (e ptr ch : Nat) : State :=
  drainWhere { s with dmaPtr := natSet s.dmaPtr ptr ((ch + 1) % 8) } fun c _ => decide (c.key / 8 = e)

/-- The engine's channels are evaluated at a service decision that finds none ready (R348). -/
def idleDecision (s : State) (e : Nat) : State := drainWhere s fun c _ => decide (c.key / 8 = e)

/-- DMA_TRANSFER_START (R337). -/
def execDmaTransferStart (engine : Nat) (s : State) : Result :=
  match enginePick s engine with
  | none => onlyIf s (!engineBusy s engine) (idleDecision s engine)
  | some (ch, ptr) =>
    onlyIf s (!engineBusy s engine) (startTransfer (serviceDecision s engine ptr ch) (8 * engine + ch))

/-! ### Moving the words -/

/-- The memory key of source line i. -/
def lineKey (r : RegSet) (i : Nat) : Nat :=
  if srcKind r = 1 then tileBase (r.src / 2 ^ 56) + r.src % 2 ^ 20 + 64 * i else devKey (r.src + 64 * i)

/-- The words a transfer reads, each 64 bytes with its valid count (R344). -/
def sourceWords (s : State) (c : Channel) (r : RegSet) : List (Bytes × Nat) :=
  if fromQueue r then
    let x := queueOf s (setQueueNo r)
    (x.words.drop (x.rPtr - x.bPtr).toNat).take c.moved
  else
    (List.range c.moved).map fun i => (memRead s.mem (lineKey r i) 64, 64)

/-- What the transfer reads is corrected and counted (R362). -/
def correctSource (s : State) (c : Channel) (r : RegSet) : State :=
  if fromQueue r then
    (List.range c.moved).foldl (fun t i =>
      correctRead t (queueKey (setQueueNo r) ((queueOf s (setQueueNo r)).rPtr + BitVec.ofNat 32 i)) 64) s
  else (List.range c.moved).foldl (fun t i => correctRead t (lineKey r i) 64) s

/-- The memory key of the transfer's destination. -/
def destKey (r : RegSet) : Nat := if dstKind r = 1 then tileBase (r.dst / 2 ^ 56) + r.dst % 2 ^ 20 else r.dst

/-- The words land at the destination. -/
def landWords (s : State) (r : RegSet) (w : List (Bytes × Nat)) : State := devWrite s (destKey r) (w.map (·.1)).flatten

/-- The read position passes n words, and the unread count falls by as much. -/
def passWords (s : State) (q n : Nat) : State :=
  drainQueue (setQueue s q fun x => { x with rPtr := x.rPtr + BitVec.ofNat 32 n, timerAt := s.ao }) q

/-- The read position passes the words, the read timer restarts, and DRAIN follows from the first word to the last
(R345, R348, R349). -/
def advanceRead (s : State) (r : RegSet) (n : Nat) : State :=
  if fromQueue r ∧ 0 < n then passWords (passWords s (setQueueNo r) 1) (setQueueNo r) (n - 1) else s

/-- The first source line in error, if any (R339). -/
def badLine (s : State) (c : Channel) (r : RegSet) : Option Nat :=
  if fromQueue r then none
  else
    (List.range c.moved).find? fun i =>
      if srcKind r = 1 then badRead s (lineKey r i) 64 else badDev s (r.src + 64 * i) 64

/-! ### Tokens (R88) -/

def tokenOf (s : State) (tile counter : Nat) : Half := halfGet s.disp.tokens (32 * tile + counter)

/-- A counter gains n and saturates (R88). -/
def addToken (s : State) (tile counter n : Nat) : State :=
  let v := min 65535 ((tokenOf s tile counter).toNat + n)
  { s with disp := { s.disp with tokens := halfSet s.disp.tokens (32 * tile + counter) (BitVec.ofNat 16 v) } }

/-! ### Completion (R338, R341, R342) -/

/-- The signal of an OK completion: it adds to its counter whoever else uses it, and after the boundary of the cycle that armed the
set too, uses that R88 leaves unguarded: DESIGN CHOICE (log entry 61). -/
def signalSet (s : State) (r : RegSet) : State :=
  if dctrlBit r 21 then addToken s r.sigTarget r.sigCounter r.sigInc else s

/-- The set at NEXT, with the class and owner of the set that loads it. -/
def chainedSet (s : State) (r : RegSet) : RegSet :=
  parseSet (memRead s.mem (devKey (r.next % 2 ^ 48)) 40) r.safe r.owner r.pairKey r.copy r.cycle

/-- OK: DONE_BYTES, LAST_STATUS, then the armed shadow or the chain (R336, R338, R341, R342). -/
def finishOk (s : State) (key done : Nat) : Attempt :=
  let c := chanGet s key
  match c.active with
  | none => .ok s
  | some r =>
    let c1 := { c with active := none, running := false, moved := 0, shared := false, lastStatus := 0,
                       done := BitVec.ofNat 32 done }
    let s1 := stopReading s key r
    if c.armed then .ok (setChan s1 (takeShadow c1))
    else if !dctrlBit r 22 then .ok (setChan s1 c1)
    else if c.hop = 1 then .ok (setChan s1 { c1 with hop := 0, hopEnd := true })
    else if r.next % 64 ≠ 0 ∨ !dmaReadable s (r.next % 2 ^ 48) 40 then .error "R355"
    else if badDev s (r.next % 2 ^ 48) 40 then
      .ok (setChan (devUe s1 (firstBadDev s (r.next % 2 ^ 48) 40)) { c1 with lastStatus := 4 })
    else
      let nx := chainedSet s r
      let s2 := correctRead s1 (devKey (r.next % 2 ^ 48)) 40
      if setOk s nx then .ok (setChan s2 { activate c1 nx with hop := c.hop - 1 }) else .error "R355"

/-- The fault of a source line in error, and its word (R339, R363). Where in its memory a queue keeps a word is not given
(log entry 9). -/
def sourceFault (s : State) (r : RegSet) (line : Nat) : State :=
  if fromQueue r then
    raiseOpenFault (eccReport s 4 (queueUnit (setQueueNo r)) (Config.freeNat 75 s.disp.freeCtr)) (fsQueue (setQueueNo r)) fQueueEcc
  else if srcKind r = 1 then
    let a := r.src % 2 ^ 20 + 64 * line
    let t := r.src / 2 ^ 56
    tileStoreUe s t (firstBad s (tileBase t + a) 64 - tileBase t)
  else devUe s (firstBadDev s (r.src + 64 * line) 64)

/-- The read-back of the last line written returns and matches (R338): one side of the transfer. -/
def completeSide (s : State) (key : Nat) (w : List (Bytes × Nat)) (release : Bool) : Attempt :=
  let c := chanGet s key
  match c.active with
  | none => .ok s
  | some r =>
    let s1 := signalSet (landWords s r w) r
    let s2 := if release && fromQueue r && dctrlBit r 20 then releaseQueue s1 (setQueueNo r) else s1
    finishOk s2 key ((w.map (·.2)).sum)

/-- The other side of a twinned transfer (R350). -/
def otherSide (s : State) (c : Channel) : Option Nat := c.active.bind fun r => (partnerOf s r).map (·.key)

/-- The sets that end with a transfer. -/
def sidesOf (s : State) (key : Nat) : Nat := if (otherSide s (chanGet s key)).isSome then 2 else 1

/-- A set that waits, armed, as a shadow ends with a status: it is disarmed. -/
def endWaiting (s : State) (key status : Nat) : State :=
  setChan s { chanGet s key with armed := false, lastStatus := status, done := 0 }

/-- Both sides end with one status, the other one also where it still waits as an armed shadow (R350). -/
def endBoth (s : State) (key status done : Nat) : State :=
  match otherSide s (chanGet s key), (chanGet s key).active.bind (waitingPartner s) with
  | some k, _ => endSet (endSet s key status done) k status done
  | none, some k => endWaiting (endSet s key status done) k status
  | none, none => endSet s key status done

/-- Words land at both destinations, and the queue's read position passes them. -/
def landSides (s : State) (key : Nat) (w : List (Bytes × Nat)) : State :=
  match (chanGet s key).active with
  | none => s
  | some r =>
    let s1 := landWords (advanceRead s r w.length) r w
    match (otherSide s (chanGet s key)).bind fun k => (chanGet s k).active with
    | some p => landWords s1 p w
    | none => s1

/-- The transfer stops after source line l, which is written as zeros: ERR_ECC (R339). -/
def stopAtLine (s : State) (key l : Nat) : State :=
  let c := chanGet s key
  match c.active with
  | none => s
  | some r =>
    let all := sourceWords s c r
    let w := all.take l ++ [(zeros 64, (all.getD l ([], 64)).2)]
    endBoth (landSides (sourceFault s r l) key w) key 4 ((w.map (·.2)).sum)

/-- How much a transfer that is cut short has moved is not given: a free count of the words before the first in error
(R339, R340, log entry 17). -/
def cutWords (s : State) (c : Channel) (r : RegSet) : List (Bytes × Nat) :=
  (sourceWords s c r).take (Config.freeNat 74 s.disp.freeCtr % ((badLine s c r).getD c.moved + 1))

/-- A set ends ERR_TIMEOUT, ERR_QUEUE or ABORTED; what it has moved by then stays moved (R339, R340, R350). -/
def cutTransfer (s : State) (key status : Nat) : State :=
  let c := chanGet s key
  match c.active with
  | none => s
  | some r =>
    if !c.running then endBoth s key status 0
    else
      let w := cutWords s c r
      endBoth (tickFree (landSides s key w)) key status ((w.map (·.2)).sum)

/-- A running transfer's read-back returns (R338, R339, R350). The HOME side of a pair carries both. -/
def completeTransfer (s : State) (key : Nat) : Attempt :=
  let c := chanGet s key
  match c.active with
  | none => .ok s
  | some r =>
    match badLine s c r with
    | some l => .ok (stopAtLine s key l)
    | none =>
      let w := sourceWords s c r
      let other := otherSide s c
      let s1 := advanceRead (correctSource s c r) r w.length
      match other with
      | none => completeSide s1 key w true
      | some k => (completeSide s1 key w true).bind fun t => completeSide t k w false

/-- The read-back differs: the words were sent, the last line reads as something else; both sides end
ERR_READBACK without signal or release (R339, R350). -/
def failReadback (s : State) (key : Nat) : State :=
  let c := chanGet s key
  match c.active with
  | none => s
  | some r =>
    let w := sourceWords s c r
    let s1 := landSides s key w
    let s2 := if w = [] then s1 else devScramble s1 (destKey r + 64 * (w.length - 1)) 64
    let s3 := raiseOpenFault (addReg s2 offDmaRbErrors (sidesOf s key)) (fsDma (key / 8)) fDmaReadback
    endBoth s3 key 2 ((w.map (·.2)).sum)

/-- The transfer waits for a bank in retention, its own or the other side's (R361). -/
def sideRests (s : State) (key : Nat) : Bool :=
  match (chanGet s key).active with
  | some r => transferRests s (chanGet s key) r
  | none => false

def completeRests (s : State) (key : Nat) : Bool :=
  sideRests s key || (match otherSide s (chanGet s key) with | some k => sideRests s k | none => false)

/-- DMA_COMPLETE (R338). The second side of a pair completes with the first; only its mismatch acts. -/
def execDmaComplete (engine channel : Nat) (readbackOk : Bool) (s : State) : Result :=
  let key := 8 * engine + channel
  let c := chanGet s key
  if s.boot.inReset || !c.running || completeRests s key then .next s
  else if !readbackOk then .next (failReadback s key)
  else if c.shared then .next s
  else ofAttempt (completeTransfer s key)

/-- The timeout may be that of the chain load, after the set itself has completed (R339); which one it is, is not given. -/
def chainTimesOut (s : State) (key : Nat) : Bool :=
  let c := chanGet s key
  match c.active with
  | none => false
  | some r => dctrlBit r 22 && !c.armed && decide (c.hop ≠ 1) && (otherSide s c).isNone && (badLine s c r).isNone
      && decide (Config.freeNat 76 s.disp.freeCtr % 2 = 1)

/-- The set completes, its chain is not followed, and LAST_STATUS is ERR_TIMEOUT. -/
def timeoutChain (s : State) (key : Nat) : Attempt :=
  let c := chanGet s key
  match c.active with
  | none => .ok s
  | some r => (completeTransfer (setChan s { c with active := some { r with dctrl := r.dctrl &&& ~~~(0x400000#32) } }) key).map
      fun t => setChan t { chanGet t key with lastStatus := 1 }

/-- A timeout is counted for a set that ends, and reported with engine, channel and address (R339, R353). How the three are
laid out is a DESIGN CHOICE (log entry 8); which address did not answer is not given (log entry 9). -/
def noteTimeout (s : State) (key : Nat) : State :=
  tickFree (sendEvent (bumpReg s offDmaTimeouts) 0x0004
    (toLe 1 (key / 8) ++ toLe 1 (key % 8) ++ toLe 6 (Config.freeNat 77 s.disp.freeCtr)))

/-- Both sets of a pair that times out are reported (R350). -/
def noteTimeouts (s : State) (key : Nat) (other : Option Nat) : State :=
  match other with
  | some k => noteTimeout (noteTimeout s key) k
  | none => noteTimeout s key

/-- DMA_TIMEOUT (R339). -/
def execDmaTimeout (engine channel : Nat) (s : State) : Result :=
  let key := 8 * engine + channel
  if s.boot.inReset || !(chanGet s key).running then .next s
  else if chainTimesOut s key then ofAttempt ((timeoutChain s key).map fun t => noteTimeout t key)
  else .next (noteTimeouts (cutTransfer s key 1) key (otherSide s (chanGet s key)))

/-- DMA_ERR_ECC: source line `line` of the transfer is in error (R339). -/
def execDmaErrEcc (engine channel line : Nat) (s : State) : Result :=
  let key := 8 * engine + channel
  onlyIf s ((chanGet s key).running && decide (line < (chanGet s key).moved)) (stopAtLine s key line)

/-! ### Aborts and resets (R340, R346) -/

/-- The set was armed by this instance (R340). -/
def armedBy (r : RegSet) (i : Inst) (cycle : Word) : Bool :=
  decide (r.owner = (i.tile, i.ctx) ∧ r.pairKey.1 = i.task.taskId ∧ r.pairKey.2.1 = i.batch ∧ r.cycle = cycle)

/-- An armed shadow is disarmed; the other copy's side of its pair ends with it (R340, R350). -/
def disarm (s : State) (key : Nat) : State :=
  let c := chanGet s key
  let s1 := setChan s { c with armed := false }
  match partnerOf s c.shadow, waitingPartner s1 c.shadow with
  | some p, _ => cutTransfer s1 p.key 6
  | none, some k => endWaiting s1 k 6
  | none, none => s1

/-- One channel's part of an abort: shadow disarmed, active set ended ABORTED (R340). -/
def abortChannel (i : Inst) (s : State) (key : Nat) : State :=
  let c := chanGet s key
  let s1 := if c.armed && armedBy c.shadow i s.cyc.seq then disarm s key else s
  match (chanGet s1 key).active with
  | some r => if armedBy r i s.cyc.seq then cutTransfer s1 key 6 else s1
  | none => s1

/-- The engines act on every set the instance armed (R340). -/
def abortSets (s : State) (i : Inst) : State := (s.chans.map (·.key)).foldl (abortChannel i) s

/-- QUEUE_RESET (R346): a pointer and its complement differ. -/
def execQueueReset (queue : Nat) (s : State) : Result :=
  let x := queueOf s queue
  let s1 := match x.reading with
    | some key => cutTransfer s key 3
    | none => s
  let s2 := addReg s1 (offQLost queue) (queueHeld x)
  let s3 := setQueue s2 queue fun y => { y with words := [], wPtr := 0, rPtr := 0, mPtr := 0, markValid := false,
                                                bPtr := 0, frames := [], reading := none }
  let s4 := { s3 with cyc := { s3.cyc with
    queueBytes := natSet s3.cyc.queueBytes queue (natGet s3.cyc.queueBytes queue + (x.words.map (·.2)).sum) } }
  onlyIf s (decide (queue < 14)) (raiseOpenFault (drainQueue s4 queue) (fsQueue queue) fQueuePtr)

end Sys2Proof.Machine
end

