-- ==== Sys2Proof/Machine/Hold.lean ====
section
/-! DEFINITION. Epoch holds and the slots that dead epochs free (R146 to R149). The epoch table lists live
epochs, oldest first. -/

namespace Sys2Proof.Machine

def epochOf (s : State) (n : Nat) : Option Epoch := (s.world.table.find? (·.2.num = n)).map (·.2)

def mapEpoch (s : State) (n : Nat) (f : Epoch → Epoch) : State :=
  { s with world := { s.world with table := s.world.table.map fun p => if p.2.num = n then (p.1, f p.2) else p } }

/-- A reader holds epoch n (R146). -/
def holdEpoch (s : State) (n : Nat) : State := mapEpoch s n fun e => { e with holds := e.holds + 1 }

/-- Dead epochs leave the table. Their superseded slots pass to the next newer live epoch, and those of the
oldest live epoch are free (R148, R149): the remaining table and the freed slots. -/
def reapTable (newest : Nat) : Bool → List Nat → List (Nat × Epoch) → List (Nat × Epoch) × List Nat
  | _, carry, [] => ([], carry)
  | first, carry, (i, e) :: t =>
    let sup := carry ++ e.superseded
    if e.num = newest ∨ 0 < e.holds then
      if first then
        let r := reapTable newest false [] t
        ((i, { e with superseded := [] }) :: r.1, sup ++ r.2)
      else
        let r := reapTable newest false [] t
        ((i, { e with superseded := sup }) :: r.1, r.2)
    else reapTable newest first sup t

/-- Slots return to the free map (R149). -/
def freeSlots (w : World) (l : List Nat) : World := { w with freed := l.foldl (fun f x => sortedInsert x f) w.freed }

def reapEpochs (s : State) : State :=
  let r := reapTable s.world.newest true [] s.world.table
  { s with world := freeSlots { s.world with table := r.1 } r.2 }

/-- A hold on epoch n ends (R146, R149). -/
def dropHold (s : State) (n : Nat) : State := reapEpochs (mapEpoch s n fun e => { e with holds := e.holds - 1 })

end Sys2Proof.Machine
end

