-- ==== Sys2Proof/Machine/Release.lean ====
section
/-! DEFINITION. The emit unit and the release of the cycle's one record (R239 to R244, R305, R307, R320,
R399). -/

namespace Sys2Proof.Machine

/-- The AO cycle of the deadline (R307), and of the cut (R230, R231). -/
def deadlineAo (s : State) : Nat := s.cyc.startAo + 100 * s.cyc.params.deadline
def cutAo (s : State) : Nat := s.cyc.startAo + 100 * (s.cyc.params.deadline - s.cyc.params.emitMargin)

/-! ### The plan item (R239, R240) -/

/-- The epoch newest at a phase's release in the cycle (R240, R277). -/
def epochAtRelease (s : State) (phase : Nat) : Option Nat :=
  match s.cyc.phaseEpoch.find? (·.1 = phase) with
  | some p => some p.2
  | none => none

def itemVerdict (item : Bytes) : Bytes := sliceOf item 0x10 16
def itemCandidate (item : Bytes) : Bytes := item.drop 0x20

/-- Every condition of R240 on a PLAN item. -/
def itemAdmitted (s : State) (item : Bytes) : Bool :=
  let v := itemVerdict item
  let cand := itemCandidate item
  let vflags := fieldAt v 7 1
  let p := s.cyc.params
  decide (fieldAt v 0 4 = fieldAt cand 0 4) && decide (fieldAt v 4 1 = fieldAt cand 4 1)
    && bitOf vflags 4 && !bitOf vflags 0 && !bitOf vflags 1
    && decide (fieldAt v 5 1 ≤ p.recheckAccept) && decide (p.minClear ≤ fieldAt v 6 1)
    && (match epochAtRelease s 8 with | some e => serialGe (fieldAt v 0x0C 4) e | none => false)
    && decide (fieldAt cand 0x0C 4 = fieldAt (profileSlot s p.profileSlot) 0 4)

/-! ### Latigo's record (R242, R243, R320) -/

/-- Latigo has ended, with or without a usable record. -/
def latigoEnded (s : State) : Bool := s.lat.complete || s.lat.failed || s.lat.blocked

def latigoRecord (s : State) : Released :=
  buildRecord s (currentSlot s) { state := 1, source := 1, cause := causeBits s, recheckEpoch := s.lat.epoch }
    0xFF 0xFF s.lat.traj

/-- Latigo's record falls due: released DEGRADED, or its failure is a safe-state cause (R242, R320). -/
def latigoDue (s : State) : State :=
  if s.lat.complete && !s.lat.failed && !s.lat.blocked then releaseRecord s (latigoRecord s)
  else if s.lat.blocked && !s.lat.failed then enterSafe s 8
  else enterSafe s 4

/-- The primary is NONE, refused or lost to a mismatch: Latigo's record at the later of the refusal and its
completion. In replay a recorded MISS waits for Latigo alone (R292). -/
def latigoIfDue (s : State) : State :=
  if s.cyc.inCycle && s.cyc.record.isNone && !s.safety.safe && decide (s.cyc.item = .refused) && latigoEnded s
  then latigoDue s else s

/-- The primary is refused (R241, R242). -/
def refuseItem (s : State) : State := latigoIfDue { s with cyc := { s.cyc with item := .refused } }

/-- The emit unit takes the cycle's plan item (R239, R240). -/
def takePlanItem (s : State) (item : Bytes) : State :=
  let s1 := { s with cyc := { s.cyc with planSeen := true,
                                         refineDropped := s.cyc.refineDropped || bitOf (fieldAt item 3 1) 1 } }
  if fieldAt item 0 1 = 1 then refuseItem { s1 with cyc := { s1.cyc with noPlan := true } }
  else if itemAdmitted s item then { s1 with cyc := { s1.cyc with item := .admitted item } }
  else refuseItem { s1 with cyc := { s1.cyc with refusedItem := true } }

/-! ### Grant (R241, R305, R399) -/

/-- A SAFE instance of the phases INGEST to EMIT is still to be stitch-checked: its entry is unresolved, or it waits in a
ready list (R241, R305). -/
def stitchOpen (s : State) : Bool :=
  s.safety.stitch.any (fun e => decide (e.phase ≤ 9))
    || s.disp.ready.any fun e => e.task.safe && decide (e.task.phase ≤ 9 ∧ e.pending ≠ [])

/-- An unresolved ESTIMATE entry may still mismatch in this AO cycle, before which no request is judged (R250). -/
def mayMismatch (s : State) : Bool := s.safety.stitch.any fun e => decide (9 < e.phase)

/-- The deadline has not passed; replay has none (R241, R292). -/
def inTime (s : State) : Bool := decide (s.cyc.dev = .replay) || (!s.cyc.deadlineDone && decide (s.ao < deadlineAo s))

/-- The cycle that replay repeats recorded a MISS (R292). -/
def missForced (s : State) : Bool :=
  match s.rep with
  | some r => match r.packages.find? (·.index = r.index) with
    | some p => decide (s.cyc.dev = .replay) && bitOf (fieldAt p.header 0x1E 2) 7
    | none => false
  | none => false

/-- The conditions of R241 apart from the safe state. -/
def grantable (s : State) : Bool :=
  inTime s && !missForced s && s.cyc.record.isNone && !s.cyc.stitchRefuse

/-- The record of a granted primary: DEGRADED while DEGRADE_AFTER is in force (R243, R246, R247, R399). -/
def primaryRecord (s : State) (item : Bytes) : Released :=
  let rank := fieldAt item 1 1
  buildRecord s (currentSlot s)
    { state := if s.host.hostLost ∧ s.host.lostPolicy = 1 then 1 else 0, source := 0,
      cause := causeBits s + (if 0 < rank then 8 else 0), recheckEpoch := fieldAt (itemVerdict item) 0x0C 4 }
    rank (fieldAt item 2 1) (itemCandidate item)

/-- The trace record of a grant or refusal (R413). -/
def traceGrant (s : State) (granted : Bool) : State :=
  traceRec s 7 0 (causeBits s) s.cyc.seq.toNat (boolNat granted)

/-- The release request is judged: every SAFE entry is resolved (R241, R327). -/
def judgeRelease (s : State) (item : Bytes) : State :=
  if !grantable s then refuseItem (traceGrant s false)
  else
    let s1 := { s with safety := { s.safety with primaryOk := true } }
    if s.safety.safe then refuseItem (traceGrant s1 false)
    else
      let s2 := releaseRecord (traceGrant s1 true) (primaryRecord s1 item)
      { s2 with cyc := { s2.cyc with item := .granted } }

/-- RELEASE_REQUEST (R241, R250, R305): a request in time waits while SAFE entries are unresolved, to the end of its AO
cycle for those of ESTIMATE. -/
def execReleaseRequest (s : State) : Result :=
  match s.cyc.item with
  | .admitted item =>
    onlyIf s s.cyc.inCycle
      (if inTime s && (stitchOpen s || mayMismatch s) then { s with cyc := { s.cyc with item := .waiting item } }
       else judgeRelease s item)
  | _ => .next s

/-- The last SAFE entry resolves: a waiting request is judged (R305). -/
def judgeIfWaiting (s : State) : State :=
  match s.cyc.item with
  | .waiting item => if stitchOpen s then s else judgeRelease s item
  | _ => s

/-- A mismatch refuses an item that has not been granted, when it is judged (R241, R250, R305). -/
def mismatchRefuses (s : State) : State := { s with cyc := { s.cyc with stitchRefuse := true } }

/-! ### A miss, and the end of Latigo (R242, R292, R307) -/

/-- MISS (R247, R307, R321): counted, the third in a row is a cause. -/
def markMiss (s : State) : State :=
  let n := min 255 (s.safety.missRun + 1)
  let s1 := { s with cyc := { s.cyc with miss := true, noPlan := s.cyc.noPlan || !s.cyc.planSeen }
                     safety := { s.safety with missRun := n } }
  if 3 ≤ n then enterSafe s1 1 else s1

/-- Latigo has ended: its record is released when due (R242, R250, R292). -/
def afterLatigo (s : State) : State :=
  if missForced s then
    let s1 := if s.cyc.miss then s else markMiss s
    if s1.cyc.record.isSome then s1
    else if s1.safety.safe then releaseRecord s1 (invalidRecord s1) else latigoDue s1
  else if s.cyc.deadlineDone && s.cyc.record.isNone && !s.safety.safe then latigoDue s
  else latigoIfDue s

end Sys2Proof.Machine
end

