-- ==== Sys2Proof/Machine/Inst.lean ====
section
/-! DEFINITION. Task instances on execution contexts (R41): how one ends (R86, R258, R299, R302), quarantine
(R50, R322) and the stitch check (R303, R305, R321). -/

namespace Sys2Proof.Machine

/-! ### Instances -/

/-- The instance running on a context. -/
def instOf (s : State) (tile ctx : Nat) : Option Inst :=
  s.disp.running.find? fun i => decide (i.tile = tile ∧ i.ctx = ctx)

def setInst (s : State) (i : Inst) : State :=
  { s with disp := { s.disp with
    running := s.disp.running.map fun j => if j.tile = i.tile ∧ j.ctx = i.ctx then i else j } }

/-- The context (2 × tile + context) of an instance. -/
def ctxKey (i : Inst) : Nat := 2 * i.tile + i.ctx

/-- How soon a rotating pointer reaches a context. -/
def ctxRank (ptr key : Nat) : Nat := (key + 512 - ptr) % 512

/-- The cut acts on the instance's SWEEPs: those of CHECK instances (R236). -/
def cutsSweeps (i : Inst) : Bool := i.cut && decide (i.task.phase = 4)

/-- The cut acts on the instance's solves: those of REFINE instances (R236). -/
def cutsSolves (i : Inst) : Bool := i.cut && decide (i.task.phase = 7)

/-- Completion statuses (R258). -/
def csOk : Nat := 0
def csReinOverrun : Nat := 1
def csQuarantined : Nat := 2
def csDeadlineAbort : Nat := 3
def csTileFault : Nat := 4

/-- A completion record's 16 bytes (R258). -/
def completionBytes (c : Completion) : Bytes :=
  toLe 2 c.taskId ++ toLe 2 c.batch ++ toLe 1 c.tile ++ toLe 1 c.copy ++ toLe 1 c.status ++ [c.flags]
    ++ toLe 4 c.cycles ++ toLe 4 c.charge

/-- A signature record's 24 bytes (R302). -/
def sigBytes (r : SigRec) : Bytes :=
  toLe 2 r.taskId ++ toLe 2 r.batch ++ toLe 1 r.tile ++ toLe 1 r.copy ++ toLe 1 r.status ++ zeros 1
    ++ toLe 4 r.len ++ toLe 4 r.seq.toNat ++ toLe 8 r.crc.toNat

/-- Contributions in list order (R103). -/
def sigInsert (p : Nat × Bytes) : List (Nat × Bytes) → List (Nat × Bytes)
  | [] => [p]
  | q :: t => if p.1 < q.1 then p :: q :: t else q :: sigInsert p t

def signatureInput (i : Inst) : Bytes := (i.sigs.map (·.2)).flatten

/-- The signature record of a SAFE copy that ends (R301, R302). -/
def sigRecord (s : State) (i : Inst) (status : Nat) : SigRec :=
  let bytes := signatureInput i
  { taskId := i.task.taskId, batch := i.batch, tile := i.tile, copy := i.copy, status := status, len := bytes.length,
    seq := s.cyc.seq, crc := if status = csOk then BitVec.ofNat 64 (crc64 bytes) else 0 }

/-- An instance has ended with a status: completion record, signature record, hold, log and trace (R86, R146,
R258, R302, R413). TILE_CYCLES is not given (R278; log entry 9). -/
def finishInst (s : State) (i : Inst) (status : Nat) : State :=
  let c : Completion :=
    { taskId := i.task.taskId, batch := i.batch, tile := i.tile, ctx := i.ctx, copy := i.copy, status := status,
      flags := i.flags, cycles := Config.freeNat 2 s.disp.freeCtr, charge := i.charge }
  let s1 := tickFree (setInst s { i with finished := true, inflight := [], sweeps := [], solve := none, mm := none })
  let s2 := { s1 with
    disp := { s1.disp with compQ := s1.disp.compQ ++ [(i.tile / 16, c)] }
    safety := { s1.safety with
      sigQ := if i.task.safe then s1.safety.sigQ ++ [(i.tile / 16, sigRecord s i status)] else s1.safety.sigQ } }
  let s3 := dropHold s2 i.epoch
  let s4 := if status = csOk then s3 else logNow s3 (Config.logCode (16 + status)) srcDispatch (completionBytes c)
  traceRec s4 2 i.tile i.task.taskId status c.cycles

/-! ### Aborts (R86, R123, R244, R280, R299, R340) -/

/-- The weight bus drops the instance's entries and clears the FULL flags it set for it (R123). -/
def dropStream (s : State) (i : Inst) : State :=
  setInst { s with disp := { s.disp with full := i.slots.foldl (fun m x => boolSet m (8 * i.tile + x) false) s.disp.full } }
    { i with stream := [] }

/-- Only Rein and quarantine make the bus do so; otherwise what is pending stays pending up to the boundary. -/
def endStream (s : State) (i : Inst) (status : Nat) : State :=
  if status = csReinOverrun ∨ status = csQuarantined then dropStream s i else s

/-- What an aborted instance has written holds unspecified values (R86). -/
def scrambleOutputs (s : State) (i : Inst) : State :=
  i.wrote.foldl (fun t w => devScramble t (tileBase i.tile + w.1) w.2) s

/-- Holds of SWEEPs with EPOCH_SEL = 1 end (R146). -/
def dropSweepHolds (s : State) (i : Inst) : State :=
  i.sweeps.foldl (fun t w => if w.ownHold then dropHold t w.epoch else t) s

def addFact (s : State) (f : Fact) : State := { s with cyc := { s.cyc with facts := s.cyc.facts ++ [f] } }

/-- The ABORT entry of R280. -/
def abortFact (i : Inst) (status : Nat) : Fact :=
  { kind := 6, copy := i.copy, taskId := i.task.taskId, batch := i.batch, desc := 0xFFFF, valA := status, valB := 0 }

/-- The instance is aborted with a status. -/
def abortInst (s : State) (i : Inst) (status : Nat) : State :=
  let s1 := dropSweepHolds (endStream (abortSets s i) i status) i
  let j := (instOf s1 i.tile i.ctx).getD i
  finishInst (addFact (scrambleOutputs s1 i) (abortFact i status)) j status

/-- Abort whatever still runs on a context. -/
def abortAt (s : State) (tile ctx status : Nat) : State :=
  match instOf s tile ctx with
  | some i => if i.finished then s else abortInst s i status
  | none => s

/-! ### Quarantine (R50, R322) -/

/-- The tile takes no further dispatch, its instances are aborted, and its name is due for substitution. -/
def quarantineCore (s : State) (t : Nat) : State :=
  let s1 := { s with disp := { s.disp with quarantined := addOnce s.disp.quarantined t } }
  pendSubst (abortAt (abortAt s1 t 0 csQuarantined) t 1 csQuarantined) t

/-- Tiles that ran a copy in two or more of the counted outcomes (R322). -/
def repeatTiles (l : List (Word × List Nat)) : List Nat :=
  let all := (l.map (·.2)).flatten
  sortNat (all.filter fun t => decide (2 ≤ (l.filter fun o => decide (t ∈ o.2)).length))

/-- The counted outcomes still within 64 cycles (R321). -/
def countedNow (s : State) : List (Word × List Nat) :=
  s.safety.counted.filter fun o => decide ((BitVec.ofNat 32 s.plat.boundaries - o.1).toNat ≤ 63)

/-- One MISMATCH or INCOMPLETE outcome of a pair that ran on the given tiles: counted; the second within 64
cycles quarantines and is the cause MISMATCH2 (R321 to R324). -/
def countCore (s : State) (tiles : List Nat) : State :=
  let s1 := { s with
    cyc := { s.cyc with stitchBad := true }
    safety := { s.safety with mismatchNow := s.safety.mismatchNow + 1,
                              counted := (BitVec.ofNat 32 s.plat.boundaries, tiles) :: countedNow s } }
  if 2 ≤ mismatch64 s1 then
    let again := repeatTiles s1.safety.counted
    enterSafe ((if again = [] then sortNat tiles else again).foldl quarantineCore s1) 2
  else s1

/-! ### The end of Latigo's pair (R303, R317, R320) -/

/-- The run is over: its holds end. -/
def endLatigo (s : State) : State :=
  dropHold (tickFree { s with lat := { s.lat with running := false } }) s.lat.epoch

/-- A MISMATCH or INCOMPLETE of Latigo's pair, counted in the register at off: both records are its lists' own (log entry
39). The primary is not refused for it. -/
def latigoFails (s : State) (off : Nat) : State :=
  let r := Config.eventData (0x20000 + lcMismatchPair) s.disp.freeCtr
  let s1 := raiseFault (bumpReg (bumpReg s offStitchPairs) off) fsStitch fStitch (r ++ r)
  let s2 := logIsland (logIsland s1 (Config.logCode lcMismatchPair) r) (Config.logCode lcMismatchPair) r
  countCore { s2 with lat := { s2.lat with failed := true } } (latigoTiles s)

/-- A copy of a running Latigo is aborted: the pair resolves INCOMPLETE (R303, R320, R323). -/
def latigoIncomplete (s : State) : State :=
  if s.lat.running then afterLatigo (endLatigo (latigoFails s offStitchIncomplete)) else s

/-- A tile of a running Latigo has been quarantined. -/
def latigoHit (s : State) : State :=
  if s.lat.running && (latigoTiles s).any (fun t => decide (t ∈ s.disp.quarantined)) then latigoIncomplete s else s

/-- Quarantine of a tile (R50, R322). -/
def quarantineTile (s : State) (t : Nat) : State := latigoHit (quarantineCore s t)

/-- An outcome of a task's pair. -/
def countOutcome (s : State) (tiles : List Nat) : State := latigoHit (countCore s tiles)

/-! ### The comparator (R303) -/

/-- How an entry resolves. -/
inductive StitchOutcome where
  | pass | mismatch | incomplete | dropped
  deriving DecidableEq, Repr

def badStatus (n : Nat) : Bool := decide (n = csReinOverrun ∨ n = csQuarantined ∨ n = csTileFault)

def stitchOutcome (a b : SigRec) : StitchOutcome :=
  if badStatus a.status || badStatus b.status then .incomplete
  else if a.status = csDeadlineAbort ∨ b.status = csDeadlineAbort then .dropped
  else if a.len = b.len ∧ a.crc = b.crc then .pass
  else .mismatch

/-- A MISMATCH or INCOMPLETE outcome: STITCH with both records, both in the log tail, then its counts
(R303, R323). -/
def stitchFails (s : State) (off : Nat) (a b : SigRec) : State :=
  let s1 := raiseFault (bumpReg (bumpReg s offStitchPairs) off) fsStitch fStitch (sigBytes a ++ sigBytes b)
  let s2 := logIsland (logIsland s1 (Config.logCode lcMismatchPair) (sigBytes a)) (Config.logCode lcMismatchPair) (sigBytes b)
  mismatchRefuses (countOutcome s2 [a.tile, b.tile])

/-- An entry resolves (R303). -/
def resolveEntry (s : State) (e : StitchEntry) (a b : SigRec) : State :=
  let s1 := { s with safety := { s.safety with stitch := s.safety.stitch.filter (· ≠ e) } }
  let s2 := match stitchOutcome a b with
    | .pass => bumpReg s1 offStitchPairs
    | .dropped => bumpReg s1 offStitchDropped
    | .mismatch => stitchFails s1 offStitchMismatch a b
    | .incomplete => stitchFails s1 offStitchIncomplete a b
  judgeIfWaiting s2

/-- A signature record reaches the comparator (R303). -/
def takeSignature (s : State) (r : SigRec) : State :=
  match s.safety.stitch.find? (fun e => decide (e.seq = r.seq ∧ e.taskId = r.taskId ∧ e.batch = r.batch)) with
  | none => s
  | some e =>
    match e.first with
    | none => { s with safety := { s.safety with
        stitch := s.safety.stitch.map fun x => if x = e then { e with first := some r } else x } }
    | some f => resolveEntry s e f r

/-- SIGNATURE_RECORD (R302, R303): the oldest record of the cluster's link. -/
def execSignatureRecord (cluster : Nat) (s : State) : Result :=
  match s.safety.sigQ.findIdx? (·.1 = cluster) with
  | none => .next s
  | some k =>
    match s.safety.sigQ[k]? with
    | none => .next s
    | some p => onlyIf s true (takeSignature { s with safety := { s.safety with sigQ := listDel s.safety.sigQ k } } p.2)

/-! ### Rein (R298, R299) -/

/-- Tile cycles per AO cycle, times ten, by operating point (R298). -/
def reinRate (opp : Nat) : Nat := if opp = 3 then 70 else if opp = 2 then 56 else if opp = 1 then 42 else 0

def tileRate (s : State) (tile : Nat) : Nat := reinRate (s.disp.islands.getD (tile / 16) .reset).opp

/-- REIN_OVERRUN is raised with tile, context and TASK_ID, and counted (R299, R316; how the three are laid out: log entry
8). -/
def reinOverrun (s : State) (tile ctx task : Nat) : State :=
  raiseFault (bumpReg s offReinOverrun) (fsRein tile) fReinOverrun (toLe 1 tile ++ toLe 1 ctx ++ toLe 2 task)

/-- A copy of Latigo's overruns: which TASK_ID it runs under is its lists' own (log entry 39). -/
def latigoOverrun (s : State) (tile ctx : Nat) : State :=
  latigoIncomplete (tickFree (reinOverrun s tile ctx (Config.freeNat 80 s.disp.freeCtr)))

/-- REIN_EXPIRY: the accumulator has reached ten times the budget. The instance is aborted. One that
completed in a later AO cycle than its expiry keeps its status; in the same AO cycle, the completion counts (R298). -/
def execReinExpiry (tile ctx : Nat) (s : State) : Result :=
  match instOf s tile ctx with
  | none => onlyIf s (s.lat.running && decide (tile ∈ s.lat.copies ∧ ctx < 2)) (latigoOverrun s tile ctx)
  | some i =>
    onlyIf s (decide (10 * i.task.reinBudget + (if i.finished then tileRate s tile else 0) ≤ i.acc) && decide (0 < i.acc))
      (if i.finished then reinOverrun (setInst s { i with acc := 0 }) tile ctx i.task.taskId
       else abortInst (reinOverrun s tile ctx i.task.taskId) i csReinOverrun)

/-! ### Completion (R86, R258) -/

/-- INSTANCE_COMPLETE: LAST and every earlier descriptor have completed. -/
def execInstanceComplete (tile ctx : Nat) (s : State) : Result :=
  match instOf s tile ctx with
  | none => .next s
  | some i => onlyIf s (!i.finished && i.ended && i.inflight.isEmpty) (finishInst s i csOk)

end Sys2Proof.Machine
end

