-- ==== Sys2Proof/Machine/Phase.lean ====
section
/-! DEFINITION. Phases (R233, R234, R254, R272, R277): what is due, when a phase has completed, thinning, and
PHASE_RELEASE; and what replay forces (R291). -/

namespace Sys2Proof.Machine

/-! ### Replay (R291) -/

/-- The facts of a kind that replay forces in this cycle. -/
def forced (s : State) (kind : Nat) : List Fact :=
  match curPkg s with
  | some p => p.facts.filter (·.kind = kind)
  | none => []

def inReplay (s : State) : Bool := decide (s.cyc.dev = .replay)

/-- The forced fact of a kind for a copy of a batch. -/
def forcedFor (s : State) (kind taskId copy batch : Nat) : Option Fact :=
  (forced s kind).find? fun f => decide (f.taskId = taskId ∧ f.copy = copy ∧ f.batch = batch)

/-- A forced fact cannot be applied (R293). -/
def factFails (s : State) : State :=
  match s.rep with
  | some r => { s with rep := some { r with factError := true } }
  | none => s

/-! ### Due tasks and completion (R233, R236) -/

def activeTasks (s : State) : List Task :=
  match s.load.active with
  | some i => i.tasks
  | none => []

/-- The tasks whose CYCLE_DIVISOR divides CYCLE_SEQ (R114, R233). -/
def dueTasks (s : State) : List Task := (activeTasks s).filter fun t => decide (s.cyc.seq.toNat % max 1 t.divisor = 0)

def dueIn (s : State) (p : Nat) : List Task := (dueTasks s).filter (·.phase = p)

/-- An entry or an instance of the phase is left. -/
def phaseBusy (s : State) (p : Nat) : Bool :=
  s.disp.ready.any (fun e => decide (e.task.phase = p)) || s.disp.running.any fun i => decide (i.task.phase = p)

/-- Every instance of the phase has completed, or the cut took the phase. -/
def phaseComplete (s : State) (p : Nat) : Bool :=
  !phaseBusy s p && ((dueIn s p).isEmpty || decide (p ∈ s.cyc.released) || (s.cyc.cutDone && decide (p ≤ 4 ∨ p = 7)))

/-! ### Charges (R270) -/

def scaleOf (s : State) (t : Nat) : Nat := (s.disp.islands.getD (t / 16) .reset).scale

def chargeOf (e scale : Nat) : Nat := ceilDiv (e * scale) 4096

/-- The part of the estimate that does not depend on the unit count (R115). -/
def fixedEnergy (t : Task) : Nat := t.energyEst - t.units * t.energyPerUnit

/-- E of R270. -/
def energyOf (t : Task) (first : Bool) : Nat :=
  if t.units = 0 then t.energyEst else if first then fixedEnergy t + t.energyPerUnit else t.energyPerUnit

/-! ### Thinning (R272) -/

/-- A SAFE task counts twice. -/
def copies (t : Task) : Nat := if t.safe then 2 else 1

/-- An energy of a task as its HOME island scales it. -/
def homeCharge (s : State) (t : Task) (e : Nat) : Nat := copies t * chargeOf e (scaleOf s t.home)

/-- The charges placed and not yet dispatched, each scaled by its HOME island. -/
def placedCharge (s : State) : Nat :=
  (s.disp.ready.map fun e =>
    let c := fun first => chargeOf (energyOf e.task first) (scaleOf s e.task.home)
    if e.pending = [] then 0 else c e.first + (e.pending.length - 1) * c false).sum

/-- Window starts after now and before the cut. -/
def windowsLeft (s : State) : Nat :=
  let n := fun ao : Nat => (ao - s.disp.windowAt) / 10000      -- starts at or before ao, past the last one
  if s.cyc.cutDone ∨ cutAo s ≤ s.ao then 0 else n (cutAo s - 1) - n s.ao

/-- F of R272, in nJ. -/
def thinF (s : State) : Int :=
  let w := windowsLeft s
  let isl : List Int := (s.disp.islands.take (clusterCount s)).map fun i => i.balance + Int.ofNat (w * i.grant * 1000)
  isl.foldl (· + ·) 0 + Int.ofNat (s.disp.pool + w * s.disp.poolSet * 1000) - Int.ofNat (placedCharge s)

/-- X of R272. -/
def thinX (s : State) (p : Nat) : Nat :=
  ((dueIn s p).map fun t => homeCharge s t (if t.thinOk then fixedEnergy t else t.energyEst)).sum
    + (((dueTasks s).filter fun t => decide (p < t.phase ∧ t.phase ≤ 9)).map fun t => homeCharge s t t.energyEst).sum

/-- V of R272. -/
def thinV (s : State) (p : Nat) : Nat :=
  (((dueIn s p).filter (·.thinOk)).map fun t => homeCharge s t (t.units * t.energyPerUnit)).sum

/-- Batches a task runs in the cycle. Replay forces the recorded count and never thins by itself (R291); for V
= 0 the quotient has no value (log entry 9). -/
def thinnedUnits (s : State) (p : Nat) (t : Task) : Nat :=
  match (forced s 1).find? (·.taskId = t.taskId) with
  | some f => f.valA
  | none =>
    if inReplay s ∨ !t.thinOk ∨ t.units = 0 then t.units
    else
      let f := thinF s
      let x := thinX s p
      let v := thinV s p
      if ((x + v : Nat) : Int) ≤ f then t.units
      else
        let q := if v = 0 then Config.freeNat 3 s.disp.freeCtr else t.units * (f - (x : Nat)).toNat / v
        max t.minUnits (min t.units q)

/-! ### Release (R233, R254) -/

/-- Batches that replay leaves undispatched (R291). -/
def rangeOut (s : State) (t : Task) (copy b : Nat) : Bool :=
  (forced s 2).any fun f => decide (f.taskId = t.taskId ∧ f.copy = copy ∧ f.valA ≤ b ∧ b < f.valB)

/-- The ready-list entry of one copy. -/
def readyEntry (s : State) (t : Task) (u copy placed : Nat) : Ready :=
  let all := if t.units = 0 then [0xFFFF] else List.range u
  { task := t, tile := if copy = 0 then t.home else t.twin, copy := copy, placed := placed,
    pending := all.filter fun b => !rangeOut s t copy b, thinTo := u, first := true, epoch := none }

/-- The entries of a task. -/
def readyEntries (s : State) (t : Task) (u placed : Nat) : List Ready :=
  ((readyEntry s t u 0 (2 * placed)) :: (if t.safe then [readyEntry s t u 1 (2 * placed + 1)] else [])).filter
    fun e => decide (e.pending ≠ [])

/-- Entries of the released tasks in the image's order (log entry 22). -/
def placeAll (s : State) (p : Nat) : Nat → List Task → List Ready
  | _, [] => []
  | n, t :: rest => readyEntries s t (thinnedUnits s p t) n ++ placeAll s p (n + 1) rest

/-- THIN entries (R280). -/
def thinFacts (s : State) (p : Nat) : List Fact :=
  (dueIn s p).filterMap fun t =>
    let u := thinnedUnits s p t
    if u < t.units then some { kind := 1, copy := 0, taskId := t.taskId, batch := 0xFFFF, desc := 0xFFFF, valA := u, valB := t.units }
    else none

/-- RANGE entries that replay forces for the phase stand in the new record too (R291). -/
def rangeFacts (s : State) (p : Nat) : List Fact :=
  (forced s 2).filter fun f => (dueIn s p).any fun t => decide (t.taskId = f.taskId)

/-- UNITS_FULL and UNITS_THINNED (R248). -/
def countUnits (s : State) (p : Nat) (c : CycleCounts) : CycleCounts :=
  if p = 4 then
    { c with unitsFull := c.unitsFull + ((dueIn s 4).map (·.units)).sum
             unitsThinned := c.unitsThinned + ((dueIn s 4).map fun t => t.units - thinnedUnits s 4 t).sum
             unitsCut := c.unitsCut + ((rangeFacts s 4).filterMap fun f =>
               if f.copy = 0 then some (f.valB - f.valA) else none).sum }
  else c

/-- Batches in the engine, in whatever stage. -/
def batchesIn (s : State) : List Batch :=
  s.world.taskQ ++ s.world.hostQ ++ s.world.staged ++ (match s.world.built with | some b => [b.batch] | none => [])

/-- Batches that a tack-mode release of a phase waits for (R277): everything that earlier phases have submitted and that is not
yet settled, with what WORLD's release let through. Only INGEST precedes ESTIMATE. -/
def batchesOpen (s : State) (p : Nat) : Bool :=
  (batchesIn s).any fun b => !b.held && (decide (p ≠ 10) || (!b.host && decide (b.phase = 0)))

/-- Holds kept for phases that have completed end (log entry 21). -/
def endPhaseHolds (s : State) : State :=
  let past := s.cyc.phaseHeld.filter fun h => phaseComplete s h.1
  let s1 := past.foldl (fun t h => dropHold t h.2) s
  { s1 with cyc := { s1.cyc with phaseHeld := s1.cyc.phaseHeld.filter fun h => !phaseComplete s h.1 } }

/-- Tack mode and replay keep a phase's epoch live while its instances may still take it (log entry 21). -/
def holdForPhase (s : State) (p : Nat) : State :=
  if s.cyc.tack ∨ inReplay s then
    holdEpoch { s with cyc := { s.cyc with phaseHeld := (p, s.world.newest) :: s.cyc.phaseHeld } } s.world.newest
  else s

/-- Held batches are applied from WORLD's release on (R141); those that ESTIMATE has submitted in this very cycle wait for the
next (R277). -/
def releaseHeld (s : State) : State :=
  let go := fun b : Batch => if b.host || decide (b.since ≠ s.cyc.seq) then { b with held := false } else b
  { s with world := { s.world with
    hostQ := s.world.hostQ.map go, taskQ := s.world.taskQ.map go, staged := s.world.staged.map go } }

/-- The facts, counts and ready lists of a release. -/
def placePhase (s : State) (p : Nat) : State :=
  let due := dueIn s p
  let thin := thinFacts s p
  { s with
    cyc := { s.cyc with
      released := p :: s.cyc.released, phaseEpoch := (p, s.world.newest) :: s.cyc.phaseEpoch,
      facts := s.cyc.facts ++ thin ++ rangeFacts s p, counts := countUnits s p s.cyc.counts,
      thinned := s.cyc.thinned || !thin.isEmpty,
      cutActed := s.cyc.cutActed || (decide (p = 4 ∨ p = 7) && !(rangeFacts s p).isEmpty),
      refineDropped := s.cyc.refineDropped || (decide (p = 7) && !(rangeFacts s p).isEmpty) }
    disp := { s.disp with ready := s.disp.ready ++ placeAll s p s.disp.placedCnt due,
                          placedCnt := s.disp.placedCnt + due.length } }

/-- A phase is released (R233). -/
def releasePhase (s : State) (p : Nat) : State :=
  let s0 := endPhaseHolds s
  let s1 := if p = 1 then releaseHeld s0 else s0
  let s2 := holdForPhase (placePhase s1 p) p
  traceRec s2 5 0x82 p s.cyc.seq.toNat (dueIn s p).length

/-- ESTIMATE is released when INGEST completes, before WORLD changes the tree: in tack mode no later phase goes before it
(R234, R277). -/
def estimateFirst (s : State) (p : Nat) : Bool := decide (p = 10 ∨ 10 ∈ s.cyc.released) || (dueIn s 10).isEmpty

/-- A phase may be released now: SCH runs, earlier phases have completed, the cut has not taken it (R233,
R234, R236, R255, R277). -/
def releasable (s : State) (p : Nat) : Bool :=
  s.disp.schRun && s.cyc.inCycle && !s.cyc.deadlineDone && decide (p ≤ 10 ∧ p ∉ s.cyc.released)
    && (if p = 10 then decide (0 ∈ s.cyc.released) && phaseComplete s 0
        else (List.range p).all (phaseComplete s) && !(s.cyc.cutDone && decide (p ≤ 4 ∨ p = 7)))
    && (!s.cyc.tack || decide (p = 0) || (!batchesOpen s p && estimateFirst s p))

/-- PHASE_RELEASE (R233). -/
def execPhaseRelease (phase : Nat) (s : State) : Result := onlyIf s (releasable s phase) (releasePhase s phase)

end Sys2Proof.Machine
end

