-- ==== Sys2Proof/Machine/Dispatching.lean ====
section
/-! DEFINITION. Dispatch, stealing, the list copy and the completion tracker (R41, R122, R124, R146, R254 to
R261, R270, R483). -/

namespace Sys2Proof.Machine

/-! ### Ready lists (R254, R257) -/

/-- A cluster's ready list: SCH waits with entries beyond 1,024. -/
def listOf (s : State) (c : Nat) : List Ready := (s.disp.ready.filter fun e => decide (e.tile / 16 = c)).take 1024

/-- Order of R257: SAFE before PLAIN, then earlier placement. -/
def entryBefore (a b : Ready) : Bool :=
  if a.task.safe = b.task.safe then decide (a.placed < b.placed) else a.task.safe

def bestEntry (before : Ready → Ready → Bool) : List Ready → Option Ready
  | [] => none
  | e :: t => match bestEntry before t with
    | some f => if before f e then some f else some e
    | none => some e

/-- Batches of an entry that its own tile may take: in replay, not those recorded as stolen (R291). -/
def ownPending (s : State) (e : Ready) : List Nat :=
  e.pending.filter fun b => (forcedFor s 3 e.task.taskId e.copy b).isNone

/-- The entry a tile's free context takes (R257). -/
def chooseEntry (s : State) (tile : Nat) : Option Ready :=
  bestEntry entryBefore ((listOf s (tile / 16)).filter fun e => decide (e.tile = tile ∧ ownPending s e ≠ []))

/-- A batch leaves an entry; an entry without batches leaves the list. -/
def takeBatch (s : State) (e : Ready) (b : Nat) (epoch : Nat) (own : Bool) : State :=
  let e1 := { e with pending := e.pending.filter (· ≠ b), first := e.first && !own,
                     epoch := match e.epoch with | some n => some n | none => some epoch }
  { s with disp := { s.disp with
    ready := (s.disp.ready.map fun x => if x.placed = e.placed then e1 else x).filter fun x => decide (x.pending ≠ []) } }

/-! ### The ledger test (R270) -/

/-- What a covered charge debits: the island's balance and POOL, in nJ. -/
def ledgerCovers (s : State) (island c : Nat) (safe : Bool) : Option (Int × Nat) :=
  let i := s.disp.islands.getD island .reset
  let r := if safe then min c (1000 * i.grant) else min c (1000 * i.grant - 1000 * i.reserve)
  let a : Int := if safe then i.balance else i.balance - Int.ofNat (1000 * i.reserve)
  if Int.ofNat r ≤ a then some (Int.ofNat c, 0)
  else
    let short := (Int.ofNat r - a).toNat
    if short ≤ s.disp.pool then some (Int.ofNat c - Int.ofNat short, short) else none

def debit (s : State) (island : Nat) (d : Int × Nat) : State :=
  { s with disp := { s.disp with
    islands := listUpd s.disp.islands island fun i => { i with balance := i.balance - d.1 }
    pool := s.disp.pool - d.2 } }

/-! ### Wake tokens (R483) -/

/-- Spend n tokens issued to a waiter, or one held unused; none when they are not there. -/
def spendTokens (s : State) (w : Nat × Nat) (n : Nat) : Option State :=
  let got := (s.disp.granted.filter (· = w)).length
  if n ≤ got then some { s with disp := { s.disp with granted := s.disp.granted.filter (· ≠ w) } }
  else if n ≤ got + s.disp.tokensHeld then
    some { s with disp := { s.disp with granted := s.disp.granted.filter (· ≠ w), tokensHeld := 0 } }
  else none

/-- The request waits for its tokens; TOKEN_WAITS counts it once. -/
def waitTokens (s : State) (w : Nat × Nat) (n : Nat) : State :=
  if s.disp.waiters.any (· = w) || s.disp.granted.any (· = w) then s
  else bumpReg { s with disp := { s.disp with waiters := s.disp.waiters ++ List.replicate n w } } offTokenWaits

/-- The waiter class of a dispatch. -/
def waiterOf (s : State) (tile : Nat) (safe : Bool) : Nat × Nat :=
  (if tile ∈ latigoTiles s then 1 else if safe then 2 else 3, tile)

/-! ### Conditions of a dispatch (R48, R50, R51, R255, R257, R297, R303) -/

/-- The tile's name has a working tile behind it. -/
def tileWorks (s : State) (tile : Nat) : Bool :=
  presentTile s tile && decide (tile ∉ s.disp.quarantined)
    && !bitOf ((s.plat.spares.getD (tile / 16) .reset).lost.toNat) (tile % 16)

/-- The operating point of an island: 0 gated (R501). -/
def oppOf (s : State) (c : Nat) : Nat := (s.disp.islands.getD c .reset).opp

/-- The context can take an instance. -/
def contextOpen (s : State) (tile ctx : Nat) : Bool :=
  s.disp.schRun && s.disp.cccRun.getD (tile / 16) false && decide (ctx < 2) && (instOf s tile ctx).isNone
    && tileWorks s tile && decide (tile ∉ latigoTiles s)
    && decide (oppOf s (tile / 16) ≠ 0) && s.cyc.inCycle && !s.cyc.deadlineDone

/-- The stitch table has an entry for the batch, or room for one (R303). -/
def stitchRoom (s : State) (t : Task) (b : Nat) : Bool :=
  !t.safe || decide (s.safety.stitch.length < 512)
    || s.safety.stitch.any fun e => decide (e.seq = s.cyc.seq ∧ e.taskId = t.taskId ∧ e.batch = b)

def openStitch (s : State) (t : Task) (b : Nat) : State :=
  if !t.safe || s.safety.stitch.any (fun e => decide (e.seq = s.cyc.seq ∧ e.taskId = t.taskId ∧ e.batch = b)) then s
  else { s with safety := { s.safety with
    stitch := s.safety.stitch ++ [{ seq := s.cyc.seq, taskId := t.taskId, batch := b, phase := t.phase, first := none }] } }

/-! ### The epoch held (R146, R277, R291) -/

/-- The epoch of the batch's other copy. -/
def twinEpoch (s : State) (t : Task) (b : Nat) : Option Nat :=
  (s.disp.openSafe.find? fun o => decide (o.1 = t.taskId ∧ o.2.1 = b)).map (·.2.2)

/-- The epoch an instance takes. -/
def dispatchEpoch (s : State) (e : Ready) (b : Nat) (stolen : Bool) : Nat :=
  let atRelease := (epochAtRelease s e.task.phase).getD s.world.newest
  match twinEpoch s e.task b with
  | some n => n
  | none =>
    if inReplay s then
      match (forced s 7).find? (fun f => decide (f.taskId = e.task.taskId ∧ f.copy = e.copy ∧ f.batch = b ∧ f.desc = 0xFFFF)) with
      | some f => f.valA
      | none => atRelease
    else if stolen && (match e.epoch with | some n => (epochOf s n).isSome | none => false) then e.epoch.getD s.world.newest
    else if s.cyc.tack then atRelease
    else s.world.newest

/-- The instance's hold; a SAFE batch's first copy takes the other copy's hold with its own. -/
def takeHold (s : State) (e : Ready) (b n : Nat) : State :=
  let t := e.task
  if !t.safe then holdEpoch s n
  else if (twinEpoch s t b).isSome then s
  else holdEpoch (holdEpoch { s with disp := { s.disp with openSafe := (t.taskId, b, n) :: s.disp.openSafe } } n) n

/-- The EPOCH entry of a hold other than the epoch newest at the phase's release (R280). -/
def holdFact (s : State) (e : Ready) (b n : Nat) : State :=
  if epochAtRelease s e.task.phase = some n then s
  else addFact s { kind := 7, copy := e.copy, taskId := e.task.taskId, batch := b, desc := 0xFFFF, valA := n, valB := 0 }

/-! ### Starting an instance (R122, R124, R256, R297) -/

/-- The 64-byte instance block (R256). -/
def instanceBlock (s : State) (e : Ready) (b n : Nat) : Bytes :=
  toLe 2 e.task.taskId ++ toLe 2 b ++ toLe 1 e.task.home ++ toLe 1 e.copy ++ toLe 2 e.thinTo ++ toLe 4 s.cyc.seq.toNat
    ++ toLe 4 n ++ zeros 48

/-- A stream entry's bytes (R120). -/
def parseStream (bs : Bytes) : StreamRun :=
  { wset := fieldAt bs 0 4, chunkFirst := fieldAt bs 4 4, chunkCount := fieldAt bs 8 2, slotFirst := fieldAt bs 12 1 % 8,
    slotCount := fieldAt bs 13 1, passes := fieldAt bs 14 1 }

/-- The task's stream entries (R122). -/
def streamOf (s : State) (t : Task) : List StreamRun :=
  match s.load.active with
  | some i => (List.range t.wsCount).map fun k => parseStream (devRead s (i.wstream + t.wsOffset + 16 * k) 16)
  | none => []

/-- BANK_USE of a tile (R126). -/
def bankUse (s : State) (tile : Nat) : Nat :=
  match s.load.active with
  | some i => if i.tilemap = [] then 2 ^ 46 - 1 else (i.tilemap.getD tile 0).toNat
  | none => 2 ^ 46 - 1

/-- Every bank of BANK_USE in retention is asked to wake (R360). -/
def wakeUsed (s : State) (tile : Nat) : State :=
  let ask := fun (w : List (Nat × Nat)) b =>
    let key := 64 * tile + b
    if bitOf (bankUse s tile) b ∧ bankState s key = 1 ∧ !w.any (·.1 = key) then (key, s.ao) :: w else w
  { s with plat := { s.plat with waking := (List.range 46).foldl ask s.plat.waking } }

/-- The ranges of GDDR6 that the dispatch logic reads for a task: its stream entries (R122). -/
def streamRange (s : State) (t : Task) : Nat × Nat :=
  match s.load.active with
  | some i => (i.wstream + t.wsOffset, 16 * t.wsCount)
  | none => (0, 0)

/-- A new instance; a SAFE or batched instance dispatched after the cut has the cut already (R236). -/
def newInst (s : State) (e : Ready) (tile ctx b n charge : Nat) : Inst :=
  { tile := tile, ctx := ctx, task := e.task, batch := b, copy := e.copy, epoch := n, copied := false, pc := 0,
    inflight := [], stalled := [], ended := false, finished := false, flags := 0, sigs := [], armed := [], dmaArms := [],
    cut := s.cyc.cutDone && decide (e.task.phase = 4 ∨ e.task.phase = 7),
    works := [], sweeps := [], solve := none, startAo := s.ao, charge := charge, grace := 8, acc := 0,
    stream := streamOf s e.task, streamPos := 0, streamRot := 0, mm := none, slots := [], wrote := [] }

/-- The instance starts on a context: block written, banks woken, timers and entries opened. -/
def startInst (s : State) (e : Ready) (tile ctx b n charge : Nat) (own : Bool) : State :=
  let s1 := tileWrite (wakeUsed s tile) tile (64 * (e.task.listLine - 1)) (instanceBlock s e b n)
  let s2 := holdFact (takeHold (openStitch s1 e.task b) e b n) e b n
  let s3 := takeBatch s2 e b n own
  let pos := natGet s.cyc.batchPos tile
  let s4 := { s3 with
    disp := { s3.disp with running := s3.disp.running ++ [newInst s e tile ctx b n charge],
                           idleTiles := s3.disp.idleTiles.filter (· ≠ tile)
                           starved := s3.disp.starved.filter (·.1 ≠ 2 * tile + ctx) }
    world := { s3.world with badLines := s3.world.badLines.filter (·.1 ≠ 2 * tile + ctx) }
    cyc := { s3.cyc with batchPos := if b = 0xFFFF then s3.cyc.batchPos else natSet s3.cyc.batchPos tile (pos + 1) } }
  traceRec s4 1 tile e.task.taskId (b + 65536 * e.copy) charge

/-- The block's line lies in the store and its bank is not OFF (R36, R361). -/
def blockOk (s : State) (tile : Nat) (t : Task) : Bool :=
  decide (1 ≤ t.listLine) && inTile (64 * (t.listLine - 1)) 64 && banksOn s tile (64 * (t.listLine - 1)) 64

/-- The weight bus's read of the stream entries meets an uncorrectable error: the instance is aborted (R363). -/
def streamRead (s : State) (tile ctx : Nat) (t : Task) : State :=
  let g := streamRange s t
  if badRead s g.1 g.2 then abortAt (gddrUe s (firstBad s g.1 g.2)) tile ctx csTileFault else correctRead s g.1 g.2

/-- The context's ledger test has failed in this window (R257, R273). -/
def noteStarved (s : State) (key : Nat) : State :=
  { s with disp := { s.disp with starved := (key, s.disp.window) :: s.disp.starved.filter (·.1 ≠ key) } }

/-- The epoch's PUBLISH is still to come (R291). -/
def awaitsPublish (s : State) (n : Nat) : Bool :=
  (forced s 9).any fun f => decide (f.valA = n) && !s.cyc.facts.any fun g => decide (g.kind = 9 ∧ g.valA = n)

/-- A window start is due: a ledger test in its fabric cycle takes the new window's values (R273). -/
def windowDue (s : State) : Bool := decide (s.disp.windowAt + 10000 ≤ s.ao)

/-- The STEAL entry of a stolen batch (R280). -/
def stealFact (s : State) (e : Ready) (tile b : Nat) : Fact :=
  { kind := 3, copy := e.copy, taskId := e.task.taskId, batch := b, desc := 0xFFFF, valA := tile, valB := natGet s.cyc.batchPos tile }

/-- Start a batch of an entry on a context, when the ledger, the stitch table, the tokens and the epoch allow. -/
def tryStart (s : State) (e : Ready) (tile ctx b : Nat) (own : Bool) : Result :=
  let charge := chargeOf (energyOf e.task (e.first && own)) (scaleOf s tile)
  let n := dispatchEpoch s e b (!own)
  if !stitchRoom s e.task b || windowDue s then .next s
  else if (epochOf s n).isNone then .next (if awaitsPublish s n then s else factFails s)
  else match ledgerCovers s (tile / 16) charge e.task.safe with
    | none => .next (traceRec (noteStarved s (2 * tile + ctx)) 0x0A tile (tile / 16) charge
        (ofSigned 32 (s.disp.islands.getD (tile / 16) .reset).balance))
    | some d =>
      let w := waiterOf s tile e.task.safe
      match (if tile ∈ s.disp.idleTiles then spendTokens s w 1 else some s) with
      | none => .next (waitTokens s w 1)
      | some s1 =>
        if blockOk s tile e.task then
          let s2 := startInst (debit s1 (tile / 16) d) e tile ctx b n charge own
          let s3 := if own then s2 else traceRec (addFact s2 (stealFact s e tile b)) 9 tile e.task.taskId b tile
          .next (streamRead s3 tile ctx e.task)
        else .fault (.unguarded "R36")

/-! ### Forced aborts (R291) -/

/-- The forced ABORT of a batch's copy. -/
def forcedAbort (s : State) (e : Ready) (b : Nat) : Option Fact := forcedFor s 6 e.task.taskId e.copy b

/-- What else the package records of an aborted instance: its STEAL, EPOCH and cut entries, which stand in the new record
too. -/
def abortedFacts (s : State) (e : Ready) (b : Nat) : List Fact :=
  (forced s 3 ++ forced s 4 ++ forced s 5 ++ forced s 7).filter fun f =>
    decide (f.taskId = e.task.taskId ∧ f.copy = e.copy ∧ f.batch = b)

/-- In the recorded cycle the deadline's aborts came before the record's release: it was a MISS, or its LATE_ABORT is not
one left from the cycle before (R244, R247). -/
def abortsCameFirst (s : State) : Bool :=
  match curPkg s with
  | some p => bitOf (fieldAt p.header 0x1E 2) 7 || (bitOf (fieldAt p.header 0x1E 2) 8 && !s.cyc.lateAbort)
  | none => false

/-- LATE_ABORT of a recorded deadline abort: of this cycle's record or of the next one's, as the first such abort finds it
(R292). -/
def replayLate (s : State) (status : Nat) : State :=
  if status ≠ csDeadlineAbort ∨ s.cyc.facts.any (fun f => decide (f.kind = 6 ∧ f.valA = csDeadlineAbort)) then s
  else if abortsCameFirst s then { s with cyc := { s.cyc with lateAbort := true } }
  else { s with cyc := { s.cyc with lateAbortNext := true } }

/-- The instance is not dispatched: its completion and signature records are written as recorded, and it takes its place
among the tile's batches (R291). -/
def applyAbort (s0 : State) (e : Ready) (tile b : Nat) (f : Fact) : State :=
  let s := replayLate s0 f.valA
  let n := dispatchEpoch s e b false
  let i := newInst s e tile 2 b n 0
  let s1 := takeBatch (openStitch (addFact s (abortFact i f.valA)) e.task b) e b n true
  let c : Completion :=
    { taskId := e.task.taskId, batch := b, tile := tile, ctx := 2, copy := e.copy, status := f.valA, flags := 0,
      cycles := Config.freeNat 2 s.disp.freeCtr, charge := 0 }
  let s2 := tickFree { s1 with
    disp := { s1.disp with compQ := s1.disp.compQ ++ [(tile / 16, c)] }
    cyc := { s1.cyc with
      facts := s1.cyc.facts ++ abortedFacts s e b
      batchPos := if b = 0xFFFF then s1.cyc.batchPos else natSet s1.cyc.batchPos tile (natGet s1.cyc.batchPos tile + 1) }
    safety := { s1.safety with
      sigQ := if e.task.safe then s1.safety.sigQ ++ [(tile / 16, sigRecord s i f.valA)] else s1.safety.sigQ } }
  logNow s2 (Config.logCode (16 + f.valA)) srcDispatch (completionBytes c)

/-! ### DISPATCH (R257) -/

/-- In replay the tile's next position is a recorded steal (R291). -/
def stealDue (s : State) (tile : Nat) : Option Fact :=
  (forced s 3).find? fun f => decide (f.valA = tile ∧ f.valB = natGet s.cyc.batchPos tile)

/-- The contexts that became free in the AO cycle in which this one did, and have not been tested since. -/
def freedWith (s : State) (key : Nat) : List Nat :=
  match s.disp.freedAt.find? (·.1 = key) with
  | some p => (s.disp.freedAt.filter fun q => decide (q.2 = p.2 ∧ q.1 ≠ key)).map (·.1)
  | none => []

/-- The entry a context would take, if it can take one. -/
def wants (s : State) (key : Nat) : Option Ready :=
  if contextOpen s (key / 2) (key % 2) then chooseEntry s (key / 2) else none

/-- Another context of the cluster that became free with this one is reached first by the cluster's pointer (R257). -/
def pointerHolds (s : State) (key : Nat) : Bool :=
  (freedWith s key).any fun k => decide (k / 32 = key / 32) && (wants s k).isSome
    && decide (ctxRank (natGet s.disp.ctxPtr (key / 32)) k < ctxRank (natGet s.disp.ctxPtr (key / 32)) key)

/-- Contexts that wait for credit and have not been tested in this window. -/
def awaitingCredit (s : State) : List Nat := (s.disp.starved.filter fun p => decide (p.2 ≠ s.disp.window)).map (·.1)

/-- The draw on POOL that a start on a context would make. -/
def drawOf (s : State) (key : Nat) (e : Ready) : Nat :=
  match ledgerCovers s (key / 32) (chargeOf (energyOf e.task e.first) (scaleOf s (key / 2))) e.task.safe with
  | some d => d.2
  | none => 0

/-- In even windows the lowest cluster draws first, in odd windows the highest (R271). -/
def drawsBefore (s : State) (a b : Nat) : Bool := if s.disp.window.toNat % 2 = 0 then decide (a < b) else decide (b < a)

/-- Another context goes before this one: a SAFE one that waits for credit on the island before a PLAIN one (R273), and an
island earlier in the window's order where both draw on POOL at the window's start (R271). -/
def creditHolds (s : State) (key : Nat) (e : Ready) : Bool :=
  (awaitingCredit s).any fun k => decide (k ≠ key) && (match wants s k with
    | some f => (decide (k / 32 = key / 32) && f.task.safe && !e.task.safe)
        || (decide (k / 32 ≠ key / 32 ∧ s.ao = s.disp.windowAt ∧ 0 < drawOf s key e ∧ 0 < drawOf s k f) && drawsBefore s (k / 32) (key / 32))
    | none => false)

/-- The context has been tested: the cluster's pointer moves past it (R257). -/
def noteTested (s : State) (key : Nat) : State :=
  if s.disp.freedAt.any (·.1 = key) then
    { s with disp := { s.disp with freedAt := s.disp.freedAt.filter (·.1 ≠ key)
                                   ctxPtr := natSet s.disp.ctxPtr (key / 32) ((key + 1) % 512) } }
  else s

def execDispatch (tile ctx : Nat) (s : State) : Result :=
  if s.boot.inReset || !contextOpen s tile ctx then .next s
  else match chooseEntry s tile with
    | none => .next s
    | some e =>
      let b := (ownPending s e).headD 0
      match forcedAbort s e b with
      | some f => .next (applyAbort s e tile b f)
      | none =>
        if (b ≠ 0xFFFF ∧ (stealDue s tile).isSome) ∨ pointerHolds s (2 * tile + ctx) ∨ creditHolds s (2 * tile + ctx) e then .next s
        else tryStart (noteTested s (2 * tile + ctx)) e tile ctx b true

/-! ### STEAL (R260, R261) -/

/-- The cluster of a batch's other copy while that copy runs. -/
def otherRuns (s : State) (e : Ready) (b : Nat) : Option Nat :=
  (s.disp.running.find? fun i => decide (i.task.taskId = e.task.taskId ∧ i.batch = b ∧ i.copy ≠ e.copy ∧ !i.finished)).map (·.tile / 16)

/-- A thief of cluster n may take batch b of the entry (R261). -/
def mayTake (s : State) (e : Ready) (b n : Nat) : Bool :=
  !e.task.safe ||
    (match otherRuns s e b with
     | some c => decide (n ≠ c ∧ n = e.tile / 16)
     | none => true)
    && !(s.disp.ready.any fun f => decide (f.task.taskId = e.task.taskId ∧ f.copy ≠ e.copy ∧ f.tile / 16 = n))

/-- Order of victims within a cluster (R260). -/
def victimBefore (a b : Ready) : Bool :=
  if a.pending.length ≠ b.pending.length then decide (b.pending.length < a.pending.length)
  else if a.tile ≠ b.tile then decide (a.tile < b.tile)
  else decide (a.placed < b.placed)

/-- The victim in a cluster for a thief of cluster n: the entry's highest pending batch. -/
def victimIn (s : State) (c n : Nat) : Option Ready :=
  bestEntry victimBefore ((listOf s c).filter fun e =>
    e.task.stealable && decide (0 < e.task.units ∧ e.pending ≠ []) && mayTake s e (e.pending.getLastD 0) n)

/-- The first cluster, from the thief's own upwards, that has a victim. -/
def victim (s : State) (n : Nat) : Option Ready :=
  ((List.range (clusterCount s)).filterMap fun i => victimIn s ((n + i) % clusterCount s) n).head?

/-- In replay, the entry of the recorded steal. -/
def replayVictim (s : State) (f : Fact) : Option Ready :=
  s.disp.ready.find? fun e => decide (e.task.taskId = f.taskId ∧ e.copy = f.copy ∧ f.batch ∈ e.pending)

/-- The entry's own tile is about to take a batch of it: one of its contexts is open, chooses the entry and has its credit
(R273). -/
def homeTakes (s : State) (e : Ready) : Bool :=
  (List.range 2).any fun c => contextOpen s e.tile c && decide (chooseEntry s e.tile = some e)
    && (ledgerCovers s (e.tile / 16) (chargeOf (energyOf e.task e.first) (scaleOf s e.tile)) e.task.safe).isSome

/-- The batch a thief takes: the highest, but for the one that the home dispatch takes (R260, R273). -/
def stolenBatch (s : State) (e : Ready) : Option Nat :=
  if homeTakes s e then (e.pending.drop 1).getLast? else e.pending.getLast?

/-- Another thief that became free with this one aims at the same entry and is reached first by the victim list's pointer
(R273). -/
def thiefHolds (s : State) (key : Nat) (e : Ready) : Bool :=
  (freedWith s key).any fun k => contextOpen s (k / 2) (k % 2) && (chooseEntry s (k / 2)).isNone && decide (victim s (k / 32) = some e)
    && decide (ctxRank (natGet s.disp.stealPtr (e.tile / 16)) k < ctxRank (natGet s.disp.stealPtr (e.tile / 16)) key)

/-- The thief has been served: the victim list's pointer moves past it. -/
def noteThief (s : State) (key : Nat) (e : Ready) : State :=
  if s.disp.freedAt.any (·.1 = key) then
    { s with disp := { s.disp with freedAt := s.disp.freedAt.filter (·.1 ≠ key)
                                   stealPtr := natSet s.disp.stealPtr (e.tile / 16) ((key + 1) % 512) } }
  else s

def execSteal (tile ctx : Nat) (s : State) : Result :=
  if s.boot.inReset || s.cyc.tack || !contextOpen s tile ctx then .next s
  else if inReplay s then
    match stealDue s tile with
    | none => .next s
    | some f => match replayVictim s f with
      | some e => match forcedAbort s e f.batch with
        | some a => .next (applyAbort s e tile f.batch a)
        | none => tryStart s e tile ctx f.batch false
      | none => .next s
  else if (chooseEntry s tile).isSome then .next s
  else match victim s (tile / 16) with
    | none => .next s
    | some e => match stolenBatch s e with
      | none => .next s
      | some b =>
        if !mayTake s e b (tile / 16) || thiefHolds s (2 * tile + ctx) e || creditHolds s (2 * tile + ctx) e then .next s
        else tryStart (noteThief s (2 * tile + ctx) e) e tile ctx b false

/-! ### LIST_COPY_DONE (R124) -/

/-- Device address of the task's list, and of its schedule with its length. -/
def listAddr (s : State) (t : Task) : Nat :=
  match s.load.active with
  | some i => i.lists + t.listOffset
  | none => 0

def schedOf (s : State) (t : Task) : Option (Nat × Nat) :=
  match s.load.active with
  | some i => if t.schedIndex = 0xFFFF then none else i.scheds[t.schedIndex]?
  | none => none

/-- The two copies of a dispatch: tile-local destination, device source, bytes. -/
def copiesOf (s : State) (i : Inst) : List (Nat × Nat × Nat) :=
  (64 * i.task.listLine, listAddr s i.task, 64 * i.task.listLen)
    :: (match schedOf s i.task with | some p => [(64 * i.task.schedLine, p.1, p.2)] | none => [])

/-- The list, then the schedule, are copied into the tile store. -/
def copyList (s : State) (i : Inst) : State :=
  let s1 := (copiesOf s i).foldl (fun t c => tileWrite (correctRead t c.2.1 c.2.2) i.tile c.1 (devRead s c.2.1 c.2.2)) s
  setInst s1 { i with copied := true }

/-- Both copies lie in the store, in banks that are not OFF (R36, R361). -/
def copyOk (s : State) (i : Inst) : Bool := (copiesOf s i).all fun c => inTile c.1 c.2.2 && banksOn s i.tile c.1 c.2.2

/-- A bank in retention holds the copy up (R361). -/
def copyRests (s : State) (i : Inst) : Bool := (copiesOf s i).any fun c => banksRest s i.tile c.1 c.2.2
def wakeCopy (s : State) (i : Inst) : State := (copiesOf s i).foldl (fun t c => wakeBanks t i.tile c.1 c.2.2) s

/-- The first source byte in error: the copy is read for the instance, which is aborted (R363). -/
def copyBad (s : State) (i : Inst) : Option Nat :=
  ((copiesOf s i).find? fun c => badRead s c.2.1 c.2.2).map fun c => firstBad s c.2.1 c.2.2

def execListCopyDone (tile ctx : Nat) (s : State) : Result :=
  match instOf s tile ctx with
  | none => .next s
  | some i =>
    if s.boot.inReset || i.copied || i.finished then .next s
    else if !copyOk s i then .fault (.unguarded "R36")
    else if copyRests s i then .next (wakeCopy s i)
    else match copyBad s i with
      | some a => .next (abortAt (gddrUe s a) tile ctx csTileFault)
      | none => .next (copyList s i)

/-! ### COMPLETION_RECORD (R258) -/

/-- The tracker takes a cluster's oldest record and frees the context; the weight bus keeps what is pending of the
instance's stream (R123). -/
def track (s : State) (c : Completion) : State :=
  let gone := s.disp.running.filter fun i => decide (i.tile = c.tile ∧ i.ctx = c.ctx) && i.finished
  { s with disp := { s.disp with
    running := s.disp.running.filter fun i => !(decide (i.tile = c.tile ∧ i.ctx = c.ctx) && i.finished)
    leftover := s.disp.leftover ++ gone.filter fun i => decide (i.stream ≠ [])
    freedAt := if gone = [] then s.disp.freedAt
      else (2 * c.tile + c.ctx, s.ao) :: s.disp.freedAt.filter (·.1 ≠ 2 * c.tile + c.ctx)
    busyTo := if gone = [] then s.disp.busyTo else natSet s.disp.busyTo c.tile s.ao
    recent := (c :: s.disp.recent).take 64 } }

def execCompletionRecord (cluster : Nat) (s : State) : Result :=
  match s.disp.compQ.findIdx? (·.1 = cluster) with
  | none => .next s
  | some k =>
    match s.disp.compQ[k]? with
    | none => .next s
    | some p => onlyIf s true (track { s with disp := { s.disp with compQ := listDel s.disp.compQ k } } p.2)

end Sys2Proof.Machine
end

