-- ==== Sys2Proof/Machine/Ledger.lean ====
section
/-! DEFINITION. The Girth ledger's windows (R267 to R269), operating points (R27, R478), wake tokens (R483)
and tile idling. -/

namespace Sys2Proof.Machine

/-- A processor runs its image (R403, R405). -/
def procRuns (s : State) (p : Nat) : Bool :=
  decide ((s.procs.getD p .reset).state = .running) || decide ((s.procs.getD p .reset).state = .warmPending)

/-! ### Windows (R267 to R269) -/

/-- The cap on the sum of all grants and POOL, in µJ (R268). -/
def ledgerCap (s : State) : Nat := if s.fuses.part = .ox256 then 35500 else 24000

/-- The limiter's result: grants, reserves, POOL, and whether it clamped anything (R268). -/
def limitWindow (s : State) (n : LedgerNext) : List Nat × List Nat × Nat × Bool :=
  let k := clusterCount s
  let cap := ledgerCap s
  let g0 := (List.range k).map fun i => n.grants.getD i 0
  let r0 := (List.range k).map fun i => n.reserves.getD i 0
  let g1 := (List.range k).map fun i => min (g0.getD i 0) ((s.disp.islands.getD i .reset).grant + 500)
  let sum := g1.sum
  let pool := if cap < sum + n.pool then cap - sum else n.pool
  let g2 := if cap < sum then g1.map fun g => g * cap / sum else g1
  let r1 := (List.range k).map fun i => min (r0.getD i 0) (g2.getD i 0)
  (g2, r1, pool, decide (g2 ≠ g0 ∨ r1 ≠ r0 ∨ pool ≠ n.pool))

/-- What PMC writes for the coming window: firmware policy, a free value (R267, log entry 25). -/
def pmcWrites (s : State) : Option LedgerNext :=
  if procRuns s 1 then
    let v := fun k => Config.freeNat (16 + k) s.disp.freeCtr % 65536
    some { grants := (List.range 16).map v, reserves := (List.range 16).map fun k => v (16 + k),
           scales := (List.range 16).map fun k => v (32 + k), pool := v 48 }
  else none

/-- PMC runs again and writes the values of the coming window (R267). -/
def pmcResumes (s : State) : State := tickFree { s with disp := { s.disp with next := pmcWrites s } }

/-- A window's balances start (R269). -/
def restartIsland (i : Island) : Island := { i with balance := Int.ofNat (1000 * i.grant) + min i.balance 0 }

/-- The values in force for the window that starts. -/
def windowValues (s : State) : State :=
  match s.disp.next with
  | none => { s with disp := { s.disp with frozen := true, limited := false } }
  | some n =>
    let l := limitWindow s n
    let isl := (List.range s.disp.islands.length).map fun k =>
      let i := s.disp.islands.getD k .reset
      if k < clusterCount s then { i with grant := l.1.getD k 0, reserve := l.2.1.getD k 0, scale := n.scales.getD k 0 } else i
    { s with disp := { s.disp with islands := isl, poolSet := l.2.2.1, frozen := false, limited := l.2.2.2 } }

/-- LEDGER_WINDOW_START (R267 to R269). -/
def windowStart (s : State) : State :=
  let s1 := windowValues s
  tickFree { s1 with disp := { s1.disp with
    islands := s1.disp.islands.map restartIsland, pool := 1000 * s1.disp.poolSet, window := s1.disp.window + 1,
    windowAt := s.ao, next := pmcWrites s } }

def execLedgerWindowStart (s : State) : Result := onlyIf s (decide (s.disp.windowAt + 10000 ≤ s.ao)) (windowStart s)

/-! ### Operating points (R27, R478, R483) -/

def setOpp (s : State) (c v : Nat) : State :=
  { s with disp := { s.disp with islands := listUpd s.disp.islands c fun i => { i with opp := v } } }

/-- The fused VDD_T setpoint of an operating point (R478). -/
def setpointOf (s : State) (v : Nat) : Nat := s.fuses.setpoints.getD (v - 1) 0

/-- The highest operating point in force on any island. -/
def topOpp (s : State) : Nat := (s.disp.islands.map (·.opp)).foldl max 0

/-- A raise under way is waiting for its tokens. -/
def raiseWaits (s : State) (c : Nat) : Bool := s.disp.waiters.any (· = (4, 16 + c)) || s.disp.granted.any (· = (4, 16 + c))

/-- OPP_SWITCH (R27): at a window start, by PMC; a raise goes one step and takes four tokens (R483), none
during a trip (R491), and none before VDD_T stands at the higher point's setpoint (R478). -/
def execOppSwitch (cluster opp : Nat) (s : State) : Result :=
  let cur := oppOf s cluster
  if s.boot.inReset || !presentCluster s cluster || !procRuns s 1 || decide (cur = 0 ∨ opp = 0 ∨ 3 < opp ∨ opp = cur) then .next s
  else if opp < cur then (if s.ao = s.disp.windowAt then .next (setOpp s cluster opp) else .next s)
  else if s.disp.trip || decide (opp ≠ cur + 1 ∨ s.plat.vddtSet < setpointOf s opp) || !(decide (s.ao = s.disp.windowAt) || raiseWaits s cluster) then .next s
  else match spendTokens s (4, 16 + cluster) 4 with
    | some t => .next (setOpp t cluster opp)
    | none => .next (waitTokens s (4, 16 + cluster) 4)

/-- Nothing runs on the island and its ready list is empty (R27). -/
def islandIdle (s : State) (c : Nat) : Bool :=
  !s.disp.running.any (fun i => decide (i.tile / 16 = c)) && !s.disp.ready.any (fun e => decide (e.tile / 16 = c))
    && !(s.lat.running && (latigoTiles s).any fun t => decide (t / 16 = c))

/-- Every ON bank of a cluster's tiles enters retention (R360). -/
def retainCluster (s : State) (c : Nat) : State :=
  ((List.range 16).map fun m => (List.range 46).map fun b => 64 * (16 * c + m) + b).flatten.foldl
    (fun t k => if bankState t k = 0 then setBank t k 1 else t) s

/-- ISLAND_GATE (R27, R360). -/
def execIslandGate (cluster : Nat) (s : State) : Result :=
  onlyIf s (presentCluster s cluster && decide (oppOf s cluster ≠ 0) && islandIdle s cluster)
    (setOpp (retainCluster s cluster) cluster 0)

/-- ISLAND_WAKE (R27, R483): to 420 MHz, from which raises take their tokens (log entry 27). -/
def execIslandWake (cluster : Nat) (s : State) : Result :=
  if s.boot.inReset || !presentCluster s cluster || decide (oppOf s cluster ≠ 0) then .next s
  else match spendTokens s (4, cluster) 1 with
    | some t => .next (setOpp t cluster 1)
    | none => .next (waitTokens s (4, cluster) 1)

/-! ### Tokens (R483) -/

/-- The cluster of a waiter. -/
def waiterCluster (w : Nat × Nat) : Nat := if w.1 = 4 then w.2 % 16 else w.2 / 16

/-- How soon a waiter is served: its class, then how far its cluster lies from the class's pointer. -/
def waiterRank (s : State) (w : Nat × Nat) : Nat := 16 * w.1 + (waiterCluster w + 16 - natGet s.disp.tokenPtr w.1) % 16

def bestWaiter (s : State) : List (Nat × Nat) → Option (Nat × Nat)
  | [] => none
  | w :: t => match bestWaiter s t with
    | some x => if waiterRank s x < waiterRank s w then some x else some w
    | none => some w

/-- WAKE_TOKEN: to the highest-ranked waiter, or held; one token at most is held unused. -/
def execWakeToken (s : State) : Result :=
  match bestWaiter s s.disp.waiters with
  | none => onlyIf s true { s with disp := { s.disp with tokensHeld := 1 } }
  | some w => onlyIf s true { s with disp := { s.disp with
      waiters := s.disp.waiters.erase w, granted := s.disp.granted ++ [w],
      tokenPtr := natSet s.disp.tokenPtr w.1 ((waiterCluster w + 1) % 16) } }

/-- 32 tile cycles have passed since a context of the tile held an instance; a gated island's tiles have no clock to count. -/
def tileRested (s : State) (tile : Nat) : Bool :=
  match s.disp.busyTo.find? (·.1 = tile) with
  | some p => decide (tileRate s tile = 0 ∨ 320 ≤ tileRate s tile * (s.ao - p.2))
  | none => true

/-- TILE_IDLE (R483): neither context has held an instance for 32 tile cycles, and Latigo runs elsewhere. -/
def execTileIdle (tile : Nat) (s : State) : Result :=
  onlyIf s (presentTile s tile && (instOf s tile 0).isNone && (instOf s tile 1).isNone && tileRested s tile
      && !(s.lat.running && decide (tile ∈ latigoTiles s)))
    { s with disp := { s.disp with idleTiles := addOnce s.disp.idleTiles tile } }

/-- PMC may ask for the setpoint: that of the highest point in force, or of a higher one it is to raise to. -/
def setpointDue (s : State) (millivolt : Nat) : Bool :=
  [1, 2, 3].any fun v => decide (topOpp s ≤ v ∧ setpointOf s v = millivolt)

/-- AVSBUS_SETPOINT_CHANGE (R478, R479), acknowledged: in steps of 5 mV within 0.62 to 0.80 V (R476). -/
def execAvsbusSetpointChange (millivolt : Nat) (s : State) : Result :=
  onlyIf s (procRuns s 1 && setpointDue s millivolt && decide (millivolt % 5 = 0 ∧ 620 ≤ millivolt ∧ millivolt ≤ 800))
    { s with plat := { s.plat with vddtSet := millivolt, vddtRelax := some (s.ao, s.plat.vddtSet) },
             out := .avsbus millivolt :: s.out }

end Sys2Proof.Machine
end

