-- ==== Sys2Proof/Machine/Flags.lean ====
section
/-! DEFINITION. Numbers as the formats of R55 hold them, exact arithmetic on them, rounding (R68 to R71) and
the arithmetic flags every operation sets (R75). A computed value always comes with its flags. -/

namespace Sys2Proof.Machine

/-! ### Flags (R75) -/

def flUnder : Nat := 1
def flSat : Nat := 2
def flInf : Nat := 4
def flNan : Nat := 8

/-- A value with the flags its computation set. -/
abbrev Flagged (α : Type) := α × Nat

def orFlags (l : List Nat) : Nat := l.foldl (· ||| ·) 0

/-! ### Numbers -/

/-- A floating-point value: NaN, ±∞, or ±m × 2^e; m = 0 is a signed zero. -/
inductive Num where
  | nan
  | inf (neg : Bool)
  | fin (neg : Bool) (m : Nat) (e : Int)
  deriving DecidableEq, Repr, Inhabited

/-- An element as VX and MX hold it: a float, or an integer (I4 to I32, GQ32). -/
inductive Val where
  | num (x : Num)
  | int (i : Int)
  deriving DecidableEq, Repr, Inhabited

def pzero : Num := .fin false 0 0

/-- A rounding mode with its draw (R68, R69). -/
inductive Rm where
  | rne | rtz
  | sr (draw : Nat)
  deriving DecidableEq, Repr

/-- A binary format: precision, exponent of the smallest subnormal, exponent bits, largest finite m × 2^e, and
whether it has infinities (R55, R57). -/
structure FFmt where
  prec  : Nat
  emin  : Int
  ebits : Nat
  maxM  : Nat
  maxE  : Int
  infs  : Bool
  nan   : Nat
  deriving DecidableEq, Repr

def fE4M3 : FFmt := { prec := 4, emin := -9, ebits := 4, maxM := 14, maxE := 5, infs := false, nan := 0x7F }
def fE5M2 : FFmt := { prec := 3, emin := -16, ebits := 5, maxM := 7, maxE := 13, infs := true, nan := 0x7E }
def fF16 : FFmt := { prec := 11, emin := -24, ebits := 5, maxM := 2047, maxE := 5, infs := true, nan := 0x7E00 }
def fBF16 : FFmt := { prec := 8, emin := -133, ebits := 8, maxM := 255, maxE := 120, infs := true, nan := 0x7FC0 }
def fF32 : FFmt := { prec := 24, emin := -149, ebits := 8, maxM := 16777215, maxE := 104, infs := true, nan := 0x7FC00000 }
def fF64 : FFmt :=
  { prec := 53, emin := -1074, ebits := 11, maxM := 2 ^ 53 - 1, maxE := 971, infs := true, nan := 0x7FF8000000000000 }

def bitLen (n : Nat) : Nat := if n = 0 then 0 else Nat.log2 n + 1

/-- The float a bit pattern encodes (R55, R57). -/
def decodeFloat (f : FFmt) (v : Nat) : Num :=
  let mb := f.prec - 1
  let frac := v % 2 ^ mb
  let ex := v / 2 ^ mb % 2 ^ f.ebits
  let neg := v / 2 ^ (mb + f.ebits) % 2 = 1
  if ex = 2 ^ f.ebits - 1 ∧ f.infs then (if frac = 0 then .inf neg else .nan)
  else if ex = 2 ^ f.ebits - 1 ∧ frac = 2 ^ mb - 1 then .nan
  else if ex = 0 then .fin neg frac f.emin
  else .fin neg (2 ^ mb + frac) (f.emin + (ex - 1 : Nat))

/-- Rounding of the magnitude m after d discarded bits (R68, R70). -/
def roundShift (rm : Rm) (m d : Nat) : Nat :=
  if d = 0 then m
  else
    let keep := m / 2 ^ d
    let rem := m % 2 ^ d
    let up := match rm with
      | .rtz => false
      | .rne => decide (2 ^ (d - 1) < rem) || (decide (rem = 2 ^ (d - 1)) && decide (keep % 2 = 1))
      | .sr r => decide (r < if 24 ≤ d then rem / 2 ^ (d - 24) else rem * 2 ^ (24 - d))
    if up then keep + 1 else keep

/-- m × 2^e rounded to a multiple of 2^q: the multiple, and whether it is exact. -/
def roundTo (rm : Rm) (m : Nat) (e q : Int) : Nat × Bool :=
  if q ≤ e then (m * 2 ^ (e - q).toNat, true)
  else
    let d := (q - e).toNat
    (roundShift rm m d, decide (m % 2 ^ d = 0))

/-- The exponent of the last place of a value in a format. -/
def lastPlace (f : FFmt) (m : Nat) (e : Int) : Int := max f.emin (e + bitLen m - f.prec)

/-- k × 2^q is above the largest finite value. -/
def tooLarge (f : FFmt) (k : Nat) (q : Int) : Bool :=
  if q ≤ f.maxE then decide (f.maxM * 2 ^ (f.maxE - q).toNat < k) else decide (f.maxM < k * 2 ^ (q - f.maxE).toNat)

/-- Rounding to a format. `sat` is a narrowing conversion (R71): a finite overflow saturates, and so does an
infinity where the format has none; else it is arithmetic, whose overflow is ±∞ (R72). -/
def roundFloat (f : FFmt) (rm : Rm) (sat : Bool) (x : Num) : Flagged Num :=
  match x with
  | .nan => (.nan, flNan)
  | .inf n => if sat && !f.infs then (.fin n f.maxM f.maxE, flInf) else (.inf n, if sat then flInf else 0)
  | .fin n 0 _ => (.fin n 0 0, 0)
  | .fin n m e =>
    let q := lastPlace f m e
    let r := roundTo rm m e q
    if tooLarge f r.1 q then (if sat then (.fin n f.maxM f.maxE, flSat) else (.inf n, flInf))
    else (.fin n r.1 q, if !r.2 && decide (q = f.emin ∧ r.1 < 2 ^ (f.prec - 1)) then flUnder else 0)

/-- The bit pattern of a value that the format holds exactly. -/
def encodeFloat (f : FFmt) (x : Num) : Nat :=
  let mb := f.prec - 1
  let sign := fun n : Bool => if n then 2 ^ (mb + f.ebits) else 0
  match x with
  | .nan => f.nan
  | .inf n => sign n + (2 ^ f.ebits - 1) * 2 ^ mb
  | .fin n 0 _ => sign n
  | .fin n m e =>
    let q := lastPlace f m e
    let k := (roundTo .rtz m e q).1
    if k < 2 ^ mb then sign n + k else sign n + (q - f.emin + 1).toNat * 2 ^ mb + (k - 2 ^ mb)

/-! ### Exact arithmetic -/

def negNum (x : Num) : Num :=
  match x with
  | .nan => .nan
  | .inf n => .inf (!n)
  | .fin n m e => .fin (!n) m e

/-- ±m × 2^e as an integer multiple of 2^q, q ≤ e. -/
def scaledInt (n : Bool) (m : Nat) (e q : Int) : Int :=
  let v := Int.ofNat (m * 2 ^ (e - q).toNat)
  if n then -v else v

/-- The exact sum; x + (−x) is +0, or −0 when both are −0 (IEEE 754). -/
def addExact (x y : Num) : Num :=
  match x, y with
  | .nan, _ => .nan
  | _, .nan => .nan
  | .inf a, .inf b => if a = b then .inf a else .nan
  | .inf a, _ => .inf a
  | _, .inf b => .inf b
  | .fin a m e, .fin b k g =>
    if m = 0 ∧ k = 0 then .fin (a && b) 0 0
    else
      let q := min e g
      let v := scaledInt a m e q + scaledInt b k g q
      .fin (decide (v < 0)) v.natAbs q

def mulExact (x y : Num) : Num :=
  match x, y with
  | .nan, _ => .nan
  | _, .nan => .nan
  | .inf a, .inf b => .inf (a != b)
  | .inf a, .fin b k _ => if k = 0 then .nan else .inf (a != b)
  | .fin a m _, .inf b => if m = 0 then .nan else .inf (a != b)
  | .fin a m e, .fin b k g => .fin (a != b) (m * k) (e + g)

/-- The quotient to enough places to round it correctly: a last place stands for what is left. -/
def divSticky (x y : Num) : Num :=
  match x, y with
  | .nan, _ => .nan
  | _, .nan => .nan
  | .inf _, .inf _ => .nan
  | .inf a, .fin b _ _ => .inf (a != b)
  | .fin a _ _, .inf b => .fin (a != b) 0 0
  | .fin a m e, .fin b k g =>
    if k = 0 then (if m = 0 then .nan else .inf (a != b))
    else if m = 0 then .fin (a != b) 0 0
    else
      let sh := 130 + bitLen k
      let n := m * 2 ^ sh
      .fin (a != b) (2 * (n / k) + (if n % k = 0 then 0 else 1)) (e - g - sh - 1)

/-- Integer square root by bits, n of them. -/
def isqrt : Nat → Nat → Nat → Nat
  | 0, _, acc => acc
  | n + 1, v, acc =>
    let c := acc + 2 ^ n
    isqrt n v (if c * c ≤ v then c else acc)

/-- The square root to enough places to round it correctly. -/
def sqrtSticky (x : Num) : Num :=
  match x with
  | .nan => .nan
  | .inf n => if n then .nan else .inf false
  | .fin n m e =>
    if m = 0 then .fin n 0 0
    else if n then .nan
    else
      let sh : Nat := 260 + (e % 2).toNat
      let v := m * 2 ^ sh
      let r := isqrt (bitLen v / 2 + 1) v 0
      .fin false (2 * r + (if r * r = v then 0 else 1)) ((e - sh) / 2 - 1)

/-- x < y; false when either is NaN. -/
def ltNum (x y : Num) : Bool :=
  match x, y with
  | .nan, _ => false
  | _, .nan => false
  | .inf a, .inf b => a && !b
  | .inf a, .fin _ _ _ => a
  | .fin _ _ _, .inf b => !b
  | .fin a m e, .fin b k g =>
    let q := min e g
    decide (scaledInt a m e q < scaledInt b k g q)

def isNan (x : Num) : Bool := decide (x = .nan)

def isInfNum (x : Num) : Bool :=
  match x with
  | .inf _ => true
  | _ => false

def isFin (x : Num) : Bool :=
  match x with
  | .fin _ _ _ => true
  | _ => false

/-- Flags of consuming operands: NAN and INF (R75). -/
def useFlags (l : List Num) : Nat := (if l.any isNan then flNan else 0) ||| (if l.any isInfNum then flInf else 0)

/-- An arithmetic result: rounded, with the flags of its operands and of its production (R72, R75). -/
def arith (f : FFmt) (rm : Rm) (ops : List Num) (exact : Num) : Flagged Num :=
  let r := roundFloat f rm false exact
  (r.1, useFlags ops ||| r.2 ||| (if isNan r.1 then flNan else 0))

def fAdd (f : FFmt) (rm : Rm) (x y : Num) : Flagged Num := arith f rm [x, y] (addExact x y)
def fSub (f : FFmt) (rm : Rm) (x y : Num) : Flagged Num := arith f rm [x, y] (addExact x (negNum y))
def fMul (f : FFmt) (rm : Rm) (x y : Num) : Flagged Num := arith f rm [x, y] (mulExact x y)
def fFma (f : FFmt) (rm : Rm) (x y z : Num) : Flagged Num := arith f rm [x, y, z] (addExact (mulExact x y) z)
def fDiv (f : FFmt) (rm : Rm) (x y : Num) : Flagged Num := arith f rm [x, y] (divSticky x y)
def fSqrt (f : FFmt) (rm : Rm) (x : Num) : Flagged Num := arith f rm [x] (sqrtSticky x)

/-- A negative zero. -/
def isNegZero (x : Num) : Bool :=
  match x with
  | .fin n m _ => n && decide (m = 0)
  | _ => false

/-- MIN and MAX give NaN when either operand is NaN (R72); −0 is below +0 (log entry 29). -/
def fMin (x y : Num) : Flagged Num :=
  (if isNan x || isNan y then .nan else if ltNum y x || isNegZero y && !ltNum x y then y else x, useFlags [x, y])

def fMax (x y : Num) : Flagged Num :=
  (if isNan x || isNan y then .nan else if ltNum x y || isNegZero x && !ltNum y x then y else x, useFlags [x, y])

/-! ### Integers -/

/-- Saturation to w bits (R65, R71). -/
def satInt (w : Nat) (i : Int) : Flagged Int :=
  let hi : Int := 2 ^ (w - 1) - 1
  let lo : Int := -(2 ^ (w - 1))
  if hi < i then (hi, flSat) else if i < lo then (lo, flSat) else (i, 0)

/-- A float to an integer of w bits (R71). -/
def toInt (w : Nat) (rm : Rm) (x : Num) : Flagged Int :=
  match x with
  | .nan => (0, flNan)
  | .inf n => (if n then -(2 ^ (w - 1)) else 2 ^ (w - 1) - 1, flInf)
  | .fin n m e =>
    let k := Int.ofNat (roundTo rm m e 0).1
    satInt w (if n then -k else k)

def ofInt (i : Int) : Num := .fin (decide (i < 0)) i.natAbs 0

/-- Metres to GQ32 steps: the product by 10,000 is exact in F64 (R60). -/
def toGq (rm : Rm) (x : Num) : Flagged Int := toInt 32 rm (mulExact x (ofInt 10000))

/-- GQ32 steps as metres, not rounded yet (R60, log entry 29). -/
def ofGq (i : Int) : Num := divSticky (ofInt i) (ofInt 10000)

/-! ### Stochastic rounding (R69) -/

def srMix (c x : Nat) : Nat := (x ^^^ (x >>> 31)) * c % two64

/-- The 24-bit draw of an element. -/
def srDraw (seed home desc elem : Nat) : Nat :=
  let x := (seed ^^^ (home <<< 56) ^^^ (desc <<< 32) ^^^ elem) % two64
  let y := srMix 0x94E27C3D1A6F5B89 (srMix 0xB5C13F6A29D8E47B x)
  (y ^^^ (y >>> 29)) >>> 40

end Sys2Proof.Machine
end

