-- ==== Sys2Proof/Machine/Operands.lean ====
section
/-! DEFINITION. Operand forms: tensor references (R83) over the formats of R55, their storage (R56, R58), and
the conversions on load and store (R58 to R60, R62, R68 to R74). -/

namespace Sys2Proof.Machine

/-! ### Format codes (R80) -/

def fmtI4 : Nat := 0
def fmtI8 : Nat := 1
def fmtI16 : Nat := 2
def fmtI32 : Nat := 3
def fmtE4M3 : Nat := 4
def fmtE5M2 : Nat := 5
def fmtF16 : Nat := 6
def fmtBF16 : Nat := 7
def fmtF32 : Nat := 8
def fmtF64 : Nat := 9
def fmtKB6 : Nat := 10
def fmtGQ32 : Nat := 11

/-- The float format of a code. -/
def floatOf (f : Nat) : Option FFmt :=
  if f = 4 then some fE4M3 else if f = 5 then some fE5M2 else if f = 6 then some fF16 else if f = 7 then some fBF16
  else if f = 8 then some fF32 else if f = 9 then some fF64 else none

/-- Bits per element; KB6 element fields take six. -/
def elemBits (f : Nat) : Nat :=
  if f = 0 then 4 else if f = 1 then 8 else if f = 2 then 16 else if f = 3 then 32 else if f = 4 then 8
  else if f = 5 then 8 else if f = 6 then 16 else if f = 7 then 16 else if f = 8 then 32 else if f = 9 then 64
  else if f = 10 then 6 else 32

def isIntFmt (f : Nat) : Bool := decide (f ≤ 3)

/-- Bytes of one row (R56, R58). -/
def rowBytes (f cols : Nat) : Nat := if f = 10 then 24 * ceilDiv cols 32 else ceilDiv (elemBits f * cols) 8

/-! ### Tensor references (R83) -/

structure Tref where
  line   : Nat
  rows   : Nat
  cols   : Nat
  stride : Nat
  rsvd   : Nat
  deriving DecidableEq, Repr, Inhabited

def parseTref (v : Nat) : Tref :=
  { line := bitsOf v 0 14, rows := bitsOf v 14 16, cols := bitsOf v 30 16, stride := bitsOf v 46 14, rsvd := bitsOf v 60 4 }

/-- Lines of a KB6 operand's exponent area (R58, R83). -/
def expLines (f : Nat) (t : Tref) : Nat := if f = 10 then ceilDiv (t.rows * ceilDiv t.cols 32) 64 else 0

/-- All lines lie in the tile, and the pitch takes a row (R83, R104); with ROWS = 0 there are none. ROWS = 0 where the body does not allow an absent operand is
an empty tensor: DESIGN CHOICE (log entry 29). -/
def trefOk (f : Nat) (t : Tref) : Bool :=
  decide (t.rsvd = 0) && (decide (t.rows = 0)
    || decide (ceilDiv (rowBytes f t.cols) 64 ≤ t.stride ∧ t.line + t.rows * t.stride + expLines f t ≤ 0x3000))

def trefAbsent (t : Tref) : Bool := decide (t.rows = 0)

/-- The tile-local ranges a tensor covers: its rows and its exponent area. -/
def trefRanges (f : Nat) (t : Tref) : List (Nat × Nat) :=
  ((List.range t.rows).map fun r => (64 * (t.line + r * t.stride), 64 * ceilDiv (rowBytes f t.cols) 64))
    ++ (if f = 10 then [(64 * (t.line + t.rows * t.stride), 64 * expLines f t)] else [])

def rowAddr (t : Tref) (r : Nat) : Nat := 64 * (t.line + r * t.stride)
def expAddr (t : Tref) (r : Nat) : Nat := 64 * (t.line + t.rows * t.stride) + r * ceilDiv t.cols 32

/-- The bytes of a row as stored; for KB6 its exponents follow. -/
def readRowBytes (s : State) (tile f : Nat) (t : Tref) (r : Nat) : Bytes :=
  tileRead s tile (rowAddr t r) (rowBytes f t.cols)

def readRowExps (s : State) (tile : Nat) (t : Tref) (r : Nat) : Bytes := tileRead s tile (expAddr t r) (ceilDiv t.cols 32)

/-! ### Elements -/

/-- The field of an element in a row's bytes. -/
def elemField (f : Nat) (bs : Bytes) (i : Nat) : Nat :=
  if f = 0 then bitsOf (byteAt bs (i / 2)).toNat (4 * (i % 2)) 4
  else if f = 10 then bitsOf (fieldAt bs (24 * (i / 32)) 24) (6 * (i % 32)) 6
  else fieldAt bs (i * (elemBits f / 8)) (elemBits f / 8)

/-- A KB6 element (R58): NaN in a NaN block. -/
def kb6Elem (field exp : Nat) : Num :=
  if exp = 255 then .nan
  else
    let v := toSigned 6 field
    .fin (decide (v < 0)) v.natAbs ((exp : Int) - 127)

def decodeElem (f field exp : Nat) : Val :=
  match floatOf f with
  | some ff => .num (decodeFloat ff field)
  | none => if f = 10 then .num (kb6Elem field exp) else .int (toSigned (elemBits f) field)

/-- The elements of a row. -/
def readRow (s : State) (tile f : Nat) (t : Tref) (r : Nat) : List Val :=
  let bs := readRowBytes s tile f t r
  let ex := if f = 10 then readRowExps s tile t r else []
  (List.range t.cols).map fun i => decodeElem f (elemField f bs i) (byteAt ex (i / 32)).toNat

def readTensor (s : State) (tile f : Nat) (t : Tref) : List (List Val) :=
  (List.range t.rows).map (readRow s tile f t)

/-! ### Conversions on load -/

/-- The value as a float in metres or units, not rounded (R60, R62). -/
def asNum (f : Nat) (v : Val) : Num :=
  match v with
  | .num x => x
  | .int i => if f = 11 then ofGq i else ofInt i

/-- The operand as VX holds it in F32 or F64: a KB6 element comes by way of F32 (R62). -/
def loadFloat (ff : FFmt) (rm : Rm) (f : Nat) (v : Val) : Flagged Num :=
  roundFloat (if f = 10 then fF32 else ff) rm true (asNum f v)

def asInt (v : Val) : Int :=
  match v with
  | .int i => i
  | .num _ => 0

/-! ### Conversions on store (R59, R60, R71) -/

/-- The rounding mode of an element: RM, and its draw under SR (R68, R69). -/
def rmOf (code seed home desc elem : Nat) : Rm :=
  if code = 0 then .rne else if code = 1 then .rtz else .sr (srDraw seed home desc elem)

/-- A value as the field of a format other than KB6. An integer stored into GQ32 is taken as that many steps of 0.1 mm, not
as metres: DESIGN CHOICE (log entry 29). -/
def storeElem (f : Nat) (rm : Rm) (v : Val) : Flagged Nat :=
  match floatOf f, v with
  | some ff, .num x =>
    let r := roundFloat ff rm true x
    (encodeFloat ff r.1, r.2)
  | some ff, .int i =>
    let r := roundFloat ff rm true (ofInt i)
    (encodeFloat ff r.1, r.2)
  | none, .num x =>
    let r := if f = 11 then toGq rm x else toInt (elemBits f) rm x
    (ofSigned (elemBits f) r.1, r.2)
  | none, .int i =>
    let r := satInt (elemBits f) i
    (ofSigned (elemBits f) r.1, r.2)

/-- The bytes of a row of fields. -/
def packFields (f : Nat) (l : List Nat) : Bytes :=
  if f = 0 then
    (List.range (ceilDiv l.length 2)).map fun i => BitVec.ofNat 8 (l.getD (2 * i) 0 % 16 + 16 * (l.getD (2 * i + 1) 0 % 16))
  else (l.map (toLe (elemBits f / 8))).flatten

/-! ### KB6 blocks (R59) -/

/-- ⌊log₂⌋ of a magnitude m × 2^e. -/
def floorLog (m : Nat) (e : Int) : Int := e + bitLen m - 1

/-- ⌊log₂ max |x|⌋ of a block, if some element is not zero. -/
def blockLog (l : List Num) : Option Int :=
  l.foldl (fun acc x => match x with
    | .fin _ m e => if m = 0 then acc else match acc with
      | some g => some (max g (floorLog m e))
      | none => some (floorLog m e)
    | _ => acc) none

/-- The elements of a block for exponent ex, rounded but not clamped. -/
def blockRound (rms : List Rm) (ex : Nat) (l : List Num) : List Int :=
  (l.zip rms).map fun p => match p.1 with
    | .fin n m e =>
      let k := Int.ofNat (roundTo p.2 m (e + 127 - ex) 0).1
      if n then -k else k
    | _ => 0

/-- A non-zero element rounded to zero (R71). -/
def blockUnder (l : List Num) (r : List Int) : Bool :=
  (l.zip r).any fun p => decide (p.2 = 0) && (match p.1 with | .fin _ m _ => decide (m ≠ 0) | _ => false)

/-- The encoding of one block: element fields, exponent, flags. -/
def kb6Encode (rms : List Rm) (l : List Num) : List Nat × Nat × Nat :=
  if l.any isNan || l.any isInfNum then (List.replicate 32 0, 255, useFlags l)
  else match blockLog l with
    | none => (List.replicate 32 0, 0, 0)
    | some g =>
      let ex0 := (max 0 (min 254 (g + 123))).toNat
      let r0 := blockRound rms ex0 l
      let again := r0.any (32 ≤ ·) && decide (ex0 < 254)
      let ex := if again then ex0 + 1 else ex0
      let r := if again then blockRound rms ex l else r0
      let clamp := fun v : Int => max (-32) (min 31 v)
      (r.map fun v => ofSigned 6 (clamp v), ex,
        (if ex = 254 ∧ r.any (fun v => clamp v ≠ v) then flSat else 0) ||| (if blockUnder l r then flUnder else 0))

/-- A KB6 row: its element fields and its exponents; short rows are padded with zero elements. -/
def kb6Row (rms : List Rm) (l : List Num) : Bytes × Bytes × Nat :=
  let blocks := (List.range (ceilDiv l.length 32)).map fun b =>
    let part := (l.drop (32 * b)).take 32
    let pad := part ++ List.replicate (32 - part.length) pzero
    kb6Encode ((rms.drop (32 * b)).take 32 ++ List.replicate (32 - part.length) .rne) pad
  ((blocks.map fun b => toLe 24 ((List.range 32).foldl (fun v i => v + b.1.getD i 0 * 2 ^ (6 * i)) 0)).flatten,
   blocks.map fun b => BitVec.ofNat 8 b.2.1, orFlags (blocks.map (·.2.2)))

/-! ### Writing rows -/

/-- Row r of a tensor written with its values, padded to whole lines (R56); flags of the conversions. R59 encodes a KB6 block
from F32 values; values of F64 or I32 are encoded as they are, not rounded to F32 first: DESIGN CHOICE (log entry 29). -/
def writeRow (s : State) (tile f : Nat) (t : Tref) (rm : Nat → Rm) (r : Nat) (l : List Val) : Flagged State :=
  if f = 10 then
    let k := kb6Row ((List.range l.length).map rm) (l.map (asNum fmtF32))
    (tileWrite (tileWrite s tile (rowAddr t r) (padMul 64 k.1)) tile (expAddr t r) k.2.1, k.2.2)
  else
    let e := (List.range l.length).map fun i => storeElem f (rm i) (l.getD i (.int 0))
    (tileWrite s tile (rowAddr t r) (padMul 64 (packFields f (e.map (·.1)))), orFlags (e.map (·.2)))

/-- A whole tensor; rm gives the rounding mode of an element of the output by its row-major index. -/
def writeTensor (s : State) (tile f : Nat) (t : Tref) (rm : Nat → Rm) (rows : List (List Val)) : Flagged State :=
  (List.range rows.length).foldl (fun acc r =>
    let w := writeRow acc.1 tile f t (fun i => rm (r * t.cols + i)) r (rows.getD r [])
    (w.1, acc.2 ||| w.2)) (s, 0)

/-! ### Requantisation (R74) -/

/-- sat(round(acc × M × 2⁻ˢ) + z). -/
def requant (w : Nat) (rm : Rm) (acc m : Int) (sh : Nat) (z : Int) : Flagged Int :=
  let p := acc * m
  let k := Int.ofNat (roundShift rm p.natAbs sh)
  satInt w ((if p < 0 then -k else k) + z)

/-- A QPARAM entry: M, s, z (R94). Its RSVD byte is not looked at, an s above 63 shifts by the whole byte, and a z outside the
output format is added as the 16-bit number it is: DESIGN CHOICE (log entry 29). -/
def qparam (bs : Bytes) (i : Nat) : Int × Nat × Int :=
  (toSigned 32 (fieldAt bs (8 * i) 4), fieldAt bs (8 * i + 4) 1, toSigned 16 (fieldAt bs (8 * i + 6) 2))

/-! ### Bytes of a tensor for the signature (R103) -/

/-- Row by row, padding excluded. -/
def tensorBytes (s : State) (tile f : Nat) (t : Tref) : Bytes :=
  ((List.range t.rows).map (readRowBytes s tile f t)).flatten
    ++ (if f = 10 then ((List.range t.rows).map (readRowExps s tile t)).flatten else [])

end Sys2Proof.Machine
end

