-- ==== Sys2Proof/Machine/Desc.lean ====
section
/-! DEFINITION. Descriptors (R76 to R86, R104): the header, what an issue needs, and the one operation every
descriptor command goes through. An effect happens at issue; DESCRIPTOR_COMPLETE frees the unit (log entry
32). -/

namespace Sys2Proof.Machine

/-! ### The header (R78, R79) -/

/-- Descriptor k of the instance's list. It is read when it issues: one rewritten in the five positions before, which R77 leaves
unguarded, runs as the new bytes: DESIGN CHOICE (log entry 61). -/
def descBytes (s : State) (i : Inst) (k : Nat) : Bytes := tileRead s i.tile (64 * (i.task.listLine + k)) 64

def dOpcode (d : Bytes) : Nat := fieldAt d 0 1
def dCtrl (d : Bytes) : Nat := fieldAt d 1 1
def dOrder (d : Bytes) : Nat := dCtrl d / 64
def dRm (d : Bytes) : Nat := bitsOf (dCtrl d) 4 2
def dLast (d : Bytes) : Bool := bitOf (dCtrl d) 3
def dSig (d : Bytes) : Bool := bitOf (dCtrl d) 2
def dFmtA (d : Bytes) : Nat := fieldAt d 2 1 % 16
def dFmtB (d : Bytes) : Nat := fieldAt d 2 1 / 16
def dFmtOut (d : Bytes) : Nat := fieldAt d 3 1 % 16
def dTag (d : Bytes) : Nat := fieldAt d 4 2
def dEst (d : Bytes) : Nat := fieldAt d 8 4
def dTref (d : Bytes) (off : Nat) : Tref := parseTref (fieldAt d off 8)

/-- The header's own conditions (R78, R79, R104). -/
def headerOk (d : Bytes) : Bool :=
  decide (dCtrl d % 4 = 0 ∧ dOrder d ≠ 3 ∧ dRm d ≠ 3 ∧ fieldAt d 3 1 < 16 ∧ fieldAt d 6 2 = 0 ∧ fieldAt d 12 4 = 0)

/-- The three format fields are reserved (R81). -/
def noFormats (d : Bytes) : Bool := decide (fieldAt d 2 2 = 0)

/-! ### Units (R41, R82) -/

/-- The unit of an opcode: 0 MOVE engine, 1 MX, 2 VX, 3 Awl, 4 SEL, 5 SQ, 6 flow port, 7 none. -/
def opUnit (op : Nat) : Nat :=
  if op ≤ 1 then 7 else if op ≤ 0x0B ∨ op = 0x48 then 0 else if op ≤ 0x11 then 1 else if op ≤ 0x28 then 2
  else if op = 0x30 then 3 else if op ≤ 0x3A then 4 else if op ≤ 0x43 then 5 else 6

/-- A descriptor of either context occupies the unit. -/
def unitBusy (s : State) (tile unit : Nat) : Bool :=
  s.disp.running.any fun i => decide (i.tile = tile) && !i.finished && i.inflight.any (·.2 = unit)

/-! ### Issue (R84) -/

/-- The order a descriptor waits for; SIGNAL, EMIT and FENCE behave as ALL. -/
def effOrder (d : Bytes) : Nat := if dOpcode d = 0x51 ∨ dOpcode d = 0x58 ∨ dOpcode d = 1 then 2 else dOrder d

def orderHolds (i : Inst) (d : Bytes) : Bool :=
  if effOrder d = 0 then true
  else if effOrder d = 1 then !i.inflight.any (·.1 + 1 = i.pc)
  else i.inflight.isEmpty

/-- The counter condition of WAIT (R89). -/
def waitHolds (s : State) (i : Inst) (d : Bytes) : Bool :=
  decide (fieldAt d 0x12 2 ≤ (tokenOf s i.tile (fieldAt d 0x10 1)).toNat)

/-- The set an armed channel holds is still to complete for the instance (R102). -/
def armedOpen (s : State) (i : Inst) (ch : Nat) : Bool :=
  let c := chanGet s (8 * (i.tile / 16) + ch)
  (match c.active with
    | some r => armedBy r i s.cyc.seq
    | none => false) || (c.armed && armedBy c.shadow i s.cyc.seq)

/-- Every condition of R84 but the unit's pointer. -/
def mayIssue (s : State) (i : Inst) (d : Bytes) : Bool :=
  i.copied && !i.ended && !i.finished && orderHolds i d
    && (opUnit (dOpcode d) = 7 || !unitBusy s i.tile (opUnit (dOpcode d)))
    && (dOpcode d ≠ 0x50 || waitHolds s i d)
    && !(decide (dOpcode d = 1) && bitOf (fieldAt d 0x10 1) 0 && i.armed.any (armedOpen s i))

/-- The tile's other context asks for the same unit. -/
def rivalAsks (s : State) (i : Inst) (unit : Nat) : Bool :=
  match instOf s i.tile (1 - i.ctx) with
  | some j => decide (opUnit (dOpcode (descBytes s j j.pc)) = unit) && mayIssue s j (descBytes s j j.pc)
  | none => false

/-- The unit's pointer grants the context (R41). -/
def pointerGrants (s : State) (i : Inst) (unit : Nat) : Bool :=
  decide (unit = 7) || !rivalAsks s i unit || decide (natGet s.disp.unitPtr (16 * i.tile + unit) = i.ctx)

/-! ### The operation -/

/-- The tile-local ranges a descriptor reads and writes. -/
structure Access where
  reads  : List (Nat × Nat)
  writes : List (Nat × Nat)

def noAccess : Access := { reads := [], writes := [] }

/-- Every range lies in the tile, in banks that are not OFF (R36, R361). -/
def accessOk (s : State) (tile : Nat) (a : Access) : Bool :=
  (a.reads ++ a.writes).all fun r => inTile r.1 r.2 && banksOn s tile r.1 r.2

/-- A bank of the access is in retention: the request waits for its wake (R361). -/
def accessRests (s : State) (tile : Nat) (a : Access) : Bool := (a.reads ++ a.writes).any fun r => banksRest s tile r.1 r.2

/-- Requests to banks in retention wake them (R361). -/
def wakeAccess (s : State) (tile : Nat) (a : Access) : State :=
  (a.reads ++ a.writes).foldl (fun t r => wakeBanks t tile r.1 r.2) s

/-- The first range read that holds an uncorrectable error. -/
def badAccessAt (s : State) (tile : Nat) (a : Access) : Option Nat :=
  (a.reads.find? fun r => badRead s (tileBase tile + r.1) r.2).map fun r => firstBad s (tileBase tile + r.1) r.2 - tileBase tile

/-- What the access reads is corrected and counted (R362). -/
def correctAccess (s : State) (tile : Nat) (a : Access) : State := a.reads.foldl (fun t r => correctRead t (tileBase tile + r.1) r.2) s

/-- A descriptor's access with the line of the list that holds it, which the context has fetched (R77). -/
def withListLine (i : Inst) (a : Access) : Access := { a with reads := (64 * (i.task.listLine + i.pc), 64) :: a.reads }

/-- The descriptor issues: the next one is up, its unit is taken, the unit's pointer moves past the winner. -/
def noteIssue (s : State) (i : Inst) (d : Bytes) (holds : Bool) (writes : List (Nat × Nat)) : State :=
  let u := opUnit (dOpcode d)
  let s1 := setInst s { i with pc := i.pc + 1, ended := dLast d, wrote := i.wrote ++ writes,
                               inflight := if holds then i.inflight ++ [(i.pc, u)] else i.inflight }
  let s2 := if u = 7 then s1 else
    { s1 with disp := { s1.disp with unitPtr := natSet s1.disp.unitPtr (16 * i.tile + u) (1 - i.ctx) } }
  traceRec s2 3 i.tile (dTag d) i.pc (dEst d)

/-- How a descriptor class runs. `run` gets the state after the issue, the instance as issued and its index. -/
structure DescRun where
  ok     : State → Inst → Bytes → Bool            -- the body is well formed (R104)
  access : State → Inst → Bytes → Access
  holds  : Bool                                   -- it occupies a unit until it completes
  run    : State → Inst → Bytes → Nat → Attempt

/-- The fetch of the context's next descriptor meets an uncorrectable error: the instance is aborted (R363). -/
def listLineBad (s : State) (i : Inst) : Bool :=
  i.copied && !i.ended && !i.finished && badRead s (tileBase i.tile + 64 * (i.task.listLine + i.pc)) 64

/-- An uncorrectable error that a tile's unit reads aborts the reader (R363). -/
def readerAborts (s : State) (tile ctx a : Nat) : State := abortAt (tileStoreUe s tile a) tile ctx csTileFault

/-- Issue the descriptor of an opcode on a context: every descriptor command (R84, R104, R361, R363). -/
def issueDesc (s : State) (tile ctx op : Nat) (r : DescRun) : Result :=
  match instOf s tile ctx with
  | none => .next s
  | some i =>
    let d := descBytes s i i.pc
    let acc := withListLine i (r.access s i d)
    if s.boot.inReset then .next s
    else if listLineBad s i then
      .next (readerAborts s tile ctx (firstBad s (tileBase tile + 64 * (i.task.listLine + i.pc)) 64 - tileBase tile))
    else if dOpcode d ≠ op || !mayIssue s i d || !pointerGrants s i (opUnit op) then .next s
    else if 8192 ≤ i.pc ∨ !headerOk d ∨ !r.ok s i d then .fault (.unguarded "R104")
    else if !accessOk s tile acc then .fault (.unguarded "R36")
    else if accessRests s tile acc then .next (wakeAccess s tile acc)
    else
      let s1 := correctAccess (noteIssue s i d r.holds acc.writes) tile acc
      match instOf s1 tile ctx with
      | none => .next s
      | some j =>
        match badAccessAt s tile acc with
        | some a => .next (readerAborts s1 tile ctx a)
        | none => ofAttempt (r.run s1 j d i.pc)

/-- The rounding modes of a descriptor's output elements (R68, R69): the instance seed is the task's seed plus
the cycle's sequence number; the home tile is the task's HOME. -/
def descRm (s : State) (i : Inst) (d : Bytes) (idx elem : Nat) : Rm :=
  rmOf (dRm d) ((i.task.seed.toNat + s.cyc.seq.toNat) % two64) i.task.home idx elem

/-- Arithmetic of a descriptor: RTZ under RTZ, else RNE (R68). -/
def arithRm (d : Bytes) : Rm := if dRm d = 1 then .rtz else .rne

/-- Flags gathered by the instance on a context (R75). -/
def gatherFlags (s : State) (tile ctx flags : Nat) : State :=
  match instOf s tile ctx with
  | some i => setInst s { i with flags := i.flags ||| BitVec.ofNat 8 flags }
  | none => s

/-- A written tensor with the flags of its computation. -/
def landFlags (i : Inst) (w : Flagged State) (more : Nat) : Attempt := .ok (gatherFlags w.1 i.tile i.ctx (w.2 ||| more))

end Sys2Proof.Machine
end

