-- ==== Sys2Proof/Machine/Moves.lean ====
section
/-! DEFINITION. The MOVE class (R93), DMAREQ (R101, R336), NOP and FENCE (R102). -/

namespace Sys2Proof.Machine

/-! ### NOP and FENCE -/

def nopRun : DescRun :=
  { ok := fun _ _ d => noFormats d && allZero (d.drop 16), access := fun _ _ _ => noAccess, holds := false,
    run := fun s _ _ _ => .ok s }

def execNop (tile ctx : Nat) (s : State) : Result := issueDesc s tile ctx 0 nopRun

/-- FENCE: its wait is part of `mayIssue` (R102). -/
def fenceRun : DescRun :=
  { ok := fun _ _ d => noFormats d && decide (fieldAt d 0x10 1 < 2) && allZero (d.drop 17), access := fun _ _ _ => noAccess,
    holds := false, run := fun s _ _ _ => .ok s }

def execFence (tile ctx : Nat) (s : State) : Result := issueDesc s tile ctx 1 fenceRun

/-! ### MOVE.COPY and MOVE.FILL -/

/-- MOVE counts COLS in bytes: the format of a byte (R83). -/
def fmtByte : Nat := 1

/-- Rows of exactly COLS bytes are written from row 0 on. -/
def writeRows (s : State) (tile : Nat) (t : Tref) (rows : List Bytes) : State :=
  (List.range rows.length).foldl (fun u r => tileWrite u tile (rowAddr t r) (rows.getD r [])) s

def readRows (s : State) (tile : Nat) (t : Tref) : List Bytes := (List.range t.rows).map (readRowBytes s tile fmtByte t)

def copyRun : DescRun :=
  { ok := fun _ _ d =>
      let a := dTref d 0x10
      let b := dTref d 0x18
      noFormats d && trefOk fmtByte a && trefOk fmtByte b && decide (a.rows = b.rows ∧ a.cols = b.cols) && allZero (d.drop 0x20)
    access := fun _ _ d => { reads := trefRanges fmtByte (dTref d 0x10), writes := trefRanges fmtByte (dTref d 0x18) }
    holds := true
    run := fun s i d _ => .ok (writeRows s i.tile (dTref d 0x18) (readRows s i.tile (dTref d 0x10))) }

def execMoveCopy (tile ctx : Nat) (s : State) : Result := issueDesc s tile ctx 8 copyRun

/-- n bytes of an 8-byte pattern from byte 0. -/
def patternRow (p : Bytes) (n : Nat) : Bytes := (List.range n).map fun i => byteAt p (i % 8)

def fillRun : DescRun :=
  { ok := fun _ _ d => noFormats d && trefOk fmtByte (dTref d 0x18) && allZero (sliceOf d 0x10 8)
      && allZero (sliceOf d 0x20 16) && allZero (sliceOf d 0x38 8)
    access := fun _ _ d => { reads := [], writes := trefRanges fmtByte (dTref d 0x18) }
    holds := true
    run := fun s i d _ =>
      let t := dTref d 0x18
      .ok (writeRows s i.tile t (List.replicate t.rows (patternRow (sliceOf d 0x30 8) t.cols))) }

def execMoveFill (tile ctx : Nat) (s : State) : Result := issueDesc s tile ctx 9 fillRun

/-! ### MOVE.FETCH and MOVE.PUT (R93, R370, R371) -/

def dFaddr (d : Bytes) : Nat := fieldAt d 0x20 6
def dFstride (d : Bytes) : Nat := fieldAt d 0x28 4

/-- The device ranges of the rows. -/
def fabricRanges (d : Bytes) (t : Tref) : List (Nat × Nat) := (List.range t.rows).map fun r => (dFaddr d + r * dFstride d, t.cols)

/-- What a tile may fetch from: image areas, the profiles, the incumbent and the Latigo state, which adjoin, the mailbox
area, its own world bank. -/
def fetchable (s : State) (tile a n : Nat) : Bool :=
  inRange a n 0 (gddrEnd s) && (imageArea a n || inRange a n profileBase 0x1840)
    || inMailbox a n || inRange a n (bankBase + tile / 16 * 0x400000) 0x400000

def fabricOk (d : Bytes) : Bool :=
  decide (fieldAt d 0x26 2 = 0 ∧ dFaddr d % 64 = 0 ∧ dFstride d % 64 = 0) && allZero (sliceOf d 0x2C 20)

def landFetch (s : State) (i : Inst) (d : Bytes) : State :=
  let t := dTref d 0x18
  tickFree (writeRows s i.tile t ((fabricRanges d t).map fun r => readDev s r.1 r.2))

/-- A fetch that meets an uncorrectable error: in GDDR6 its instance is aborted; a word of the mailbox area or of the world
bank is reported, and what it delivers is unspecified (R363). -/
def fetchFault (s : State) (i : Inst) (d : Bytes) (a : Nat) : State :=
  if bankBase ≤ a then landFetch (devUe s a) i d else abortAt (devUe s a) i.tile i.ctx csTileFault

/-- What the fetch reads is corrected and counted (R362). -/
def correctFetch (s : State) (rs : List (Nat × Nat)) : State := rs.foldl (fun t r => correctRead t (devKey r.1) r.2) s

def fetchRun : DescRun :=
  { ok := fun _ _ d => noFormats d && trefOk fmtByte (dTref d 0x18) && fabricOk d && allZero (sliceOf d 0x10 8)
    access := fun _ _ d => { reads := [], writes := trefRanges fmtByte (dTref d 0x18) }
    holds := true
    run := fun s i d _ =>
      let rs := fabricRanges d (dTref d 0x18)
      if !rs.all (fun r => fetchable s i.tile r.1 r.2) then .error "R370"
      else match rs.find? (fun r => badDev s r.1 r.2) with
        | some r => .ok (fetchFault (correctFetch s rs) i d (firstBadDev s r.1 r.2))
        | none => .ok (landFetch (correctFetch s rs) i d) }

def execMoveFetch (tile ctx : Nat) (s : State) : Result := issueDesc s tile ctx 0x0A fetchRun

/-- The own-handoff window (R370). -/
def handoffWindow : Nat := 0x300000000000

/-- The memory key of a PUT's target, where it may write (R93). -/
def putKey (i : Inst) (a n : Nat) : Option Nat :=
  if inRange a n handoffWindow 0x8000 then some (tileBase i.tile + 0xB8000 + (a - handoffWindow))
  else if dmaWritable a n then some a
  else none

def putRun : DescRun :=
  { ok := fun _ _ d => noFormats d && trefOk fmtByte (dTref d 0x10) && fabricOk d && allZero (sliceOf d 0x18 8)
    access := fun _ _ d => { reads := trefRanges fmtByte (dTref d 0x10), writes := [] }
    holds := true
    run := fun s i d _ =>
      let t := dTref d 0x10
      let ps := (fabricRanges d t).zip (readRows s i.tile t)
      if !ps.all (fun p => (putKey i p.1.1 p.1.2).isSome) then .error "R370"
      else .ok (ps.foldl (fun u p => match putKey i p.1.1 p.1.2 with | some k => devWrite u k p.2 | none => u) s) }

def execMovePut (tile ctx : Nat) (s : State) : Result := issueDesc s tile ctx 0x0B putRun

/-! ### DMAREQ (R101, R336) -/

/-- The shadow is free to write. -/
def channelTakes (s : State) (i : Inst) (d : Bytes) : Bool := !(chanGet s (8 * (i.tile / 16) + fieldAt d 0x10 1)).armed

def armCount (i : Inst) (idx : Nat) : Nat := natGet i.dmaArms idx

/-- The set a DMAREQ writes, owned by its instance. -/
def reqSet (s : State) (i : Inst) (d : Bytes) (idx : Nat) : RegSet :=
  parseSet (d.drop 0x18) i.task.safe (i.tile, i.ctx) (i.task.taskId, i.batch, idx, armCount i idx) i.copy s.cyc.seq

def armOnly (d : Bytes) : Bool := bitOf (fieldAt d (0x18 + 20) 4) 23

/-- The register set is written, and armed if MODE asks for it. -/
def acceptReq (s : State) (i : Inst) (d : Bytes) (idx : Nat) : Attempt :=
  let ch := fieldAt d 0x10 1
  let key := 8 * (i.tile / 16) + ch
  let r := reqSet s i d idx
  let arm := decide (fieldAt d 0x11 1 = 1)
  let i1 := if arm then { i with armed := addOnce i.armed ch, dmaArms := natSet i.dmaArms idx (armCount i idx + 1) } else i
  let s1 := setInst s i1
  let old := rearmed (chanGet s key).shadow r
  if arm && armOnly d then (if setOk s old then .ok (writeShadow s1 key old true) else .error "R355")
  else if setOk s r then .ok (writeShadow s1 key r arm)
  else .error "R355"

def dmareqRun : DescRun :=
  { ok := fun _ _ d => noFormats d && decide (fieldAt d 0x10 1 < 8 ∧ fieldAt d 0x11 1 < 2) && allZero (sliceOf d 0x12 6)
    access := fun _ _ _ => noAccess
    holds := true
    run := fun s i d idx =>
      if channelTakes s i d then acceptReq s i d idx else .ok (setInst s { i with stalled := i.stalled ++ [idx] }) }

def execDmareq (tile ctx : Nat) (s : State) : Result := issueDesc s tile ctx 0x48 dmareqRun

end Sys2Proof.Machine
end

