-- ==== Sys2Proof/Machine/FlowPort.lean ====
section
/-! DEFINITION. Flow tokens (R88 to R91), the reorder buffers that EMIT fills (R262, R263), and the completion
of descriptors (R85, R103). -/

namespace Sys2Proof.Machine

/-! ### WAIT and SIGNAL (R89, R90) -/

def takeToken (s : State) (tile counter n : Nat) : State :=
  { s with disp := { s.disp with
    tokens := halfSet s.disp.tokens (32 * tile + counter) (tokenOf s tile counter - BitVec.ofNat 16 n) } }

def waitRun : DescRun :=
  { ok := fun _ _ d => noFormats d && decide (fieldAt d 0x10 1 < 32 ∧ 1 ≤ fieldAt d 0x12 2 ∧ fieldAt d 0x11 1 = 0) && allZero (d.drop 0x14)
    access := fun _ _ _ => noAccess, holds := false
    run := fun s i d _ => .ok (takeToken s i.tile (fieldAt d 0x10 1) (fieldAt d 0x12 2)) }

def execWait (tile ctx : Nat) (s : State) : Result := issueDesc s tile ctx 0x50 waitRun

/-- The increment is under way (R92). -/
def sendSignal (s : State) (i : Inst) (d : Bytes) (idx : Nat) : State :=
  { s with disp := { s.disp with inbound := s.disp.inbound ++
      [(32 * fieldAt d 0x10 1 + fieldAt d 0x11 1, BitVec.ofNat 16 (fieldAt d 0x12 2), i.tile, i.ctx, idx)] } }

def signalRun : DescRun :=
  { ok := fun s _ d => noFormats d && presentTile s (fieldAt d 0x10 1) && decide (fieldAt d 0x11 1 < 32 ∧ 1 ≤ fieldAt d 0x12 2)
      && allZero (d.drop 0x14)
    access := fun _ _ _ => noAccess, holds := true
    run := fun s i d idx => .ok (sendSignal s i d idx) }

def execSignal (tile ctx : Nat) (s : State) : Result := issueDesc s tile ctx 0x51 signalRun

/-- TOKEN_INCREMENT: an increment under way reaches its counter and is acknowledged (R88, R91). -/
def execTokenIncrement (tile counter amount : Nat) (s : State) : Result :=
  match s.disp.inbound.findIdx? (fun p => decide (p.1 = 32 * tile + counter ∧ p.2.1.toNat = amount)) with
  | none => .next s
  | some k => onlyIf s true (addToken { s with disp := { s.disp with inbound := listDel s.disp.inbound k } } tile counter amount)

/-! ### Reorder buffers (R262, R263) -/

/-- The device's sinks: world batches, the plan item, collective items. -/
def sinkWorld : Nat := 0xFFF0
def sinkPlan : Nat := 0xFFF1
def sinkColl : Nat := 0xFFF2

def isSink (f : Nat) : Bool := decide (f = sinkWorld ∨ f = sinkPlan ∨ f = sinkColl)

def Flow.reset (f : Nat) : Flow := { flowId := f, nextSeq := 0, items := [], released := 0, blocked := false, room := 0 }

def flowOf (s : State) (f : Nat) : Flow := (s.flows.find? (·.flowId = f)).getD (.reset f)

def flowInsert (x : Flow) : List Flow → List Flow
  | [] => [x]
  | y :: t => if x.flowId < y.flowId then x :: y :: t else y :: flowInsert x t

def setFlow (s : State) (x : Flow) : State := { s with flows := flowInsert x (s.flows.filter (·.flowId ≠ x.flowId)) }

/-- The flow's table entry (R262). -/
def flowCfg (s : State) (f : Nat) : Option FlowCfg :=
  match s.load.active with
  | some i => i.flows.find? (·.flowId = f)
  | none => none

/-- FLOW_DUP is counted and reported (R263). -/
def flowDup (s : State) : State := sendOpenEvent (bumpReg s offFlowDup) 0x0005

/-- One item offered to a flow: none while it must wait (R262, R263). The TWIN's item at a sink is discarded. -/
def offerItem (s : State) (i : Inst) (f seq : Nat) (item : Bytes) : Option State :=
  let x := flowOf s f
  let d := (BitVec.ofNat 32 seq - x.nextSeq).toNat
  if isSink f && i.task.safe && decide (i.copy = 1) then some s
  else if 2 ^ 31 ≤ d then some (flowDup s)
  else if 256 ≤ d then none
  else if x.items.any (fun p => p.seq.toNat = seq) then some (flowDup s)
  else some (setFlow s { x with items := x.items ++
    [{ seq := BitVec.ofNat 32 seq, phase := i.task.phase, owner := (i.task.taskId, i.batch, i.copy), bytes := item }] })

/-- The EMITs stalled on a flow with a SEQ: the contexts they run on. -/
def stalledEmits (s : State) (f seq : Nat) : List Nat :=
  (s.disp.running.filter fun i => !i.finished && i.stalled.any fun k =>
    let d := descBytes s i k
    decide (dOpcode d = 0x58 ∧ fieldAt d 0x10 2 = f ∧ fieldAt d 0x14 4 = seq)).map ctxKey

/-- Another EMIT of the SEQ, stalled as long as this one, is reached first by the flow port's pointer (R273). -/
def emitWaits (s : State) (i : Inst) (f seq : Nat) : Bool :=
  (stalledEmits s f seq).any fun k => decide (ctxRank (natGet s.disp.flowPtr f) k < ctxRank (natGet s.disp.flowPtr f) (ctxKey i))

/-- The flow port's pointer moves past a context whose EMIT it has served. -/
def servedEmit (s : State) (i : Inst) (f : Nat) : State :=
  { s with disp := { s.disp with flowPtr := natSet s.disp.flowPtr f ((ctxKey i + 1) % 512) } }

/-! ### EMIT -/

def emitItem (s : State) (i : Inst) (d : Bytes) : Bytes := tensorBytes s i.tile fmtByte (dTref d 0x18)

/-- The item fits the flow, and the flow exists (R101, R262). -/
def emitOk (s : State) (d : Bytes) : Bool :=
  let n := (dTref d 0x18).rows * (dTref d 0x18).cols
  decide (n ≤ 4096) && (isSink (fieldAt d 0x10 2) || (match flowCfg s (fieldAt d 0x10 2) with
    | some c => decide (n ≤ c.itemMax)
    | none => false))

def emitRun : DescRun :=
  { ok := fun s _ d => noFormats d && trefOk fmtByte (dTref d 0x18) && emitOk s d && allZero (sliceOf d 0x12 2) && allZero (d.drop 0x20)
    access := fun _ _ d => { reads := trefRanges fmtByte (dTref d 0x18), writes := [] }
    holds := true
    run := fun s i d idx =>
      match offerItem s i (fieldAt d 0x10 2) (fieldAt d 0x14 4) (emitItem s i d) with
      | some t => .ok t
      | none => .ok (setInst s { i with stalled := i.stalled ++ [idx] }) }

def execEmit (tile ctx : Nat) (s : State) : Result := issueDesc s tile ctx 0x58 emitRun

/-! ### Completion (R85, R103) -/

/-- CTRL, then X_ACC (R226). -/
def solveOutput (s : State) (i : Inst) (d : Bytes) : Bytes :=
  let head := tileRead s i.tile (64 * fieldAt d 0x10 4) 128
  let base := 64 * (dTref d 0x18).line
  tileRead s i.tile base 64 ++ tileRead s i.tile (base + 64 * fieldAt head 0x20 2) (8 * fieldAt head 0x60 2)

/-- The bytes a completing descriptor adds to the signature of a SAFE copy: its OUT or DST tensor, or the
EMIT's item; nothing for PUT, which names neither (log entry 32). -/
def signaturePart (s : State) (i : Inst) (d : Bytes) : Bytes :=
  let op := dOpcode d
  if op = 0x08 ∨ op = 0x09 ∨ op = 0x0A then tensorBytes s i.tile fmtByte (dTref d 0x18)
  else if op = 0x10 ∨ op = 0x11 then tensorBytes s i.tile (dFmtOut d) (dTref d 0x18)
  else if op = 0x18 ∨ op = 0x19 ∨ op = 0x1A ∨ op = 0x1B then tensorBytes s i.tile (dFmtOut d) (dTref d 0x20)
  else if op = 0x20 then tensorBytes s i.tile (dFmtOut d) (dTref d 0x18)
  else if op = 0x28 then tensorBytes s i.tile fmtByte (dTref d 0x20)
  else if op = 0x30 then tensorBytes s i.tile fmtByte (dTref d 0x18)
  else if op = 0x38 ∨ op = 0x39 ∨ op = 0x3A then tensorBytes s i.tile fmtByte (dTref d 0x20)
  else if op = 0x43 then solveOutput s i d
  else if op = 0x58 then emitItem s i d
  else []

/-- A stalled EMIT or DMAREQ is tried again; none while it must wait. -/
def retryStalled (s : State) (i : Inst) (d : Bytes) (k : Nat) : Option Attempt :=
  if k ∉ i.stalled then some (.ok s)
  else
    let i1 := { i with stalled := i.stalled.filter (· ≠ k) }
    if dOpcode d = 0x58 then
      if emitWaits s i (fieldAt d 0x10 2) (fieldAt d 0x14 4) then none
      else (offerItem (setInst s i1) i1 (fieldAt d 0x10 2) (fieldAt d 0x14 4) (emitItem s i d)).map fun t =>
        .ok (servedEmit t i (fieldAt d 0x10 2))
    else if channelTakes s i d then some (acceptReq (setInst s i1) i1 d k)
    else none

/-- The work of a descriptor in flight is done: no pair, chunk, report or acknowledgement is outstanding. -/
def workDone (s : State) (i : Inst) (k : Nat) : Bool :=
  !i.sweeps.any (fun w => decide (w.index = k)) && (match i.mm with | some m => decide (m.index ≠ k) | none => true)
    && (match i.solve with | some r => decide (r.index ≠ k) | none => true)
    && !s.disp.inbound.any (fun p => decide (p.2.2 = (i.tile, i.ctx, k)))

/-- The descriptor leaves its unit, and its output enters the signature. -/
def retire (s : State) (tile ctx k : Nat) : State :=
  match instOf s tile ctx with
  | none => s
  | some i =>
    let d := descBytes s i k
    let sigs := if i.task.safe && dSig d then sigInsert (k, signaturePart s i d) i.sigs else i.sigs
    tickFree (traceRec (setInst s { i with inflight := i.inflight.filter (·.1 ≠ k), sigs := sigs })
      4 tile (dTag d) k (Config.freeNat 5 s.disp.freeCtr))

/-- DESCRIPTOR_COMPLETE (R85). -/
def execDescriptorComplete (tile ctx index : Nat) (s : State) : Result :=
  match instOf s tile ctx with
  | none => .next s
  | some i =>
    if s.boot.inReset || i.finished || !i.inflight.any (·.1 = index) || !workDone s i index then .next s
    else match retryStalled s i (descBytes s i index) index with
      | none => .next s
      | some a => ofAttempt (a.map fun t => retire t tile ctx index)

/-- PUT_TIMEOUT (R93): what reached the target is unspecified; the descriptor counts as complete. R93 does not name the event it
raises: that it is DMA_TIMEOUT, code 0x0004, as of a DMA transfer that times out, is a DESIGN CHOICE (log entry 8). -/
def putTimeout (s : State) (i : Inst) (d : Bytes) (k : Nat) : State :=
  let s1 := (fabricRanges d (dTref d 0x10)).foldl (fun u r => match putKey i r.1 r.2 with
    | some a => devScramble u a r.2
    | none => u) s
  retire (sendOpenEvent s1 0x0004) i.tile i.ctx k

/-- The PUT in flight on a context. -/
def putInFlight (s : State) (i : Inst) : Option Nat :=
  (i.inflight.find? fun p => decide (p.2 = 0 ∧ dOpcode (descBytes s i p.1) = 0x0B)).map (·.1)

/-- The PUT's read-back differs (R306): the last line reads as something else, and the descriptor counts as complete, as one
that times out does (log entry 8). -/
def putMismatch (s : State) (i : Inst) (d : Bytes) (k : Nat) : State :=
  let s1 := match (fabricRanges d (dTref d 0x10)).getLast? with
    | none => s
    | some r => match putKey i r.1 r.2 with
      | some a => devScramble s (a + (r.2 - 1) / 64 * 64) (min 64 (r.2 - (r.2 - 1) / 64 * 64))
      | none => s
  retire s1 i.tile i.ctx k

def execPutTimeout (tile ctx : Nat) (s : State) : Result :=
  match instOf s tile ctx with
  | none => .next s
  | some i => match putInFlight s i with
    | none => .next s
    | some k => onlyIf s (!i.finished) (putTimeout s i (descBytes s i k) k)

end Sys2Proof.Machine
end

