-- ==== Sys2Proof/Machine/Select.lean ====
section
/-! DEFINITION. SEL: TOPK, TOPK.MERGE and KNN (R99, R190 to R203, R208). -/

namespace Sys2Proof.Machine

/-! ### Order (R190, R191) -/

/-- An entry with its place: input list row, position in the row. -/
structure Ent where
  key   : Nat
  id    : Nat
  index : Nat
  row   : Nat
  pos   : Nat
  deriving DecidableEq, Repr

/-- Key a ranks before key b. -/
def keyBefore (fmt : Nat) (largest : Bool) (a b : Nat) : Bool :=
  if fmt = 2 then
    let x := decodeFloat fF32 a
    let y := decodeFloat fF32 b
    if isNan x then false else if isNan y then true else if largest then ltNum y x else ltNum x y
  else
    let x : Int := if fmt = 0 then a else toSigned 32 a
    let y : Int := if fmt = 0 then b else toSigned 32 b
    if largest then decide (y < x) else decide (x < y)

def sameRank (fmt : Nat) (largest : Bool) (a b : Nat) : Bool := !keyBefore fmt largest a b && !keyBefore fmt largest b a

/-- The total order of R191. -/
def entBefore (fmt : Nat) (largest : Bool) (a b : Ent) : Bool :=
  keyBefore fmt largest a.key b.key || (!keyBefore fmt largest b.key a.key &&
    (if a.index ≠ b.index then decide (a.index < b.index)
     else if a.row ≠ b.row then decide (a.row < b.row) else decide (a.pos < b.pos)))

def entInsert (fmt : Nat) (largest : Bool) (x : Ent) : List Ent → List Ent
  | [] => [x]
  | y :: t => if entBefore fmt largest x y then x :: y :: t else y :: entInsert fmt largest x t

def entSort (fmt : Nat) (largest : Bool) (l : List Ent) : List Ent := l.foldr (entInsert fmt largest) []

/-- The first entry of each id of a sorted list (R197). -/
def firstOfId : List Nat → List Ent → List Ent
  | _, [] => []
  | seen, e :: t => if e.id ∈ seen then firstOfId seen t else e :: firstOfId (e.id :: seen) t

/-! ### Result lists (R193 to R197) -/

/-- The worst key (R195). -/
def worstKey (fmt : Nat) (largest : Bool) : Nat :=
  if fmt = 0 then (if largest then 0 else 0xFFFFFFFF)
  else if fmt = 1 then (if largest then 0x80000000 else 0x7FFFFFFF)
  else 0x7FC00000

def entBytes (e : Ent) : Bytes := toLe 4 e.key ++ toLe 4 e.id ++ toLe 4 e.index ++ zeros 4

/-- A selection: what was taken, how many entries tie with the last slot, how many duplicates went. -/
structure Choice where
  taken : List Ent
  ties  : Nat
  dups  : Nat
  deriving DecidableEq, Repr

def choose (fmt : Nat) (largest dedup : Bool) (k : Nat) (l : List Ent) : Choice :=
  let all := entSort fmt largest l
  let live := if dedup then firstOfId [] all else all
  let taken := live.take k
  let last := (taken.getLastD { key := 0, id := 0, index := 0, row := 0, pos := 0 }).key
  { taken := taken, ties := if taken.length = k then ((live.drop k).filter fun e => sameRank fmt largest e.key last).length else 0,
    dups := all.length - live.length }

/-- The list's bytes; other R_FLAGS bits are given. -/
def listBytes (fmt : Nat) (largest dedup : Bool) (k ties dups more : Nat) (taken : List Ent) : Bytes :=
  let t := min 255 ties
  let empty : Ent := { key := worstKey fmt largest, id := 0xFFFFFFFF, index := 0xFFFFFFFF, row := 0, pos := 0 }
  toLe 1 taken.length ++ toLe 1 k
    ++ toLe 1 (boolNat (decide (0 < t)) + 2 * boolNat dedup + 4 * boolNat largest + 8 * fmt + more) ++ toLe 1 t
    ++ toLe 4 (min 0xFFFFFFFF dups) ++ toLe 8 (2 ^ taken.length - 1)
    ++ ((taken ++ List.replicate (k - taken.length) empty).map entBytes).flatten

/-! ### Fields (R99) -/

def seIn0 (d : Bytes) : Tref := dTref d 0x10
def seIn1 (d : Bytes) : Tref := dTref d 0x18
def seOut (d : Bytes) : Tref := dTref d 0x20
def seK (d : Bytes) : Nat := fieldAt d 0x28 1
def seFmt (d : Bytes) : Nat := fieldAt d 0x29 1
def seLargest (d : Bytes) : Bool := bitOf (fieldAt d 0x2A 1) 0
def seDedup (d : Bytes) : Bool := bitOf (fieldAt d 0x2A 1) 1
def seParam (d : Bytes) : Nat := fieldAt d 0x2C 4

/-- 32-bit elements (R98, R192). -/
def fmtWord : Nat := 3

def seBase (d : Bytes) : Bool :=
  noFormats d && trefOk fmtByte (seOut d) && decide (1 ≤ seK d ∧ seK d ≤ 64 ∧ 16 + 16 * seK d ≤ (seOut d).cols)
    && decide (fieldAt d 0x2B 1 = 0) && allZero (d.drop 0x30)

def seOrderOk (d : Bytes) : Bool := decide (seFmt d ≤ 2 ∧ fieldAt d 0x2A 1 ≤ 3)

/-- The 32-bit elements of a row. -/
def keyWords (s : State) (tile : Nat) (t : Tref) (r : Nat) : List Nat :=
  let bs := readRowBytes s tile fmtWord t r
  (List.range t.cols).map fun j => fieldAt bs (4 * j) 4

def nanKeys (fmt : Nat) (keys : List Nat) : Nat :=
  if fmt = 2 ∧ keys.any (fun k => isNan (decodeFloat fF32 k)) then flNan else 0

def landLists (s : State) (i : Inst) (d : Bytes) (lists : List Bytes) (flags : Nat) : Attempt :=
  .ok (gatherFlags (writeRows s i.tile (seOut d) lists) i.tile i.ctx flags)

/-! ### TOPK (R198) -/

/-- One row's list. -/
def topkRow (s : State) (tile : Nat) (d : Bytes) (r : Nat) : Bytes :=
  let keys := keyWords s tile (seIn0 d) r
  let ids := if trefAbsent (seIn1 d) then [] else keyWords s tile (seIn1 d) r
  let ents := (List.range keys.length).map fun j =>
    let ix := seParam d + j
    ({ key := keys.getD j 0, id := if trefAbsent (seIn1 d) then ix else ids.getD j 0, index := ix, row := 0, pos := j } : Ent)
  let c := choose (seFmt d) (seLargest d) (seDedup d) (seK d) ents
  listBytes (seFmt d) (seLargest d) (seDedup d) (seK d) c.ties c.dups 0 c.taken

def topkRun : DescRun :=
  { ok := fun _ _ d => seBase d && seOrderOk d && trefOk fmtWord (seIn0 d) && trefOk fmtWord (seIn1 d)
      && decide ((seIn0 d).rows ≤ (seOut d).rows)
    access := fun _ _ d =>
      { reads := trefRanges fmtWord (seIn0 d) ++ trefRanges fmtWord (seIn1 d), writes := trefRanges fmtByte (seOut d) }
    holds := true
    run := fun s i d _ =>
      let k := seIn0 d
      if 2 ^ 32 < seParam d + k.cols then .error "R208"
      else if !trefAbsent (seIn1 d) ∧ ((seIn1 d).rows ≠ k.rows ∨ (seIn1 d).cols ≠ k.cols) then .error "R208"
      else landLists s i d ((List.range k.rows).map (topkRow s i.tile d))
        (nanKeys (seFmt d) ((List.range k.rows).map (keyWords s i.tile k)).flatten) }

def execTopk (tile ctx : Nat) (s : State) : Result := issueDesc s tile ctx 0x38 topkRun

/-! ### TOPK.MERGE (R199, R200) -/

def listValid (l : Bytes) : Nat := fieldAt l 0 1
def listK (l : Bytes) : Nat := fieldAt l 1 1
def listFlags (l : Bytes) : Nat := fieldAt l 2 1

/-- The valid entries of an input list. -/
def listEnts (l : Bytes) (row : Nat) : List Ent :=
  (List.range (listValid l)).map fun p =>
    let o := 16 + 16 * p
    { key := fieldAt l o 4, id := fieldAt l (o + 4) 4, index := fieldAt l (o + 8) 4, row := row, pos := p }

/-- Entries in order (R208). -/
def inOrder (fmt : Nat) (largest : Bool) : List Ent → Bool
  | a :: b :: t => entBefore fmt largest a b && inOrder fmt largest (b :: t)
  | _ => true

/-- A list as SEL writes it, with the descriptor's order (R208). -/
def listOk (d : Bytes) (l : Bytes) : Bool :=
  decide (listValid l ≤ listK l ∧ 16 + 16 * listValid l ≤ l.length ∧ fieldAt l 8 8 = 2 ^ listValid l - 1)
    && decide (bitsOf (listFlags l) 3 2 = seFmt d ∧ bitOf (listFlags l) 2 = seLargest d)
    && inOrder (seFmt d) (seLargest d) (listEnts l 0)

/-- The list is full (R200). -/
def listFull (l : Bytes) : Bool := decide (listValid l = listK l)

/-- The merged list of the input lists. -/
def mergeLists (fmt : Nat) (largest dedup : Bool) (k : Nat) (ls : List Bytes) : Bytes :=
  let ents := ((List.range ls.length).map fun r => listEnts (ls.getD r []) r).flatten
  let c := choose fmt largest dedup k ents
  let last := (c.taken.getLastD { key := 0, id := 0, index := 0, row := 0, pos := 0 }).key
  let inTies := if c.taken.length < k then 0 else
    (ls.map fun l => if listFull l ∧ 0 < listValid l ∧ sameRank fmt largest (fieldAt l (16 * listValid l) 4) last then fieldAt l 3 1 else 0).sum
  let inDups := (ls.map fun l => fieldAt l 4 4).sum
  let short := ls.any fun l => (listFull l && decide (listK l < k)) || bitOf (listFlags l) 6
  listBytes fmt largest dedup k (c.ties + inTies) (c.dups + inDups) (64 * boolNat short) c.taken

def mergeRun : DescRun :=
  { ok := fun _ _ d => seBase d && seOrderOk d && trefOk fmtByte (seIn0 d)
      && decide (1 ≤ (seIn0 d).rows ∧ (seIn0 d).rows ≤ 64 ∧ 1 ≤ (seOut d).rows)
    access := fun _ _ d => { reads := trefRanges fmtByte (seIn0 d), writes := trefRanges fmtByte (seOut d) }
    holds := true
    run := fun s i d _ =>
      let ls := (List.range (seIn0 d).rows).map (readRowBytes s i.tile fmtByte (seIn0 d))
      if (seIn1 d).rows ≠ 0 ∨ seParam d ≠ 0 ∨ !ls.all (listOk d) then .error "R208"
      else landLists s i d [mergeLists (seFmt d) (seLargest d) (seDedup d) (seK d) ls]
        (nanKeys (seFmt d) ((ls.map fun l => (listEnts l 0).map (·.key)).flatten)) }

def execTopkMerge (tile ctx : Nat) (s : State) : Result := issueDesc s tile ctx 0x39 mergeRun

/-! ### KNN (R202, R203) -/

/-- The squared distance of two points, axis by axis. -/
def distSq (q r : List Num) : Flagged Num :=
  (q.zip r).foldl (fun acc p =>
    let t := fSub fF32 .rne p.1 p.2
    let f := fFma fF32 .rne t.1 t.1 acc.1
    (f.1, acc.2 ||| t.2 ||| f.2)) (pzero, 0)

/-- One query's list with the flags of its distances. -/
def knnRow (k radius : Nat) (q : List Num) (refs : List (List Num)) : Bytes × Nat :=
  let ds := refs.map (distSq q)
  let lim := decodeFloat fF32 radius
  let ents := (List.range ds.length).filterMap fun r =>
    let x := (ds.getD r (pzero, 0)).1
    if isNan x ∨ isNan lim ∨ ltNum lim x then none
    else some ({ key := encodeFloat fF32 x, id := r, index := r, row := 0, pos := r } : Ent)
  let c := choose 2 false false k ents
  (listBytes 2 false false k c.ties 0 32 c.taken, orFlags (ds.map (·.2)) ||| useFlags [lim])

def fmtF32Pts (s : State) (tile : Nat) (t : Tref) : List (List Num) :=
  (List.range t.rows).map fun r => (keyWords s tile t r).map (decodeFloat fF32)

def knnRun : DescRun :=
  { ok := fun _ _ d => seBase d && decide (fieldAt d 0x29 2 = 0) && trefOk fmtWord (seIn0 d) && trefOk fmtWord (seIn1 d)
      && decide ((seIn0 d).rows ≤ (seOut d).rows)
    access := fun _ _ d =>
      { reads := trefRanges fmtWord (seIn0 d) ++ trefRanges fmtWord (seIn1 d), writes := trefRanges fmtByte (seOut d) }
    holds := true
    run := fun s i d _ =>
      let n := (seIn0 d).cols
      if n ≠ (seIn1 d).cols ∨ n = 0 ∨ 16 < n then .error "R208"
      else
        let refs := fmtF32Pts s i.tile (seIn1 d)
        let r := (fmtF32Pts s i.tile (seIn0 d)).map fun q => knnRow (seK d) (seParam d) q refs
        landLists s i d (r.map (·.1)) (orFlags (r.map (·.2))) }

def execKnn (tile ctx : Nat) (s : State) : Result := issueDesc s tile ctx 0x3A knnRun

end Sys2Proof.Machine
end

