-- ==== Sys2Proof/Machine/Coll.lean ====
section
/-! DEFINITION. Linked packages (R453 to R462): collective frames, the collectives of the cycle, leadership and
routing (log entry 42). -/

namespace Sys2Proof.Machine

/-! ### The package (R454, R459, R462) -/

def pkgId (s : State) : Nat := regNat s offLkCfg % 16
def pkgCount (s : State) : Nat := max 1 (bitsOf (regNat s offLkCfg) 4 4)

/-- The port is enabled and its link up. -/
def portUp (s : State) (l : Nat) : Bool := bitOf s.links.up l && bitOf (regNat s offLkCfg) (10 + l)

/-- LINK_UP as the boundary sees it. -/
def upBits (s : State) : Nat := boolNat (portUp s 0) + 2 * boolNat (portUp s 1)

/-- REACH, LEADER and the routes of the coming cycle; of the other packages' links nothing is known here (log
entry 42). -/
def updateReach (s : State) : State :=
  let all := decide (2 ≤ pkgCount s) && decide (upBits s ≠ 0)
  { s with links := { s.links with
    reach := if all then 2 ^ pkgCount s - 1 else 2 ^ pkgId s, leader := if all then 0 else pkgId s,
    routed := if pkgCount s < 2 then 0 else upBits s } }

/-- HOPS of a broadcast on port l (R459). -/
def broadcastHops (s : State) (l : Nat) : Nat :=
  let n := pkgCount s
  if !bitOf s.links.routed l then 0
  else if s.links.routed = 3 then (if l = 1 then n / 2 else (n - 1) / 2)
  else n - 1

/-! ### Frames (R456) -/

/-- The 32-byte header, big-endian; the CRC field is given. -/
def collHeader (kind collId cyc src dst hops linkSeq len off total crc : Nat) : Bytes :=
  toBe 1 1 ++ toBe 1 kind ++ toBe 2 collId ++ toBe 4 cyc ++ toBe 1 src ++ toBe 1 dst ++ toBe 1 hops ++ [0] ++ toBe 4 linkSeq
    ++ toBe 4 len ++ toBe 4 off ++ toBe 4 total ++ toBe 4 crc

/-- A collective frame on a port. -/
def collFrame (s : State) (l kind collId cyc src dst hops off total : Nat) (payload : Bytes) : Bytes :=
  let h := collHeader kind collId cyc src dst hops (s.links.seqs.getD l 0).toNat payload.length off total
  let crc := crc32c ((h 0).take 28 ++ payload)
  let body := List.replicate 6 0xFF ++ macBytes s 0x7008 0x700C ++ toBe 2 (regNat s offLkCfg / 65536) ++ h crc ++ payload
  body ++ etherFcs body

/-- A frame leaves on a port; nothing leaves in replay or PAUSED, or on a link that is down (R460). -/
def sendLink (s : State) (l : Nat) (f : State → Bytes) : State :=
  if s.cyc.dev = .replay ∨ s.cyc.dev = .paused ∨ !portUp s l then s
  else
    let s1 := bumpReg s (offLkCnt l 0)
    { s1 with links := { s1.links with seqs := listUpd s1.links.seqs l (· + 1) }, out := .linkFrame l (f s) :: s1.out }

/-- The parts of a contribution: offset and bytes; an empty one is one empty part. -/
def partsOf (bs : Bytes) : List (Nat × Bytes) :=
  if bs = [] then [(0, [])] else (List.range (ceilDiv bs.length 8192)).map fun i => (8192 * i, sliceOf bs (8192 * i) 8192)

/-- A contribution leaves on both ports, L1 first, as far as HOPS takes it. -/
def broadcastColl (s : State) (c : Coll) (dst : Nat) (bs : Bytes) : State :=
  [1, 0].foldl (fun t l =>
    if broadcastHops s l = 0 then t
    else (partsOf bs).foldl (fun u p =>
      sendLink u l fun v => collFrame v l c.kind c.collId v.cyc.seq.toNat (pkgId v) dst (broadcastHops s l) p.1 bs.length p.2) t) s

/-! ### Delivery and completion (R457, R458) -/

def setColl (s : State) (c : Coll) : State :=
  { s with links := { s.links with colls := s.links.colls.map fun x => if x.collId = c.collId then c else x } }

/-- Device address of row p. -/
def rowOf (c : Coll) (p : Nat) : Nat := c.dst + 64 + p * c.rowBytes

/-- The rows of the packages that were reachable at issue. -/
def reachRows (c : Coll) : List Nat := (List.range 4).filter fun p => bitOf c.reach p

def rowsMissing (c : Coll) : List Nat := (reachRows c).filter fun p => !bitOf c.present p

/-- A valid empty list in the order of the package's own (R458). -/
def emptyRow (own : Bytes) (n : Nat) : Bytes :=
  (listBytes (bitsOf (listFlags own) 3 2) (bitOf (listFlags own) 2) false (listK own) 0 0 0 []).take n

/-- The rows of missing packages: every package's below PKG_COUNT that has not arrived. -/
def fillMissing (s : State) (c : Coll) : State :=
  let own := devRead s (rowOf c (pkgId s)) 16
  let missing := (List.range (pkgCount s)).filter fun p => !bitOf c.present p
  if c.kind = 1 then missing.foldl (fun t p => devWrite t (rowOf c p) (emptyRow own c.rowBytes)) s
  else if c.kind = 3 ∧ c.leader = pkgId s then missing.foldl (fun t p => devWrite t (rowOf c p) (zeros c.rowBytes)) s
  else s

/-- The rows that have arrived; a BCAST_DELTA has row 0 alone (R458). -/
def rowBits (c : Coll) : Nat := if c.kind = 2 then boolNat (decide (c.present ≠ 0)) else c.present

/-- The completion line (R458). -/
def completionLine (s : State) (c : Coll) (status epoch : Nat) : Bytes :=
  toLe 2 c.collId ++ toLe 1 c.kind ++ toLe 1 status ++ toLe 1 (rowBits c) ++ toLe 1 c.leader ++ zeros 2 ++ toLe 4 s.cyc.seq.toNat
    ++ toLe 4 epoch ++ zeros 48

/-- COLL_COMPLETE: rows, completion line, then the counter. In replay every collective ends PARTIAL (R460). -/
def completeColl (s : State) (c : Coll) (status epoch : Nat) : State :=
  let st := if s.cyc.dev = .replay then 1 else status
  let s1 := devWrite (fillMissing s c) c.dst (completionLine s c st epoch)
  addToken (setColl s1 { c with ended := true }) c.sigTarget c.sigCounter 1

/-- The collective with an id. -/
def collOf (s : State) (id : Nat) : Option Coll := s.links.colls.find? fun c => decide (c.collId = id)

/-- The status its rows give: a package outside REACH is missing too. -/
def rowsStatus (s : State) (c : Coll) : Nat := boolNat ((List.range (pkgCount s)).any fun p => !bitOf c.present p)

/-- The delivered batch goes to the world engine as a task batch (R458). -/
def submitColl (s : State) (c : Coll) (len : Nat) : State :=
  let b : Batch := { host := false, bytes := toLe 8 (rowOf c 0) ++ toLe 4 len ++ zeros 4, digest := [], msg := none,
                     coll := some c.collId, held := false, since := s.cyc.seq, phase := 0, owner := none }
  setColl { s with world := { s.world with taskQ := s.world.taskQ ++ [b] } } { c with submitted := true }

/-- What a collective does once its rows are as they are. -/
def advanceColl (s : State) (c : Coll) : State :=
  if c.ended then s
  else if c.kind = 2 then
    (if !c.submitted && bitOf c.present c.leader then submitColl s c (natGet c.rows c.leader) else s)
  else if c.kind = 3 ∧ c.leader ≠ pkgId s then completeColl s c 0 0
  else if rowsMissing c = [] then completeColl s c (rowsStatus s c) 0
  else s

/-- A part arrives (R455, R458, R460): kept, or counted as a duplicate. -/
def keepPart (s : State) (c : Coll) (src off total : Nat) (payload : Bytes) : State :=
  if (src, off) ∈ c.parts then bumpReg s offLkDup
  else
    let n := natGet c.rows src + payload.length
    let c1 := { c with parts := (src, off) :: c.parts, rows := natSet c.rows src n,
                       present := if n = total ∧ !bitOf c.present src then c.present + 2 ^ src else c.present }
    if c.ended then setColl s c1
    else
      let at' := (if c.kind = 2 then rowOf c 0 else rowOf c src) + off
      advanceColl (setColl (devWrite s at' payload) c1) c1

/-! ### COLL_FRAME_RX (R455, R456, R459) -/

def fhPayload (f : Bytes) : Bytes := sliceOf f 46 (fieldBe f 30 4)

/-- The frame is whole and its checks hold (R453, R456). -/
def collFrameOk (s : State) (f : Bytes) : Bool :=
  let len := fieldBe f 30 4
  decide (f.length ≤ 8300 ∧ len ≤ 8192 ∧ f.length = 50 + len) && decide (fieldBe f 12 2 = regNat s offLkCfg / 65536)
    && decide (sliceOf f (46 + len) 4 = etherFcs (f.take (46 + len))) && decide (fieldBe f 14 1 = 1) && decide (fieldBe f 25 1 = 0)
    && decide (fieldBe f 42 4 = crc32c (sliceOf f 14 28 ++ fhPayload f))

/-- The frame is for this package. -/
def forMe (s : State) (f : Bytes) : Bool := decide (fieldBe f 23 1 = 0xFF ∨ fieldBe f 23 1 = pkgId s) && decide (fieldBe f 22 1 ≠ pkgId s)

/-- The part fits the row it is for. -/
def partFits (c : Coll) (f : Bytes) : Bool :=
  decide (fieldBe f 22 1 < 4 ∧ fieldBe f 34 4 + fieldBe f 30 4 ≤ fieldBe f 38 4 ∧ fieldBe f 38 4 ≤ c.rowBytes)

/-- The frame's part is kept for the collective, or held until the collective is issued here (log entry 42). -/
def deliverFrame (s : State) (f : Bytes) : Attempt :=
  match collOf s (fieldBe f 16 2) with
  | none => .ok { s with links := { s.links with early := s.links.early ++ [f] } }
  | some c =>
    if fieldBe f 15 1 ≠ c.kind then .error "R455"
    else if !partFits c f then .error "R457"
    else .ok (keepPart s c (fieldBe f 22 1) (fieldBe f 34 4) (fieldBe f 38 4) (fhPayload f))

/-- Forwarded on the other port while HOPS − 1 is above 0. -/
def forwardFrame (s : State) (port : Nat) (f : Bytes) : State :=
  let hops := fieldBe f 24 1
  if hops ≤ 1 then s
  else sendLink s (1 - port) fun t =>
    collFrame t (1 - port) (fieldBe f 15 1) (fieldBe f 16 2) (fieldBe f 18 4) (fieldBe f 22 1) (fieldBe f 23 1) (hops - 1) (fieldBe f 34 4)
      (fieldBe f 38 4) (fhPayload f)

def takeFrame (s : State) (port : Nat) (f : Bytes) : Attempt :=
  if !collFrameOk s f then .ok (bumpReg s (offLkCnt port 2))
  else
    let s1 := bumpReg s (offLkCnt port 1)
    if fieldBe f 18 4 ≠ s.cyc.seq.toNat then .ok (bumpReg s1 offLkStale)
    else (if forMe s f then deliverFrame s1 f else .ok s1).map fun t => forwardFrame t port f

def execCollFrameRx (port : Nat) (frame : Bytes) (s : State) : Result :=
  if s.boot.inReset || !decide (port < 2) || !portUp s port then .next s else ofAttempt (takeFrame s port frame)

/-! ### Issue (R457) -/

/-- The item's fields. -/
def collItem (s : State) (item : Bytes) : Coll :=
  { collId := fieldAt item 2 2, kind := fieldAt item 0 1, len := fieldAt item 4 4, src := fieldAt item 8 8, dst := fieldAt item 0x10 8,
    rowBytes := fieldAt item 0x18 2, sigTarget := fieldAt item 0x1A 1, sigCounter := fieldAt item 0x1B 1, timeout := fieldAt item 0x1C 2,
    startAo := s.ao, leader := s.links.leader, reach := s.links.reach, rows := [], parts := [], present := 0, submitted := false,
    ended := false }

/-- The item is as R457 asks; anything else is unguarded. -/
def collItemOk (s : State) (item : Bytes) : Bool :=
  let c := collItem s item
  decide (item.length = 32 ∧ 1 ≤ c.kind ∧ c.kind ≤ 3) && rsvdZero item [(1, 1), (0x1E, 2)] && (collOf s c.collId).isNone
    && decide (c.len ≤ c.rowBytes ∧ c.rowBytes % 64 = 0 ∧ c.dst % 64 = 0 ∧ c.sigCounter < 32 ∧ 10 ≤ c.timeout ∧ c.timeout ≤ 5000)
    && presentTile s c.sigTarget && (decide (c.kind ≠ 2 ∨ c.leader = pkgId s) || decide (c.len = 0))
    && (decide (c.len = 0) || imageArea c.src c.len) && imageArea c.dst (64 + pkgCount s * c.rowBytes)

/-- Own row written, frames sent, then what completes at once; frames that came early are taken. -/
def issueColl (s : State) (item : Bytes) : Attempt :=
  if !collItemOk s item then .error "R457"
  else
    let c := collItem s item
    let me := pkgId s
    let own := decide (c.kind ≠ 2 ∨ c.leader = me)
    let bs := devRead s c.src c.len
    let row := if c.kind = 2 then 0 else me
    let c1 := if own then { c with rows := [(me, c.len)], parts := (partsOf bs).map (fun p => (me, p.1)), present := 2 ^ me } else c
    let s1 := { (if own then devWrite s (rowOf c row) bs else s) with links := { s.links with colls := s.links.colls ++ [c1], early := [] } }
    let s2 := if c.kind = 1 ∨ (c.kind = 2 ∧ own) then broadcastColl s1 c1 0xFF bs
      else if c.kind = 3 ∧ c.leader ≠ me then broadcastColl s1 c1 c.leader bs else s1
    s.links.early.foldl (fun (a : Attempt) f => a.bind fun t => deliverFrame t f) (.ok (advanceColl s2 c1))

/-! ### COLL_TIMEOUT, LK_LINK_CHANGE -/

/-- COLL_TIMEOUT: what is missing by then stays missing; a batch already with the world engine ends there. -/
def execCollTimeout (collId : Nat) (s : State) : Result :=
  match collOf s collId with
  | none => .next s
  | some c => onlyIf s (!c.ended && !c.submitted && decide (c.startAo + 100 * c.timeout ≤ s.ao)) (completeColl s c 1 0)

/-- LK_LINK_CHANGE (R459): a frame that the drop cuts off is lost, and counted in LK_BAD (R460). -/
def execLkLinkChange (port : Nat) (turn : LinkTurn) (s : State) : Result :=
  let up := decide (turn = .up)
  let s1 := if turn = .cut ∧ bitOf s.links.up port = true then bumpReg s (offLkCnt port 2) else s
  onlyIf s (decide (port < 2))
    { s1 with links := { s.links with
      up := if up = bitOf s.links.up port then s.links.up else if up then s.links.up + 2 ^ port else s.links.up - 2 ^ port } }

/-- A BCAST_DELTA batch has been published or rejected (R458). -/
def collSettled (s : State) (b : Batch) (status epoch : Nat) : State :=
  match b.coll with
  | none => s
  | some id => match collOf s id with
    | some c => if c.ended then s else completeColl s c status epoch
    | none => s

end Sys2Proof.Machine
end

