-- ==== Sys2Proof/Machine/Pieces.lean ====
section
/-! DEFINITION. Bulk objects in pieces (R394). -/

namespace Sys2Proof.Machine

structure Piece where
  obj   : Nat
  off   : Nat
  total : Nat
  flags : Nat
  data  : Bytes
  deriving DecidableEq, Repr, Inhabited

def pieceOf (m : Msg) : Piece :=
  { obj := fieldAt m.payload 0 4, off := fieldAt m.payload 4 4, total := fieldAt m.payload 8 4, flags := fieldAt m.payload 12 1,
    data := m.payload.drop 16 }

def pieceLast (p : Piece) : Bool := bitOf p.flags 0
def pieceActivate (p : Piece) : Bool := bitOf p.flags 1

/-- Reserved bits of the piece header; ACTIVATE is a flag of LOAD_TASK_IMAGE only. -/
def pieceRsvd (m : Msg) : Bool :=
  decide ((pieceOf m).flags < (if m.opcode.toNat = 0x20 then 4 else 2)) && rsvdZero m.payload [(13, 3)]

/-- What a piece leads to. -/
inductive PieceResult where
  | refused (status : Nat)
  | kept
  | whole (object : Bytes)
  deriving DecidableEq, Repr

/-- The object in reassembly that a piece belongs to. -/
def pieceObject (s : State) (opcode : Half) (obj : Nat) : Option PieceObj :=
  s.host.pieces.find? fun o => decide (o.opcode = opcode ∧ o.obj = obj)

def dropObject (s : State) (opcode : Half) (obj : Nat) : State :=
  { s with host := { s.host with pieces := s.host.pieces.filter fun o => !decide (o.opcode = opcode ∧ o.obj = obj) } }

/-- The bytes received so far, if the piece may follow them. -/
def pieceBase (s : State) (m : Msg) (p : Piece) : Option Bytes :=
  if p.off = 0 then some []
  else match pieceObject s m.opcode p.obj with
    | some o => if o.data.length = p.off ∧ o.total = p.total then some o.data else none
    | none => none

/-- A LAST piece that does not end at TOTAL (R110, R394). -/
def shortStatus (m : Msg) (n total : Nat) : Nat := if m.opcode.toNat = 0x20 ∧ n < total then stImageTooLarge else stBadLength

/-- One piece arrives: the object in reassembly, and what it leads to. A piece holds at most 65,472 bytes of DATA
(log entry 47). -/
def takePiece (s : State) (m : Msg) : State × PieceResult :=
  let p := pieceOf m
  let s1 := dropObject s m.opcode p.obj
  match pieceBase s m p with
  | none => (s1, .refused stPieceOrder)
  | some bs =>
    let all := bs ++ p.data
    if 65472 < p.data.length then (s1, .refused stBadLength)
    else if pieceLast p then (if all.length = p.total then (s1, .whole all) else (s1, .refused (shortStatus m all.length p.total)))
    else if p.data.length % 64 ≠ 0 then (s1, .refused stBadLength)
    else
      ({ s1 with host := { s1.host with pieces := { opcode := m.opcode, obj := p.obj, total := p.total, data := all } :: s1.host.pieces } }, .kept)

/-- A piece command: refusals and intermediate pieces are answered here, a whole object goes on. -/
def pieceRun (s : State) (m : Msg) (whole : State → Bytes → Result) : Result :=
  if !pieceRsvd m then .fault (.unguarded "R10")
  else match takePiece s m with
    | (t, .refused st) => .next (reply t m st)
    | (t, .kept) => .next (reply t m stOk)
    | (t, .whole bs) => whole t bs

/-- The same for an opcode whose OBJ is 0 (R394, R395). -/
def pieceRun0 (s : State) (m : Msg) (whole : State → Bytes → Result) : Result :=
  if (pieceOf m).obj ≠ 0 then .next (replyBadArg s m 0) else pieceRun s m whole

end Sys2Proof.Machine
end

