-- ==== Sys2Proof/Machine/Functions.lean ====
section
/-! DEFINITION. The elementary functions of VX (R62, R66, R72): real values in fixed point, to far more places than F32 has,
and the F32 values within the two units in the last place that R66 allows, of which the hardware gives one that the spec does
not state (log entry 10). -/

namespace Sys2Proof.Machine

/-! ### Fixed point: integers counting 2⁻⁴⁰⁰ -/

def fxP : Nat := 400
def fxOne : Int := 2 ^ fxP
def fxMul (a b : Int) : Int := a * b / fxOne
def fxDiv (a b : Int) : Int := a * fxOne / b

/-- ±m × 2^e in fixed point. -/
def fxOf (neg : Bool) (m : Nat) (e : Int) : Int :=
  let k := e + fxP
  let v := Int.ofNat (if 0 ≤ k then m * 2 ^ k.toNat else m / 2 ^ (-k).toNat)
  if neg then -v else v

/-- term + term × r/n + …, n terms on. -/
def fxExpTerms : Nat → Nat → Int → Int → Int
  | 0, _, _, term => term
  | f + 1, n, r, term => term + fxExpTerms f (n + 1) r (fxMul term r / n)

/-- p/n ± p × w/(n + 2) + …: the series of atanh for w = z², of atan for w = −z². -/
def fxAtanTerms : Nat → Nat → Int → Int → Int
  | 0, _, _, _ => 0
  | f + 1, n, w, p => p / n + fxAtanTerms f (n + 2) w (fxMul p w)

def fxAtanh (z : Int) : Int := fxAtanTerms 130 1 (fxMul z z) z
def fxAtan (z : Int) : Int := fxAtanTerms 180 1 (-fxMul z z) z
def fxLn2 : Int := 2 * fxAtanh (fxOne / 3)
def fxPi : Int := 16 * fxAtan (fxOne / 5) - 4 * fxAtan (fxOne / 239)

/-- e^x as m × 2^k, m in fixed point. -/
def fxExp (x : Int) : Int × Int :=
  let k := x / fxLn2
  (fxExpTerms 100 1 (x - k * fxLn2) fxOne, k)

/-- e^x for x ≤ 0, in fixed point. -/
def fxExpNeg (x : Int) : Int := let r := fxExp x; r.1 / 2 ^ (-r.2).toNat

/-- ln (m × 2^e), m > 0. -/
def fxLog (m : Nat) (e : Int) : Int :=
  let b := bitLen m - 1
  let x := fxOf false m (-(b : Int))
  2 * fxAtanh (fxDiv (x - fxOne) (x + fxOne)) + (e + b) * fxLn2

/-- a + a × a²/3 + a × a²/3 × a²/5 + …: with the normal density, the normal distribution from its middle. -/
def fxPhiTerms : Nat → Nat → Int → Int → Int
  | 0, _, _, _ => 0
  | f + 1, n, w, p => p + fxPhiTerms f (n + 2) w (fxMul p w / (n + 2))

/-- Half less or more than the normal distribution at a ≥ 0. -/
def fxPhi (a : Int) : Int :=
  let c := Int.ofNat (isqrt (fxP + 1) (2 ^ (3 * fxP) / (2 * fxPi).toNat) 0)
  fxMul (fxMul c (fxExpNeg (-(fxMul a a / 2)))) (fxPhiTerms 400 1 (fxMul a a) a)

/-- term − term × w/((n + 1)(n + 2)) + …: the series of sine and cosine. -/
def fxSinTerms : Nat → Nat → Int → Int → Int
  | 0, _, _, _ => 0
  | f + 1, n, w, t => t + fxSinTerms f (n + 2) w (-(fxMul t w / ((n + 1) * (n + 2))))

/-- The angle within half a turn of 0. -/
def fxWrap (x : Int) : Int := (x + fxPi) % (2 * fxPi) - fxPi

def fxSin (x : Int) : Int := let r := fxWrap x; fxSinTerms 60 1 (fxMul r r) r
def fxCos (x : Int) : Int := let r := fxWrap x; fxSinTerms 60 0 (fxMul r r) fxOne

/-! ### The functions' values at ±m × 2^e -/

/-- A value v × 2^e. -/
abbrev Scaled := Int × Int

/-- Stands for every magnitude far below F32's smallest subnormal. -/
def tiny : Int := -600

def expVal (x : Int) : Scaled := let r := fxExp x; (r.1, r.2 - fxP)

def tanhVal (x : Int) : Scaled :=
  let u := fxExpNeg (-2 * Int.ofNat x.natAbs)
  let t := fxDiv (fxOne - u) (fxOne + u)
  (if x < 0 then -t else t, -fxP)

def sigmoidVal (x : Int) : Scaled :=
  let u := fxExpNeg (-Int.ofNat x.natAbs)
  (fxDiv (if x < 0 then u else fxOne) (fxOne + u), -fxP)

/-- x times the normal distribution at x: PRESUMED, as the name has it elsewhere (log entry 10). -/
def geluVal (x : Int) : Scaled :=
  let h := fxPhi x.natAbs
  (fxMul x (if x < 0 then fxOne / 2 - h else fxOne / 2 + h), -fxP)

/-- 1 / √(m × 2^e), m > 0. -/
def rsqrtVal (m : Nat) (e : Int) : Scaled :=
  let m2 := if e % 2 = 0 then m else 2 * m
  (Int.ofNat (isqrt 200 (2 ^ 400 / m2) 0), -200 - (if e % 2 = 0 then e else e - 1) / 2)

/-- Beyond these magnitudes a function is at its limit as far as F32 can tell. -/
def limitVal (op : Nat) (neg : Bool) (m : Nat) (e : Int) : Scaled :=
  let one : Scaled := (1, 0)
  if op = 2 then (if neg then (1, tiny) else (1, 512))
  else if op = 4 then (if neg then (-1, 0) else one)
  else if op = 5 then (if neg then (1, tiny) else one)
  else (if neg then (-1, tiny) else (Int.ofNat m, e))

/-- The function of an operation code (R95) at a finite operand inside its domain. -/
def elemVal (op : Nat) (neg : Bool) (m : Nat) (e : Int) : Scaled :=
  let x := fxOf neg m e
  if op = 3 then (fxLog m e, -fxP)
  else if op = 7 then rsqrtVal m e
  else if (if op = 6 then 4 else 8) < e + bitLen m then limitVal op neg m e
  else if op = 2 then expVal x else if op = 4 then tanhVal x else if op = 5 then sigmoidVal x else geluVal x

/-! ### Two units in the last place (R66) -/

/-- The magnitude that stands at place j among F32's, from zero up; the place after the last finite one is 2¹²⁸. -/
def placeVal (j : Int) : Scaled :=
  let b := j.natAbs
  let v : Scaled := if b < 2 ^ 23 then (Int.ofNat b, -149) else (Int.ofNat (2 ^ 23 + b % 2 ^ 23), Int.ofNat (b / 2 ^ 23) - 150)
  (if j < 0 then -v.1 else v.1, v.2)

/-- The exponent of a unit in the last place of y. -/
def ulpOf (y : Scaled) : Int := max (-149) (y.2 + bitLen y.1.natAbs - 24)

/-- The place of y truncated toward zero. -/
def placeOf (y : Scaled) : Int :=
  let q := ulpOf y
  let k := (roundTo .rtz y.1.natAbs y.2 q).1
  let b := min 0x7F800000 (if k < 2 ^ 23 then k else (q + 149).toNat * 2 ^ 23 + k)
  if y.1 < 0 then -Int.ofNat b else Int.ofNat b

/-- The value at place j is within n units in the last place of y. -/
def withinUlps (n : Nat) (y : Scaled) (j : Int) : Bool :=
  let v := placeVal j
  let q := min (min y.2 v.2) (ulpOf y)
  decide (j.natAbs ≤ 0x7F800000
    ∧ (v.1 * 2 ^ (v.2 - q).toNat - y.1 * 2 ^ (y.2 - q).toNat).natAbs ≤ n * 2 ^ (ulpOf y - q).toNat)

/-- One of the places within n units of y, as a free value has it. -/
def placeNear (n : Nat) (y : Scaled) (free : Nat) : Int :=
  let p := placeOf y
  let l := ((List.range (4 * n + 1)).map fun t => p - 2 * n + Int.ofNat t).filter (withinUlps n y)
  l.getD (free % l.length) p

/-- The F32 value at a place; a zero bears the sign of y. -/
def ofPlace (y : Scaled) (j : Int) : Num :=
  if j = 0 then .fin (decide (y.1 < 0)) 0 0
  else if j.natAbs = 0x7F800000 then .inf (decide (j < 0))
  else .fin (decide (j < 0)) (placeVal j).1.natAbs (placeVal j).2

/-- A result near y, with the flags of its production: overflow, or a non-zero value that became subnormal or zero (R75). -/
def nearResult (n : Nat) (y : Scaled) (free : Nat) : Flagged Num :=
  let j := placeNear n y free
  (ofPlace y j, if j.natAbs = 0x7F800000 then flInf else if y.1 ≠ 0 ∧ j.natAbs < 2 ^ 23 then flUnder else 0)

/-! ### The functions -/

/-- At an infinity (R72); GELU of −∞, a product of −∞ and 0 or its limit, is free. -/
def elemInf (op : Nat) (neg : Bool) : Num :=
  let one : Num := .fin false 1 0
  if op = 2 then (if neg then pzero else .inf false)
  else if op = 3 then (if neg then .nan else .inf false)
  else if op = 4 then .fin neg 1 0
  else if op = 5 then (if neg then pzero else one)
  else if op = 7 then (if neg then .nan else pzero)
  else if neg then decodeFloat fF32 (Config.vxFunction op 0xFF800000 % 2 ^ 32) else .inf false

/-- An elementary function of VX (R66): NaN gives the canonical NaN, poles and operands outside the domain are IEEE 754's (R72);
else one of the values within two units in the last place, the same for equal operands. -/
def vxElem (op : Nat) (x : Num) : Flagged Num :=
  match x with
  | .nan => (.nan, flNan)
  | .inf n =>
    let r := elemInf op n
    (r, flInf ||| (if isNan r then flNan else 0))
  | .fin n m e =>
    if m = 0 ∧ op = 3 then (.inf true, 0)
    else if m = 0 ∧ op = 7 then (.inf n, 0)
    else if n ∧ (op = 3 ∨ op = 7) then (.nan, flNan)
    else nearResult 2 (elemVal op n m e) (Config.vxFunction op (encodeFloat fF32 x))

/-! ### Sine and cosine (R154, R167), which R62 does not name -/

/-- Near the sine or cosine v (0, 1) of a finite angle: within two units in the last place, as R66 has it of the others, and exact
at 0, where the sine is: DEDUCED (log entry 34). -/
def trigOf (which : Nat) (x : Num) : Num :=
  match x with
  | .fin n m e =>
    let y := if which = 0 then fxSin (fxOf n m e) else fxCos (fxOf n m e)
    if y = 0 then .fin n 0 0 else (nearResult 2 (y, -fxP) (Config.trig which (encodeFloat fF32 x))).1
  | _ => .nan

def sinOf (x : Num) : Num := trigOf 0 x
def cosOf (x : Num) : Num := trigOf 1 x

end Sys2Proof.Machine
end

