-- ==== Sys2Proof/Machine/Courses.lean ====
section
/-! DEFINITION. Machine profiles (R155 to R157, R159), start states (R160), and the speed, steering and pose
courses GENPRIM builds and the Awl rebuilds (R162 to R167). Courses are exact; what the spec has rounded is
rounded once (log entry 34). -/

namespace Sys2Proof.Machine

/-! ### Exact values -/

/-- The exact value of a finite float. -/
def numRat (x : Num) : Rat :=
  match x with
  | .fin n m e =>
    let v : Rat := if 0 ≤ e then (m : Rat) * (2 : Rat) ^ e.toNat else (m : Rat) / (2 : Rat) ^ (-e).toNat
    if n then -v else v
  | _ => 0

/-- An exact value as a float to enough places to round it correctly. -/
def ratNum (x : Rat) : Num := divSticky (ofInt x.num) (ofInt x.den)

/-- Rounded to F32, to nearest even. -/
def ratF32 (x : Rat) : Num := (roundFloat fF32 .rne false (ratNum x)).1

def f32Bits (x : Num) : Nat := encodeFloat fF32 x

/-- The F32 value next to zero from x, and the next one away from zero. -/
def towardZero (x : Rat) : Num := (roundFloat fF32 .rtz true (ratNum x)).1

def awayZero (x : Rat) : Num :=
  let r := towardZero x
  if numRat r = x then r else decodeFloat fF32 (f32Bits r + 1)

/-- x rounded to F32 toward the segment's start value (R165). -/
def roundToward (start x : Rat) : Num :=
  if start ≤ x then (if 0 ≤ x then towardZero x else awayZero x) else (if 0 ≤ x then awayZero x else towardZero x)

/-- The square root in units of 2⁻⁶⁴, rounded up. -/
def sqrtUp (x : Rat) : Rat :=
  let n := (x * (2 : Rat) ^ 128).ceil.toNat
  let r := isqrt (bitLen n / 2 + 1) n 0
  ((if r * r = n then r else r + 1 : Nat) : Rat) / (2 : Rat) ^ 64

/-- The square root in units of 2⁻⁶⁴, rounded down. -/
def sqrtDown (x : Rat) : Rat :=
  let n := (x * (2 : Rat) ^ 128).floor.toNat
  (isqrt (bitLen n / 2 + 1) n 0 : Nat) / (2 : Rat) ^ 64

def ratAbs (x : Rat) : Rat := if x < 0 then -x else x

def f32At (bs : Bytes) (off : Nat) : Num := decodeFloat fF32 (fieldAt bs off 4)

/-- An exact value in fixed point, and a fixed-point value in units of 2⁻⁶⁴. -/
def ratFx (x : Rat) : Int := (x * (2 : Rat) ^ fxP).floor
def fxRat (x : Int) : Rat := ((x / 2 ^ (fxP - 64) : Int) : Rat) / (2 : Rat) ^ 64

/-- Sine and cosine of an angle, cut to units of 2⁻⁶⁴. -/
def sinRat (x : Rat) : Rat := fxRat (fxSin (ratFx x))
def cosRat (x : Rat) : Rat := fxRat (fxCos (ratFx x))

/-! ### The profile (R155, R156) -/

structure Profile where
  bytes    : Bytes
  model    : Nat
  nbox     : Nat
  revOk    : Bool
  geomA    : Num
  geomB    : Num
  steerMax : Rat
  steerRate : Rat
  vFwd     : Rat
  vRev     : Rat
  aMax     : Rat
  dMax     : Rat
  jMax     : Rat
  aLat     : Rat
  deriving DecidableEq, Repr

def parseProfile (p : Bytes) : Profile :=
  { bytes := p, model := fieldAt p 4 1, nbox := fieldAt p 5 1, revOk := bitOf (fieldAt p 6 1) 0, geomA := f32At p 8,
    geomB := f32At p 0x0C, steerMax := numRat (f32At p 0x10), steerRate := numRat (f32At p 0x14),
    vFwd := numRat (f32At p 0x18), vRev := numRat (f32At p 0x1C), aMax := numRat (f32At p 0x20),
    dMax := numRat (f32At p 0x24), jMax := numRat (f32At p 0x28), aLat := numRat (f32At p 0x2C) }

/-- A positive finite F32 field. -/
def positiveAt (p : Bytes) (off : Nat) : Bool := isFin (f32At p off) && decide (0 < numRat (f32At p off))

/-- The profile is not one of those R159 leaves unguarded; V_REV_MAX counts with REVERSE_OK, GEOM_B for ARTIC. -/
def profileGuarded (p : Bytes) : Bool :=
  let boxes := (List.range (fieldAt p 5 1)).all fun k =>
    decide (toSigned 16 (fieldAt p (0x40 + 16 * k + 0x0A) 2) ≤ toSigned 16 (fieldAt p (0x40 + 16 * k + 0x0C) 2))
  ([8, 0x10, 0x14, 0x18, 0x20, 0x24, 0x28, 0x2C].all (positiveAt p)) && (!bitOf (fieldAt p 6 1) 0 || positiveAt p 0x1C)
    && (decide (fieldAt p 4 1 ≠ 2) || (positiveAt p 0x0C && decide (fieldAt p 0x10 4 < 0x3FC90FDB))) && boxes

/-! ### Speed courses (R162) -/

/-- A course of speed magnitude: start, phases of (duration, jerk), end value held afterwards. -/
structure Course where
  v0 : Rat
  a0 : Rat
  phases : List (Rat × Rat)
  ve : Rat
  deriving DecidableEq, Repr

/-- Phases of a rise from (v, a) to (ve, 0) under jerk j and acceleration bound b. -/
def risePhases (j b v a ve : Rat) : List (Rat × Rat) :=
  if b < a then
    [((a - b) / j, -j), ((ve - v - a * a / (2 * j)) / b, 0), (b / j, -j)]
  else
    let sq := j * (ve - v) + a * a / 2
    if sq ≤ b * b then
      let ap := sqrtUp sq
      [((ap - a) / j, j), (ap / j, -j)]
    else [((b - a) / j, j), ((ve - v - (2 * b * b - a * a) / (2 * j)) / b, 0), (b / j, -j)]

/-- The speed at which bringing the acceleration to 0 at once ends. -/
def speedAhead (p : Profile) (v a : Rat) : Rat := v + a * ratAbs a / (2 * p.jMax)

/-- The time-optimal course to (ve, 0). -/
def speedCourse (p : Profile) (v a ve : Rat) : Course :=
  { v0 := v, a0 := a, ve := ve,
    phases := if speedAhead p v a ≤ ve then risePhases p.jMax p.aMax v a ve
      else (risePhases p.jMax p.dMax (-v) (-a) (-ve)).map fun q => (q.1, -q.2) }

def courseTime (c : Course) : Rat := c.phases.foldl (fun t q => t + q.1) 0

/-- The way gone from speed v and acceleration a after a time t of constant jerk, with its sign. -/
def jerkWay (v a j t : Rat) : Rat := v * t + a * t * t / 2 + j * t * t * t / 6

/-- The times inside (0, t) at which the speed passes through 0, in order. -/
def turnsIn (v a j t : Rat) : List Rat :=
  let disc := a * a - 2 * j * v
  let l := if j = 0 then (if a = 0 then [] else [-v / a])
    else if disc ≤ 0 then []
    else
      let r := sqrtDown disc
      let x := (-a - r) / j
      let y := (-a + r) / j
      [min x y, max x y]
  l.filter fun x => decide (0 < x) && decide (x < t)

/-- The length travelled, whichever way the speed points (R173). -/
def travelled (v a j t : Rat) : Rat :=
  let ways := (turnsIn v a j t ++ [t]).map (jerkWay v a j)
  ((ways.zip (0 :: ways)).map fun p => ratAbs (p.1 - p.2)).foldl (· + ·) 0

/-- Speed, acceleration and length travelled after a time dt of constant jerk. -/
def jerkStep (x : Rat × Rat × Rat) (j dt : Rat) : Rat × Rat × Rat :=
  (x.1 + x.2.1 * dt + j * dt * dt / 2, x.2.1 + j * dt, x.2.2 + travelled x.1 x.2.1 j dt)

/-- Speed, acceleration and length travelled at time t of the phases. -/
def phasesAt (ve : Rat) : List (Rat × Rat) → Rat → Rat × Rat × Rat → Rat × Rat × Rat
  | [], t, x => (ve, 0, x.2.2 + ve * t)
  | (d, j) :: rest, t, x => if t ≤ d then jerkStep x j t else phasesAt ve rest (t - d) (jerkStep x j d)

def courseAt (c : Course) (t : Rat) : Rat × Rat × Rat := phasesAt c.ve c.phases t (c.v0, c.a0, 0)

/-- The times at which the speed may have an extremum: phase ends, and zeros of the acceleration. -/
def turnTimes : List (Rat × Rat) → Rat → Rat → List Rat
  | [], _, _ => []
  | (d, j) :: rest, t, a =>
    (if j ≠ 0 ∧ 0 < -a / j ∧ -a / j < d then [t + -a / j] else []) ++ (t + d) :: turnTimes rest (t + d) (a + j * d)

/-- The largest speed magnitude from t1 to t2. -/
def peakSpeed (c : Course) (t1 t2 : Rat) : Rat :=
  let ts := t1 :: t2 :: (turnTimes c.phases 0 c.a0).filter fun t => decide (t1 ≤ t) && decide (t ≤ t2)
  ts.foldl (fun m t => max m (ratAbs (courseAt c t).1)) 0

/-- The target is reached within a time. -/
def reachable (p : Profile) (v a ve dur : Rat) : Bool := decide (courseTime (speedCourse p v a ve) ≤ dur)

/-- n bisection steps between a speed that is reachable and one that is not; the reachable end of the final interval. -/
def bisectSpeed (p : Profile) (v a dur : Rat) : Nat → Rat → Rat → Rat
  | 0, lo, _ => lo
  | n + 1, lo, hi =>
    let mid := (lo + hi) / 2
    if reachable p v a mid dur then bisectSpeed p v a dur n mid hi else bisectSpeed p v a dur n lo mid

/-! ### The lateral term (R164) -/

/-- κA of an articulation angle. -/
def articCurv (p : Profile) (steer : Rat) : Rat :=
  let c := cosRat steer
  sinRat (ratAbs steer) / min (numRat p.geomA * c + numRat p.geomB) (numRat p.geomB * c + numRat p.geomA)

/-- Bisection over F32's places from 0: the last place at which the lateral term keeps its bound. -/
def articPlace (p : Profile) (vhi : Rat) : Nat → Nat → Nat → Nat
  | 0, lo, _ => lo
  | n + 1, lo, hi =>
    let mid := (lo + hi) / 2
    if vhi * vhi * articCurv p (numRat (decodeFloat fF32 mid)) ≤ p.aLat then articPlace p vhi n mid hi else articPlace p vhi n lo mid

/-- The articulation angle at which v² κA meets its bound, below a quarter turn: between the last F32 value that keeps the
bound and the next. -/
def articBound (p : Profile) (vhi : Rat) : Rat :=
  let b := articPlace p vhi 31 0 0x3FC90FDB
  (numRat (decodeFloat fF32 b) + numRat (decodeFloat fF32 (b + 1))) / 2

/-- The lateral term at a speed magnitude. -/
def lateral (p : Profile) (v : Rat) (steer : Num) : Rat :=
  if p.model = 0 then v * v * ratAbs (numRat steer)
  else if p.model = 1 then v * ratAbs (numRat steer)
  else v * v * articCurv p (numRat steer)

/-- Bounds below and above the largest speed the start steering allows; none when it is 0 (log entry 34). -/
def speedBound (p : Profile) (steer : Num) : Option (Rat × Rat) :=
  if numRat steer = 0 then none
  else if p.model = 1 then some (p.aLat / ratAbs (numRat steer), p.aLat / ratAbs (numRat steer))
  else
    let k := if p.model = 0 then ratAbs (numRat steer) else articCurv p (numRat steer)
    if k ≤ 0 then none else some (sqrtDown (p.aLat / k), sqrtUp (p.aLat / k))

/-- The largest steering magnitude at a speed; none when there is no bound. -/
def steerBound (p : Profile) (vhi : Rat) : Option Rat :=
  if vhi = 0 then none
  else if p.model = 0 then some (p.aLat / (vhi * vhi))
  else if p.model = 1 then some (p.aLat / vhi)
  else some (articBound p vhi)

/-! ### Steering courses (R163) -/

/-- How far the steering variable can have moved: by arc length for a moving CAR, else by time. -/
def steerTravel (p : Profile) (vhi path t : Rat) : Rat :=
  if p.model = 0 ∧ 0 < vhi then p.steerRate / vhi * path else p.steerRate * t

/-- The steering value when it can have moved a distance. -/
def steerAt (ks ke dist : Rat) : Rat :=
  if ratAbs (ke - ks) ≤ dist then ke else if ks ≤ ke then ks + dist else ks - dist

/-! ### Segments -/

/-- What a segment starts from: GQ32 position, F32 heading, steering, speed magnitude, acceleration, and whether
it moves in reverse. -/
structure SegStart where
  x : Int
  y : Int
  heading : Num
  steer : Num
  v : Num
  a : Rat
  rev : Bool
  deriving DecidableEq, Repr

/-- A request (R161), with the flags a splice gives it (R169). -/
structure SegReq where
  dur : Nat
  rev : Bool
  v : Num
  steer : Num
  flags : Nat
  deriving DecidableEq, Repr

/-- A built segment: record fields, and the courses' end. -/
structure Seg where
  start : SegStart
  vE : Num
  steerE : Num
  dur : Nat
  flags : Nat
  path : Rat
  deriving DecidableEq, Repr

def durOf (units : Nat) : Rat := (units : Rat) / 10000

/-- The direction of a segment: the present one while it moves, else the request's where it is allowed. -/
def segRev (p : Profile) (s : SegStart) (r : SegReq) : Bool :=
  if 0 < numRat s.v then s.rev else r.rev && p.revOk

/-- Steps 1 to 4 of R162. -/
def speedTarget (p : Profile) (s : SegStart) (r : SegReq) : Rat :=
  let vs := numRat s.v
  let t1 := min (numRat r.v) (if r.rev then p.vRev else p.vFwd)
  let t2 := if r.rev ≠ s.rev ∧ 0 < vs then 0 else t1
  let t3 := if r.rev && !p.revOk then 0 else t2
  match speedBound p s.steer with
  | none => t3
  | some b => if b.1 < t3 then numRat (roundToward vs (if vs ≤ b.1 then b.1 else b.2)) else t3

/-- Where the bisection starts: the start speed, or, where the start acceleration lets no course come back to it in time, the
speed at which that acceleration ends. With an acceleration that cannot be brought to 0 within DUR no speed is reachable, and it
is this one: DESIGN CHOICE (log entry 34). -/
def bisectFrom (p : Profile) (v a dur : Rat) : Rat := if reachable p v a v dur then v else speedAhead p v a

/-- The end speed (R162, R165). -/
def endSpeed (p : Profile) (s : SegStart) (r : SegReq) : Num :=
  let vs := numRat s.v
  let t := speedTarget p s r
  let d := durOf r.dur
  if reachable p vs s.a t d then ratF32 t else roundToward vs (bisectSpeed p vs s.a d 24 (bisectFrom p vs s.a d) t)

def clampAbs (x b : Rat) : Rat := if b < x then b else if x < -b then -b else x

/-- The end value of the steering variable (R163, R165). -/
def endSteer (p : Profile) (s : SegStart) (r : SegReq) (vhi path : Rat) : Num :=
  let ks := numRat s.steer
  let k1 := clampAbs (numRat r.steer) p.steerMax
  let k2 := match steerBound p vhi with
    | none => k1
    | some b => if b < ratAbs k1 then numRat (roundToward ks (clampAbs k1 b)) else k1
  let dist := steerTravel p vhi path (durOf r.dur)
  if k2 = numRat r.steer ∧ ratAbs (k2 - ks) ≤ dist then r.steer else roundToward ks (steerAt ks k2 dist)

/-! ### Poses (R154, R167) -/

/-- Heading rate in F32 at a signed speed, steering value and steering rate. -/
def headingRate (p : Profile) (v steer rate : Num) : Num :=
  let mul := fun a b => (fMul fF32 .rne a b).1
  let add := fun a b => (fAdd fF32 .rne a b).1
  if p.model = 0 then mul v steer
  else if p.model = 1 then steer
  else (fDiv fF32 .rne (add (mul v (sinOf steer)) (mul p.geomB rate)) (add (mul p.geomA (cosOf steer)) p.geomB)).1

/-- Heading rate of the continuous motion. -/
def exactRate (p : Profile) (v steer rate : Rat) : Rat :=
  if p.model = 0 then v * steer
  else if p.model = 1 then steer
  else (v * sinRat steer + numRat p.geomB * rate) / (numRat p.geomA * cosRat steer + numRat p.geomB)

/-- What the pose integration reads at a time: signed speed, steering value, steering rate. -/
structure Motion (α : Type) where
  v : α
  steer : α
  rate : α
  deriving DecidableEq, Repr

/-- A segment's courses as the Awl rebuilds them from the recorded end values (R172). -/
structure Drive where
  p : Profile
  c : Course
  ks : Rat
  ke : Rat
  vhi : Rat
  rev : Bool
  dur : Rat
  deriving DecidableEq, Repr

def exactMotion (b : Drive) (t : Rat) : Motion Rat :=
  let q := courseAt b.c t
  let dist := steerTravel b.p b.vhi q.2.2 t
  let moving := decide (dist < ratAbs (b.ke - b.ks))
  let dv := if b.p.model = 0 ∧ 0 < b.vhi then b.p.steerRate / b.vhi * ratAbs q.1 else b.p.steerRate
  { v := if b.rev then -q.1 else q.1, steer := steerAt b.ks b.ke dist, rate := if moving then (if b.ks ≤ b.ke then dv else -dv) else 0 }

def motionAt (b : Drive) (t : Rat) : Motion Num :=
  let m := exactMotion b t
  { v := ratF32 m.v, steer := ratF32 m.steer, rate := ratF32 m.rate }

/-- Offsets and heading of the integration under way. -/
structure Pose where
  dx : Num
  dy : Num
  th : Num
  deriving DecidableEq, Repr

/-- One of 16 substeps by the midpoint rule in F32. -/
def poseStep (b : Drive) (h : Rat) (q : Pose) (k : Nat) : Pose :=
  let mul := fun x y => (fMul fF32 .rne x y).1
  let add := fun x y => (fAdd fF32 .rne x y).1
  let rateOf := fun m : Motion Num => headingRate b.p m.v m.steer m.rate
  let m0 := motionAt b (h * (k : Rat))
  let mm := motionAt b (h * (k : Rat) + h / 2)
  let thm := add q.th (mul (rateOf m0) (ratF32 (h / 2)))
  let ds := mul mm.v (ratF32 h)
  { dx := add q.dx (mul ds (cosOf thm)), dy := add q.dy (mul ds (sinOf thm)), th := add q.th (mul (rateOf mm) (ratF32 h)) }

def endPose (b : Drive) (heading : Num) : Pose :=
  (List.range 16).foldl (poseStep b (b.dur / 16)) { dx := pzero, dy := pzero, th := heading }

/-- One of n steps of the continuous motion up to a time, in units of 2⁻⁶⁴: the midpoint rule again. -/
def fineStep (b : Drive) (h : Rat) (q : Rat × Rat × Rat) (k : Nat) : Rat × Rat × Rat :=
  let cut := fun x : Rat => ((x * (2 : Rat) ^ 64).floor : Rat) / (2 : Rat) ^ 64
  let rateOf := fun m : Motion Rat => exactRate b.p m.v m.steer m.rate
  let m0 := exactMotion b (h * (k : Rat))
  let mm := exactMotion b (h * (k : Rat) + h / 2)
  let thm := q.2.2 + rateOf m0 * h / 2
  (cut (q.1 + mm.v * h * cosRat thm), cut (q.2.1 + mm.v * h * sinRat thm), cut (q.2.2 + rateOf mm * h))

/-- Offsets and heading of the continuous motion at a time (R172), in 1,024 steps: a small part of the 10⁻⁵ of the path that R174
allows the lane's integration; DESIGN CHOICE (log entry 35). -/
def finePose (b : Drive) (heading t : Rat) : Rat × Rat × Rat :=
  (List.range 1024).foldl (fineStep b (t / 1024)) (0, 0, heading)

/-- π in F32, and 2π. -/
def piF32 : Rat := numRat (decodeFloat fF32 0x40490FDB)

/-- A heading wrapped to (−π, π] (R167). -/
def wrapHeading (x : Num) : Num :=
  let v := numRat x
  if -piF32 < v ∧ v ≤ piF32 then x else ratF32 (v - 2 * piF32 * (((v - piF32) / (2 * piF32)).ceil : Rat))

/-- A segment built from a request (R162 to R166). -/
def buildSegment (p : Profile) (s : SegStart) (r : SegReq) : Seg × Drive :=
  let d := durOf r.dur
  let ve := endSpeed p s r
  let c := speedCourse p (numRat s.v) s.a (numRat ve)
  let vhi := peakSpeed c 0 d
  let path := (courseAt c d).2.2
  let ke := endSteer p s r vhi path
  let rev := segRev p s r
  let fl := boolNat rev + 2 * boolNat (decide (numRat ve ≠ numRat r.v)) + 4 * boolNat (decide (numRat ke ≠ numRat r.steer)) + r.flags
  ({ start := { s with rev := rev }, vE := ve, steerE := ke, dur := r.dur, flags := fl, path := path },
   { p := p, c := c, ks := numRat s.steer, ke := numRat ke, vhi := vhi, rev := rev, dur := d })

/-- The values the next segment starts from, and the flags of the conversion to GQ32 (R167). -/
def nextStart (rmx rmy : Rm) (g : Seg) (b : Drive) : Flagged SegStart :=
  let q := endPose b g.start.heading
  let ox := toGq rmx q.dx
  let oy := toGq rmy q.dy
  let x := satInt 32 (g.start.x + ox.1)
  let y := satInt 32 (g.start.y + oy.1)
  ({ x := x.1, y := y.1, heading := wrapHeading q.th, steer := g.steerE, v := g.vE, a := 0, rev := g.start.rev },
   ox.2 ||| oy.2 ||| x.2 ||| y.2)

end Sys2Proof.Machine
end

