-- ==== Sys2Proof/Machine/Genprim.lean ====
section
/-! DEFINITION. GENPRIM: segment requests (R161), the incumbent's advance and splice (R169, R170), START_OUTSIDE
(R166), candidate records (R168). `candidateRow` is a function of bytes alone, which Latigo uses too (R318). -/

namespace Sys2Proof.Machine

/-! ### Start state (R160) -/

def stX (st : Bytes) : Int := toSigned 32 (fieldAt st 0 4)
def stY (st : Bytes) : Int := toSigned 32 (fieldAt st 4 4)
def stStamp (st : Bytes) : Nat := fieldAt st 0x20 8

/-- Segment 0's start: speed magnitude, direction of motion. -/
def startOf (st : Bytes) : SegStart :=
  let v := f32At st 0x14
  let n : Num := match v with | .fin _ m e => .fin false m e | x => x
  { x := stX st, y := stY st, heading := f32At st 0x0C, steer := f32At st 0x10, v := n, a := numRat (f32At st 0x18),
    rev := decide (numRat v < 0) }

/-- The F32 fields of the start state. -/
def stateNums (st : Bytes) : List Num := [0x0C, 0x10, 0x14, 0x18].map (f32At st)

/-- The start state is one GENPRIM can compute with. -/
def stateFinite (st : Bytes) : Bool := (stateNums st).all isFin

/-- An acceleration below 0 carries the speed through 0 and past the limit of the other direction, or into reverse where the
profile has none (R165, R166). -/
def carriesBack (p : Profile) (s : SegStart) : Bool :=
  let back := -speedAhead p (numRat s.v) s.a
  decide (0 < back) && (if s.rev then decide (p.vFwd < back) else !p.revOk || decide (p.vRev < back))

/-- START_OUTSIDE (R166). -/
def startOutside (p : Profile) (s : SegStart) : Bool :=
  let v := numRat s.v
  let lim := if s.rev then p.vRev else p.vFwd
  decide (p.steerMax < ratAbs (numRat s.steer)) || decide (lim < v) || decide (p.aMax < s.a) || decide (s.a < -p.dMax)
    || decide (p.aLat < lateral p v s.steer) || (s.rev && !p.revOk)
    || decide (lim < v + s.a * max s.a 0 / (2 * p.jMax)) || carriesBack p s

/-! ### Requests (R161) -/

def reqAt (row : Bytes) (i : Nat) (flags : Nat) : SegReq :=
  let o := 16 + 16 * i
  { dur := fieldAt row o 2, rev := bitOf (fieldAt row (o + 2) 1) 0, v := f32At row (o + 4), steer := f32At row (o + 8), flags := flags }

def rowSplices (row : Bytes) : Bool := bitOf (fieldAt row 0 1) 0

/-- The row's own conditions (R161). -/
def libRowOk (row : Bytes) (nseg incRows : Nat) : Bool :=
  let first := fieldAt row 1 1
  let count := fieldAt row 2 1
  ((List.range nseg).all fun i =>
    let r := reqAt row i 0
    decide (1 ≤ r.dur ∧ fieldAt row (16 + 16 * i + 2) 1 ≤ 1) && isFin r.v && decide (0 ≤ numRat r.v) && isFin r.steer)
  && (if rowSplices row then decide (incRows ≠ 0 ∧ first ≤ 31 ∧ 1 ≤ count ∧ first + count ≤ 32) else decide (first = 0 ∧ count = 0))

/-! ### The incumbent (R169) -/

/-- A candidate record's segment k. -/
def segRec (cand : Bytes) (k : Nat) : Bytes := sliceOf cand (64 + 32 * k) 32

/-- Its controls as a request. -/
def keptReq (rec : Bytes) (dur : Nat) : SegReq :=
  { dur := dur, rev := bitOf (fieldAt rec 0x1E 1) 0, v := f32At rec 0x18, steer := f32At rec 0x10, flags := 8 }

/-- The segments left after the advance to STAMP; t is the segment's start in ns. -/
def advanceFrom (cand : Bytes) (stamp : Nat) : Nat → Nat → Nat → List SegReq
  | 0, _, _ => []
  | n + 1, k, t =>
    let rec0 := segRec cand k
    let d := fieldAt rec0 0x1C 2
    let e := t + 100000 * d
    if e ≤ stamp then advanceFrom cand stamp n (k + 1) e
    else if t < stamp then
      let left := (e - stamp) / 100000
      if left = 0 then advanceFrom cand stamp n (k + 1) e else keptReq rec0 left :: advanceFrom cand stamp n (k + 1) e
    else keptReq rec0 d :: advanceFrom cand stamp n (k + 1) e

/-- Steps 1 to 3 of R169. -/
def advanceIncumbent (cand : Bytes) (stamp : Nat) : List SegReq := advanceFrom cand stamp (fieldAt cand 4 1) 0 (fieldAt cand 0x10 8)

/-- Where output segment i takes its controls from (R169). -/
def spliceReq (row : Bytes) (kept : List SegReq) (i : Nat) : SegReq :=
  let first := fieldAt row 1 1
  if rowSplices row then
    if first ≤ i ∧ i < first + fieldAt row 2 1 then reqAt row i 16
    else match kept[i]? with
      | some k => k
      | none => reqAt row i 0
  else reqAt row i 0

/-! ### Candidate records (R168) -/

def segBytes (g : Seg) : Bytes :=
  toLe 4 (ofSigned 32 g.start.x) ++ toLe 4 (ofSigned 32 g.start.y) ++ toLe 4 (f32Bits g.start.heading)
    ++ toLe 4 (f32Bits g.start.steer) ++ toLe 4 (f32Bits g.steerE) ++ toLe 4 (f32Bits g.start.v) ++ toLe 4 (f32Bits g.vE)
    ++ toLe 2 g.dur ++ toLe 1 g.flags ++ [0]

/-- The segments in order, with the end they reach. -/
def buildAll (p : Profile) (rm : Nat → Rm) : List SegReq → Nat → SegStart → List Seg × SegStart × Nat
  | [], _, s => ([], s, 0)
  | r :: t, k, s =>
    let g := buildSegment p s r
    let e := nextStart (rm (64 + 32 * (k + 1))) (rm (64 + 32 * (k + 1) + 4)) g.1 g.2
    let rest := buildAll p rm t (k + 1) e.1
    (g.1 :: rest.1, rest.2.1, e.2 ||| rest.2.2)

/-- One candidate: profile, start state, LIB row, incumbent, segments, CAND_ID, LIB row index; rm gives the
rounding mode of a pose offset by its place in the row (log entry 34). -/
def candidateRow (prof st row inc : Bytes) (nseg id lib : Nat) (rm : Nat → Rm) : Flagged Bytes :=
  let p := parseProfile prof
  let s0 := startOf st
  let kept := if rowSplices row then advanceIncumbent inc (stStamp st) else []
  let r := buildAll p rm ((List.range nseg).map (spliceReq row kept)) 0 s0
  let segs := r.1
  let e := r.2.1
  let has := fun b => segs.any fun g => bitOf g.flags b
  let keptN := (segs.filter fun g => bitOf g.flags 3).length
  let cf := boolNat (has 1 || has 2) + 2 * boolNat (rowSplices row) + 4 * boolNat (startOutside p s0) + 8 * boolNat e.rev
  let head : Bytes := toLe 4 id ++ toLe 1 nseg ++ toLe 1 p.model ++ toLe 1 cf
    ++ (if rowSplices row then sliceOf row 1 2 else [0, 0]) ++ toLe 1 keptN ++ zeros 2 ++ sliceOf prof 0 4 ++ sliceOf st 0x20 8
    ++ sliceOf st 8 4 ++ toLe 4 (ofSigned 32 e.x) ++ toLe 4 (ofSigned 32 e.y) ++ toLe 4 (f32Bits e.heading)
    ++ toLe 4 (f32Bits e.steer) ++ toLe 4 (f32Bits e.v) ++ toLe 4 (segs.foldl (fun t g => t + g.dur) 0)
    ++ toLe 4 (f32Bits (ratF32 (segs.foldl (fun t g => t + g.path) 0))) ++ toLe 4 lib ++ sliceOf st 0x18 4
  (head ++ (segs.map segBytes).flatten, r.2.2)

/-! ### The descriptor (R97) -/

def gpProfileLine (d : Bytes) : Nat := fieldAt d 0x10 4
def gpStateLine (d : Bytes) : Nat := fieldAt d 0x14 4
def gpLib (d : Bytes) : Tref := dTref d 0x18
def gpOut (d : Bytes) : Tref := dTref d 0x20
def gpInc (d : Bytes) : Tref := dTref d 0x30
def gpNcand (d : Bytes) : Nat := fieldAt d 0x28 2
def gpNseg (d : Bytes) : Nat := fieldAt d 0x2A 1

def gpProfile (s : State) (i : Inst) (d : Bytes) : Bytes := tileRead s i.tile (64 * gpProfileLine d) 320
def gpRow (s : State) (i : Inst) (d : Bytes) (k : Nat) : Bytes := readRowBytes s i.tile fmtByte (gpLib d) k

/-- The incumbent's record: its rows end to end. -/
def gpIncumbent (s : State) (i : Inst) (d : Bytes) : Bytes :=
  ((List.range (gpInc d).rows).map (readRowBytes s i.tile fmtByte (gpInc d))).flatten

def genprimOk (s : State) (i : Inst) (d : Bytes) : Bool :=
  noFormats d && decide (gpProfileLine d + 5 ≤ 0x3000 ∧ gpStateLine d < 0x3000) && trefOk fmtByte (gpLib d) && trefOk fmtByte (gpOut d)
    && trefOk fmtByte (gpInc d) && decide (1 ≤ gpNcand d ∧ 1 ≤ gpNseg d ∧ gpNseg d ≤ 32 ∧ fieldAt d 0x2B 1 ≤ 2)
    && decide ((gpLib d).rows = gpNcand d ∧ (gpOut d).rows = gpNcand d ∧ (gpLib d).cols = 16 + 16 * gpNseg d)
    && decide ((gpOut d).cols = 64 + 32 * gpNseg d) && allZero (d.drop 0x38)
    && decide (fieldAt d 0x2B 1 = fieldAt (gpProfile s i d) 4 1)
    && (List.range (gpNcand d)).all (fun k => libRowOk (gpRow s i d k) (gpNseg d) (gpInc d).rows)

/-- Candidate rows written in PROPOSE, HOME copies only, are counted (R248). -/
def countGenerated (s : State) (i : Inst) (n : Nat) : State :=
  if i.task.phase = 3 ∧ ¬(i.task.safe ∧ i.copy = 1) then
    { s with cyc := { s.cyc with counts := { s.cyc.counts with candGenerated := s.cyc.counts.candGenerated + n } } }
  else s

/-- All candidates, written as OUT rows; whether UNDER is set is not given (log entry 34). -/
def landCandidates (s : State) (i : Inst) (d : Bytes) (idx : Nat) : State :=
  let prof := gpProfile s i d
  let st := tileRead s i.tile (64 * gpStateLine d) 64
  let inc := gpIncumbent s i d
  let r := (List.range (gpNcand d)).map fun k =>
    candidateRow prof st (gpRow s i d k) inc (gpNseg d) ((fieldAt d 0x2C 4 + k) % 2 ^ 32) k
      (fun off => descRm s i d idx (k * (gpOut d).cols + off))
  let s1 := writeRows s i.tile (gpOut d) (r.map (·.1))
  let s2 := gatherFlags s1 i.tile i.ctx (orFlags (r.map (·.2)) ||| (Config.freeNat 6 s.disp.freeCtr % 2))
  tickFree (countGenerated s2 i (gpNcand d))

/-- From a start state that is not finite no candidate is given: the rows hold unspecified bytes (log entry 34), and NAN or INF is
set (R75). -/
def landNoStart (s : State) (i : Inst) (d : Bytes) : State :=
  let s1 := (trefRanges fmtByte (gpOut d)).foldl (fun t r => devScramble t (tileBase i.tile + r.1) r.2) s
  countGenerated (gatherFlags s1 i.tile i.ctx (useFlags (stateNums (tileRead s i.tile (64 * gpStateLine d) 64)))) i (gpNcand d)

def genprimRun : DescRun :=
  { ok := genprimOk
    access := fun _ _ d =>
      { reads := (64 * gpProfileLine d, 320) :: (64 * gpStateLine d, 64) :: trefRanges fmtByte (gpLib d)
          ++ trefRanges fmtByte (gpInc d)
        writes := trefRanges fmtByte (gpOut d) }
    holds := true
    run := fun s i d idx =>
      if !profileGuarded (gpProfile s i d) then .error "R159"
      else if !stateFinite (tileRead s i.tile (64 * gpStateLine d) 64) then .ok (landNoStart s i d)
      else .ok (landCandidates s i d idx) }

def execGenprim (tile ctx : Nat) (s : State) : Result := issueDesc s tile ctx 0x28 genprimRun

end Sys2Proof.Machine
end

