-- ==== Sys2Proof/Machine/SweepGeometry.lean ====
section
/-! DEFINITION. What a lane of the Awl computes for one segment (R172 to R178): slices, enlarged boxes, the
descent of the held epoch's tree (R129 to R132, R135), time layers, verdict and clearance. Lengths are exact, in
GQ32 steps of 0.1 mm (log entry 35). -/

namespace Sys2Proof.Machine

/-! ### The world a SWEEP reads -/

/-- The held epoch's tree; `word` answers a node read, none where it meets an uncorrectable error (R137). -/
structure Tree where
  root   : Nat
  origin : List Int
  t0     : Nat
  word   : Nat → Option Nat

/-! ### Boxes (R157, R174) -/

/-- A closed interval. -/
structure Span where
  lo : Rat
  hi : Rat
  deriving DecidableEq, Repr

/-- The gap between two closed intervals; 0 when they overlap. -/
def spanGap (a b : Span) : Rat := max 0 (max (b.lo - a.hi) (a.lo - b.hi))

/-- A placed, enlarged box: centre, the direction of its length, half sizes, heights. -/
structure Placed where
  cx : Rat
  cy : Rat
  ux : Rat
  uy : Rat
  hl : Rat
  hw : Rat
  z  : Span
  deriving DecidableEq, Repr

def boxX (b : Placed) : Span :=
  let r := ratAbs b.ux * b.hl + ratAbs b.uy * b.hw
  { lo := b.cx - r, hi := b.cx + r }

def boxY (b : Placed) : Span :=
  let r := ratAbs b.uy * b.hl + ratAbs b.ux * b.hw
  { lo := b.cy - r, hi := b.cy + r }

/-- A cube by its minimum corner and edge. -/
structure Cube where
  x : Rat
  y : Rat
  z : Rat
  e : Rat
  deriving DecidableEq, Repr

/-- The cube's extent along a plane direction. -/
def cubeAlong (c : Cube) (ux uy : Rat) : Span :=
  let m := (c.x + c.e / 2) * ux + (c.y + c.e / 2) * uy
  let r := c.e / 2 * (ratAbs ux + ratAbs uy)
  { lo := m - r, hi := m + r }

/-- The largest separation along the five axes (R175, R178); 0 when the box touches the cube. -/
def cubeGap (b : Placed) (c : Cube) : Rat :=
  let m := b.cx * b.ux + b.cy * b.uy
  let n := b.cy * b.ux - b.cx * b.uy
  let gx := spanGap (boxX b) { lo := c.x, hi := c.x + c.e }
  let gy := spanGap (boxY b) { lo := c.y, hi := c.y + c.e }
  let gl := spanGap { lo := m - b.hl, hi := m + b.hl } (cubeAlong c b.ux b.uy)
  let gw := spanGap { lo := n - b.hw, hi := n + b.hw } (cubeAlong c (-b.uy) b.ux)
  let gz := spanGap b.z { lo := c.z, hi := c.z + c.e }
  max (max (max gx gy) (max gl gw)) gz

/-- The box lies inside the cube. -/
def insideCube (b : Placed) (c : Cube) : Bool :=
  let inX := decide (c.x ≤ (boxX b).lo) && decide ((boxX b).hi ≤ c.x + c.e)
  let inY := decide (c.y ≤ (boxY b).lo) && decide ((boxY b).hi ≤ c.y + c.e)
  inX && inY && decide (c.z ≤ b.z.lo) && decide (b.z.hi ≤ c.z + c.e)

/-- The smallest gap from the box to a face of the cube that holds it; not positive when it sticks out. -/
def faceGap (b : Placed) (c : Cube) : Rat :=
  let gx := min ((boxX b).lo - c.x) (c.x + c.e - (boxX b).hi)
  let gy := min ((boxY b).lo - c.y) (c.y + c.e - (boxY b).hi)
  min (min gx gy) (min (b.z.lo - c.z) (c.z + c.e - b.z.hi))

/-! ### One box against the tree -/

/-- What has been found: rank of the verdict, the smallest gap within the band, flags, time-layer maximum, the
largest hint, the slots read. -/
structure Found where
  rank    : Nat
  gap     : Option Rat
  outRoot : Bool
  ecc     : Bool
  maxQ    : Nat
  layer   : Nat
  hint    : Nat
  slots   : List Nat
  deriving DecidableEq, Repr

def Found.none : Found :=
  { rank := 0, gap := .none, outRoot := false, ecc := false, maxQ := 0, layer := 0, hint := 0, slots := [] }

/-- The band around a box (R178): 0.4 m. -/
def band : Rat := 4000

/-- Something OCC or UNKNOWN at a gap: within the band it enters the clearance; touched, it gives its verdict. -/
def note (f : Found) (rank : Nat) (gap : Rat) : Found :=
  if band < gap then f
  else
    let g := match f.gap with
      | some x => min x gap
      | .none => gap
    { f with gap := some g, rank := if gap = 0 then max f.rank rank else f.rank }

/-- The cube of child o of a cube. -/
def childCube (c : Cube) (o : Nat) : Cube :=
  let h := c.e / 2
  { x := c.x + (o % 2 : Nat) * h, y := c.y + (o / 2 % 2 : Nat) * h, z := c.z + (o / 4 : Nat) * h, e := h }

/-- Fields of a node word (R129, R130). -/
def nodeCode (w o : Nat) : Nat := bitsOf w (48 + 2 * o) 2
def nodeBase (w : Nat) : Nat := bitsOf w 24 24
def nodeHint (w : Nat) : Nat := bitsOf w 16 8
def nodeTl (w : Nat) : Nat := bitsOf w 8 8
def mixedBelow (w o : Nat) : Nat := ((List.range o).filter fun k => decide (nodeCode w k = 2)).length

/-- A node read, with its slot noted (R44). -/
def readNode (t : Tree) (f : Found) (slot : Nat) : Found × Option Nat := ({ f with slots := slot :: f.slots }, t.word slot)

/-- A read answered UNKNOWN for a cube (R137). -/
def unknownCube (f : Found) (b : Placed) (c : Cube) : Found :=
  let g := cubeGap b c
  { note f 2 g with ecc := f.ecc || decide (g = 0) }

/-- The leaf bitmap of a cell (R131). -/
def visitLeaf (t : Tree) (b : Placed) (f : Found) (slot : Nat) (c : Cube) : Found :=
  let r := readNode t f slot
  match r.2 with
  | .none => unknownCube r.1 b c
  | some w => (List.range 64).foldl (fun a k =>
      if bitOf w k then
        let v : Cube := { x := c.x + (k % 4 : Nat) * 1000, y := c.y + (k / 4 % 4 : Nat) * 1000, z := c.z + (k / 16 : Nat) * 1000, e := 1000 }
        note a 3 (cubeGap b v)
      else a) r.1

/-- The touched cells of a touched level-9 node in the consulted layers (R132, R176); they never enter the clearance (R178). -/
def visitLayers (t : Tree) (b : Placed) (layers : List Nat) (thr : Nat) (w : Nat) (c : Cube) (f : Found) : Found :=
  (layers.filter fun i => decide (1 ≤ i ∧ i ≤ nodeTl w)).foldl (fun a i =>
    let r := readNode t a (nodeBase w + mixedBelow w 8 + (i - 1) / 2)
    match r.2 with
    | .none => { r.1 with rank := max r.1.rank 2, ecc := true }
    | some v => (List.range 8).foldl (fun g o =>
        let q := bitsOf v (32 * ((i - 1) % 2) + 4 * o) 4
        if cubeGap b (childCube c o) = 0 then
          { g with rank := if max thr 1 ≤ q then max g.rank 1 else g.rank
                   maxQ := max g.maxQ q
                   layer := if g.maxQ < q then i else if q = g.maxQ ∧ 0 < q ∧ i < g.layer then i else g.layer }
        else g) r.1) f

/-- The descent (R175, R178): fuel is the number of levels left below, 9 at the root. -/
def visitNode (t : Tree) (b : Placed) (layers : List Nat) (thr : Nat) : Nat → Nat → Cube → Found → Found
  | fuel, slot, c, f =>
    let r := readNode t f slot
    match r.2 with
    | .none => unknownCube r.1 b c
    | some w =>
      let f1 := if insideCube b c then { r.1 with hint := max r.1.hint (nodeHint w) } else r.1
      let f2 := if fuel = 0 ∧ cubeGap b c = 0 then visitLayers t b layers thr w c f1 else f1
      (List.range 8).foldl (fun a o =>
        let k := childCube c o
        let g := cubeGap b k
        let code := nodeCode w o
        if band < g ∨ code = 0 then a
        else if code = 1 then note a 3 g
        else if code = 3 then note a 2 g
        else
          let child := nodeBase w + mixedBelow w o
          match fuel with
          | 0 => visitLeaf t b a child k
          | n + 1 => visitNode t b layers thr n child k a) f2

/-- The root cube, 409.6 m (R127). -/
def rootCube (t : Tree) : Cube :=
  { x := (t.origin.getD 0 0 : Int), y := (t.origin.getD 1 0 : Int), z := (t.origin.getD 2 0 : Int), e := 4096000 }

/-- One enlarged box in one slice. -/
def touchBox (t : Tree) (b : Placed) (layers : List Nat) (thr : Nat) : Found :=
  let c := rootCube t
  let f := visitNode t b layers thr 9 t.root c .none
  let g := faceGap b c
  if g < 0 then { note f 2 0 with outRoot := true } else if g ≤ band then { f with gap := some (match f.gap with | some x => min x g | .none => g) }
  else f

/-! ### A segment (R172 to R174) -/

/-- The segment rebuilt from its record (R172). -/
def rebuild (p : Profile) (cand : Bytes) (k : Nat) : Drive :=
  let g := segRec cand k
  let vs := numRat (f32At g 0x14)
  let ve := numRat (f32At g 0x18)
  let a := if k = 0 then numRat (f32At cand 0x3C) else 0
  let d := durOf (fieldAt g 0x1C 2)
  let c := speedCourse p vs a ve
  { p := p, c := c, ks := numRat (f32At g 0x0C), ke := numRat (f32At g 0x10), vhi := peakSpeed c 0 d,
    rev := bitOf (fieldAt g 0x1E 1) 0, dur := d }

/-- L: the length travelled, in F32 (R173). -/
def pathF32 (b : Drive) : Rat := numRat (ratF32 (courseAt b.c b.dur).2.2)

/-- S of R173. -/
def sliceCount (b : Drive) : Nat := 16 * (min 4 (max 1 (pathF32 b / (64 / 5)).ceil)).toNat

/-- The bounds of R174 over a slice: speed, heading rate, steering rate. -/
def sliceBounds (b : Drive) (t1 t2 : Rat) : Rat × Rat × Rat :=
  let v := peakSpeed b.c t1 t2
  let st := fun t => ratAbs (steerAt b.ks b.ke (steerTravel b.p b.vhi (courseAt b.c t).2.2 t))
  let k := max (st t1) (st t2)
  let rate := if steerAt b.ks b.ke (steerTravel b.p b.vhi (courseAt b.c t1).2.2 t1) = b.ke then 0 else b.p.steerRate
  (v, exactRate b.p v k rate, rate)

/-- A footprint box of the profile (R157). -/
structure BoxRec where
  cx : Int
  cy : Int
  hl : Nat
  hw : Nat
  yaw : Int
  zmin : Int
  zmax : Int
  body : Nat
  deriving DecidableEq, Repr

def boxAt (prof : Bytes) (k : Nat) : BoxRec :=
  let o := 0x40 + 16 * k
  { cx := toSigned 16 (fieldAt prof o 2), cy := toSigned 16 (fieldAt prof (o + 2) 2), hl := fieldAt prof (o + 4) 2,
    hw := fieldAt prof (o + 6) 2, yaw := toSigned 16 (fieldAt prof (o + 8) 2), zmin := toSigned 16 (fieldAt prof (o + 10) 2),
    zmax := toSigned 16 (fieldAt prof (o + 12) 2), body := fieldAt prof (o + 14) 1 }

def boxesOf (p : Profile) : List BoxRec := (List.range p.nbox).map (boxAt p.bytes)

/-- The angle of a box in its body frame. -/
def yawOf (x : BoxRec) : Rat := (x.yaw : Rat) * (2 * fxRat fxPi) / 65536

/-- The largest distance from the body's reference point to a corner of its boxes, in steps. -/
def reachOf (p : Profile) (body : Nat) : Rat :=
  ((boxesOf p).filter (·.body = body)).foldl (fun m x =>
    let c := cosRat (yawOf x)
    let s := sinRat (yawOf x)
    let corner := fun (i j : Rat) =>
      let px := (x.cx : Rat) + i * (x.hl : Rat) * c - j * (x.hw : Rat) * s
      let py := (x.cy : Rat) + i * (x.hl : Rat) * s + j * (x.hw : Rat) * c
      px * px + py * py
    max m (10 * sqrtUp (max (max (corner 1 1) (corner 1 (-1))) (max (corner (-1) 1) (corner (-1) (-1)))))) 0

/-- δ of R174, in steps. -/
def enlarge (b : Drive) (body : Nat) (t1 t2 : Rat) : Rat :=
  let q := sliceBounds b t1 t2
  let dt := t2 - t1
  let lf := numRat b.p.geomA
  let lr := numRat b.p.geomB
  let sb := if body = 0 then q.1 * dt else (q.1 + (lf + lr) * q.2.1 + lr * b.p.steerRate) * dt
  let dth := if body = 0 then q.2.1 * dt else (q.2.1 + b.p.steerRate) * dt
  (sb * 10000 + dth * reachOf b.p body) / 2 + 20 + pathF32 b / 10

/-- A body's reference pose at a time: position in steps, heading (R154, R172, R174). -/
def bodyPose (b : Drive) (g : Bytes) (body : Nat) (t : Rat) : Rat × Rat × Rat :=
  let o := finePose b (numRat (f32At g 8)) t
  let x := ((toSigned 32 (fieldAt g 0 4) : Int) : Rat) + 10000 * o.1
  let y := ((toSigned 32 (fieldAt g 4 4) : Int) : Rat) + 10000 * o.2.1
  let th := o.2.2
  if body = 0 then (x, y, th)
  else
    let thr := th - (exactMotion b t).steer
    let lf := numRat b.p.geomA * 10000
    let lr := numRat b.p.geomB * 10000
    (x - lf * cosRat th - lr * cosRat thr, y - lf * sinRat th - lr * sinRat thr, thr)

/-- A box placed at its body's pose and enlarged (R174). -/
def placeBox (x : BoxRec) (pose : Rat × Rat × Rat) (delta : Rat) (z : Int) : Placed :=
  let c := cosRat pose.2.2
  let s := sinRat pose.2.2
  let a := pose.2.2 + yawOf x
  { cx := pose.1 + 10 * ((x.cx : Rat) * c - (x.cy : Rat) * s), cy := pose.2.1 + 10 * ((x.cx : Rat) * s + (x.cy : Rat) * c),
    ux := cosRat a, uy := sinRat a, hl := 10 * (x.hl : Rat) + delta, hw := 10 * (x.hw : Rat) + delta,
    z := { lo := (z : Rat) + 10 * (x.zmin : Rat), hi := (z : Rat) + 10 * (x.zmax : Rat) } }

/-- Layers whose window the slice meets (R176); times in ns. -/
def layersMet (t : Tree) (mask : Nat) (ta tb : Rat) : List Nat :=
  (List.range 8).filterMap fun i : Nat =>
    let m : Rat := (t.t0 : Rat) + 500000000 * ((i + 1 : Nat) : Rat)
    if bitOf mask i && decide (m - 250000000 ≤ tb) && decide (ta ≤ m + 250000000) then some (i + 1) else none

/-! ### Verdict and clearance (R177, R178) -/

/-- A segment's result so far. -/
structure Verdict where
  rank    : Nat
  event   : Nat          -- reported start of the first slice of that rank, from the segment's start
  clear   : Nat          -- units of 10 mm, at most 255
  tl      : Bool
  hintUsed : Bool
  outRoot : Bool
  ecc     : Bool
  maxQ    : Nat
  layer   : Nat
  slices  : Nat
  slots   : List Nat
  deriving DecidableEq, Repr

/-- A slice's clearance for one box, in units of 10 mm; a HINT above 0.40 m is used (R178). -/
def clearOf (f : Found) : Nat × Bool :=
  match f.gap with
  | some g => ((g / 100).floor.toNat, false)
  | .none => (max 40 (10 * f.hint), decide (4 < f.hint))

/-- One box of one slice enters the segment's result. -/
def addFound (v : Verdict) (f : Found) (start : Nat) : Verdict :=
  let c := clearOf f
  { v with rank := max v.rank f.rank, event := if v.rank < f.rank then start else v.event, clear := min v.clear c.1,
           hintUsed := v.hintUsed || c.2, outRoot := v.outRoot || f.outRoot, ecc := v.ecc || f.ecc,
           maxQ := max v.maxQ f.maxQ,
           layer := if v.maxQ < f.maxQ then f.layer
             else if f.maxQ = v.maxQ ∧ 0 < f.maxQ ∧ f.layer < v.layer then f.layer else v.layer,
           slots := f.slots ++ v.slots }

/-- 100 µs units of the segments before k. -/
def unitsBefore (cand : Bytes) (k : Nat) : Nat := ((List.range k).map fun i => fieldAt (segRec cand i) 0x1C 2).sum

/-- Segment k of a candidate checked against a tree. -/
def sweepSegment (t : Tree) (prof cand : Bytes) (k mask thr : Nat) : Verdict :=
  let p := parseProfile prof
  let b := rebuild p cand k
  let n := sliceCount b
  let units := fieldAt (segRec cand k) 0x1C 2
  let base : Rat := (fieldAt cand 0x10 8 : Nat) + 100000 * (unitsBefore cand k : Rat)
  let z := toSigned 32 (fieldAt cand 0x18 4)
  (List.range n).foldl (fun v j =>
    let at' := fun i : Nat => b.dur * (i : Rat) / (n : Rat)
    let layers := layersMet t mask (base + 1000000000 * at' j) (base + 1000000000 * at' (j + 1))
    let v0 := { v with tl := v.tl || !layers.isEmpty }
    (boxesOf p).foldl (fun a x =>
      let pose := bodyPose b (segRec cand k) x.body (b.dur * ((2 * j + 1 : Nat) : Rat) / ((2 * n : Nat) : Rat))
      addFound a (touchBox t (placeBox x pose (enlarge b x.body (at' j) (at' (j + 1))) z) layers thr) (j * units / n)) v0)
    { rank := 0, event := 0, clear := 255, tl := false, hintUsed := false, outRoot := false, ecc := false, maxQ := 0,
      layer := 0, slices := n, slots := [] }

/-- The segment's 8-byte record (R182). -/
def verdictBytes (v : Verdict) (before : Nat) : Bytes :=
  toLe 1 v.rank ++ toLe 1 (if v.rank = 3 then 0 else v.clear)
    ++ toLe 1 (boolNat v.tl + 2 * boolNat v.hintUsed + 4 * boolNat v.outRoot + 8 * boolNat v.ecc + 16 * (v.slices / 16 - 1))
    ++ toLe 1 (v.maxQ % 16 + 16 * v.layer) ++ toLe 4 (if v.rank = 0 then 0xFFFFFFFF else before + v.event)

def skippedBytes : Bytes := [0xFE, 0, 0, 0, 0xFF, 0xFF, 0xFF, 0xFF]
def uncheckedBytes : Bytes := [0xFF, 0, 0, 0, 0xFF, 0xFF, 0xFF, 0xFF]

/-- The row header of a candidate whose segment records are given (R181). -/
def headerBytes (cand : Bytes) (recs : List Bytes) (newest : Bool) (epoch : Nat) : Bytes :=
  let live := recs.filter fun r => decide (fieldAt r 0 1 ≠ 0xFE)
  let any := fun b => live.any fun r => bitOf (fieldAt r 2 1) b
  let hit := match recs.findIdx? (fun r => decide (fieldAt r 0 1 = 3)) with
    | some k => k
    | none => 0xFF
  sliceOf cand 0 5 ++ toLe 1 (live.foldl (fun m r => max m (fieldAt r 0 1)) 0)
    ++ toLe 1 (live.foldl (fun m r => min m (fieldAt r 1 1)) 255)
    ++ toLe 1 (2 * boolNat (decide (live.length < recs.length)) + 4 * boolNat (any 3) + 8 * boolNat (any 2) + 16 * boolNat newest)
    ++ toLe 1 hit ++ zeros 3 ++ toLe 4 epoch

/-- A row not checked (R185). -/
def uncheckedRow (cand : Bytes) (newest : Bool) (epoch : Nat) : Bytes :=
  sliceOf cand 0 5 ++ [0xFF, 0] ++ toLe 1 (1 + 16 * boolNat newest) ++ [0xFF] ++ zeros 3 ++ toLe 4 epoch
    ++ (List.replicate (fieldAt cand 4 1) uncheckedBytes).flatten

/-- The whole row of a candidate, segment by segment; with STOP_AT_HIT what lies above the lowest HIT is SKIPPED
(R184). -/
def sweepRow (t : Tree) (prof cand : Bytes) (mask thr : Nat) (stop newest : Bool) (epoch : Nat) : Bytes :=
  let n := fieldAt cand 4 1
  let recs := (List.range n).map fun k => verdictBytes (sweepSegment t prof cand k mask thr) (unitsBefore cand k)
  let hit := match recs.findIdx? (fun r => decide (fieldAt r 0 1 = 3)) with
    | some k => k
    | none => n
  let shown := (List.range n).map fun k => if stop ∧ hit < k then skippedBytes else recs.getD k []
  headerBytes cand shown newest epoch ++ shown.flatten

end Sys2Proof.Machine
end

