-- ==== Sys2Proof/Machine/WorldTree.lean ====
section
/-! DEFINITION. The tree as the update engine handles it: delta batches and their checks (R138 to R140), the
operations (R139), normal form (R133), copy-on-write into free slots and the slots it supersedes (R144, R149,
R150). -/

namespace Sys2Proof.Machine

/-! ### Batches (R138 to R140) -/

/-- An operation of a batch (R139). -/
structure WorldOp where
  op    : Nat
  arg   : Nat
  level : Nat
  rsvd  : Nat
  cell  : Nat
  data  : Nat
  deriving DecidableEq, Repr, Inhabited

def parseOp (bs : Bytes) (k : Nat) : WorldOp :=
  let o := 32 + 16 * k
  { op := fieldAt bs o 1, arg := fieldAt bs (o + 1) 1, level := fieldAt bs (o + 2) 1, rsvd := fieldAt bs (o + 3) 1,
    cell := fieldAt bs (o + 4) 4, data := fieldAt bs (o + 8) 8 }

def batchKind (bs : Bytes) : Nat := fieldAt bs 0 1
def batchSource (bs : Bytes) : Nat := fieldAt bs 2 2
def batchOps (bs : Bytes) : Nat := fieldAt bs 4 4
def batchStamp (bs : Bytes) : Nat := fieldAt bs 8 8
def batchSeqNo (bs : Bytes) : Nat := fieldAt bs 0x10 4
def batchOrigin (bs : Bytes) : List Int := [0x14, 0x18, 0x1C].map fun o => toSigned 32 (fieldAt bs o 4)

/-- Coordinate of a cell field along axis a. -/
def cellAt (c a : Nat) : Nat := bitsOf c (10 * a) 10

/-- The checks of one operation of a batch of a kind (R139, R140). -/
def opOk (kind : Nat) (o : WorldOp) : Bool :=
  decide (o.rsvd = 0 ∧ o.cell < 2 ^ 30) &&
    (if o.op = 0 then
       decide (kind ≠ 1 ∧ (o.arg = 0 ∨ o.arg = 1 ∨ o.arg = 3) ∧ o.level = 0 ∧ o.data < 2 ^ 30)
         && (List.range 3).all fun a => decide (cellAt o.cell a ≤ cellAt o.data a)
     else if o.op = 1 then decide (kind ≠ 1 ∧ o.arg = 0 ∧ o.level = 0)
     else if o.op = 2 then decide (kind ≠ 1 ∧ o.level ≤ 9 ∧ o.data = 0)
     else decide (o.op = 3 ∧ kind = 1 ∧ o.arg = 0 ∧ o.level = 0 ∧ o.data < 2 ^ 32))

/-- R140; the header's reserved fields are checked with the operations' (log entry 41). -/
def batchOk (bs : Bytes) : Bool :=
  decide (32 ≤ bs.length ∧ batchKind bs ≤ 2 ∧ fieldAt bs 1 1 = 0 ∧ batchOps bs ≤ 65536 ∧ bs.length = 32 + 16 * batchOps bs)
    && (decide (batchKind bs = 2) || allZero (sliceOf bs 0x14 12))
    && (List.range (batchOps bs)).all fun k => opOk (batchKind bs) (parseOp bs k)

/-! ### The tree in hand -/

/-- What a child is: a uniform cube, a leaf bitmap, or a node. A node keeps the word and the child block it is
stored with, if it is stored; `batch` tells that the batch in hand has made it or supplied its HINT. -/
inductive WNode where
  | uni (code : Nat)
  | leaf (bits : Nat)
  | node (kids : List WNode) (layers : List Nat) (hint tli : Nat) (unk batch : Bool) (word : Option Nat)
  deriving Repr, Inhabited

/-- Eight times the same code, opened from a uniform cube. -/
def openNode (code : Nat) : WNode := .node (List.replicate 8 (.uni code)) (List.replicate 8 0) 0 0 false true none

def uniCode : WNode → Option Nat
  | .uni c => some c
  | _ => none

def isNode : WNode → Bool
  | .node .. => true
  | _ => false

def isMixed : WNode → Bool
  | .uni _ => false
  | _ => true

def kidsOf : WNode → List WNode
  | .node k _ _ _ _ _ _ => k
  | _ => []

def layersOf : WNode → List Nat
  | .node _ l _ _ _ _ _ => l
  | _ => []

def hintOf : WNode → Nat
  | .node _ _ h _ _ _ _ => h
  | _ => 0

def tliOf : WNode → Nat
  | .node _ _ _ t _ _ _ => t
  | _ => 0

def unkOf : WNode → Bool
  | .node _ _ _ _ u _ _ => u
  | _ => false

def madeNow : WNode → Bool
  | .node _ _ _ _ _ b _ => b
  | _ => false

def wordOf : WNode → Option Nat
  | .node _ _ _ _ _ _ w => w
  | _ => none

/-- Two children are the same content, stored alike. -/
def sameKid (a b : WNode) : Bool :=
  match a, b with
  | .uni x, .uni y => decide (x = y)
  | .leaf x, .leaf y => decide (x = y)
  | .node .., .node .. => (wordOf a).isSome && decide (wordOf a = wordOf b)
  | _, _ => false

/-- Highest layer with non-zero occupancy of a level-9 node. -/
def topLayer (l : List Nat) : Nat := ((List.range 8).filter fun i => decide (l.getD i 0 ≠ 0)).foldl (fun _ i => i + 1) 0

/-- TL_INDEX and UNK_BELOW of a node (R129); `h` is the number of levels below it, 0 at level 9. -/
def nodeTli (h : Nat) (kids : List WNode) (layers : List Nat) : Nat :=
  if h = 0 then topLayer layers else kids.foldl (fun m k => max m (tliOf k)) 0

def nodeUnk (h : Nat) (kids : List WNode) : Bool :=
  decide (h ≠ 0) && kids.any fun k => isNode k && (unkOf k || (kidsOf k).any fun c => decide (uniCode c = some 3))

/-- Eight equal non-MIXED children. -/
def allUniform (kids : List WNode) : Bool :=
  match kids with
  | k :: _ => (uniCode k).isSome && kids.all fun c => decide (uniCode c = uniCode k)
  | [] => false

/-- A node with new children or layers in normal form (R133): collapsed into a code, left as stored when nothing
changes, else made anew with HINT 0 unless the batch supplies a value (R134). The root never collapses. -/
def makeNode (h : Nat) (kids : List WNode) (layers : List Nat) (old : WNode) (hint : Option Nat) : WNode :=
  let tli := nodeTli h kids layers
  if h ≠ 9 ∧ tli = 0 ∧ allUniform kids = true then kids.headD (.uni 3)
  else
    let same := decide (layersOf old = layers) && ((kidsOf old).zip kids).all fun p => sameKid p.1 p.2
    if isNode old && same && (match hint with | none => true | some v => decide (v = hintOf old)) then
      .node kids layers (hintOf old) (tliOf old) (unkOf old) (madeNow old || hint.isSome) (wordOf old)
    else .node kids layers (hint.getD (if madeNow old then hintOf old else 0)) tli (nodeUnk h kids) true none

/-! ### Reading the stored tree -/

def layerWords (word : Nat → Nat) (w : Nat) : List Nat :=
  (List.range 8).map fun i =>
    if i < nodeTl w then bitsOf (word (nodeBase w + mixedBelow w 8 + i / 2)) (32 * (i % 2)) 32 else 0

/-- The stored node whose word is w, with h levels below it. -/
def loadNode (word : Nat → Nat) : Nat → Nat → WNode
  | 0, w =>
    .node ((List.range 8).map fun o => if nodeCode w o = 2 then .leaf (word (nodeBase w + mixedBelow w o)) else .uni (nodeCode w o))
      (layerWords word w) (nodeHint w) (nodeTl w) false false (some w)
  | h + 1, w =>
    .node ((List.range 8).map fun o =>
        if nodeCode w o = 2 then loadNode word h (word (nodeBase w + mixedBelow w o)) else .uni (nodeCode w o))
      (List.replicate 8 0) (nodeHint w) (nodeTl w) (bitOf w 1) false (some w)

/-! ### Operations (R139) -/

/-- The octant of a cell below a node with h levels below it (R128). -/
def octant (cell h : Nat) : Nat :=
  boolNat (bitOf (cellAt cell 0) h) + 2 * boolNat (bitOf (cellAt cell 1) h) + 4 * boolNat (bitOf (cellAt cell 2) h)

def kidAt (n : WNode) (o : Nat) : WNode := (kidsOf n).getD o (.uni 3)

def setKid (h : Nat) (n : WNode) (o : Nat) (k : WNode) : WNode :=
  makeNode h ((kidsOf n).set o k) (layersOf n) n none

/-- A child as a node, opened when it is uniform. -/
def asNode (k : WNode) : WNode := if isNode k then k else openNode ((uniCode k).getD 3)

/-- f at the node with t levels below it that holds the cell; uniform cubes on the way are opened. -/
def atCell (f : WNode → WNode) (cell t : Nat) : Nat → WNode → WNode
  | 0, n => f n
  | h + 1, n =>
    if h + 1 = t then f n
    else setKid (h + 1) n (octant cell (h + 1)) (atCell f cell t h (asNode (kidAt n (octant cell (h + 1)))))

/-- The path to the node with t levels below it exists. -/
def pathExists (cell t : Nat) : Nat → WNode → Bool
  | 0, _ => true
  | h + 1, n =>
    if h + 1 = t then true
    else isNode (kidAt n (octant cell (h + 1))) && pathExists cell t h (kidAt n (octant cell (h + 1)))

/-- A whole cube set to a code; where time layers stand, the MIXED path down to them stays (R132, R133). -/
def fillCube (code : Nat) : Nat → WNode → WNode
  | 0, k => if isNode k && decide (tliOf k ≠ 0) then makeNode 0 (List.replicate 8 (.uni code)) (layersOf k) k none else .uni code
  | h + 1, k =>
    if isNode k && decide (tliOf k ≠ 0) then makeNode (h + 1) ((kidsOf k).map (fillCube code h)) (layersOf k) k none
    else .uni code

/-- How cells a to b of one axis cover the edge of `size` cells at c: 0 not, 1 in part, 2 whole. -/
def axisCover (a b c size : Nat) : Nat :=
  if b < c ∨ c + size ≤ a then 0 else if a ≤ c ∧ c + size ≤ b + 1 then 2 else 1

/-- The box lo to hi takes a code, below the node at corner (x, y, z) (R139). -/
def fillBox (code lo hi : Nat) : Nat → Nat × Nat × Nat → WNode → WNode
  | 0, p, n =>
    let kids := (List.range 8).map fun o =>
      let q := (p.1 + o % 2, p.2.1 + o / 2 % 2, p.2.2 + o / 4)
      let inside := decide (cellAt lo 0 ≤ q.1 ∧ q.1 ≤ cellAt hi 0 ∧ cellAt lo 1 ≤ q.2.1 ∧ q.2.1 ≤ cellAt hi 1
        ∧ cellAt lo 2 ≤ q.2.2 ∧ q.2.2 ≤ cellAt hi 2)
      if inside then .uni code else kidAt n o
    makeNode 0 kids (layersOf n) n none
  | h + 1, p, n =>
    let size := 2 ^ (h + 1)
    let kids := (List.range 8).map fun o =>
      let q := (p.1 + size * (o % 2), p.2.1 + size * (o / 2 % 2), p.2.2 + size * (o / 4))
      let cx := axisCover (cellAt lo 0) (cellAt hi 0) q.1 size
      let cy := axisCover (cellAt lo 1) (cellAt hi 1) q.2.1 size
      let cz := axisCover (cellAt lo 2) (cellAt hi 2) q.2.2 size
      if cx = 0 ∨ cy = 0 ∨ cz = 0 then kidAt n o
      else if cx + cy + cz = 6 then fillCube code h (kidAt n o)
      else fillBox code lo hi h q (asNode (kidAt n o))
    makeNode (h + 1) kids (layersOf n) n none

/-- A leaf bitmap in normal form (R133). -/
def leafOf (bits : Nat) : WNode := if bits = 0 then .uni 0 else if bits = 2 ^ 64 - 1 then .uni 1 else .leaf bits

/-- Child o's q of every layer (R132, R139). -/
def setLayers (n : WNode) (o data : Nat) : WNode :=
  let layers := (List.range 8).map fun i =>
    let old := (layersOf n).getD i 0
    old - bitsOf old (4 * o) 4 * 2 ^ (4 * o) + bitsOf data (4 * i) 4 * 2 ^ (4 * o)
  makeNode 0 (kidsOf n) layers n none

def setHint (h v : Nat) (n : WNode) : WNode := makeNode h (kidsOf n) (layersOf n) n (some v)

/-- One operation. -/
def applyOp (root : WNode) (o : WorldOp) : WNode :=
  if o.op = 0 then fillBox o.arg o.cell o.data 9 (0, 0, 0) root
  else if o.op = 1 then atCell (fun n => setKid 0 n (octant o.cell 0) (leafOf o.data)) o.cell 0 9 root
  else if o.op = 2 then
    let t := 9 - o.level
    if pathExists o.cell t 9 root then atCell (setHint t o.arg) o.cell t 9 root else root
  else atCell (fun n => setLayers n (octant o.cell 0) o.data) o.cell 0 9 root

/-- Every time layer of a tree goes (R139, TIMELAYERS). -/
def stripLayers : Nat → WNode → WNode
  | 0, n => if isNode n && decide (tliOf n ≠ 0) then makeNode 0 (kidsOf n) (List.replicate 8 0) n none else n
  | h + 1, n =>
    if isNode n && decide (tliOf n ≠ 0) then makeNode (h + 1) ((kidsOf n).map (stripLayers h)) (layersOf n) n none else n

/-- The tree a batch leaves, from the newest epoch's. -/
def applyBatchTo (old : WNode) (bs : Bytes) : WNode :=
  let start := if batchKind bs = 2 then openNode 3 else if batchKind bs = 1 then stripLayers 9 old else old
  ((List.range (batchOps bs)).map (parseOp bs)).foldl applyOp start

/-! ### Writing (R130, R136, R144, R150) -/

/-- The free map. -/
structure FreeMap where
  next  : Nat            -- slots from here on are free
  freed : List Nat       -- free slots below it, ascending
  deriving DecidableEq, Repr, Inhabited

def slotCount : Nat := 0x80000

def FreeMap.isFree (f : FreeMap) (x : Nat) : Bool := decide (x ∈ f.freed) || decide (f.next ≤ x ∧ x < slotCount)

/-- The lowest-numbered free run of n slots (R136). -/
def FreeMap.alloc (f : FreeMap) (n : Nat) : Option (Nat × FreeMap) :=
  match (f.freed ++ [f.next]).find? fun c => (List.range n).all fun i => f.isFree (c + i) with
  | none => none
  | some c => some (c, { next := max f.next (c + n), freed := f.freed.filter fun x => decide (x < c ∨ c + n ≤ x) })

/-- The words of a batch in hand: free map, and (slot, word) pairs to be written. -/
abbrev Writing := FreeMap × List (Nat × Nat)

/-- A child's word. -/
def childWord (k : WNode) : Nat :=
  match k with
  | .leaf b => b
  | _ => (wordOf k).getD 0

/-- The time-layer slots of a level-9 node (R132). -/
def layerSlots (h tli : Nat) (layers : List Nat) : List Nat :=
  if h = 0 then (List.range (ceilDiv tli 2)).map fun j => layers.getD (2 * j) 0 + 2 ^ 32 * layers.getD (2 * j + 1) 0 else []

def blockWords (h : Nat) (n : WNode) : List Nat :=
  ((kidsOf n).filter isMixed).map childWord ++ layerSlots h (tliOf n) (layersOf n)

/-- The node's word (R129). -/
def encodeNode (h : Nat) (n : WNode) (base : Nat) : Nat :=
  let codes := (List.range 8).foldl (fun v o => v + 2 ^ (48 + 2 * o) * (uniCode (kidAt n o)).getD 2) 0
  codes + 2 ^ 24 * base + 65536 * hintOf n + 256 * tliOf n + 2 * boolNat (unkOf n) + boolNat (decide (h = 0))

def withKids (n : WNode) (kids : List WNode) : WNode := .node kids (layersOf n) (hintOf n) (tliOf n) (unkOf n) (madeNow n) none

def withWord (n : WNode) (w : Nat) : WNode := .node (kidsOf n) (layersOf n) (hintOf n) (tliOf n) (unkOf n) (madeNow n) (some w)

/-- The node's child block goes into free slots; none when they run out. -/
def storeBlock (h : Nat) (n : WNode) (w : Writing) : Option (WNode × Writing) :=
  let words := blockWords h n
  if words = [] then some (withWord n (encodeNode h n 0), w)
  else match w.1.alloc words.length with
    | none => none
    | some (base, f) =>
      some (withWord n (encodeNode h n base), f, w.2 ++ (List.range words.length).map fun i => (base + i, words.getD i 0))

/-- A new node and the new nodes below it; stored nodes keep their blocks. -/
def storeNode : Nat → WNode → Writing → Option (WNode × Writing)
  | 0, n, w => if !isNode n || (wordOf n).isSome then some (n, w) else storeBlock 0 n w
  | h + 1, n, w =>
    if !isNode n || (wordOf n).isSome then some (n, w)
    else
      match (kidsOf n).foldl (fun (acc : Option (List WNode × Writing)) k =>
          match acc with
          | none => none
          | some (done, u) => match storeNode h k u with
            | none => none
            | some (k2, u2) => some (done ++ [k2], u2)) (some ([], w)) with
      | none => none
      | some (kids, u) => storeBlock (h + 1) (withKids n kids) u

/-- The slots of a stored node's child block. -/
def blockSlots (h : Nat) (n : WNode) : List Nat :=
  match wordOf n with
  | none => []
  | some w => (List.range (blockWords h n).length).map fun i => nodeBase w + i

/-- Every slot below a stored node. -/
def slotsBelow : Nat → WNode → List Nat
  | 0, n => blockSlots 0 n
  | h + 1, n => blockSlots (h + 1) n ++ ((kidsOf n).map (slotsBelow h)).flatten

/-- The slots of the old tree that the copy has replaced (R144 step 4). -/
def replaced : Nat → WNode → WNode → List Nat
  | 0, a, b => if sameKid a b || !isNode a then [] else blockSlots 0 a
  | h + 1, a, b =>
    if sameKid a b || !isNode a then []
    else blockSlots (h + 1) a ++ ((List.range 8).map fun o => replaced h (kidAt a o) (if isNode b then kidAt b o else b)).flatten

/-! ### What a cube's cells are, for the checkpoint (R288) -/

/-- A cell as the operations name it (R139). -/
def cellField (p : Nat × Nat × Nat) : Nat := p.1 + 1024 * p.2.1 + 1048576 * p.2.2

def opBytes (op arg level cell data : Nat) : Bytes := toLe 1 op ++ toLe 1 arg ++ toLe 1 level ++ [0] ++ toLe 4 cell ++ toLe 8 data

def setCellsOp (code : Nat) (p : Nat × Nat × Nat) (size : Nat) : Bytes :=
  opBytes 0 code 0 (cellField p) (cellField (p.1 + size - 1, p.2.1 + size - 1, p.2.2 + size - 1))

/-- The corner of child o of a node with h levels below it. -/
def childCorner (h : Nat) (p : Nat × Nat × Nat) (o : Nat) : Nat × Nat × Nat :=
  (p.1 + 2 ^ h * (o % 2), p.2.1 + 2 ^ h * (o / 2 % 2), p.2.2 + 2 ^ h * (o / 4))

/-- SET_CELLS for every uniform child that is not UNKNOWN, SET_LEAF for every bitmap. -/
def contentOps : Nat → Nat × Nat × Nat → WNode → List Bytes
  | 0, p, n =>
    ((List.range 8).map fun o =>
      match kidAt n o with
      | .uni c => if c = 3 then [] else [setCellsOp c (childCorner 0 p o) 1]
      | .leaf b => [opBytes 1 0 0 (cellField (childCorner 0 p o)) b]
      | _ => []).flatten
  | h + 1, p, n =>
    ((List.range 8).map fun o =>
      match kidAt n o with
      | .uni c => if c = 3 then [] else [setCellsOp c (childCorner (h + 1) p o) (2 ^ (h + 1))]
      | k => contentOps h (childCorner (h + 1) p o) k).flatten

/-- SET_HINT for every node with a hint, those below a node before its own (R134). -/
def hintOps : Nat → Nat × Nat × Nat → WNode → List Bytes
  | 0, p, n => if isNode n && decide (hintOf n ≠ 0) then [opBytes 2 (hintOf n) 9 (cellField p) 0] else []
  | h + 1, p, n =>
    ((List.range 8).map fun o => hintOps h (childCorner (h + 1) p o) (kidAt n o)).flatten
      ++ (if isNode n && decide (hintOf n ≠ 0) then [opBytes 2 (hintOf n) (9 - (h + 1)) (cellField p) 0] else [])

/-- SET_TL for every cell with a predicted occupancy. -/
def layerOps : Nat → Nat × Nat × Nat → WNode → List Bytes
  | 0, p, n =>
    if !isNode n || decide (tliOf n = 0) then []
    else ((List.range 8).map fun o =>
      let q := (List.range 8).foldl (fun v i => v + 16 ^ i * bitsOf ((layersOf n).getD i 0) (4 * o) 4) 0
      if q = 0 then [] else [opBytes 3 0 0 (cellField (childCorner 0 p o)) q]).flatten
  | h + 1, p, n =>
    if !isNode n || decide (tliOf n = 0) then []
    else ((List.range 8).map fun o => layerOps h (childCorner (h + 1) p o) (kidAt n o)).flatten

end Sys2Proof.Machine
end

