-- ==== Sys2Proof/Machine/World.lean ====
section
/-! DEFINITION. The world update engine (R136 to R150): WORLD_DELTA, staging, application, publish, repair. -/

namespace Sys2Proof.Machine

/-! ### WORLD_DELTA (R141, R286) -/

/-- A host batch waits for RESUME, for the next WORLD phase in tack mode, or for the end of a replay. -/
def holdsHost (s : State) : Bool :=
  match s.cyc.dev with
  | .stopped => false
  | .running => s.cyc.tack
  | _ => true

def hostBatch (s : State) (m : Msg) (bs : Bytes) : State :=
  let b : Batch := { host := true, bytes := bs, digest := [], msg := some m, coll := none, held := holdsHost s,
                     since := s.cyc.seq, phase := 0, owner := none }
  { s with world := { s.world with hostQ := s.world.hostQ ++ [b] } }

def execWorldDelta (s : State) : Result :=
  withFront s .world (isOp 0x30) fun m t => pieceRun0 t m fun u bs => .next (hostBatch u m bs)

/-! ### Taking and copying a batch (R141, R142) -/

def freeBatch (l : List Batch) : Option Batch := l.find? fun b => !b.held

/-- A task item: address, length, reserved bytes zero. -/
def taskItemOk (s : State) (item : Bytes) : Bool :=
  decide (item.length = 16 ∧ fieldAt item 0 8 % 64 = 0) && rsvdZero item [(12, 4)] && decide (fieldAt item 0 8 + fieldAt item 8 4 ≤ gddrEnd s)

/-- The batch's bytes as the copy finds them; an uncorrectable error spoils the whole (R363, log entry 41). -/
def stagedBytes (s : State) (b : Batch) : Bytes :=
  if b.host then b.bytes
  else
    let a := fieldAt b.bytes 0 8
    let n := fieldAt b.bytes 8 4
    if badRead s a n then [] else devRead s a n

/-- The SOURCE of the next recorded publish that no batch in the engine will make (R291). -/
def nextSource (s : State) : Option Nat :=
  let done := (s.cyc.facts.filter (·.kind = 9)).length + s.world.staged.length + boolNat s.world.built.isSome
  ((forced s 9)[done]?).map (·.taskId)

/-- Tack mode decides the order: a WORLD phase's host batches go before its task batches (R141). -/
def tackOrder (s : State) : Bool := s.cyc.tack && decide (s.cyc.dev = .running ∨ s.cyc.dev = .replay)

/-- The host route goes next (R141); in replay as recorded. -/
def hostNext (s : State) : Bool :=
  match freeBatch s.world.hostQ, s.world.taskQ.head? with
  | some _, none => true
  | none, _ => false
  | some _, some _ =>
    if tackOrder s then true else if inReplay s then decide (nextSource s = some 0xFFFF) else s.world.hostTurn

/-- Bytes in staging (R142): 16 MiB. -/
def stagedSize (s : State) : Nat := (s.world.staged.map (·.bytes.length)).sum

/-- The batch that the engine takes next. -/
def nextBatch (s : State) : Option Batch := if hostNext s then freeBatch s.world.hostQ else s.world.taskQ.head?

/-- The read of a task batch's bytes: its corrections, or its uncorrectable error (R362, R363). -/
def readBatch (s : State) (b : Batch) : State :=
  let a := fieldAt b.bytes 0 8
  let n := fieldAt b.bytes 8 4
  if b.host then s else if badRead s a n then gddrUe s (firstBad s a n) else correctRead s a n

/-- The batch is copied to staging and its SHA-384 computed. -/
def takeBatchToStaging (s : State) (b : Batch) : State :=
  let bs := stagedBytes s b
  let s1 := readBatch s b
  { s1 with world := { s1.world with
    staged := s1.world.staged ++ [{ b with bytes := bs, digest := sha384 bs }], hostTurn := !b.host,
    hostQ := if b.host then s1.world.hostQ.erase b else s1.world.hostQ
    taskQ := if b.host then s1.world.taskQ else s1.world.taskQ.tail } }

/-- WORLD_BATCH_TAKE (R142). -/
def execWorldBatchTake (s : State) : Result :=
  match nextBatch s with
  | none => .next s
  | some b =>
    onlyIf s (decide (stagedSize s + (stagedBytes s b).length ≤ 0x1000000) || s.world.staged.isEmpty) (takeBatchToStaging s b)

/-! ### Application (R140, R144, R150) -/

def newestEpoch (s : State) : Epoch := (epochOf s s.world.newest).getD .zero

/-- The word a slot holds. -/
def slotWord (s : State) (slot : Nat) : Nat := leNat (devRead s (bankBase + 8 * slot) 8)

def loadTree (s : State) (e : Epoch) : WNode := loadNode (slotWord s) 9 (slotWord s e.root)

def freeMap (s : State) : FreeMap := { next := s.world.nextSlot, freed := s.world.freed }

/-- Words are written to every bank; what the world caches hold of those slots goes (R45, R136). -/
def writeSlots (s : State) (f : FreeMap) (l : List (Nat × Nat)) : State :=
  let s1 := l.foldl (fun t p => devWrite t (bankBase + 8 * p.1) (toLe 8 p.2)) s
  let slots := l.map (·.1)
  { s1 with world := { s1.world with
    nextSlot := f.next, freed := f.freed,
    badSlots := s1.world.badSlots.filter fun b => decide (b.2 ∉ slots)
    cached := s1.world.cached.filter fun c => !slots.any fun x => decide (x / 8 = c.2) } }

/-- A new tree, its nodes and its root in free slots; none when they run out. -/
def storeTree (s : State) (new : WNode) : Option (WNode × Nat × FreeMap × List (Nat × Nat)) :=
  match storeNode 9 new (freeMap s, []) with
  | none => none
  | some (n, f, l) => match f.alloc 1 with
    | none => none
    | some (root, g) => some (n, root, g, l ++ [(root, (wordOf n).getD 0)])

/-- The batch leaves staging. -/
def unstage (s : State) (b : Batch) : State := { s with world := { s.world with staged := s.world.staged.erase b } }

/-- A rejected batch: counted, reported and answered (R140, R141, R150). -/
def rejectBatch (s : State) (b : Batch) (status : Nat) : State :=
  let s1 := bumpReg (unstage s b) offRejected
  let s2 := { s1 with world := { s1.world with lastReject := if status = stBadDelta then 1 else 2 } }
  let s3 := if status = stWorldFull then raiseOpenFault s2 fsWorld fWorldFull else s2
  let s4 := sendEvent s3 0x0003 (toLe 2 (batchSource b.bytes) ++ zeros 2 ++ toLe 4 (batchSeqNo b.bytes))
  let s5 := match b.msg with
    | some m => replyInfo s4 m status 0 (toLe 4 s4.world.newest)
    | none => s4
  collSettled s5 b 2 0

/-- The batch's tree stands in free slots, waiting for its table entry and the acknowledgements. -/
def buildBatch (s : State) (b : Batch) : State :=
  let base := newestEpoch s
  let old := loadTree s base
  match storeTree s (applyBatchTo old b.bytes) with
  | none => rejectBatch s b stWorldFull
  | some (n, root, f, l) =>
    let kind := batchKind b.bytes
    let gone := base.root :: (if kind = 2 then slotsBelow 9 old else replaced 9 old n)
    let e : Epoch :=
      { num := 0, root := root, origin := if kind = 2 then batchOrigin b.bytes else base.origin,
        t0 := if kind = 1 then batchStamp b.bytes else if kind = 2 then 0 else base.t0, chain := [], holds := 0,
        superseded := gone, tl := decide (tliOf n ≠ 0) }
    let s1 := writeSlots (unstage s b) f l
    { s1 with world := { s1.world with
      built := some { batch := b, epoch := e, slots := l.map (·.1), source := batchSource b.bytes } } }

/-- The staged batch to apply: the oldest that does not wait; in tack mode a host batch before every task batch (R141). -/
def applyNext (s : State) : Option Batch :=
  if tackOrder s then
    match freeBatch (s.world.staged.filter (·.host)) with
    | some b => some b
    | none => if (freeBatch s.world.hostQ).isSome then none else freeBatch s.world.staged
  else freeBatch s.world.staged

/-- BATCH_APPLY (R140, R144). -/
def execBatchApply (s : State) : Result :=
  match applyNext s with
  | none => .next s
  | some b => onlyIf s s.world.built.isNone (if batchOk b.bytes then buildBatch s b else rejectBatch s b stBadDelta)

/-! ### EPOCH_PUBLISH (R143, R144, R148, R284) -/

def nextEpochNum (n : Nat) : Nat := if (n + 1) % 2 ^ 32 = 0 then 1 else (n + 1) % 2 ^ 32

/-- The lowest free table entry. -/
def freeEntry (s : State) : Option Nat := (List.range 8).find? fun i => !s.world.table.any (·.1 = i)

def newestChain (s : State) : Bytes := (newestEpoch s).chain

/-- The epoch becomes newest under a number and a chain value. -/
def publishAs (s : State) (i num : Nat) (chain : Bytes) (u : Built) : State :=
  reapEpochs { s with world := { s.world with
    newest := num, built := none, table := s.world.table ++ [(i, { u.epoch with num := num, chain := chain })],
    chains := (num, chain) :: s.world.chains.filter (·.1 ≠ num) } }

/-- The PUBLISH entry; one that falls between cycles belongs to the next (log entry 43). -/
def publishFact (s : State) (source num : Nat) : State :=
  if s.cyc.dev = .stopped then s
  else addFact s { kind := 9, copy := 0, taskId := source, batch := 0xFFFF, desc := 0xFFFF, valA := num, valB := 0 }

def publishNow (s : State) (i : Nat) (u : Built) : State :=
  let num := nextEpochNum s.world.newest
  let chain := sha384 (newestChain s ++ u.batch.digest ++ toLe 4 num)
  let s1 := publishFact (publishAs (bumpReg s offPublished) i num chain u) u.source num
  let s2 := ceaseCause (traceRec s1 8 0 0 num u.slots.length) 12
  let s3 := match u.batch.msg with
    | some m => replyData s2 m (toLe 4 num)
    | none => s2
  collSettled s3 u.batch 0 num

def execEpochPublish (s : State) : Result :=
  match s.world.built, freeEntry s with
  | some u, some i => onlyIf s true (publishNow s i u)
  | _, _ => .next s

/-! ### WORLD_BANK_REPAIR (R137) -/

/-- The slot is rewritten from the replica of cluster n XOR 1, which must hold it good. -/
def execWorldBankRepair (cluster slot : Nat) (s : State) : Result :=
  onlyIf s (decide ((cluster, slot) ∈ s.world.badSlots) && !decide ((cluster ^^^ 1, slot) ∈ s.world.badSlots))
    { s with world := { s.world with badSlots := s.world.badSlots.filter (· ≠ (cluster, slot)) } }

end Sys2Proof.Machine
end

