-- ==== Sys2Proof/Machine/Flows.lean ====
section
/-! DEFINITION. Ordered flows after EMIT: rings and sinks (R239, R262, R264), FLOW_RELEASE and FLOW_ACK_POLL, and what a
boundary discards (R266). -/

namespace Sys2Proof.Machine

/-! ### Rings (R264) -/

def ringAddr (c : FlowCfg) : Nat := flowBase + c.ringOffset
def slotSize (c : FlowCfg) : Nat := 64 + c.itemMax
def ringLength (c : FlowCfg) : Nat := 64 + c.consSlots * slotSize c

/-- The ring lies in the flow area; one that does not is unguarded (R262). -/
def ringOk (c : FlowCfg) : Bool := decide (c.ringOffset % 64 = 0 ∧ c.ringOffset + ringLength c ≤ 0x1000000 ∧ 0 < c.consSlots)

def ringAck (s : State) (c : FlowCfg) : Word := BitVec.ofNat 32 (leNat (devRead s (ringAddr c) 4))

def ringRoom (s : State) (c : FlowCfg) (x : Flow) : Bool := decide ((x.released - ringAck s c).toNat < c.consSlots)

/-- Slot, RELEASED, counter, NEXT_SEQ, in that order. -/
def releaseToRing (s : State) (c : FlowCfg) (x : Flow) (seq : Word) (item : Bytes) (rest : List FlowItem) : State :=
  let slot := ringAddr c + 64 + x.released.toNat % c.consSlots * slotSize c
  let head := toLe 4 seq.toNat ++ toLe 2 item.length ++ zeros 2 ++ toLe 4 s.cyc.seq.toNat ++ zeros 52
  let s1 := devWrite s slot (head ++ padTo c.itemMax item)
  let s2 := addToken (devWrite s1 (ringAddr c + 4) (toLe 4 (x.released + 1).toNat)) c.consTile c.consCounter 1
  setFlow s2 { x with items := rest, released := x.released + 1, nextSeq := seq + 1, blocked := false }

/-- Blocked: the ACK is read again 256 fabric cycles later. -/
def blockFlow (s : State) (x : Flow) : State := setFlow s { x with blocked := true, room := s.ao }

/-! ### Sinks (R141, R239, R457) -/

/-- The plan item's part of what EMIT handed over: a NONE item is 32 bytes, a PLAN item ends with its candidate. -/
def planItem (item : Bytes) : Bytes :=
  if fieldAt item 0 1 = 1 then item.take 32 else item.take (0x60 + 32 * fieldAt item 0x24 1)

def planItemOk (item : Bytes) : Bool :=
  decide (fieldAt item 0 1 ≤ 1 ∧ 32 ≤ item.length ∧ fieldAt item 3 1 < 4) && rsvdZero item [(4, 12)]
    && (decide (fieldAt item 0 1 = 1) ||
      decide (1 ≤ fieldAt item 0x24 1 ∧ fieldAt item 0x24 1 ≤ 32 ∧ 0x60 + 32 * fieldAt item 0x24 1 ≤ item.length))

/-- The first item of the cycle is its plan item; a later one is a duplicate. -/
def toPlanSink (s : State) (item : Bytes) : Attempt :=
  if s.cyc.planSeen then .ok (flowDup s)
  else if planItemOk item then .ok (takePlanItem s (planItem item))
  else .error "R239"

/-- A task batch is submitted; in tack mode an ESTIMATE batch waits for the next WORLD phase (R277). -/
def toWorldSink (s : State) (p : FlowItem) : Attempt :=
  if !taskItemOk s p.bytes then .error "R141"
  else
    let b : Batch := { host := false, bytes := p.bytes, digest := [], msg := none, coll := none,
                       held := s.cyc.tack && decide (p.phase = 10), since := s.cyc.seq, phase := p.phase, owner := some p.owner }
    .ok { s with world := { s.world with taskQ := s.world.taskQ ++ [b] } }

def toSink (s : State) (f : Nat) (p : FlowItem) : Attempt :=
  if f = sinkWorld then toWorldSink s p else if f = sinkPlan then toPlanSink s p.bytes else issueColl s p.bytes

/-! ### FLOW_RELEASE and FLOW_ACK_POLL (R264) -/

/-- The item at NEXT_SEQ, and the others. -/
def nextItem (x : Flow) : Option (FlowItem × List FlowItem) :=
  (x.items.find? (·.seq = x.nextSeq)).map fun p => (p, x.items.filter (·.seq ≠ x.nextSeq))

def releaseItem (s : State) (f : Nat) (x : Flow) (p : FlowItem) (rest : List FlowItem) : Attempt :=
  if isSink f then toSink (setFlow s { x with items := rest, nextSeq := p.seq + 1 }) f p
  else match flowCfg s f with
    | none => .error "R262"
    | some c =>
      if !ringOk c then .error "R262"
      else if ringRoom s c x then .ok (releaseToRing s c x p.seq p.bytes rest)
      else .ok (blockFlow s x)

def execFlowRelease (flow : Nat) (s : State) : Result :=
  let x := flowOf s flow
  match nextItem x with
  | none => .next s
  | some (p, rest) => if s.boot.inReset || x.blocked then .next s else ofAttempt (releaseItem s flow x p rest)

def execFlowAckPoll (flow : Nat) (s : State) : Result :=
  let x := flowOf s flow
  match flowCfg s flow with
  | none => .next s
  | some c => onlyIf s (x.blocked && decide (x.room + 26 ≤ s.ao)) (setFlow s { x with blocked := !ringRoom s c x, room := s.ao })

/-! ### Boundary and resets (R264, R266) -/

/-- The lowest SEQ missing from a reorder buffer of at most 256 entries. -/
def lowestMissing (x : Flow) : Word :=
  ((List.range 257).map fun i => x.nextSeq + BitVec.ofNat 32 i).find? (fun q => !x.items.any (·.seq = q)) |>.getD x.nextSeq

/-- One flow at a boundary: what it still holds is discarded, counted and reported. -/
def emptyFlow (s : State) (x : Flow) : State :=
  let s1 := setFlow s { x with items := [], nextSeq := 0, blocked := false }
  if x.items = [] then s1
  else sendEvent (addReg s1 offFlowGap x.items.length) 0x0006
    (toLe 2 x.flowId ++ zeros 2 ++ toLe 4 (lowestMissing x).toNat ++ toLe 4 x.items.length)

def emptyFlows (s : State) : State := s.flows.foldl emptyFlow s

/-- ACK, RELEASED and every slot header of a ring written as zeros. -/
def resetRing (s : State) (c : FlowCfg) : State :=
  (List.range c.consSlots).foldl (fun t i => devWrite t (ringAddr c + 64 + i * slotSize c) (zeros 64)) (devWrite s (ringAddr c) (zeros 8))

/-- Every ring of the active image, at START and at activation (R264). -/
def resetRings (s : State) : State :=
  match s.load.active with
  | none => s
  | some i => { (i.flows.filter ringOk).foldl resetRing s with flows := [] }

/-- RELEASED as the restored ring heads hold it (R264). -/
def takeUpRings (s : State) : State :=
  match s.load.active with
  | none => { s with flows := [] }
  | some i => { s with flows := i.flows.foldl (fun l c =>
      flowInsert { Flow.reset c.flowId with released := BitVec.ofNat 32 (leNat (devRead s (ringAddr c + 4) 4)) } l) [] }

end Sys2Proof.Machine
end

