-- ==== Sys2Proof/Machine/Loading.lean ====
section
/-! DEFINITION. Task images, weight sets, profiles and cycle parameters (R105 to R118, R158, R230, R394, R470, R505). -/

namespace Sys2Proof.Machine

/-- Settings take effect at once: no cycle is in flight (R505). -/
def atOnce (s : State) : Bool := decide (s.cyc.dev = .stopped ∨ s.cyc.dev = .paused)

/-! ### The layout of an image (R105, R106) -/

def imageMax : Nat := 0x4000000

structure Section where
  typ : Nat
  off : Nat
  len : Nat
  deriving DecidableEq, Repr, Inhabited

def sectionAt (bs : Bytes) (i : Nat) : Section :=
  { typ := fieldAt bs (0x40 + 16 * i) 2, off := fieldAt bs (0x44 + 16 * i) 4, len := fieldAt bs (0x48 + 16 * i) 4 }

def imageLen (bs : Bytes) : Nat := fieldAt bs 8 4
def sectionCount (bs : Bytes) : Nat := fieldAt bs 0x0C 2
def imageSections (bs : Bytes) : List Section := (List.range (min 8 (sectionCount bs))).map (sectionAt bs)

def sectionOf (bs : Bytes) (typ : Nat) : Option Section := (imageSections bs).find? (·.typ = typ)

/-- A section's content; empty where the image has none. -/
def sectionBytes (bs : Bytes) (typ : Nat) : Bytes :=
  match sectionOf bs typ with
  | some x => sliceOf bs x.off x.len
  | none => []

/-- The record counts of R106 that R110 checks: tasks, weight-set references, stream entries (R503). -/
def sectionCountOk (x : Section) : Bool :=
  match x.typ with
  | 1 => decide (x.len / 64 ≤ 4096)
  | 3 => decide (x.len / 32 ≤ 1024)
  | 4 => decide (x.len / 16 ≤ 65536)
  | _ => true

def sectionInside (bs : Bytes) (x : Section) : Bool := decide (x.off % 64 = 0 ∧ 256 ≤ x.off ∧ x.off + x.len ≤ imageLen bs)

def apart (x y : Section) : Bool := decide (x.off + x.len ≤ y.off ∨ y.off + y.len ≤ x.off)

def sectionsApart : List Section → Bool
  | [] => true
  | x :: t => t.all (apart x) && sectionsApart t

def imageSigned (bs : Bytes) : Bool := bitOf (fieldAt bs 7 1) 0

/-- The third check of R110, which looks at nothing else of the layout: of a repeated TYPE the first entry counts, an unknown one
is passed over (log entry 44). -/
def imageForm (bs : Bytes) : Bool :=
  decide (sliceOf bs 0 4 = [0x4B, 0x47, 0x54, 0x49]) && (imageSections bs).all (sectionInside bs)
    && (imageSections bs).all sectionCountOk && sectionsApart (imageSections bs)
    && (sectionOf bs 1).isSome && (sectionOf bs 2).isSome && decide (imageSigned bs = (sectionOf bs 8).isSome)

/-! ### Digest and signature (R107, R108) -/

def imageDigestOf (bs : Bytes) : Bytes :=
  let body := match sectionOf bs 8 with
    | some x => bs.take x.off ++ bs.drop (x.off + x.len)
    | none => bs
  sha384 (putAt body 0xC0 (zeros 48))

/-- A key hash stands in an integrator slot that counts (R468). -/
def ikeyCounts (f : Fuses) (h : Bytes) : Bool :=
  (List.range 4).any fun k => f.ikeyValid.getD k false && !f.ikeyRevoked.getD k false && decide (f.ikeyHash.getD k [] = h)

def signerHash (bs : Bytes) : Bytes := if imageSigned bs then sha384 ((sectionBytes bs 8).take 97) else []

def imageSignatureOk (s : State) (bs : Bytes) : Bool :=
  let sig := sectionBytes bs 8
  ikeyCounts s.fuses (signerHash bs) && ecdsaVerify (sig.take 97) (sliceOf bs 0xC0 48) (sliceOf sig 0x64 48) (sliceOf sig 0x94 48)

/-! ### Tables (R114, R117, R126, R216, R262) -/

/-- The records of n bytes of a table. -/
def records (n : Nat) (bs : Bytes) : List Bytes := (List.range (bs.length / n)).map fun i => sliceOf bs (n * i) n

def parseTask (r : Bytes) : Task :=
  let f := fieldAt r
  { taskId := f 0 2, safe := decide (f 2 1 = 1), phase := f 3 1, home := f 4 1, twin := f 5 1, thinOk := bitOf (f 6 2) 0,
    stealable := bitOf (f 6 2) 1, listOffset := f 8 4, listLen := f 0x0C 2, listLine := f 0x0E 2, seed := BitVec.ofNat 64 (f 0x10 8),
    reinBudget := f 0x18 4, energyEst := f 0x1C 4, energyPerUnit := f 0x20 4, units := f 0x24 2, minUnits := f 0x26 2,
    wsOffset := f 0x28 4, wsCount := f 0x2C 2, schedIndex := f 0x30 2, schedLine := f 0x32 2, divisor := f 0x34 1 }

def parseFlow (r : Bytes) : FlowCfg :=
  { flowId := fieldAt r 0 2, consTile := fieldAt r 2 1, consCounter := fieldAt r 3 1, itemMax := fieldAt r 4 2,
    consSlots := fieldAt r 6 2, ringOffset := fieldAt r 8 4 }

/-- Schedules follow one another, each with its length in its header. -/
def walkScheds (bs : Bytes) : Nat → Nat → List (Nat × Nat)
  | 0, _ => []
  | n + 1, off =>
    let len := fieldAt bs (off + 4) 4
    if bs.length ≤ off ∨ len = 0 ∨ len % 64 ≠ 0 then [] else (off, len) :: walkScheds bs n (off + len)

def imageTasks (bs : Bytes) : List Task := (records 64 (sectionBytes bs 1)).map parseTask

def imageBase (slot : Nat) : Nat := imageMax * slot

def parseImage (bs : Bytes) (slot : Nat) : Image :=
  let at' := fun typ => imageBase slot + (match sectionOf bs typ with | some x => x.off | none => 0)
  let scheds := sectionBytes bs 5
  { slot := slot, imageId := BitVec.ofNat 64 (fieldAt bs 0x10 8), digest := sliceOf bs 0xC0 48, tasks := imageTasks bs,
    wsets := (records 32 (sectionBytes bs 3)).map fun r => fieldAt r 0 4, flows := (records 16 (sectionBytes bs 6)).map parseFlow,
    tilemap := (records 8 (sectionBytes bs 7)).map fun r => BitVec.ofNat 64 (fieldAt r 0 8), lists := at' 2,
    scheds := (walkScheds scheds (scheds.length / 64) 0).map fun p => (at' 5 + p.1, p.2), wstream := at' 4,
    signed := imageSigned bs, keyHash := signerHash bs }

/-- The reserved fields of the header, the section table and the records. -/
def imageRsvdOk (bs : Bytes) : Bool :=
  decide (fieldAt bs 7 1 < 2) && rsvdZero bs [(0x0E, 2), (0x1C, 36), (0xF0, 16)]
    && (List.range (min 8 (sectionCount bs))).all (fun i => rsvdZero bs [(0x42 + 16 * i, 2), (0x4C + 16 * i, 4)])
    && (records 64 (sectionBytes bs 1)).all (fun r => decide (fieldAt r 6 2 < 4) && rsvdZero r [(0x2E, 2), (0x35, 11)])
    && (records 32 (sectionBytes bs 3)).all (fun r => rsvdZero r [(5, 3), (20, 12)])
    && (records 16 (sectionBytes bs 6)).all (fun r => rsvdZero r [(12, 4)])
    && (records 8 (sectionBytes bs 7)).all (fun r => decide (fieldAt r 0 8 < 2 ^ 46))
    && rsvdZero (sectionBytes bs 8) [(0x61, 3), (0xC4, 60)]

/-! ### Placement (R51, R110) -/

def lostTile (s : State) (t : Nat) : Bool := bitOf (s.plat.spares.getD (t / 16) .reset).lost.toNat (t % 16)

def placeable (s : State) (t : Nat) : Bool := presentTile s t && decide (t ∉ latigoTiles s) && !lostTile s t

def taskPlaced (s : State) (t : Task) : Bool :=
  placeable s t.home && (if t.safe then placeable s t.twin && decide (t.twin / 16 ≠ t.home / 16) else decide (t.twin = 0xFF))

def placementOk (s : State) (l : List Task) : Bool := l.all (taskPlaced s)

/-- TARGET: 0 GL-OX256, 1 GL-OX128. -/
def targetOk (s : State) (target : Nat) : Bool := decide (target = (if s.fuses.part = .ox256 then 0 else 1))

/-- The checks of R110 after the first, in order. -/
def imageStatus (s : State) (bs : Bytes) : Nat :=
  if imageMax < imageLen bs ∨ imageLen bs ≠ bs.length then stImageTooLarge
  else if !imageForm bs then stBadImage
  else if fieldAt bs 4 1 ≠ 2 ∨ 3 < fieldAt bs 5 1 then stImageVersion
  else if imageDigestOf bs ≠ sliceOf bs 0xC0 48 then stBadDigest
  else if imageSigned bs && !imageSignatureOk s bs then stBadSignature
  else if s.fuses.imgSignReq && !imageSigned bs then stSignatureRequired
  else if !targetOk s (fieldAt bs 6 1) || !placementOk s (imageTasks bs) then stBadPlacement
  else stOk

/-! ### Activation (R111, R470) -/

def setStaged (s : State) (x : Staged) : State := { s with load := { s.load with staged := x } }

/-- The active image places work on a lost name: the condition of cause 4 (R324). -/
def workOnLost (s : State) : Bool := (activeTasks s).any fun t => lostTile s t.home || (t.safe && lostTile s t.twin)

/-- Cause 4's condition as it stands now. -/
def recheckLost (s : State) : State :=
  if workOnLost s then { s with safety := { s.safety with present := s.safety.present ||| 16 } } else ceaseCause s 4

/-- What refuses a verified image at activation: fuses blown since, or names lost since. -/
def activationStatus (s : State) (i : Image) : Nat :=
  if i.signed && !ikeyCounts s.fuses i.keyHash then stBadSignature
  else if s.fuses.imgSignReq && !i.signed then stSignatureRequired
  else if !placementOk s i.tasks then stBadPlacement
  else stOk

/-- The active image uses the bank (R126). -/
def bankUsed (s : State) (key : Nat) : Bool := bitOf (bankUse s (key / 64)) (key % 64)

def bankKeys (s : State) : List Nat :=
  ((List.range 256).filter (presentTile s)).flatMap fun t => (List.range 46).map fun b => 64 * t + b

/-- A stored byte or word lies in a bank that goes ON from OFF. -/
def risesAt (s : State) (k : Nat) : Bool :=
  let t := (k - 2 ^ 48) / 2 ^ 20
  let a := k % 2 ^ 20
  let key := 64 * t + bankAt s t a
  decide (2 ^ 48 ≤ k ∧ a < 0xB8000) && decide (bankState s key = 2) && bankUsed s key

/-- At activation an unused bank goes OFF; a used one that was OFF goes ON, zero-filled (R360). -/
def switchBanks (s : State) : State :=
  let next := fun key => if bankUsed s key then (if bankState s key = 2 then 0 else bankState s key) else 2
  { s with
    mem := s.mem.filter fun c => !risesAt s c.1
    plat := { s.plat with
      banks := (bankKeys s).filterMap fun key => if next key = s.plat.bankBase then none else some (key, next key)
      badWords := s.plat.badWords.filter fun k => !risesAt s k
      waking := s.plat.waking.filter fun w => bankUsed s w.1 } }

/-- The image becomes active, its rings reset (R264), its banks switched; or it is discarded and reported. -/
def activateImage (s : State) (i : Image) : State × Nat :=
  let st := activationStatus s i
  let s1 := setStaged s .none
  if st = stOk then (recheckLost (switchBanks (resetRings { s1 with load := { s1.load with active := some i } })), st)
  else (sendEvent s1 0x0001 (toLe 2 st ++ zeros 2), st)

/-- A boundary activates what carries ACTIVATE. -/
def activateDue (s : State) : State :=
  match s.load.staged with
  | .verified i true => (activateImage s i).1
  | _ => s

/-! ### LOAD_TASK_IMAGE (R109, R110, R394, R397) -/

/-- A load begins: a verification in progress is aborted, a staged image replaced. -/
def beginLoad (s : State) : State :=
  match s.load.staged with
  | .verifying _ _ m => reply (setStaged s .loading) m stSuperseded
  | _ => setStaged s .loading

/-- The object is abandoned. -/
def abandonLoad (s : State) : State := if s.load.staged = .loading then setStaged s .none else s

def loadImagePiece (s : State) (m : Msg) : Result :=
  let p := pieceOf m
  let begun := fun t => if p.off = 0 then beginLoad t else t
  if p.obj ≠ 0 then .next (replyBadArg s m 0)
  else if !pieceRsvd m then .fault (.unguarded "R10")
  else match takePiece s m with
    | (t, .refused st) => .next (reply (abandonLoad (begun t)) m st)
    | (t, .kept) => .next (reply (begun t) m stOk)
    | (t, .whole bs) => .next (setStaged (begun t) (.verifying bs (pieceActivate p) m))

/-- SEC verifies no firmware or fuse request: it takes its commands in queue order (R470). -/
def secIdle (s : State) : Bool := s.boot.verifying.isNone

def execLoadTaskImage (s : State) : Result :=
  if secIdle s then withFront s .sec (isOp 0x20) fun m t => loadImagePiece t m else .next s

/-- The slot that the active image does not use (R109). -/
def stagedSlot (s : State) : Nat :=
  match s.load.active with
  | some i => 1 - i.slot
  | none => 0

/-- A verified image stands in the staged slot; with ACTIVATE and no cycle in flight it becomes active at once. -/
def keepImage (s : State) (bs : Bytes) (act : Bool) (m : Msg) : State :=
  let i := parseImage bs (stagedSlot s)
  let s1 := reply (setStaged (devWrite s (imageBase (stagedSlot s)) bs) (.verified i act)) m stOk
  if act && atOnce s then (activateImage s1 i).1 else s1

/-- IMAGE_VERIFY_DONE (R110). -/
def execImageVerifyDone (s : State) : Result :=
  match s.load.staged with
  | .verifying bs act m =>
    if s.boot.inReset || !ownerRuns s .sec then .next s
    else if imageStatus s bs ≠ stOk then .next (reply (setStaged s .none) m (imageStatus s bs))
    else if !imageRsvdOk bs then .fault (.unguarded "R10")
    else if 64 < (sectionBytes bs 6).length / 16 then .fault (.unguarded "R262")
    else .next (keepImage s bs act m)
  | _ => .next s

/-! ### LOAD_WEIGHTS (R118) -/

/-- Every copy whose storage is taken. -/
def weightCopies (s : State) : List WeightSet := s.load.weights ++ s.load.weightsNext

def weightFits (s : State) (len a : Nat) : Bool :=
  decide (weightBase ≤ a ∧ a % 256 = 0 ∧ a + len ≤ gddrEnd s)
    && (weightCopies s).all fun w => decide (a + len ≤ w.addr) || decide (w.addr + w.len ≤ a)

/-- The first boundary at or after an address. -/
def up256 (a : Nat) : Nat := 256 * ceilDiv a 256

/-- A free place, if there is one; which one is the device's own choice: a free value (log entry 45). -/
def weightPlace (s : State) (len : Nat) : Option Nat :=
  let any := weightBase + 256 * Config.freeNat 70 s.disp.freeCtr
  if weightFits s len any then some any
  else (weightBase :: (weightCopies s).map fun w => up256 (w.addr + w.len)).find? (weightFits s len)

/-- The directory stays in WSET_ID order (R471). -/
def weightInsert (w : WeightSet) : List WeightSet → List WeightSet
  | [] => [w]
  | x :: t => if w.wsetId < x.wsetId then w :: x :: t else if w.wsetId = x.wsetId then w :: t else x :: weightInsert w t

def keepWeights (s : State) (m : Msg) (bs : Bytes) : State :=
  match weightPlace s bs.length with
  | none => reply s m stNoSpace
  | some a =>
    let w : WeightSet := { wsetId := (pieceOf m).obj, addr := a, len := bs.length, digest := sha384 bs }
    let s1 := tickFree (devWrite s a bs)
    let s2 := if atOnce s then { s1 with load := { s1.load with weights := weightInsert w s1.load.weights } }
      else { s1 with load := { s1.load with weightsNext := weightInsert w s1.load.weightsNext } }
    reply s2 m stOk

def execLoadWeights (s : State) : Result :=
  if !secIdle s then .next s else withFront s .sec (isOp 0x21) fun m t => pieceRun t m fun u bs => .next (keepWeights u m bs)

/-- The new copies take over at a boundary. -/
def weightsInForce (s : State) : State :=
  { s with load := { s.load with weights := s.load.weightsNext.foldl (fun l w => weightInsert w l) s.load.weights, weightsNext := [] } }

/-! ### PROFILE_SET (R155 to R158) -/

def boxOk (rec : Bytes) (i : Nat) : Bool :=
  let b := sliceOf rec (0x40 + 16 * i) 16
  if i < fieldAt rec 5 1 then decide (fieldAt b 0x0E 1 ≤ (if fieldAt rec 4 1 = 2 then 1 else 0)) && rsvdZero b [(15, 1)] else allZero b

def profileOk (rec : Bytes) : Bool :=
  decide (fieldAt rec 4 1 ≤ 2 ∧ 1 ≤ fieldAt rec 5 1 ∧ fieldAt rec 5 1 ≤ 16 ∧ fieldAt rec 6 1 < 2) && rsvdZero rec [(7, 1), (0x30, 16)]
    && (decide (fieldAt rec 4 1 = 2) || rsvdZero rec [(0x0C, 4)]) && (List.range 16).all (boxOk rec)

/-- A slot receives its record. -/
def writeProfile (s : State) (p : Nat × Bytes) : State := devWrite s (profileBase + 512 * p.1) p.2

def setProfile (s : State) (m : Msg) (slot : Nat) (rec : Bytes) : State :=
  if 7 < slot then replyBadArg s m 0
  else if !profileOk rec then reply s m stBadProfile
  else if atOnce s then reply (writeProfile s (slot, rec)) m stOk
  else reply { s with load := { s.load with
    profilesNext := (s.load.profilesNext.filter fun q => decide (q.1 ≠ slot)) ++ [(slot, rec)] } } m stOk

def execProfileSet (s : State) : Result :=
  withFront s .sch (isOp 0x22) fun m t =>
    if rsvdZero m.payload [(1, 63)] then .next (setProfile t m (fieldAt m.payload 0 1) (sliceOf m.payload 0x40 320))
    else .fault (.unguarded "R10")

/-- The accepted records are written at a boundary. -/
def profilesInForce (s : State) : State :=
  s.load.profilesNext.foldl writeProfile { s with load := { s.load with profilesNext := [] } }

/-! ### CYCLE_CONFIG (R230, R283) -/

def parseConfig (b : Bytes) : CycleParams :=
  { period := fieldAt b 0 4, deadline := fieldAt b 4 4, emitMargin := fieldAt b 8 4, sync := decide (fieldAt b 12 1 = 1),
    recheckAccept := fieldAt b 13 1, minClear := fieldAt b 14 1, profileSlot := fieldAt b 15 1 }

def configOk (b : Bytes) : Bool :=
  let c := parseConfig b
  decide (1000 ≤ c.period ∧ c.period ≤ 100000 ∧ c.period % 10 = 0)
    && decide (500 ≤ c.deadline ∧ 100 * (c.deadline + 50) ≤ (if c.sync then 98 else 100) * c.period)
    && decide (50 ≤ c.emitMargin ∧ c.emitMargin + 200 ≤ c.deadline)
    && decide (fieldAt b 12 1 ≤ 1 ∧ c.recheckAccept ≤ 1 ∧ c.profileSlot ≤ 7)

def setConfig (s : State) (m : Msg) : State :=
  if !configOk m.payload then reply s m stBadConfig
  else
    let c := parseConfig m.payload
    reply (if atOnce s then { s with cyc := { s.cyc with params := c, paramsNext := none } }
      else { s with cyc := { s.cyc with paramsNext := some c } }) m stOk

def execCycleConfig (s : State) : Result :=
  withFront s .sch (isOp 0x23) fun m t =>
    if rsvdZero m.payload [(16, 16)] then .next (setConfig t m) else .fault (.unguarded "R10")

/-- The accepted parameters come into force at a boundary (R230). -/
def paramsInForce (s : State) : State :=
  { s with cyc := { s.cyc with params := s.cyc.paramsNext.getD s.cyc.params, paramsNext := none } }

end Sys2Proof.Machine
end

