-- ==== Sys2Proof/Machine/Firmware.lean ====
section
/-! DEFINITION. Firmware images, fuses, identity (R404, R463 to R471) and the restarts of the processors (R405 to R411). -/

namespace Sys2Proof.Machine

/-! ### Firmware images (R463 to R465) -/

def procOf (s : State) (p : Nat) : Proc := s.procs.getD p .reset
def mapProc (s : State) (p : Nat) (f : Proc → Proc) : State := { s with procs := listUpd s.procs p f }

/-- The part has the GDDR6 channel (R367). -/
def presentChannel (s : State) (c : Nat) : Bool :=
  decide (c < 24) && (decide (s.fuses.part = .ox256) || decide (c < 6 ∨ (12 ≤ c ∧ c < 18)))

def presentProc (s : State) (p : Nat) : Bool := decide (p < 3) || (decide (p < 19) && presentCluster s (p - 3))

def parseFw (bs : Bytes) : FwImage :=
  { num := fieldAt bs 4 1, version := fieldAt bs 6 2, rbLevel := fieldAt bs 8 1, digest := sliceOf bs 0x10 48, code := bs.drop 0x140 }

def fwLimit (num : Nat) : Nat := 320 + (if num = 4 then 0x40000 else 0x18000)

/-- MAGIC, IMAGE_NUM, TARGET and the reserved fields; an RB_LEVEL above 32 fails here (log entry 46). -/
def fwForm (s : State) (bs : Bytes) (obj : Nat) : Bool :=
  decide (sliceOf bs 0 4 = [0x4B, 0x47, 0x46, 0x57] ∧ 320 ≤ bs.length ∧ fieldAt bs 4 1 = obj ∧ obj ≤ 4 ∧ fieldAt bs 8 1 ≤ 32)
    && (targetOk s (fieldAt bs 5 1) || decide (fieldAt bs 5 1 = 255)) && rsvdZero bs [(9, 3), (0xA1, 15), (0x110, 48)]

/-- The image is awaited in the current stage (R463). -/
def fwAwaited (s : State) (num : Nat) : Bool :=
  decide (s.boot.stage = 7) ||
    (decide (num ∉ s.boot.taken) && decide ((s.boot.stage = 2 ∧ num = 0) ∨ (s.boot.stage = 3 ∧ num = 1) ∨ (s.boot.stage = 5 ∧ 2 ≤ num)))

/-- A Kyrigon key that is not revoked. -/
def kyrigonKey (s : State) (h : Bytes) : Bool :=
  (List.range 4).any fun k => !s.fuses.kkeyRevoked.getD k false && decide (Config.romKeyHash k = h)

/-- The signature that firmware images and fuse requests share. -/
def signedHead (bs : Bytes) : Bool := ecdsaVerify (sliceOf bs 0x40 97) (bs.take 0xB0) (sliceOf bs 0xB0 48) (sliceOf bs 0xE0 48)

def headSigner (bs : Bytes) : Bytes := sha384 (sliceOf bs 0x40 97)

/-- The checks of R465 after the first, in order. -/
def fwStatus (s : State) (bs : Bytes) (obj : Nat) : Nat :=
  if fwLimit obj < fieldAt bs 0x0C 4 ∨ fieldAt bs 0x0C 4 ≠ bs.length then stImageTooLarge
  else if !fwForm s bs obj then stBadImage
  else if !fwAwaited s obj then stNotReady
  else if sha384 (bs.drop 0x140) ≠ sliceOf bs 0x10 48 then stBadDigest
  else if !(kyrigonKey s (headSigner bs) && signedHead bs) then stBadSignature
  else if fieldAt bs 8 1 < s.fuses.rbFused.getD obj 0 then stRollback
  else stOk

/-! ### Images becoming active (R404, R463, R466) -/

def fwOf (l : List FwImage) (num : Nat) : Option FwImage := l.find? (·.num = num)
def fwPut (l : List FwImage) (f : FwImage) : List FwImage := f :: l.filter (·.num ≠ f.num)

/-- Anti-rollback fuses are blown up to the image's level. -/
def blowRb (s : State) (f : FwImage) : State :=
  { s with fuses := { s.fuses with rbFused := listUpd s.fuses.rbFused f.num fun c => max c f.rbLevel } }

def activateFw (s : State) (f : FwImage) : State := { s with boot := { s.boot with fwActive := fwPut s.boot.fwActive f } }

/-- A processor acts: SCH and the CCCs with their run bit (R255), PMC with the values of the next window (R267). Its
watchdog starts to count (R406). -/
def runProc (s : State) (p : Nat) : State :=
  let s1 := mapProc s p fun x => { x with state := .running, watchAt := s.ao }
  if p = 1 then pmcResumes s1
  else if p = 2 then { s1 with disp := { s1.disp with schRun := true } }
  else if 3 ≤ p then { s1 with disp := { s1.disp with cccRun := s1.disp.cccRun.set (p - 3) true } }
  else s1

/-- A processor starts at boot. -/
def startProc (s : State) (p : Nat) : State :=
  let f := fwOf s.boot.fwActive (imageOfProc p)
  let v := match f with | some f => f.version | none => 0
  runProc (mapProc s p fun x => { x with version := v, code := f }) p

def setStage (s : State) (n : Nat) : State := { s with boot := { s.boot with stage := n } }

/-- SCH and the CCCs start, and the boot self-test follows. -/
def endWaitRest (s : State) : State := setStage (((List.range 17).filter fun k => presentProc s (k + 2)).foldl (fun t k => startProc t (k + 2)) s) 6

/-- An image taken during boot. -/
def takeBootImage (s : State) (f : FwImage) : State :=
  let s1 := activateFw { s with boot := { s.boot with taken := f.num :: s.boot.taken } } f
  if f.num = 0 then setStage (startProc s1 0) 3
  else if f.num = 1 then setStage (startProc s1 1) 4
  else if 2 ∈ s1.boot.taken ∧ 3 ∈ s1.boot.taken ∧ 4 ∈ s1.boot.taken then endWaitRest s1
  else s1

/-- A verified image after READY: staged in place of an earlier one not yet active. -/
def stageFw (s : State) (f : FwImage) : State :=
  let s1 := if f.num = 3 then { s with procs := s.procs.map fun x => { x with switched := false } } else s
  { s1 with boot := { s1.boot with fwStaged := fwPut s1.boot.fwStaged f } }

/-- Image 4 becomes active on both Latigo tiles at a boundary. -/
def latigoListsDue (s : State) : State :=
  match fwOf s.boot.fwStaged 4 with
  | none => s
  | some f =>
    let s1 := activateFw (blowRb s f) f
    { s1 with boot := { s1.boot with fwStaged := s1.boot.fwStaged.filter (·.num ≠ 4) } }

/-! ### Fuse requests (R468, R469) -/

def fuseObj : Nat := 0x100

def fuseActions (bs : Bytes) : Nat := fieldAt bs 5 1
def fuseSlot (bs : Bytes) : Nat := fieldAt bs 6 1

def fuseForm (bs : Bytes) : Bool :=
  let a := fuseActions bs
  decide (bs.length = 272 ∧ sliceOf bs 0 4 = [0x4B, 0x47, 0x46, 0x52] ∧ fieldAt bs 4 1 = 1 ∧ a < 16)
    && decide (fuseSlot bs < (if bitOf a 2 || bitOf a 3 then 4 else 1)) && rsvdZero bs [(7, 1), (0xA1, 15)]
    && (bitOf a 2 || rsvdZero bs [(0x10, 48)])

def fuseSigned (s : State) (bs : Bytes) : Bool :=
  (kyrigonKey s (headSigner bs) || ikeyCounts s.fuses (headSigner bs)) && signedHead bs

/-- The first argument that fails, by its offset in the request. -/
def fuseArgFails (s : State) (bs : Bytes) : Option Nat :=
  let a := fuseActions bs
  let valid := s.fuses.ikeyValid.getD (fuseSlot bs) false
  if a = 0 ∨ (bitOf a 2 ∧ ¬kyrigonKey s (headSigner bs)) then some 5
  else if (bitOf a 2 ∧ valid) ∨ (bitOf a 3 ∧ ¬valid) then some 6
  else if sliceOf bs 8 8 ≠ deviceIdBytes then some 8
  else none

def blowFuses (f : Fuses) (bs : Bytes) : Fuses :=
  let a := fuseActions bs
  let k := fuseSlot bs
  { f with
    fieldLock := f.fieldLock || bitOf a 0, imgSignReq := f.imgSignReq || bitOf a 1,
    ikeyHash := if bitOf a 2 then f.ikeyHash.set k (sliceOf bs 0x10 48) else f.ikeyHash,
    ikeyValid := if bitOf a 2 then f.ikeyValid.set k true else f.ikeyValid,
    ikeyRevoked := if bitOf a 3 then f.ikeyRevoked.set k true else f.ikeyRevoked }

def runFuses (s : State) (bs : Bytes) (m : Msg) : State :=
  if !fuseForm bs then reply s m stBadImage
  else if !fuseSigned s bs then reply s m stBadSignature
  else match fuseArgFails s bs with
    | some off => replyBadArg s m (16 + off - (pieceOf m).off)
    | none => reply { s with fuses := blowFuses s.fuses bs } m stOk

/-! ### LOAD_FIRMWARE, FUSE_REQUEST, FW_VERIFY_DONE -/

/-- No verification of any kind is in progress. -/
def secFree (s : State) : Bool :=
  secIdle s && (match s.load.staged with | .verifying _ _ _ => false | _ => true)

/-- A piece of a SEC object; the whole object goes to verification. -/
def secPiece (s : State) (isIt : Msg → Bool) : Result :=
  if !secFree s then .next s
  else withFront s .sec (fun m => isOp 0x10 m && isIt m) fun m t =>
    pieceRun t m fun u bs => .next { u with boot := { u.boot with verifying := some (bs, (pieceOf m).obj, m) } }

def execLoadFirmware (s : State) : Result := secPiece s fun m => decide ((pieceOf m).obj ≠ fuseObj)
def execFuseRequest (s : State) : Result := secPiece s fun m => decide ((pieceOf m).obj = fuseObj)

/-- A verification ends. -/
def verifyFw (s : State) (bs : Bytes) (obj : Nat) (m : Msg) : State :=
  if obj = fuseObj then runFuses s bs m
  else if fwStatus s bs obj ≠ stOk then reply s m (fwStatus s bs obj)
  else reply (if s.boot.stage = 7 then stageFw s (parseFw bs) else takeBootImage s (parseFw bs)) m stOk

def execFwVerifyDone (s : State) : Result :=
  match s.boot.verifying with
  | none => .next s
  | some v => onlyIf s (ownerRuns s .sec) (verifyFw { s with boot := { s.boot with verifying := none } } v.1 v.2.1 v.2.2)

/-! ### ATTEST (R471) -/

/-- The report's signed part. -/
def attestBody (s : State) (nonce : Bytes) : Bytes :=
  let act := fun k => fwOf s.boot.fwActive k
  let five := List.range 5
  ([0x4B, 0x41, 0x54, 0x54, 1] : Bytes) ++ toLe 1 (devCode s.cyc.dev) ++ toLe 2 (fuseFlags s % 65536) ++ deviceIdBytes ++ nonce
    ++ toLe 4 (if s.cyc.seqRun then s.cyc.seq.toNat else 0) ++ toLe 4 s.plat.mapEpoch.toNat
    ++ (five.map fun k => toLe 2 (match act k with | some f => f.version | none => 0)).flatten
    ++ (five.map fun k => toLe 1 (s.fuses.rbFused.getD k 0)).flatten ++ [Config.romVersion] ++ zeros 8
    ++ (five.map fun k => match act k with | some f => padTo 48 f.digest | none => zeros 48).flatten ++ imageDigest s
    ++ sha384 (s.load.weights.map weightDirEntry).flatten ++ padTo 97 Config.identityPub ++ zeros 15 ++ s.cyc.lastResult

def execAttest (s : State) : Result :=
  if !secFree s then .next s
  else withFront s .sec (isOp 0x12) fun m t =>
    if rsvdZero m.payload [(48, 16)] then
      let body := attestBody t (m.payload.take 48)
      .next (replyData t m (body ++ padTo 96 (Config.attestSign body)))
    else .fault (.unguarded "R10")

/-! ### Crash restart (R406 to R408) -/

def msSpan (n : Nat) : Nat := 100000 * n

/-- The queue a processor owns. -/
def queueOwner (p : Nat) : Option Owner := if p = 0 then some .sec else if p = 1 then some .pmc else if p = 2 then some .sch else none

/-- Everything left in an owner's queue is answered PROC_RESTARTED (R393). -/
def answerQueue (s : State) (o : Owner) : State :=
  setOwnerQueue ((ownerQueue s o).foldl (fun t m => reply t m stProcRestarted) s) o []

/-- Objects in reassembly of an owner are abandoned (log entry 47). -/
def dropPieces (s : State) (o : Owner) : State :=
  { s with host := { s.host with pieces := s.host.pieces.filter fun x => decide (opcodeOwner x.opcode.toNat ≠ some o) } }

/-- SEC's verification in progress is abandoned and answered (R410). -/
def abandonVerify (s : State) : State :=
  let s1 := match s.boot.verifying with
    | some v => reply { s with boot := { s.boot with verifying := none } } v.2.2 stProcRestarted
    | none => s
  match s1.load.staged with
  | .verifying _ _ m => reply (setStaged s1 .none) m stProcRestarted
  | .loading => setStaged s1 .none
  | _ => s1

def replyIf (s : State) (m : Option Msg) (st : Nat) : State :=
  match m with
  | some x => reply s x st
  | none => s

/-- The START, STOP and PAUSE that SCH has begun are answered PROC_RESTARTED and take no effect (R393): the run of a
START whose first cycle has not begun ends (log entry 47). -/
def dropBegun (s : State) : State :=
  let s1 := if s.cyc.startMsg.isSome then stopNow s else s
  let s2 := { s1 with cyc := { s1.cyc with startMsg := none, stopMsg := none, pauseMsg := none }
                      rep := s1.rep.map fun r => { r with stopReq := false } }
  replyIf (replyIf (replyIf s2 s.cyc.startMsg stProcRestarted) s.cyc.stopMsg stProcRestarted) s.cyc.pauseMsg stProcRestarted

/-- What a processor's loss abandons (R255, R267, R393, R410). -/
def loseProc (s : State) (p : Nat) : State :=
  let s1 := match queueOwner p with
    | some o => dropPieces (answerQueue s o) o
    | none => s
  if p = 0 then abandonVerify s1
  else if p = 1 then { s1 with disp := { s1.disp with next := none } }
  else if p = 2 then dropBegun { s1 with disp := { s1.disp with schRun := false } }
  else { s1 with disp := { s1.disp with cccRun := s1.disp.cccRun.set (p - 3) false } }

/-- PROC_RESTART is logged and sent (R407). -/
def reportRestart (s : State) (p cause : Nat) : State :=
  let data := toLe 1 p ++ toLe 1 cause
  sendEvent (logNow s (Config.logCode lcProcRestart) p data) 0x000E data

/-- Crash restarts within the last second. -/
def recentCrashes (s : State) (p : Nat) : List Nat := (procOf s p).crashAts.filter fun t => decide (s.ao < t + msSpan 1000)

/-- Steps 1 and 2 of R407, with the firmware memory that step 3 zero-fills; after four restarts within a second the
processor is not restarted again (R408). -/
def crashRestart (s : State) (p cause : Nat) (keepMsg : Option Msg) : State :=
  let recent := recentCrashes s p
  let halt := decide (4 ≤ recent.length)
  let s1 := mapProc s p fun x =>
    { x with state := if halt then .halted else .restarting, lastCause := cause, failedOnce := false, warmBegun := false, warmMsg := keepMsg,
             code := none, data := none, crashAts := if halt then recent else s.ao :: recent, restarts := if halt then x.restarts else min 255 (x.restarts + 1) }
  loseProc (reportRestart s1 p cause) p

/-- The processor may crash: it has started and is not HALTED (R406, R408); a crash during a restart begins it anew. -/
def canCrash (s : State) (p : Nat) : Bool :=
  let st := (procOf s p).state
  presentProc s p && decide (st ≠ .boot ∧ st ≠ .halted)

/-- A crash; a planned restart asked for is answered PROC_RESTARTED (R411, log entry 47). -/
def crash (s : State) (p cause : Nat) : State :=
  let s1 := match (procOf s p).warmMsg with
    | some m => reply s m stProcRestarted
    | none => s
  crashRestart s1 p cause none

/-- The watchdog's period in AO cycles (R406). -/
def watchdogSpan (p : Nat) : Nat := if p = 0 then msSpan 4 else if p = 1 then msSpan 1 else 20000

/-- The watchdog can have run out: its period has passed since the processor began to run (log entry 47). -/
def watchdogDue (s : State) (p : Nat) : Bool := decide ((procOf s p).watchAt + watchdogSpan p ≤ s.ao)

def execWatchdogExpiry (proc : Nat) (s : State) : Result := onlyIf s (canCrash s proc && watchdogDue s proc) (crash s proc 1)

/-- The address within the memory is not given with the event: a free value (log entry 9). -/
def fwMemError (s : State) (p : Nat) : State :=
  raiseOpenFault (eccReport s 3 (560 + p) (Config.freeNat 71 s.disp.freeCtr)) (fsProc p) fFwMemEcc

/-- FW_MEM_ECC: the fault is raised, and a processor that has started restarts (R363, R406). -/
def execFwMemEcc (proc : Nat) (s : State) : Result :=
  onlyIf s (presentProc s proc) (let s1 := fwMemError s proc; if canCrash s proc then crash s1 proc 2 else s1)

def execInternalFatalException (proc : Nat) (s : State) : Result := onlyIf s (canCrash s proc) (crash s proc 3)

/-- The code a processor runs, as the firmware store keeps it (R404): a CCC that has switched runs the staged image 3. -/
def storedCode (s : State) (p : Nat) : Option FwImage :=
  fwOf (if (procOf s p).switched then s.boot.fwStaged else s.boot.fwActive) (imageOfProc p)

/-- The processor runs again: PMC and SEC act at once, SCH and the CCCs rejoin at a boundary; with no cycle in
flight they rejoin at once (R407 steps 4 and 5, log entry 47). -/
def reloaded (s : State) (p : Nat) : State :=
  let s1 := mapProc s p fun x => { x with state := .rejoinWait, failedOnce := false, warmMsg := none, code := storedCode s p, watchAt := s.ao }
  let s2 := match (procOf s p).warmMsg with
    | some m => reply s1 m stOk
    | none => s1
  if decide (2 ≤ p) && !atOnce s then s2 else runProc s2 p

/-- The reloaded code failed its digest: the restart is repeated once with cause RELOAD_FAIL, then HALTED (R406, R407). -/
def reloadFailed (s : State) (p : Nat) : State :=
  if (procOf s p).failedOnce then
    let s1 := mapProc s p fun x => { x with state := .halted, lastCause := 5, failedOnce := false, warmMsg := none }
    match (procOf s p).warmMsg with
    | some m => reply s1 m stProcRestarted
    | none => s1
  else mapProc (crashRestart s p 5 (procOf s p).warmMsg) p fun x => { x with failedOnce := true }

/-- FW_RELOAD_DONE: step 3 of R407 ends. -/
def execFwReloadDone (proc : Nat) (digestOk : Bool) (s : State) : Result :=
  onlyIf s (decide ((procOf s proc).state = .restarting) && !(procOf s proc).warmBegun)
    (if digestOk then reloaded s proc else reloadFailed s proc)

/-- Processors that wait for the boundary rejoin (R407 step 5). -/
def rejoinAll (s : State) : State := ((List.range 19).filter fun p => decide ((procOf s p).state = .rejoinWait)).foldl runProc s

/-! ### Planned restart (R405, R411) -/

def askRestart (s : State) (m : Msg) (p : Nat) : State :=
  match (procOf s p).state with
  | .boot => reply s m stNotReady
  | .halted => crashRestart (mapProc s p fun x => { x with crashAts := [] }) p 4 (some m)
  | .running => mapProc s p fun x => { x with state := .warmPending, warmMsg := some m }
  | _ => reply s m stProcRestarted

def execRestartProcessor (s : State) : Result :=
  withFront s .router (isOp 0x11) fun m t =>
    let p := fieldAt m.payload 0 1
    if !rsvdZero m.payload [(1, 15)] then .fault (.unguarded "R10")
    else if presentProc t p then .next (askRestart t m p) else .next (replyBadArg t m 0)

/-- The owner queue is empty and no command of it is begun. -/
def queueDone (s : State) (p : Nat) : Bool :=
  (match queueOwner p with | some o => decide (ownerQueue s o = []) | none => true) && (decide (p ≠ 0) || secFree s)
    && (decide (p ≠ 2) || (s.cyc.startMsg.isNone && s.cyc.stopMsg.isNone && s.cyc.pauseMsg.isNone))

/-- The moment at which a planned restart may begin (R405): PMC's as a ledger window is due to start, SCH's and a CCC's
in the AO cycle of a boundary. -/
def restartMoment (s : State) (p : Nat) : Bool :=
  atOnce s || decide (p = 0) || (decide (p = 1) && decide (s.disp.windowAt + 10000 ≤ s.ao))
    || (decide (2 ≤ p) && !s.cyc.inCycle && decide (s.cyc.boundaryAt = some s.ao))

/-- PLANNED_RESTART_BEGIN (R405): the processor's state goes to its data memory; PMC's window repeats the values of
the one before. -/
def execPlannedRestartBegin (proc : Nat) (s : State) : Result :=
  let s1 := tickFree (mapProc s proc fun x =>
    { x with state := .restarting, warmBegun := true, lastCause := 4, data := some s.disp.freeCtr })
  onlyIf s (decide ((procOf s proc).state = .warmPending) && queueDone s proc && restartMoment s proc)
    (if proc = 1 then { s1 with disp := { s1.disp with next := none } } else s1)

/-- The processor runs its staged code if there is any; image 3 stays staged, and the old one active for the others,
until every CCC runs it (R404). -/
def switchCode (s : State) (p : Nat) : State :=
  match fwOf s.boot.fwStaged (imageOfProc p) with
  | none => s
  | some f =>
    if (procOf s p).switched then s
    else
      let s1 := mapProc (blowRb s f) p fun x => { x with version := f.version, code := some f, switched := decide (3 ≤ p) }
      let all := decide (p < 3) || ((List.range 16).filter (presentCluster s)).all fun c => (procOf s1 (c + 3)).switched
      if all then
        let s2 := activateFw s1 f
        { s2 with boot := { s2.boot with fwStaged := s2.boot.fwStaged.filter (·.num ≠ f.num) }
                  procs := if p < 3 then s2.procs else s2.procs.map fun x => { x with switched := false } }
      else s1

/-- PLANNED_RESTART_DONE: the reply follows. -/
def execPlannedRestartDone (proc : Nat) (s : State) : Result :=
  let s1 := switchCode (mapProc s proc fun x => { x with state := .running, warmBegun := false, warmMsg := none, watchAt := s.ao }) proc
  onlyIf s (procOf s proc).warmBegun (replyIf (if proc = 1 then pmcResumes s1 else s1) (procOf s proc).warmMsg stOk)

end Sys2Proof.Machine
end

