-- ==== Sys2Proof/Machine/Checkpoint.lean ====
section
/-! DEFINITION. Checkpoints (R288, R289): what SAVE writes, what a restore checks and brings back. -/

namespace Sys2Proof.Machine

def ckptMax : Nat := 0x6000000

/-! ### The world tree as batches (R139, R288) -/

def batchHead (kind ops stamp : Nat) (origin : List Int) : Bytes :=
  toLe 1 kind ++ [0] ++ toLe 2 0xFFFF ++ toLe 4 ops ++ toLe 8 stamp ++ zeros 4 ++ (origin.map fun x => toLe 4 (ofSigned 32 x)).flatten

def batchBytes (kind stamp : Nat) (ops : List Bytes) : Bytes := batchHead kind ops.length stamp [0, 0, 0] ++ ops.flatten

/-- GEOMETRY batches of at most 65,536 operations. -/
def geometryBatches : Nat → List Bytes → Bytes
  | 0, _ => []
  | n + 1, ops => if ops = [] then [] else batchBytes 0 0 (ops.take 65536) ++ geometryBatches n (ops.drop 65536)

/-- RESET, content, time layers, hints: a time layer may make the node that a hint names (log entry 49). -/
def treeBatches (s : State) (e : Epoch) : Bytes :=
  let n := loadTree s e
  let many := fun ops : List Bytes => geometryBatches (ceilDiv ops.length 65536) ops
  batchHead 2 0 0 e.origin ++ many (contentOps 9 (0, 0, 0) n) ++ batchBytes 1 e.t0 (layerOps 9 (0, 0, 0) n)
    ++ many (hintOps 9 (0, 0, 0) n)

/-! ### The checkpoint (R288) -/

/-- A section: length, then content; each starts on a 64-byte boundary. -/
def ckptSection (content : Bytes) : Bytes := padMul 64 (toLe 8 content.length ++ content)

def ckptSections (s : State) : Bytes :=
  ckptSection (configBytes s.cyc.params) ++ ckptSection (profilesBytes s) ++ ckptSection (devRead s incumbentBase 2048)
    ++ ckptSection (devRead s flowBase 0x1000000) ++ ckptSection (devRead s persistBase 0x3000000)
    ++ ckptSection (treeBatches s (newestEpoch s))

/-- The header with CKPT_DIGEST zero. -/
def ckptHeader (s : State) (len : Nat) : Bytes :=
  ([0x43, 0x4B, 0x50, 0x54, 1] : Bytes) ++ toLe 1 (boolNat s.cyc.tack) ++ zeros 2 ++ toLe 4 s.cyc.seq.toNat ++ toLe 4 len
    ++ toLe 4 s.world.newest ++ toLe 1 s.safety.missRun ++ zeros 3 ++ toLe 8 s.safety.mismatchMask.toNat ++ imageDigest s ++ wsetDigest s
    ++ newestChain s ++ zeros 48 ++ s.cyc.prevDigest ++ toLe 4 s.lat.fallbackT ++ zeros 44

def ckptBytes (s : State) : Bytes :=
  let body := ckptSections s
  let head := ckptHeader s (320 + body.length)
  putAt head 0xB0 (sha384 (head ++ body)) ++ body

/-! ### Reading one back (R289) -/

/-- The sections from an offset on, n of them; none where one does not fit. -/
def readSections (bs : Bytes) : Nat → Nat → Option (List Bytes)
  | 0, _ => some []
  | n + 1, off =>
    let len := fieldAt bs off 8
    if off + 8 + len ≤ bs.length then (readSections bs n (64 * ceilDiv (off + 8 + len) 64)).map fun t => sliceOf bs (off + 8) len :: t
    else none

/-- The batches of the tree section, one after another. -/
def splitBatches (bs : Bytes) : Nat → Nat → List Bytes
  | 0, _ => []
  | n + 1, off =>
    if bs.length ≤ off then []
    else
      let len := 32 + 16 * fieldAt bs (off + 4) 4
      sliceOf bs off len :: splitBatches bs n (off + len)

def treeSection (bs : Bytes) : List Bytes := splitBatches bs (bs.length / 32) 0

/-- A RESET batch first, then batches that R140 accepts. -/
def treeOk (l : List Bytes) : Bool :=
  match l with
  | [] => false
  | b :: t => decide (batchKind b = 2) && batchOk b && t.all fun x => decide (batchKind x ≠ 2) && batchOk x

/-- The tree the batches rebuild. -/
def treeFrom (l : List Bytes) : WNode := l.foldl applyBatchTo (openNode 3)

/-- The checkpoint standing in the checkpoint area. -/
def ckptStored (s : State) : Bytes :=
  let len := fieldAt (devRead s ckptBase 16) 12 4
  if 320 ≤ len ∧ len ≤ ckptMax then devRead s ckptBase len else []

/-- A checkpoint's sections, where its form and its tree are sound. -/
def ckptParts (bs : Bytes) : Option (List Bytes) :=
  if sliceOf bs 0 5 = [0x43, 0x4B, 0x50, 0x54, 1] then
    (readSections bs 6 320).filter fun l =>
      decide ((l.getD 0 []).length = 32 ∧ (l.getD 1 []).length = 2560 ∧ (l.getD 2 []).length = 2048) && configOk (l.getD 0 [])
        && treeOk (treeSection (l.getD 5 []))
  else none

def ckptDigestOk (bs : Bytes) : Bool := decide (sha384 (putAt bs 0xB0 (zeros 48)) = sliceOf bs 0xB0 48)

/-- The checks of R289. -/
def ckptStatus (s : State) (bs : Bytes) : Nat :=
  if !ckptDigestOk bs || (ckptParts bs).isNone then stBadCheckpoint
  else if s.load.active.isNone || decide (sliceOf bs 0x20 48 ≠ imageDigest s) then stResumeMismatch
  else if sliceOf bs 0x50 48 ≠ wsetDigest s then stResumeMismatch
  else stOk

/-- Held host batches; what the old run's tasks still had waiting goes with them (log entry 49). -/
def heldBatches (s : State) : Nat := (s.world.hostQ.filter (·.held)).length + (s.world.staged.filter fun b => b.held && b.host).length

/-- The rebuilt tree is the newest epoch, alone in the table; none where it does not fit. -/
def restoreTree (s : State) (bs : Bytes) (tree : List Bytes) : Option State :=
  let num := fieldAt bs 0x10 4
  let chain := sliceOf bs 0x80 48
  let s1 := { s with world := { s.world with table := [], nextSlot := 0, freed := [], hostQ := [], taskQ := [], staged := [], built := none,
                                             chains := [], cached := [], filling := [] } }
  match storeTree s1 (treeFrom tree) with
  | none => none
  | some (n, root, f, l) =>
    let s2 := writeSlots s1 f l
    let e : Epoch :=
      { num := num, root := root, origin := batchOrigin (tree.getD 0 []),
        t0 := tree.foldl (fun t b => if batchKind b = 1 then batchStamp b else t) 0, chain := chain, holds := 0, superseded := [],
        tl := decide (tliOf n ≠ 0) }
    some { s2 with world := { s2.world with newest := num, table := [(0, e)], chains := [(num, chain)] } }

/-- The sections and the header's values come into force; the Latigo state area is zeroed (R317). -/
def restoreRest (s : State) (bs : Bytes) (l : List Bytes) : State :=
  let at' := fun i => l.getD i []
  let s1 := (List.range 8).foldl (fun t i => devWrite t (profileBase + 512 * i) (sliceOf (at' 1) (320 * i) 320)) s
  let s2 := devWrite (devWrite (devWrite (devWrite s1 incumbentBase (at' 2)) latigoStateBase (zeros 64)) flowBase (at' 3)) persistBase (at' 4)
  takeUpRings { s2 with
    load := { s2.load with profilesNext := [] }
    cyc := { s2.cyc with
      tack := decide (fieldAt bs 5 1 = 1), seq := BitVec.ofNat 32 (fieldAt bs 8 4), seqRun := true, params := parseConfig (at' 0),
      paramsNext := none, prevDigest := sliceOf bs 0xE0 48, facts := [] }
    lat := { s2.lat with fallbackT := fieldAt bs 0x110 4, incumbentAge := fieldAt (at' 2) 12 4, prevTraj := [], usedStamp := 0 }
    safety := { s2.safety with missRun := fieldAt bs 0x14 1, mismatchMask := BitVec.ofNat 64 (fieldAt bs 0x18 8), mismatchNow := 0,
                               counted := [] } }

/-- A restore: the status, and the state it leaves where that is OK. -/
def restoreCkpt (s : State) : Nat × State :=
  let bs := ckptStored s
  if ckptStatus s bs ≠ stOk then (ckptStatus s bs, s)
  else match ckptParts bs with
    | none => (stBadCheckpoint, s)
    | some l => match restoreTree s bs (treeSection (l.getD 5 [])) with
      | none => (stBadCheckpoint, s)
      | some t => (stOk, restoreRest t bs l)

end Sys2Proof.Machine
end

