-- ==== Sys2Proof/Machine/FieldPort.lean ====
section
/-! DEFINITION. The field port's lines and its stop input (R442 to R446). -/

namespace Sys2Proof.Machine

def stopEn (s : State) : Bool := decide (2 ^ 31 ≤ regNat s offFpCfg)

/-- Effective STOP becomes active: counted, and the cause STOP_INPUT decided (R446). -/
def stopBecomesEffective (s : State) : State := enterSafe (bumpReg s offStopEvents) 128

/-- A write of STOP_EN, accepted only while STOPPED (R446, R451). -/
def stopEnWrite (s : State) (v : Word) : Attempt :=
  if s.cyc.dev ≠ .stopped then .ok s
  else if v.toNat % 2 ^ 31 ≠ 0 then .error "R10"
  else
    let s1 := setReg s offFpCfg v
    if bitOf v.toNat 31 then .ok (if s.outp.stopFilt && !stopEn s then stopBecomesEffective s1 else s1)
    else .ok (ceaseCause s1 7)

/-- STOP_EN_WRITE (R446). -/
def execStopEnWrite (v : Word) (s : State) : Result :=
  if s.boot.inReset || !s.host.linkUp then .next s else ofAttempt (stopEnWrite s v)

/-- STOP_INPUT_ACTIVE (R446): a sample makes filtered STOP active, whatever STOP_EN holds. -/
def execStopInputActive (s : State) : Result :=
  let s1 := { s with outp := { s.outp with stopFilt := true, stopRaw := true } }
  onlyIf s (!s.outp.stopFilt) (if stopEn s then stopBecomesEffective s1 else s1)

/-- STOP_INPUT_INACTIVE (R446): 200 samples in a row were high. -/
def execStopInputInactive (s : State) : Result :=
  onlyIf s s.outp.stopFilt (ceaseCause { s with outp := { s.outp with stopFilt := false, stopRaw := false } } 7)

/-- FP_TOGGLE (R443): both valid lines change level every 50,000 AO cycles. -/
def execFpToggle (s : State) : Result :=
  onlyIf s (s.outp.toggling && decide (s.outp.toggleAt + 50000 ≤ s.ao))
    { s with outp := { s.outp with validA := !s.outp.validA, validB := !s.outp.validB,
                                   toggleAt := s.outp.toggleAt + 50000 } }

/-- FP_READBACK (R445): four comparisons of one line in a row mismatched. -/
def execFpReadback (line : Nat) (s : State) : Result :=
  onlyIf s (decide (line < 3))
    (raiseOpenFault { s with outp := { s.outp with readbackBad := true } } fsFieldPort fFpReadback)

end Sys2Proof.Machine
end

