-- ==== Sys2Proof/Machine/Sweep.lean ====
section
/-! DEFINITION. SWEEP on the Awl's lanes: the queue of pairs (R183), STOP_AT_HIT (R184), the cut (R185), start
reports (R304), the epoch read (R146, R238, R277, R291), the world cache (R44 to R46). -/

namespace Sys2Proof.Machine

/-! ### Fields (R98) -/

def swCand (d : Bytes) : Tref := dTref d 0x10
def swOut (d : Bytes) : Tref := dTref d 0x18
def swProfileLine (d : Bytes) : Nat := fieldAt d 0x20 4
def swNewest (d : Bytes) : Bool := decide (fieldAt d 0x24 1 = 1)
def swMask (d : Bytes) : Nat := fieldAt d 0x25 1
def swThr (d : Bytes) : Nat := fieldAt d 0x26 1
def swStop (d : Bytes) : Bool := decide (fieldAt d 0x27 1 = 1)
def swNcand (d : Bytes) : Nat := fieldAt d 0x28 2

def swRecord (s : State) (tile : Nat) (d : Bytes) (c : Nat) : Bytes := readRowBytes s tile fmtByte (swCand d) c
def swProfile (s : State) (tile : Nat) (d : Bytes) : Bytes := tileRead s tile (64 * swProfileLine d) 320

def sweepOk (s : State) (i : Inst) (d : Bytes) : Bool :=
  noFormats d && trefOk fmtByte (swCand d) && trefOk fmtByte (swOut d)
    && decide (swProfileLine d + 5 ≤ 0x3000 ∧ fieldAt d 0x24 1 ≤ 1 ∧ swThr d ≤ 15 ∧ fieldAt d 0x27 1 ≤ 1 ∧ 1 ≤ swNcand d)
    && decide (swNcand d ≤ (swCand d).rows ∧ swNcand d ≤ (swOut d).rows) && allZero (d.drop 0x2A)
    && (List.range (swNcand d)).all fun c =>
      let n := fieldAt (swRecord s i.tile d c) 4 1
      decide (1 ≤ n ∧ n ≤ 32 ∧ 64 + 32 * n ≤ (swCand d).cols ∧ 16 + 8 * n ≤ (swOut d).cols)

/-! ### The tree it reads (R135, R137) -/

/-- A node read at a cluster's bank; none where the slot holds an uncorrectable error (R137). -/
def bankWord (s : State) (cluster slot : Nat) : Option Nat :=
  if (cluster, slot) ∈ s.world.badSlots then none else some (leNat (devRead s (bankBase + 8 * slot) 8))

def treeOf (s : State) (cluster epoch : Nat) : Tree :=
  match epochOf s epoch with
  | some e => { root := e.root, origin := e.origin, t0 := e.t0, word := bankWord s cluster }
  | none => { root := 0, origin := [0, 0, 0], t0 := 0, word := fun _ => none }

/-- A pair's verdict as the tree now reads. -/
def pairVerdict (s : State) (i : Inst) (d : Bytes) (epoch c k : Nat) : Verdict :=
  sweepSegment (treeOf s (i.tile / 16) epoch) (swProfile s i.tile d) (swRecord s i.tile d c) k (swMask d) (swThr d)

/-- The world-cache lines a pair looks up (R44). -/
def pairLines (s : State) (i : Inst) (d : Bytes) (epoch c k : Nat) : List Nat :=
  sortNat ((pairVerdict s i d epoch c k).slots.map (· / 8))

/-- Lines present are read, their corrections counted (R46); lines that miss are asked of the world bank. -/
def askLines (s0 : State) (tile : Nat) (lines : List Nat) : State :=
  let miss := lines.filter fun l => decide ((tile, l) ∉ s0.world.cached ∧ (tile, l) ∉ s0.world.filling)
  let s := lines.foldl (fun t l => correctRead t (cacheKey tile l) 64) s0
  { s with world := { s.world with filling := s.world.filling ++ miss.map fun l => (tile, l) } }

/-! ### Writing rows -/

def putRecord (s : State) (tile : Nat) (d : Bytes) (c k : Nat) (bs : Bytes) : State :=
  tileWrite s tile (rowAddr (swOut d) c + 16 + 8 * k) bs

/-- The header of a candidate whose last pair has resolved, from the records written; the row's last line is
padded (R56). -/
def putHeader (s : State) (tile : Nat) (d : Bytes) (epoch c : Nat) : State :=
  let cand := swRecord s tile d c
  let n := fieldAt cand 4 1
  let recs := (List.range n).map fun k => tileRead s tile (rowAddr (swOut d) c + 16 + 8 * k) 8
  tileWrite s tile (rowAddr (swOut d) c) (padMul 64 (headerBytes cand recs (swNewest d) epoch ++ recs.flatten))

/-- The candidates that have not been started. -/
def notStarted (w : SweepRun) : List Nat := (w.pairs.filter fun p => decide (p.2 = 0)).map (·.1)

/-- CHECK-phase counts, HOME copies only (R248). -/
def countSweep (s : State) (i : Inst) (f : CycleCounts → CycleCounts) : State :=
  if i.task.phase = 4 ∧ ¬(i.task.safe ∧ i.copy = 1) then { s with cyc := { s.cyc with counts := f s.cyc.counts } } else s

/-! ### The cut (R185) -/

/-- The SWEEP receives the cut: every candidate not started gets its row; the SWEEP_CUT entry (R280). -/
def takeCut (s : State) (i : Inst) (d : Bytes) (w : SweepRun) : State × SweepRun :=
  let left := notStarted w
  let s1 := left.foldl (fun t c =>
    tileWrite t i.tile (rowAddr (swOut d) c) (padMul 64 (uncheckedRow (swRecord t i.tile d c) (swNewest d) w.epoch))) s
  let s2 := countSweep s1 i fun n => { n with candCut := n.candCut + left.length }
  (addFact s2 { kind := 4, copy := i.copy, taskId := i.task.taskId, batch := i.batch, desc := w.index, valA := w.started, valB := swNcand d },
   { w with pairs := w.pairs.filter (fun p => decide (p.1 ∉ left)), waiting := false, cutTaken := true })

/-- In replay, the count at which the SWEEP receives the cut (R291). -/
def forcedSweepCut (s : State) (i : Inst) (idx : Nat) : Option Nat :=
  ((forced s 4).find? fun f => decide (f.taskId = i.task.taskId ∧ f.copy = i.copy ∧ f.batch = i.batch ∧ f.desc = idx)).map (·.valA)

/-- The cut is due for the SWEEP now: the recorded count in replay, else the cut of a PLAIN instance (a SAFE
copy takes it with its refused report, R304). -/
def cutDueNow (s : State) (i : Inst) (w : SweepRun) : Bool :=
  !w.cutTaken && (if inReplay s then decide (forcedSweepCut s i w.index = some w.started) else cutsSweeps i && !i.task.safe)

/-! ### Lanes (R183, R184) -/

/-- The lowest HIT found in a candidate. -/
def hitOf (w : SweepRun) (c : Nat) : Option Nat := (w.hits.find? (·.1 = c)).map (·.2)

/-- A segment above the candidate's lowest HIT. -/
def aboveHit (d : Bytes) (w : SweepRun) (c k : Nat) : Bool :=
  swStop d && (match hitOf w c with | some h => decide (h < k) | none => false)

/-- A lane takes a pair. -/
def takePair (s : State) (i : Inst) (d : Bytes) (w : SweepRun) (c k : Nat) (rest : List (Nat × Nat)) : State × SweepRun :=
  let s1 := askLines s i.tile (pairLines s i d w.epoch c k)
  let w1 := { w with pairs := rest, taken := w.taken ++ [(c, k)] }
  if k = 0 then (countSweep s1 i fun n => { n with candChecked := n.candChecked + 1 },
                 { w1 with started := w.started + 1, opened := w.opened ++ [c] })
  else (s1, w1)

/-- Free lanes take pairs in order; n bounds the pairs looked at. -/
def fillLanes (i : Inst) (d : Bytes) : Nat → State → SweepRun → State × SweepRun
  | 0, s, w => (s, w)
  | n + 1, s, w =>
    if cutDueNow s i w then
      let r := takeCut s i d w
      fillLanes i d n r.1 r.2
    else match w.pairs with
      | [] => (s, w)
      | (c, k) :: rest =>
        if 0 < k ∧ aboveHit d w c k then fillLanes i d n (putRecord s i.tile d c k skippedBytes) { w with pairs := rest }
        else if k = 0 ∧ i.task.safe ∧ w.acked ≤ w.started then (s, { w with waiting := true })
        else if 4 ≤ w.taken.length then (s, w)
        else
          let r := takePair s i d w c k rest
          fillLanes i d n r.1 r.2

/-- Headers of the candidates whose pairs have all resolved. -/
def closeRows (s : State) (i : Inst) (d : Bytes) (w : SweepRun) : State × SweepRun :=
  let live := fun c => (w.pairs ++ w.taken).any fun p => decide (p.1 = c)
  ((w.opened.filter fun c => !live c).foldl (fun t c => putHeader t i.tile d w.epoch c) s,
   { w with opened := w.opened.filter live })

/-- Lanes and rows as far as they go; a SWEEP whose last row is written ends, with its hold (R146, R183). -/
def sweepGo (s : State) (i : Inst) (d : Bytes) (w : SweepRun) : State :=
  let r := fillLanes i d (2 * w.pairs.length + 2) s w
  let q := closeRows r.1 i d r.2
  let others := i.sweeps.filter fun x => decide (x.index ≠ w.index)
  if q.2.pairs.isEmpty && q.2.taken.isEmpty then
    let s1 := setInst q.1 { i with sweeps := others }
    if w.ownHold then dropHold s1 w.epoch else s1
  else setInst q.1 { i with sweeps := others ++ [q.2] }

/-! ### Issue -/

/-- The epoch a copy of the instance has already sampled for the descriptor (R238). -/
def sharedSample (s : State) (i : Inst) (idx : Nat) : Option Nat :=
  if i.task.safe then
    (s.cyc.facts.find? fun f => decide (f.kind = 7 ∧ f.taskId = i.task.taskId ∧ f.batch = i.batch ∧ f.desc = idx)).map (·.valA)
  else none

/-- The epoch an EPOCH_SEL = 1 SWEEP reads (R146, R238, R277, R291). -/
def sampleEpoch (s : State) (i : Inst) (idx : Nat) : Nat :=
  match sharedSample s i idx with
  | some n => n
  | none =>
    let atRelease := (epochAtRelease s i.task.phase).getD s.world.newest
    if inReplay s then
      match (forced s 7).find? (fun f => decide (f.taskId = i.task.taskId ∧ f.batch = i.batch ∧ f.desc = idx)) with
      | some f => f.valA
      | none => atRelease
    else if s.cyc.tack then atRelease
    else s.world.newest

/-- The hold of a sample; the first copy of a SAFE instance takes the other's with it (R146, R238). -/
def holdSample (s : State) (i : Inst) (idx n : Nat) : State :=
  match sharedSample s i idx with
  | some _ => s
  | none =>
    let s1 := if i.task.safe then holdEpoch (holdEpoch s n) n else holdEpoch s n
    addFact s1 { kind := 7, copy := if i.task.safe then 0 else i.copy, taskId := i.task.taskId, batch := i.batch, desc := idx,
                 valA := n, valB := 0 }

/-- CHECK_EPOCH_LO and CHECK_EPOCH_HI (R246). -/
def noteCheckEpoch (c : CycleCounts) (n : Nat) : CycleCounts :=
  if c.checkRan then
    { c with checkLo := if serialLt n c.checkLo then n else c.checkLo, checkHi := if serialLt c.checkHi n then n else c.checkHi }
  else { c with checkRan := true, checkLo := n, checkHi := n }

/-- All pairs, candidates ascending, segments ascending (R183). -/
def allPairs (s : State) (tile : Nat) (d : Bytes) : List (Nat × Nat) :=
  ((List.range (swNcand d)).map fun c => (List.range (fieldAt (swRecord s tile d c) 4 1)).map fun k => (c, k)).flatten

def startSweep (s : State) (i : Inst) (d : Bytes) (idx : Nat) : State :=
  let n := if swNewest d then sampleEpoch s i idx else i.epoch
  let s1 := if swNewest d then holdSample s i idx n else s
  let s2 := if i.task.phase = 4 then { s1 with cyc := { s1.cyc with counts := noteCheckEpoch s1.cyc.counts n } } else s1
  sweepGo s2 i d { index := idx, epoch := n, ownHold := swNewest d, pairs := allPairs s i.tile d, taken := [], started := 0,
                   acked := 0, waiting := false, cutTaken := false, hits := [], opened := [] }

def sweepRun : DescRun :=
  { ok := sweepOk
    access := fun _ _ d =>
      { reads := (64 * swProfileLine d, 320) :: trefRanges fmtByte (swCand d), writes := trefRanges fmtByte (swOut d) }
    holds := true
    run := fun s i d idx =>
      if !profileGuarded (swProfile s i.tile d) then .error "R159"
      else match forcedSweepCut s i idx with
        | some n => if swNcand d < n then .ok (factFails s) else .ok (startSweep s i d idx)
        | none => .ok (startSweep s i d idx) }

/-- In replay a sample waits for its epoch's PUBLISH (R291). -/
def sampleWaits (s : State) (tile ctx : Nat) : Option Nat :=
  match instOf s tile ctx with
  | none => none
  | some i =>
    let d := descBytes s i i.pc
    if dOpcode d = 0x30 ∧ swNewest d ∧ (epochOf s (sampleEpoch s i i.pc)).isNone then some (sampleEpoch s i i.pc) else none

def execSweep (tile ctx : Nat) (s : State) : Result :=
  match sampleWaits s tile ctx with
  | some n => onlyIf s (!awaitsPublish s n) (factFails s)
  | none => issueDesc s tile ctx 0x30 sweepRun

/-! ### SWEEP_PAIR_DONE -/

/-- The SWEEP in progress on a context: one at a time occupies the Awl. -/
def sweepOf (i : Inst) : Option SweepRun := i.sweeps.head?

/-- The oldest pair's record is written; its lane is free. -/
def pairDone (s : State) (i : Inst) (d : Bytes) (w : SweepRun) (c k : Nat) (rest : List (Nat × Nat)) : State :=
  let v := pairVerdict s i d w.epoch c k
  let bs := if aboveHit d w c k then skippedBytes else verdictBytes v (unitsBefore (swRecord s i.tile d c) k)
  let hits := if v.rank = 3 ∧ (hitOf w c).isNone then w.hits ++ [(c, k)] else w.hits
  sweepGo (putRecord s i.tile d c k bs) i d { w with taken := rest, hits := hits }

/-- SWEEP_PAIR_DONE: the lane of the oldest pair finishes (log entry 36). -/
def execSweepPairDone (tile ctx : Nat) (s : State) : Result :=
  match instOf s tile ctx with
  | none => .next s
  | some i => match sweepOf i with
    | none => .next s
    | some w => match w.taken with
      | [] => .next s
      | (c, k) :: rest =>
        let d := descBytes s i w.index
        onlyIf s (!i.finished && !(pairLines s i d w.epoch c k).any (fun l => decide ((tile, l) ∈ s.world.filling)))
          (pairDone s i d w c k rest)

/-! ### SWEEP_START_REPORT (R304) -/

/-- Acknowledged start count of the SWEEP's copies. -/
def ackOf (s : State) (i : Inst) (idx : Nat) : Nat :=
  match s.disp.acks.find? (fun a => decide (a.1 = i.task.taskId ∧ a.2.1 = i.batch ∧ a.2.2.1 = idx)) with
  | some a => a.2.2.2
  | none => 0

def setAck (s : State) (i : Inst) (idx n : Nat) : State :=
  { s with disp := { s.disp with
    acks := (i.task.taskId, i.batch, idx, n) :: s.disp.acks.filter fun a =>
      !decide (a.1 = i.task.taskId ∧ a.2.1 = i.batch ∧ a.2.2.1 = idx) } }

/-- The port answers a start report: acknowledged, or refused beyond the target once the cut has acted. -/
def answerReport (s : State) (i : Inst) (d : Bytes) (w : SweepRun) : State :=
  let n := w.started + 1
  if !cutsSweeps i || inReplay s || decide (n ≤ ackOf s i w.index) then
    sweepGo (setAck s i w.index (max n (ackOf s i w.index))) i d { w with acked := n, waiting := false }
  else
    let r := takeCut s i d w
    sweepGo r.1 i d r.2

def execSweepStartReport (tile ctx : Nat) (s : State) : Result :=
  match instOf s tile ctx with
  | none => .next s
  | some i => match sweepOf i with
    | none => .next s
    | some w => onlyIf s (!i.finished && w.waiting) (answerReport s i (descBytes s i w.index) w)

/-! ### CACHE_FILL (R44, R46) -/

/-- Four ways of 256 sets; the oldest line of a full set gives way, which affects timing only. The set of a line is its number
mod 256 and the victim is the oldest: a DESIGN CHOICE, the spec gives neither (log entry 36). -/
def cacheInsert (s : State) (tile line : Nat) : List (Nat × Nat) :=
  let same := s.world.cached.filter fun p => decide (p.1 = tile ∧ p.2 % 256 = line % 256)
  let kept := if same.length < 4 then s.world.cached else s.world.cached.filter (· ≠ same.getLastD (tile, line))
  (tile, line) :: kept

/-- The contexts whose taken pairs look the line up. -/
def usersOf (s : State) (tile line : Nat) : List Nat :=
  (List.range 2).filter fun ctx => match instOf s tile ctx with
    | none => false
    | some i => !i.finished && i.sweeps.any fun w => w.taken.any fun p =>
      decide (line ∈ pairLines s i (descBytes s i w.index) w.epoch p.1 p.2)

/-- The second error in the line within one instance aborts it and quarantines the tile (R46, R322). -/
def countLine (s : State) (tile line : Nat) : State :=
  (usersOf s tile line).foldl (fun t ctx =>
    let key := (2 * tile + ctx, line)
    if key ∈ t.world.badLines then quarantineTile (abortAt t tile ctx csTileFault) tile
    else { t with world := { t.world with badLines := key :: t.world.badLines } }) s

/-- An uncorrectable error in a line: it is discarded, and asked for again where a lookup waits for it (R46). -/
def lineLost (s : State) (tile line : Nat) : State :=
  let s1 := eccReport s 1 (272 + unitOfTile s tile) (64 * line)
  let again := decide ((tile, line) ∈ s.world.filling) || !(usersOf s tile line).isEmpty
  countLine { s1 with world := { s1.world with
    cached := s1.world.cached.filter (· ≠ (tile, line))
    filling := if again then addOnce s1.world.filling (tile, line) else s1.world.filling } } tile line

/-- The error meets the line as it is filled. -/
def lineFails (s : State) (tile line : Nat) : State := lineLost (raiseOpenFault s (fsTile tile) fWorldCacheEcc) tile line

def execCacheFill (tile line : Nat) (uncorrectable : Bool) (s : State) : Result :=
  onlyIf s (decide ((tile, line) ∈ s.world.filling))
    (if uncorrectable then lineFails s tile line
     else { s with world := { s.world with cached := cacheInsert s tile line,
                                           filling := s.world.filling.filter (· ≠ (tile, line)) } })

end Sys2Proof.Machine
end

