-- ==== Sys2Proof/Machine/Latigo.lean ====
section
/-! DEFINITION. Latigo (R242, R317 to R320): its start at the cut, the candidates it builds and sweeps, and
LATIGO_COMPLETE. Its two copies read the replicas of their own clusters. -/

namespace Sys2Proof.Machine

/-! ### The start state (R317) -/

/-- The segment of a candidate that holds time now (gPTP ns), and that segment's start; none beyond the end. -/
def segmentHolding (cand : Bytes) (now : Nat) : Nat → Nat → Nat → Option (Nat × Nat)
  | 0, _, _ => none
  | n + 1, k, t =>
    let e := t + 100000 * fieldAt (segRec cand k) 0x1C 2
    if now < e then some (k, t) else segmentHolding cand now n (k + 1) e

/-- A start state's bytes (R160). -/
def stateBytes (x y : Int) (z : Bytes) (heading steer v a stamp : Nat) : Bytes :=
  toLe 4 (ofSigned 32 x) ++ toLe 4 (ofSigned 32 y) ++ z ++ toLe 4 heading ++ toLe 4 steer ++ toLe 4 v ++ toLe 4 a ++ zeros 4
    ++ toLe 8 stamp ++ zeros 24

/-- The trajectory's end state, with A = 0. -/
def endState (cand : Bytes) (now : Nat) : Bytes :=
  let v := f32At cand 0x2C
  let rev := bitOf (fieldAt cand 6 1) 3
  stateBytes (toSigned 32 (fieldAt cand 0x1C 4)) (toSigned 32 (fieldAt cand 0x20 4)) (sliceOf cand 0x18 4) (fieldAt cand 0x24 4)
    (fieldAt cand 0x28 4) (f32Bits (if rev then negNum v else v)) 0 now

/-- The trajectory's courses at the cut's gPTP time, each rounded to the nearest: DESIGN CHOICE (log entry 35). -/
def stateOnPath (prof cand : Bytes) (now : Nat) : Bytes :=
  match segmentHolding cand now (fieldAt cand 4 1) 0 (fieldAt cand 0x10 8) with
  | none => endState cand now
  | some (k, t) =>
    let g := segRec cand k
    let dns := if t ≤ now then now - t else 0
    let b := rebuild (parseProfile prof) cand k
    let at' : Rat := (dns : Rat) / 1000000000
    let m := motionAt b at'
    let o := bodyPose b g 0 at'
    stateBytes (o.1 + 1 / 2).floor (o.2.1 + 1 / 2).floor (sliceOf cand 0x18 4) (f32Bits (wrapHeading (ratF32 o.2.2)))
      (f32Bits m.steer) (f32Bits m.v) (f32Bits (ratF32 (courseAt b.c at').2.1)) now

def latigoProfile (s : State) : Bytes := profileSlot s s.cyc.params.profileSlot

/-- The start state that Latigo takes at the cut, if it has one. -/
def latigoState (s : State) (cutT : Nat) : Option Bytes :=
  let area := devRead s latigoStateBase 64
  if stStamp area ≠ 0 ∧ s.lat.usedStamp < stStamp area then some area
  else if s.lat.prevTraj = [] then none
  else some (stateOnPath (latigoProfile s) s.lat.prevTraj cutT)

/-! ### Start (R242, R318, R319) -/

def incumbentBytes (s : State) : Bytes :=
  let n := fieldAt (devRead s (incumbentBase + 0x40) 8) 4 1
  devRead s (incumbentBase + 0x40) (64 + 32 * n)

def incumbentValid (s : State) : Bool := decide (memGet s.mem incumbentBase ≠ 0)

/-- The advanced incumbent's segments. -/
def followSegments (s : State) (st : Bytes) : List SegReq := advanceIncumbent (incumbentBytes s) (stStamp st)

/-- FALLBACK_T of the current record. -/
def fallbackHere (s : State) : Nat :=
  match s.cyc.record with
  | some r => if r.source = 0 then 0 else s.lat.fallbackT
  | none => fallbackNext s

/-- STOP from the start of the run on (R319). -/
def startsInStop (s : State) (st : Option Bytes) : Bool :=
  s.lat.stopMode || s.safety.safe || decide (15000 < fallbackHere s) || !incumbentValid s
    || (match st with | some x => (followSegments s x).isEmpty | none => false)

/-- A copy starts when its island is awake and, on a tile whose clock is gated, with a token (R27, R483). -/
def startCopy (s : State) (t : Nat) : State :=
  if t ∈ s.lat.copies ∨ oppOf s (t / 16) = 0 then s
  else if t ∈ s.disp.idleTiles then match spendTokens s (1, t) 1 with
    | some u => { u with disp := { u.disp with idleTiles := u.disp.idleTiles.filter (· ≠ t) }
                         lat := { u.lat with copies := t :: u.lat.copies } }
    | none => waitTokens s (1, t) 1
  else { s with lat := { s.lat with copies := t :: s.lat.copies } }

def startCopies (s : State) : State := (latigoTiles s).foldl startCopy s

/-- What each copy reads from GDDR6 (R317): the profile, the incumbent, the start state. -/
def latigoReads (s : State) : List (Nat × Nat) :=
  [(profileBase + 512 * s.cyc.params.profileSlot, 320), (incumbentBase, 2048), (latigoStateBase, 64)]

/-- Both copies meet an uncorrectable error in what they read: GDDR6_ECC, and the pair is INCOMPLETE (R323, R363). -/
def latigoBlind (s : State) (r : Nat × Nat) : State :=
  latigoIncomplete (gddrUe (gddrUe s (firstBad s r.1 r.2)) (firstBad s r.1 r.2))

/-- Latigo starts against an epoch, which both its copies hold. A Latigo tile that is lost or quarantined keeps
it from starting (R51). -/
def startLatigo (s : State) (epoch cutT : Nat) : State :=
  if !(latigoTiles s).all (tileWorks s) then s
  else
    let st := latigoState s cutT
    let stop := startsInStop s st
    let s1 := holdEpoch { s with lat := { s.lat with
      running := true, copies := [], complete := false, failed := false, blocked := false, runStop := stop,
      stopMode := s.lat.stopMode || stop, startAo := s.ao, epoch := epoch, state := st, traj := [],
      usedStamp := match st with | some x => stStamp x | none => 0 } } epoch
    match (latigoReads s).find? fun r => badRead s r.1 r.2 with
    | some r => latigoBlind s1 r
    | none => startCopies ((latigoReads s).foldl (fun t r => correctRead t r.1 r.2) s1)

/-! ### Candidates (R318) -/

def reqBytes (r : SegReq) : Bytes :=
  toLe 2 r.dur ++ toLe 1 (boolNat r.rev) ++ zeros 1 ++ toLe 4 (f32Bits r.v) ++ toLe 4 (f32Bits r.steer) ++ zeros 4

/-- FOLLOW's LIB row: the last segment of the advanced incumbent as request nA − 1. -/
def followRow (kept : List SegReq) : Bytes :=
  let n := kept.length
  [1] ++ toLe 1 (n - 1) ++ [1] ++ zeros 13 ++ zeros (16 * (n - 1)) ++ (match kept.getLast? with | some r => reqBytes r | none => [])

/-- The brake segment's DUR. -/
def brakeDur (p : Profile) (st : Bytes) : Nat :=
  let v := ratAbs (numRat (f32At st 0x14))
  let t : Rat := 10000 * (v / p.dMax + p.dMax / p.jMax) + 1000
  min 65535 t.ceil.toNat

/-- The six values of STEER_REQ, in order. -/
def stopSteers (p : Profile) (st : Bytes) : List Num :=
  let q := fun x : Rat => ratF32 (p.steerMax * x)
  [f32At st 0x10, pzero, q (1 / 2), q (-1 / 2), q 1, q (-1)]

/-- A stop candidate's LIB row: brake in the present direction, then hold speed 0 for 1 s. -/
def stopRow (p : Profile) (st : Bytes) (steer : Num) : Bytes :=
  let rev := (startOf st).rev
  zeros 16 ++ reqBytes { dur := brakeDur p st, rev := rev, v := pzero, steer := steer, flags := 0 }
    ++ reqBytes { dur := 10000, rev := rev, v := pzero, steer := steer, flags := 0 }

/-- A candidate of Latigo's. Its CAND_ID, LIB_ROW, rounding mode and draws are the lists' own: free functions of what the
lists read (R278, log entry 39). -/
def latigoCandidate (s : State) (st row : Bytes) (nseg : Nat) : Bytes :=
  let inputs := latigoProfile s ++ st ++ row ++ incumbentBytes s
  let mode := Config.latigoList 2 inputs % 3
  let rm : Nat → Rm := fun off =>
    if mode = 0 then .rne else if mode = 1 then .rtz else .sr (Config.latigoList (8 + off) inputs)
  (candidateRow (latigoProfile s) st row (incumbentBytes s) nseg (Config.latigoList 0 inputs % 2 ^ 32)
    (Config.latigoList 1 inputs % 2 ^ 32) rm).1

/-- The candidate passes its sweep in a cluster's replica. -/
def latigoPasses (s : State) (cluster : Nat) (cand : Bytes) : Bool :=
  let row := sweepRow (treeOf s cluster s.lat.epoch) (latigoProfile s) cand 0xFF 8 true false s.lat.epoch
  decide (fieldAt row 5 1 ≤ s.cyc.params.recheckAccept) && decide (s.cyc.params.minClear ≤ fieldAt row 6 1)

/-- What one copy ends with: a trajectory, or none where it is BLOCKED; and whether FOLLOW failed. -/
def latigoPlan (s : State) (st : Bytes) (cluster : Nat) : Option Bytes × Bool :=
  let kept := followSegments s st
  let p := parseProfile (latigoProfile s)
  let follow := if s.lat.runStop then none else some (latigoCandidate s st (followRow kept) kept.length)
  match follow.filter (latigoPasses s cluster) with
  | some c => (some c, false)
  | none => (((stopSteers p st).map fun k => latigoCandidate s st (stopRow p st k) 2).find? (latigoPasses s cluster), !s.lat.runStop)

/-- With a start state that no computation is given for, the result is free: a function of what the lists read (log entry
39). -/
def openPlan (s : State) (st : Bytes) : Option Bytes × Bool :=
  let inputs := latigoProfile s ++ st ++ incumbentBytes s
  if Config.latigoList 3 inputs % 2 = 0 then (none, !s.lat.runStop)
  else (some ((List.range 128).map fun k => BitVec.ofNat 8 (Config.latigoList (256 + k) inputs)),
    decide (Config.latigoList 4 inputs % 2 = 0) && !s.lat.runStop)

def planOf (s : State) (tile : Nat) : Option Bytes × Bool :=
  match s.lat.state with
  | none => (none, false)
  | some st => if stateFinite st then latigoPlan s st (tile / 16) else openPlan s st

/-! ### LATIGO_COMPLETE (R242, R320) -/

/-- The pair resolves MATCH with a plan. -/
def latigoMatch (s : State) (r : Option Bytes × Bool) : State :=
  let s1 := bumpReg s offStitchPairs
  { s1 with lat := { s1.lat with
      complete := r.1.isSome, blocked := r.1.isNone, traj := r.1.getD [], stopMode := s1.lat.stopMode || r.2 } }

/-- Latigo's inputs are ones it can compute with: a profile in the slot (R159). -/
def latigoGuarded (s : State) : Bool := s.lat.state.isNone || profileGuarded (latigoProfile s)

/-- Latigo ends, with its pair resolved. -/
def completeLatigo (s : State) : State :=
  let a := planOf s ((latigoTiles s).getD 0 0)
  let b := planOf s ((latigoTiles s).getD 1 0)
  afterLatigo (endLatigo (if a = b then latigoMatch s a else latigoFails s offStitchMismatch))

/-! ### Replay (R292) -/

/-- CHECK and REFINE are done, or PROPOSE where they have nothing due. -/
def replayLatigoDue (s : State) : Bool :=
  inReplay s && s.cyc.inCycle && !s.lat.running && !latigoEnded s && (List.range 5 ++ [7]).all (phaseComplete s)

/-- Latigo's start in replay: LATIGO_EPOCH and CUT_T from the facts header. With a Latigo tile gone, no run comes. -/
def replayStart (s : State) : State :=
  match curPkg s with
  | none => s
  | some p =>
    let e := fieldAt p.header 0x18 4
    if !(latigoTiles s).all (tileWorks s) then afterLatigo { s with lat := { s.lat with failed := true } }
    else if (epochOf s e).isSome then startLatigo s e (fieldAt p.header 0x20 8)
    else if awaitsPublish s e then s else factFails s

/-- Both copies run. -/
def copiesRun (s : State) : Bool := (latigoTiles s).all fun t => decide (t ∈ s.lat.copies)

/-- LATIGO_COMPLETE: a copy that still waits for its island or its token starts as soon as it can. In replay, where no cut is
raised, it starts the run as well (log entry 39). -/
def execLatigoComplete (s : State) : Result :=
  let s0 := if replayLatigoDue s then replayStart s else s
  if s.boot.inReset || !s0.lat.running then .next (if s.boot.inReset then s else s0)
  else if !copiesRun s0 then .next (startCopies s0)
  else if !latigoGuarded s0 then .fault (.unguarded "R159")
  else .next (completeLatigo s0)

end Sys2Proof.Machine
end

