-- ==== Sys2Proof/Machine/SolveMath.lean ====
section
/-! DEFINITION. What SQ computes: the schedule (R209 to R212, R216, R217), assembly (R218), factorisation and
substitution (R217 to R219, R223), the cost (R211). A factor or substitution entry is formed by one operation
sequence that the spec does not give: its rounding is free, but what is not finite stays so (R223, log entry 37). -/

namespace Sys2Proof.Machine

/-! ### The solve a descriptor names (R100, R212, R216) -/

structure Solve where
  tile  : Nat
  base  : Nat              -- tile-local address of STATE
  rhs   : Tref
  sched : Bytes
  f32   : Bool             -- PREC
  tau   : Num
  lam   : Num
  shift : Bool             -- PIVOT_POLICY SHIFT
  deriving DecidableEq, Repr

def fieldF64 (bs : Bytes) (off : Nat) : Num := decodeFloat fF64 (fieldAt bs off 8)
def f64Bits (x : Num) : Nat := encodeFloat fF64 x

def solveOf (s : State) (tile : Nat) (d : Bytes) : Solve :=
  let at' := 64 * fieldAt d 0x10 4
  { tile := tile, base := 64 * (dTref d 0x18).line, rhs := dTref d 0x20,
    sched := tileRead s tile at' (min 262144 (max 128 (fieldAt (tileRead s tile at' 8) 4 4))),
    f32 := decide (fieldAt d 0x29 1 = 1), tau := fieldF64 d 0x30, lam := fieldF64 d 0x38, shift := decide (fieldAt d 0x28 1 = 0) }

def scMethod (c : Solve) : Nat := fieldAt c.sched 0x0C 1
def scFd (c : Solve) : Nat := fieldAt c.sched 0x0D 1
def scGr (c : Solve) : Nat := fieldAt c.sched 0x0E 1
def scMaxIter (c : Solve) : Nat := fieldAt c.sched 0x0F 1
def scNp (c : Solve) : Nat := fieldAt c.sched 0x10 2
def scNf (c : Solve) : Nat := fieldAt c.sched 0x12 2
def scNg (c : Solve) : Nat := fieldAt c.sched 0x14 2
def scGl (c : Solve) : Nat := fieldAt c.sched 0x16 2
def scSteps (c : Solve) (sec : Nat) : Nat := fieldAt c.sched (0x18 + 2 * sec) 2
def scNcol (c : Solve) : Nat := fieldAt c.sched 0x60 2
/-- Tile-local addresses of the areas (R212). -/
def atXa (c : Solve) : Nat := c.base + 64 * fieldAt c.sched 0x20 2
def atXt (c : Solve) : Nat := c.base + 64 * fieldAt c.sched 0x22 2
def atJac (c : Solve) : Nat := c.base + 64 * fieldAt c.sched 0x24 2
def atHb (c : Solve) : Nat := c.base + 64 * fieldAt c.sched 0x26 2
def atFa (c : Solve) : Nat := c.base + 64 * fieldAt c.sched 0x28 2
def atG (c : Solve) : Nat := rowAddr c.rhs 0
def atW (c : Solve) : Nat := rowAddr c.rhs 1

def getF (s : State) (c : Solve) (a : Nat) : Num := fieldF64 (tileRead s c.tile a 8) 0
def putF (s : State) (c : Solve) (a : Nat) (x : Num) : State := tileWrite s c.tile a (toLe 8 (f64Bits x))
def vecAt (s : State) (c : Solve) (base k : Nat) : Num := getF s c (base + 8 * k)

def fmtSolve (c : Solve) : FFmt := if c.f32 then fF32 else fF64
def roundP (c : Solve) (x : Num) : Num := (roundFloat (fmtSolve c) .rne false x).1

/-! ### Steps (R217) -/

structure SolveStep where
  kind : Nat
  a : Nat
  b : Nat
  c : Nat
  off0 : Nat
  off1 : Nat
  deriving DecidableEq, Repr

/-- Step k of a section: 0 ASSEMBLE, 1 FACTOR, 2 SUBST, 3 UPDATE. -/
def stepAt (c : Solve) (sec k : Nat) : SolveStep :=
  let o := fieldAt c.sched 0x30 4 + 16 * (((List.range sec).map (scSteps c)).sum + k)
  { kind := fieldAt c.sched o 1, a := fieldAt c.sched (o + 2) 2, b := fieldAt c.sched (o + 4) 2, c := fieldAt c.sched (o + 6) 2,
    off0 := fieldAt c.sched (o + 8) 4, off1 := fieldAt c.sched (o + 12) 4 }

def sectionSteps (c : Solve) (sec : Nat) : List SolveStep := (List.range (scSteps c sec)).map (stepAt c sec)

/-- n 16-bit numbers of the schedule. -/
def schedList (c : Solve) (off n : Nat) : List Nat := (List.range n).map fun k => fieldAt c.sched (off + 2 * k) 2

/-- A supernode panel of the frame part: first column, width, height, offset in HBASE, its row list. -/
structure Panel where
  a : Nat
  w : Nat
  h : Nat
  off : Nat
  rows : List Nat
  deriving DecidableEq, Repr

def panelOf (c : Solve) (st : SolveStep) : Panel :=
  { a := st.a, w := st.b, h := st.c, off := st.off0,
    rows := if st.off1 = 0xFFFFFFFF then (List.range st.c).map (st.a + ·) else schedList c st.off1 st.c }

/-- Panels in schedule order. -/
def panels (c : Solve) : List Panel := ((sectionSteps c 1).filter (·.kind = 0x13)).map (panelOf c)

/-- A point's ELIM_POINT step. -/
def elimOf (c : Solve) (p : Nat) : Option SolveStep := (sectionSteps c 1).find? fun st => decide (st.kind = 0x11 ∧ st.a = p)

/-- The frame list of a point, as block numbers. -/
def framesOf (c : Solve) (st : SolveStep) : List Nat := schedList c st.off0 st.b

/-- Entry (row index r, column j) of a panel, in HBASE bytes: column-major. -/
def panelAddr (p : Panel) (r j : Nat) : Nat := p.off + 8 * ((j - p.a) * p.h + r)

/-- Where entry (i, j) of the frame part lies, if its column's panel has the row. -/
def frameAddr (c : Solve) (i j : Nat) : Option Nat :=
  match (panels c).find? (fun p => decide (p.a ≤ j ∧ j < p.a + p.w)) with
  | none => none
  | some p => (p.rows.findIdx? (· = i)).map fun r => panelAddr p r j

/-- The block of a global column, and the column within it (R209). -/
def blockOf (c : Solve) (col : Nat) : Nat × Nat :=
  if col < 3 * scNp c then (col / 3, col % 3)
  else (scNp c + (col - 3 * scNp c) / scFd c, (col - 3 * scNp c) % scFd c)

def blockDim (c : Solve) (b : Nat) : Nat := if b < scNp c then 3 else scFd c
def blockCol (c : Solve) (b : Nat) : Nat := if b < scNp c then 3 * b else 3 * scNp c + scFd c * (b - scNp c)

/-- Where H's entry (i, j) lies in HBASE bytes (R216). -/
def hAddr (c : Solve) (i j : Nat) : Option Nat :=
  let bi := blockOf c i
  let bj := blockOf c j
  if bi.1 < scNp c then
    if bj.1 = bi.1 then some (72 * bi.1 + 8 * (3 * bi.2 + bj.2))
    else if bj.1 < scNp c then none
    else match elimOf c bi.1 with
      | none => none
      | some st => ((framesOf c st).findIdx? (· = bj.1)).map fun k => st.off1 + 8 * (3 * scFd c * k + bi.2 * scFd c + bj.2)
  else if bj.1 < scNp c then none
  else frameAddr c (i - 3 * scNp c) (j - 3 * scNp c)

/-- The bytes of HBASE. -/
def hbBytes (c : Solve) : Nat :=
  (sectionSteps c 1).foldl (fun m st =>
    if st.kind = 0x11 then max m (st.off1 + 24 * scFd c * st.b) else if st.kind = 0x13 then max m (st.off0 + 8 * st.b * st.c) else m)
    (72 * scNp c)

/-! ### Assembly (R210, R211, R218) -/

structure Group where
  ba : Nat
  bb : Nat
  deriving DecidableEq, Repr

def groupAt (c : Solve) (g : Nat) : Group :=
  let o := fieldAt c.sched 0x2C 4 + 4 * g
  { ba := fieldAt c.sched o 2, bb := fieldAt c.sched (o + 2) 2 }

def groupBytes (s : State) (c : Solve) (g : Nat) : Bytes := tileRead s c.tile (atJac c + 64 * scGl c * g) (64 * scGl c)

/-- The group's columns with their Jacobian column. -/
def groupCols (c : Solve) (g : Group) (bs : Bytes) : List (Nat × List Num) :=
  let gr := scGr c
  let part := fun (b off : Nat) => (List.range (blockDim c b)).map fun k =>
    (blockCol c b + k, (List.range gr).map fun r => f32At bs (off + 4 * (r * blockDim c b + k)))
  part g.ba (4 * gr) ++ (if g.bb = 0xFFFF then [] else part g.bb (4 * gr + 4 * gr * blockDim c g.ba))

def residuals (c : Solve) (bs : Bytes) : List Num := (List.range (scGr c)).map fun r => f32At bs (4 * r)

/-- Row products added in ascending row order, each addition rounded (R218). -/
def addProducts (x : Num) (l m : List Num) : Num := (l.zip m).foldl (fun acc p => (fFma fF64 .rne p.1 p.2 acc).1) x

/-- One group added into HBASE and g; none when the schedule has no place for an entry (R229). -/
def accGroup (s : State) (c : Solve) (g : Nat) : Option State :=
  let bs := groupBytes s c g
  let cols := groupCols c (groupAt c g) bs
  let res := residuals c bs
  let pairs := (cols.map fun x => cols.map fun y => (x, y)).flatten
  if pairs.any (fun p => (hAddr c p.1.1 p.2.1).isNone && (hAddr c p.2.1 p.1.1).isNone) then none
  else
    let s1 := pairs.foldl (fun t p => match hAddr c p.1.1 p.2.1 with
      | some o => putF t c (atHb c + o) (addProducts (getF t c (atHb c + o)) p.1.2 p.2.2)
      | none => t) s
    some (cols.foldl (fun t x => putF t c (atG c + 8 * x.1) (addProducts (vecAt t c (atG c) x.1) x.2 res)) s1)

def zeroStep (s : State) (c : Solve) : State :=
  tileWrite (tileWrite s c.tile (atHb c) (zeros (hbBytes c))) c.tile (atG c) (zeros (8 * scNcol c))

/-- ‖·‖∞ of a vector of n F64 values. -/
def normInf (s : State) (c : Solve) (base n : Nat) : Num :=
  (List.range n).foldl (fun m k => (fMax m (match vecAt s c base k with | .fin _ a e => .fin false a e | .inf _ => .inf false | .nan => .nan)).1) pzero

/-- The cost of the residuals in JAC (R211). -/
def costOf (s : State) (c : Solve) : Flagged Num :=
  (List.range (scNg c)).foldl (fun acc g =>
    (residuals c (groupBytes s c g)).foldl (fun a r =>
      let f := fFma fF64 .rne r r a.1
      (f.1, a.2 ||| f.2)) acc) (pzero, 0)

/-! ### Factorisation (R217, R219) -/

/-- A value less products of three factors; with nothing to subtract, the value. A value or a factor that is NaN or infinite
leaves a result that is not finite (R223, log entry 37). -/
def subEntry (c : Solve) (base : Num) (ps : List (Num × Num × Num)) : Num :=
  if ps = [] then base
  else
    let f := fmtSolve c
    let x := decodeFloat f (Config.solveEntry (boolNat c.f32) (f64Bits base)
      (ps.map fun p => (f64Bits p.1, f64Bits p.2.1, f64Bits p.2.2)) % (if c.f32 then 2 ^ 32 else 2 ^ 64))
    if isFin base && ps.all (fun p => isFin p.1 && isFin p.2.1 && isFin p.2.2) then x else if isFin x then .nan else x

def oneNum : Num := ofInt 1

/-- A step's failure: the global column, and whether it is OVERFLOW rather than a pivot. -/
abbrev SolveFail := Nat × Bool

/-- What steps have done, and the failure that ended them (R223). -/
abbrev SolveTry := State × Option SolveFail

/-- The next step of those that have not failed. -/
def tryThen (x : SolveTry) (f : State → SolveTry) : SolveTry :=
  match x.2 with
  | none => f x.1
  | some _ => x

/-- Steps in order, up to one that fails. -/
def tryAll {α : Type} (f : State → α → SolveTry) (l : List α) (s : State) : SolveTry :=
  l.foldl (fun x a => tryThen x fun t => f t a) (s, none)

/-- d ≤ τ; 0 and negative pivots fail whatever τ (R219). -/
def pivotFails (c : Solve) (dj : Num) : Bool := !ltNum (roundP c c.tau) dj || !ltNum pzero dj

/-- Column j of an LDLᵀ whose entry (i, j) lies at `addr i j`; rows j to h − 1 (R219). The pivot is tested
before the rows below are divided by it (log entry 37). -/
def ldlColumn (c : Solve) (addr : Nat → Nat → Nat) (h col0 : Nat) (s : State) (j : Nat) : SolveTry :=
  let rd := fun i k => getF s c (atFa c + addr i k)
  let es := (List.range (h - j)).map fun n => subEntry c (rd (j + n) j) ((List.range j).map fun k => (rd (j + n) k, rd k k, rd j k))
  let dj := es.headD pzero
  if !es.all isFin then (s, some (col0 + j, true))
  else if pivotFails c dj then (s, some (col0 + j, false))
  else
    let ls := (es.drop 1).map fun e => (fDiv (fmtSolve c) .rne e dj).1
    if !ls.all isFin then (s, some (col0 + j, true))
    else ((List.range (h - j)).foldl (fun t n => putF t c (atFa c + addr (j + n) j) (if n = 0 then dj else ls.getD (n - 1) pzero)) s,
          none)

def ldl (c : Solve) (addr : Nat → Nat → Nat) (w h col0 : Nat) (s : State) : SolveTry :=
  tryAll (ldlColumn c addr h col0) (List.range w) s

/-- Entry (i, j) of a point's block. -/
def pointAddr (p i j : Nat) : Nat := 72 * p + 8 * (3 * i + j)

/-- U_p⁻¹ v from the factored block. -/
def pointSolve (s : State) (c : Solve) (p : Nat) (v : List Num) : List Num :=
  let l := fun i j => getF s c (atFa c + pointAddr p i j)
  let z0 := v.getD 0 pzero
  let z1 := subEntry c (v.getD 1 pzero) [(l 1 0, z0, oneNum)]
  let z2 := subEntry c (v.getD 2 pzero) [(l 2 0, z0, oneNum), (l 2 1, z1, oneNum)]
  let dv := fun x k => (fDiv (fmtSolve c) .rne x (l k k)).1
  let x2 := dv z2 2
  let x1 := subEntry c (dv z1 1) [(l 2 1, x2, oneNum)]
  let x0 := subEntry c (dv z0 0) [(l 1 0, x1, oneNum), (l 2 0, x2, oneNum)]
  [x0, x1, x2]

/-- The frame columns of a point's list, in order, each with its W column of three. -/
def wColumns (s : State) (c : Solve) (st : SolveStep) : List (Nat × List Num) :=
  let fs := framesOf c st
  ((List.range fs.length).map fun k => (List.range (scFd c)).map fun q =>
    (blockCol c (fs.getD k 0) - 3 * scNp c + q,
     (List.range 3).map fun r => getF s c (atFa c + st.off1 + 8 * (3 * scFd c * k + r * scFd c + q)))).flatten

/-- Subtract products from the frame entry (i, j), where it is stored. -/
def subFrame (c : Solve) (s : State) (i j : Nat) (ps : List (Num × Num × Num)) : State :=
  match frameAddr c i j with
  | some o => putF s c (atFa c + o) (subEntry c (getF s c (atFa c + o)) ps)
  | none => s

/-- The column of a point in which an entry of U⁻¹W is not finite (R219, log entry 37). -/
def pointOverflow (ys : List (Nat × List Num)) : Option Nat :=
  (List.range 3).find? fun k => ys.any fun y => !isFin (y.2.getD k pzero)

/-- ELIM_POINT: of a pair of frame columns every entry that the panels store is updated, whichever is the row (R217). -/
def elimPoint (c : Solve) (st : SolveStep) (s : State) : SolveTry :=
  tryThen (ldl c (pointAddr st.a) 3 3 (3 * st.a) s) fun s1 =>
    let cols := wColumns s1 c st
    let ys := cols.map fun x => (x.1, pointSolve s1 c st.a x.2)
    let bp := (List.range 3).map fun k => vecAt s1 c (atW c) (3 * st.a + k)
    let prods := fun (a b : List Num) => (List.range 3).map fun k => (a.getD k pzero, b.getD k pzero, oneNum)
    match pointOverflow ys with
    | some k => (s1, some (3 * st.a + k, true))
    | none =>
      let s2 := cols.foldl (fun t x => ys.foldl (fun u y => subFrame c u x.1 y.1 (prods x.2 y.2)) t) s1
      (ys.foldl (fun t y =>
        let a := atW c + 8 * (3 * scNp c + y.1)
        putF t c a (subEntry c (getF t c a) (prods y.2 bp))) s2, none)

/-- SN_UPDATE: the factored source panel's update of a later panel, in the rows below its own block. -/
def snUpdate (c : Solve) (src tgt : Panel) (s : State) : State :=
  let ix := fun i => (src.rows.findIdx? (· = i)).filter fun k => decide (src.w ≤ k)
  (List.range tgt.w).foldl (fun t dj =>
    let j := tgt.a + dj
    match ix j with
    | none => t
    | some rj => tgt.rows.foldl (fun u i => match ix i with
      | none => u
      | some ri =>
        let ps := (List.range src.w).map fun k =>
          (getF s c (atFa c + panelAddr src ri (src.a + k)), getF s c (atFa c + panelAddr src k (src.a + k)),
           getF s c (atFa c + panelAddr src rj (src.a + k)))
        subFrame c u i j ps) t) s

/-- Diagonal addresses of HBASE. -/
def diagAddrs (c : Solve) : List Nat := (List.range (scNcol c)).filterMap fun k => hAddr c k k

/-- LOAD_DAMPED: FACT, MAX_DIAG, the working vector; shift is λ × MAX_DIAG on every diagonal entry (R219). -/
def loadDamped (s : State) (c : Solve) (mu : Num) (shifted : Bool) : State × Num :=
  let damp := fun h : Num => if scMethod c = 1 then (fAdd fF64 .rne h (fMul fF64 .rne mu h).1).1 else h
  let ds := (diagAddrs c).map fun o => (o, damp (getF s c (atHb c + o)))
  let mx := ds.foldl (fun m x => (fMax m x.2).1) (.inf true)
  let bump := fun h : Num => if shifted then (fAdd fF64 .rne h (fMul fF64 .rne c.lam mx).1).1 else h
  let all := (List.range (hbBytes c / 8)).map fun k => 8 * k
  let s1 := all.foldl (fun t o => putF t c (atFa c + o) (roundP c (getF s c (atHb c + o)))) s
  let s2 := ds.foldl (fun t x => putF t c (atFa c + x.1) (roundP c (bump x.2))) s1
  ((List.range (scNcol c)).foldl (fun t k => putF t c (atW c + 8 * k) (roundP c (vecAt s c (atG c) k))) s2, mx)

/-- One FACTOR step other than LOAD_DAMPED. -/
def factorStep (c : Solve) (st : SolveStep) (s : State) : SolveTry :=
  let ps := panels c
  if st.kind = 0x11 then elimPoint c st s
  else if st.kind = 0x12 then
    match ps[st.a]?, ps[st.b]? with
    | some a, some b => (snUpdate c a b s, none)
    | _, _ => (s, none)
  else
    let p := panelOf c st
    ldl c (fun i j => panelAddr p i (p.a + j)) p.w p.h (3 * scNp c + p.a) s

/-! ### Substitution (R217, R218, R223) -/

def frameW (c : Solve) (k : Nat) : Nat := atW c + 8 * (3 * scNp c + k)

/-- FWD over a panel: rows by column order. -/
def fwdStep (c : Solve) (p : Panel) (s : State) : State :=
  (List.range p.h).foldl (fun t r =>
    let a := frameW c (p.rows.getD r 0)
    let n := min r p.w
    putF t c a (subEntry c (getF t c a) ((List.range n).map fun k =>
      (getF t c (atFa c + panelAddr p r (p.a + k)), getF t c (frameW c (p.a + k)), oneNum)))) s

/-- DIAG: the reduced system's sign enters here. -/
def diagStep (c : Solve) (s : State) : State :=
  (panels c).foldl (fun t p => (List.range p.w).foldl (fun u k =>
    let a := frameW c (p.a + k)
    putF u c a (negNum (fDiv (fmtSolve c) .rne (getF u c a) (getF u c (atFa c + panelAddr p k (p.a + k)))).1)) t) s

/-- BWD over a panel, columns descending; a non-finite δ is OVERFLOW in its column. -/
def bwdStep (c : Solve) (p : Panel) (s : State) : SolveTry :=
  tryAll (fun t k =>
    let a := frameW c (p.a + k)
    let x := subEntry c (getF t c a) ((List.range (p.h - (k + 1))).map fun n =>
      (getF t c (atFa c + panelAddr p (k + 1 + n) (p.a + k)), getF t c (frameW c (p.rows.getD (k + 1 + n) 0)), oneNum))
    if isFin x then (putF t c a x, none) else (t, some (3 * scNp c + p.a + k, true))) (List.range p.w).reverse s

/-- POINT_BACK: δ_p = U_p⁻¹(−g_p − W_p δ_f). -/
def pointBack (c : Solve) (st : SolveStep) (s : State) : SolveTry :=
  let cols := wColumns s c st
  let v := (List.range 3).map fun r =>
    subEntry c (negNum (vecAt s c (atW c) (3 * st.a + r))) (cols.map fun x => (x.2.getD r pzero, getF s c (frameW c x.1), oneNum))
  let x := pointSolve s c st.a v
  match x.findIdx? (fun y => !isFin y) with
  | some k => (s, some (3 * st.a + k, true))
  | none => ((List.range 3).foldl (fun t k => putF t c (atW c + 8 * (3 * st.a + k)) (x.getD k pzero)) s, none)

/-- TRIAL: X_TRIAL := X_ACC + δ. -/
def trialStep (c : Solve) (s : State) : State :=
  (List.range (scNcol c)).foldl (fun t k =>
    putF t c (atXt c + 8 * k) (fAdd fF64 .rne (vecAt s c (atXa c) k) (vecAt s c (atW c) k)).1) s

def substStep (c : Solve) (st : SolveStep) (s : State) : SolveTry :=
  let p := (panels c)[st.a]?
  if st.kind = 0x20 then (match p with | some q => fwdStep c q s | none => s, none)
  else if st.kind = 0x21 then (diagStep c s, none)
  else if st.kind = 0x22 then (match p with | some q => bwdStep c q s | none => (s, none))
  else if st.kind = 0x23 then pointBack c st s
  else (trialStep c s, none)

end Sys2Proof.Machine
end

