-- ==== Sys2Proof/Machine/Solve.lean ====
section
/-! DEFINITION. SOLVE.ASSEMBLE, FACTOR, SUBST and UPDATE on SQ: CTRL (R213, R222), sections (R215, R217), shift
(R219), DECIDE (R220), terminal events (R223), the cut (R224, R225) and SOLVE_REPORT. -/

namespace Sys2Proof.Machine

/-! ### CTRL (R213) -/

structure Ctrl where
  status   : Nat
  iter     : Nat
  accepts  : Nat
  rejects  : Nat
  flags    : Nat            -- 1 SHIFT_USED, 2 LAST_ACCEPTED, 4 NO_ITERATE
  shifts   : Nat
  pivotCol : Nat
  pattern  : Nat
  costAcc  : Num
  costTrial : Num
  mu       : Num
  stepNorm : Nat
  gradNorm : Nat
  maxDiag  : Nat
  deriving DecidableEq, Repr

def parseCtrl (b : Bytes) : Ctrl :=
  { status := fieldAt b 0 1, iter := fieldAt b 1 1, accepts := fieldAt b 2 1, rejects := fieldAt b 3 1, flags := fieldAt b 4 1,
    shifts := fieldAt b 6 2, pivotCol := fieldAt b 8 4, pattern := fieldAt b 12 4, costAcc := fieldF64 b 0x10,
    costTrial := fieldF64 b 0x18, mu := fieldF64 b 0x20, stepNorm := fieldAt b 0x28 8, gradNorm := fieldAt b 0x30 8,
    maxDiag := fieldAt b 0x38 8 }

def ctrlBytes (x : Ctrl) : Bytes :=
  toLe 1 x.status ++ toLe 1 x.iter ++ toLe 1 x.accepts ++ toLe 1 x.rejects ++ toLe 1 x.flags ++ [0] ++ toLe 2 x.shifts
    ++ toLe 4 x.pivotCol ++ toLe 4 x.pattern ++ toLe 8 (f64Bits x.costAcc) ++ toLe 8 (f64Bits x.costTrial) ++ toLe 8 (f64Bits x.mu)
    ++ toLe 8 x.stepNorm ++ toLe 8 x.gradNorm ++ toLe 8 x.maxDiag

def ctrlOf (s : State) (c : Solve) : Ctrl := parseCtrl (tileRead s c.tile c.base 64)

def terminal (status : Nat) : Bool := decide (2 ≤ status)

/-- WORK folded in (R220). -/
def foldWork (w : SolveWork) (x : Ctrl) : Ctrl :=
  { x with stepNorm := w.stepNorm, gradNorm := w.gradNorm, maxDiag := w.maxDiag, shifts := w.shifts, pivotCol := w.pivotCol,
           flags := if w.shiftUsed then x.flags ||| 1 else x.flags }

/-- WORK as a solve begins. -/
def freshWork : SolveWork :=
  { gradNorm := 0, maxDiag := 0, stepNorm := 0, pivotCol := 0xFFFFFFFF, shifts := 0, shiftUsed := false, shifted := false,
    desc := 0, report := (0, 0), cut := false }

/-- The values of the solve in a workspace (R212). -/
def workOf (i : Inst) (c : Solve) : SolveWork := ((i.works.find? (·.1 = c.base)).map (·.2)).getD freshWork

def withWork (i : Inst) (c : Solve) (w : SolveWork) : Inst :=
  { i with works := (c.base, w) :: i.works.filter (·.1 ≠ c.base) }

/-! ### Reports and targets (R225) -/

/-- How far a report has come: higher ITER, then terminal over RUNNING over nothing yet. -/
def reportKey (r : Nat × Nat) : Nat := 4 * r.1 + min 2 r.2

/-- The recorded report is of the solve. -/
def ofSolve (i : Inst) (w : SolveWork) (a : Nat × Nat × Nat × Nat × Nat) : Bool :=
  decide (a.1 = i.task.taskId ∧ a.2.1 = i.batch ∧ a.2.2.1 = w.desc)

/-- The most advanced report of the solve's copies. -/
def targetOf (s : State) (i : Inst) (w : SolveWork) : Nat × Nat :=
  match s.disp.solveAcks.find? (ofSolve i w) with
  | some a => a.2.2.2
  | none => (0, 0)

def recordReport (s : State) (i : Inst) (w : SolveWork) (r : Nat × Nat) : State :=
  if reportKey r ≤ reportKey (targetOf s i w) then s
  else { s with disp := { s.disp with
    solveAcks := (i.task.taskId, i.batch, w.desc, r) :: s.disp.solveAcks.filter fun a => !ofSolve i w a } }

/-- In replay, the pair at which the solve takes the cut (R291); a SAFE solve's entry has COPY 0. -/
def forcedSolveCut (s : State) (i : Inst) (w : SolveWork) : Option (Nat × Nat) :=
  ((forced s 5).find? fun f =>
      decide (f.taskId = i.task.taskId ∧ f.batch = i.batch ∧ f.desc = w.desc ∧ f.copy = if i.task.safe then 0 else i.copy)).map
    fun f => (f.valA, f.valB)

/-- The cut acts on the solve: in a PLAIN instance once it has come, in a SAFE copy at its target. -/
def solveCutReached (s : State) (i : Inst) (c : Solve) : Bool :=
  let w := workOf i c
  w.cut || (if inReplay s then decide (forcedSolveCut s i w = some w.report)
    else cutsSolves i && (!i.task.safe || decide (reportKey w.report = reportKey (targetOf s i w))))

/-- The solve takes the cut (R224): CTRL becomes CUT if it is FRESH or RUNNING, with its SOLVE_CUT entry (R280);
X_TRIAL, FACT, WORK and δ become unspecified. -/
def takeSolveCut (s : State) (i : Inst) (c : Solve) : State :=
  let x := ctrlOf s c
  let w := workOf i c
  let s0 := setInst s (withWork i c { w with cut := true })
  if terminal x.status then s0
  else
    let y := { x with status := 4, flags := if x.status = 0 then x.flags ||| 4 else x.flags }
    let f : Fact := { kind := 5, copy := if i.task.safe then 0 else i.copy, taskId := i.task.taskId, batch := i.batch,
                      desc := w.desc, valA := x.iter, valB := x.status }
    let s1 := tileWrite s0 c.tile c.base (ctrlBytes y)
    let s2 := if f ∈ s1.cyc.facts then s1 else addFact s1 f
    let sc := fun t a n => devScramble t (tileBase c.tile + a) n
    sc (sc (sc (sc s2 (c.base + 64) 64) (atXt c) (8 * scNcol c)) (atFa c) (hbBytes c)) (atW c) (8 * scNcol c)

/-! ### Ending a decision or a terminal event -/

def applyWrites (s : State) (tile : Nat) (ws : List (Nat × Bytes)) : State := ws.foldl (fun t w => tileWrite t tile w.1 w.2) s

/-- A decision or terminal event writes CTRL and X_ACC: at once in a PLAIN instance, after its report's answer in
a SAFE copy (R225). In replay a solve that passes its recorded pair fails the replay (R293). -/
def concludeSolve (s : State) (i : Inst) (c : Solve) (idx : Nat) (x : Ctrl) (ws : List (Nat × Bytes)) : State :=
  let r := (x.iter, x.status)
  if i.task.safe then setInst s { i with solve := some { index := idx, iter := x.iter, status := x.status, writes := ws } }
  else
    let j := withWork i c { workOf i c with report := r }
    let s1 := setInst (applyWrites s c.tile ws) j
    if solveCutReached s1 j c then takeSolveCut s1 j c
    else match (if inReplay s then forcedSolveCut s i (workOf i c) else none) with
      | some f => if reportKey f < reportKey r then factFails s1 else s1
      | none => s1

/-- FACTOR or SUBST ends the solve (R223): WORK is folded, ITER does not advance. -/
def endSolve (s : State) (i : Inst) (c : Solve) (idx status col : Nat) : State :=
  let w := { workOf i c with pivotCol := col }
  let j := withWork i c w
  let x := { foldWork w (ctrlOf s c) with status := status, pattern := fieldAt c.sched 8 4 }
  concludeSolve (setInst s j) j c idx x [(c.base, ctrlBytes x)]

/-! ### Sections (R215, R217) -/

def dStepFirst (d : Bytes) : Nat := fieldAt d 0x14 2
def dStepCount (c : Solve) (sec : Nat) (d : Bytes) : Nat :=
  if fieldAt d 0x16 2 = 0 then scSteps c sec - dStepFirst d else fieldAt d 0x16 2

/-- The steps a descriptor executes. -/
def stepsOf (c : Solve) (sec : Nat) (d : Bytes) : List SolveStep := ((sectionSteps c sec).drop (dStepFirst d)).take (dStepCount c sec d)

/-- The section's last step is among them. -/
def reachesEnd (c : Solve) (sec : Nat) (d : Bytes) : Bool := decide (scSteps c sec ≤ dStepFirst d + dStepCount c sec d)

def kindsOf (sec : Nat) : List Nat :=
  if sec = 0 then [1, 2] else if sec = 1 then [0x10, 0x11, 0x12, 0x13] else if sec = 2 then [0x20, 0x21, 0x22, 0x23, 0x24] else [0x30]

/-- UNDER, INF and NAN as the free operation sequences leave them (R75, log entry 37). -/
def anyFlags (s : State) : Nat := (Config.freeNat 7 s.disp.freeCtr % 16) &&& 13

def freeFlags (s : State) (i : Inst) : State := tickFree (gatherFlags s i.tile i.ctx (anyFlags s))

/-- The instance with a descriptor's flags gathered. -/
def withFlags (i : Inst) (f : Nat) : Inst := { i with flags := i.flags ||| BitVec.ofNat 8 f }

/-- ASSEMBLE. -/
def assembleSteps (s : State) (c : Solve) : List SolveStep → Option State
  | [] => some s
  | st :: t =>
    if st.kind = 1 then assembleSteps (zeroStep s c) c t
    else match (List.range st.b).foldlM (fun u k => accGroup u c (st.a + k)) s with
      | some u => assembleSteps u c t
      | none => none

def runAssemble (s : State) (i : Inst) (c : Solve) (d : Bytes) : Attempt :=
  match assembleSteps s c (stepsOf c 0 d) with
  | none => .error "R229"
  | some s1 =>
    let w := if reachesEnd c 0 d then { workOf i c with gradNorm := f64Bits (normInf s1 c (atG c) (scNcol c)) } else workOf i c
    .ok (freeFlags (setInst s1 (withWork i c w)) i)

/-- One FACTOR step, with the work values it changes. -/
def factorOne (c : Solve) (mu : Num) (st : SolveStep) (w : SolveWork) (s : State) : SolveWork × SolveTry :=
  if st.kind = 0x10 then
    let r := loadDamped s c mu w.shifted
    ({ w with maxDiag := f64Bits r.2 }, (r.1, none))
  else (w, factorStep c st s)

/-- FACTOR steps in order, up to one that fails. -/
def factorSteps (c : Solve) (mu : Num) : List SolveStep → SolveWork → State → SolveWork × SolveTry
  | [], w, s => (w, (s, none))
  | st :: t, w, s =>
    let r := factorOne c mu st w s
    match r.2.2 with
    | none => factorSteps c mu t r.1 r.2.1
    | some _ => r

/-- The first failure of an iteration under SHIFT: its shift is set, and FACTOR runs from step 0 (R219). -/
def refactor (c : Solve) (mu : Num) (d : Bytes) (col : Nat) (w : SolveWork) (s : State) : SolveWork × SolveTry :=
  factorSteps c mu ((sectionSteps c 1).take (dStepFirst d + dStepCount c 1 d))
    { w with shifted := true, shifts := w.shifts + 1, shiftUsed := true, pivotCol := col } s

/-- FACTOR's steps have run, or one has ended the solve (R223): what was written before it stays. -/
def finishFactor (i : Inst) (c : Solve) (idx : Nat) (r : SolveWork × SolveTry) : State :=
  let j := withWork i c r.1
  let s := r.2.1
  match r.2.2 with
  | none => freeFlags (setInst s j) i
  | some (col, ovf) => endSolve (tickFree s) (withFlags j (anyFlags s)) c idx (if ovf then 6 else 5) col

def runFactor (s : State) (i : Inst) (c : Solve) (d : Bytes) (idx : Nat) : Attempt :=
  let mu := (ctrlOf s c).mu
  let r := factorSteps c mu (stepsOf c 1 d) (workOf i c) s
  match r.2.2 with
  | some (col, false) =>
    .ok (finishFactor i c idx (if c.shift && !r.1.shifted then refactor c mu d col r.1 r.2.1 else r))
  | _ => .ok (finishFactor i c idx r)

def runSubst (s : State) (i : Inst) (c : Solve) (d : Bytes) (idx : Nat) : Attempt :=
  let r := tryAll (fun t st => substStep c st t) (stepsOf c 2 d) s
  match r.2 with
  | some e => .ok (endSolve (tickFree r.1) (withFlags i (anyFlags r.1)) c idx 6 e.1)
  | none =>
    let w := if reachesEnd c 2 d then { workOf i c with stepNorm := f64Bits (normInf r.1 c (atW c) (scNcol c)) } else workOf i c
    .ok (freeFlags (setInst r.1 (withWork i c w)) i)

/-! ### DECIDE (R220) -/

def leNum (x y : Num) : Bool := !isNan x && !isNan y && !ltNum y x

def f32Wide (c : Solve) (off : Nat) : Num := f32At c.sched off

/-- The trial is accepted: its cost, and LAST_ACCEPTED. -/
def acceptTrial (x : Ctrl) (cost : Num) : Ctrl := { x with costAcc := cost, flags := x.flags ||| 2 }

def clearAccepted (x : Ctrl) : Ctrl := { x with flags := x.flags &&& 5 }

/-- The start decision. -/
def decideStart (c : Solve) (x : Ctrl) (cost : Num) : Ctrl × Bool :=
  let y := { x with costTrial := cost, pattern := fieldAt c.sched 8 4 }
  if !isFin cost then ({ y with status := 9, flags := y.flags ||| 4 }, false)
  else ({ acceptTrial y cost with mu := if scMethod c = 1 then fieldF64 c.sched 0x40 else pzero, status := 1 }, true)

/-- A later decision: CTRL, and whether X_TRIAL becomes X_ACC. -/
def decideTrial (c : Solve) (w : SolveWork) (x0 : Ctrl) (cost xnorm : Num) : Ctrl × Bool :=
  let mul := fun a b => (fMul fF64 .rne a b).1
  let x := { foldWork w x0 with iter := x0.iter + 1, costTrial := cost, pattern := fieldAt c.sched 8 4 }
  let old := x0.costAcc
  let lm := decide (scMethod c = 1)
  let r : Ctrl × Bool :=
    if isFin cost && leNum cost old then
      let y := { acceptTrial x cost with
        accepts := x.accepts + 1
        mu := if lm then (fMax (mul x.mu (f32Wide c 0x5C)) (fieldF64 c.sched 0x48)).1 else x.mu }
      let small := leNum (fSub fF64 .rne old cost).1 (mul (f32Wide c 0x34) old)
      let e := f32Wide c 0x38
      let still := leNum (decodeFloat fF64 w.stepNorm) (mul e (fAdd fF64 .rne xnorm e).1)
      (if small || still then { y with status := 2 } else y, true)
    else if !lm then ({ clearAccepted x with status := 7 }, false)
    else
      let y := { clearAccepted x with rejects := x.rejects + 1, mu := mul x.mu (f32Wide c 0x58) }
      (if ltNum (fieldF64 c.sched 0x50) y.mu then { y with status := 8 } else y, false)
  (if r.1.status = 1 ∧ r.1.iter = scMaxIter c then { r.1 with status := 3 } else r.1, r.2)

def runUpdate (s : State) (i : Inst) (c : Solve) (idx : Nat) : Attempt :=
  let x := ctrlOf s c
  let cost := costOf s c
  let xnorm := normInf s c (atXt c) (scNcol c)
  let w := workOf i c
  let r := if x.status = 0 then decideStart c x cost.1 else decideTrial c w x cost.1 xnorm
  let j := withWork (withFlags i (cost.2 ||| anyFlags s)) c { w with shifted := false }
  let ws := (if r.2 then [(atXa c, tileRead s c.tile (atXt c) (8 * scNcol c))] else []) ++ [(c.base, ctrlBytes r.1)]
  .ok (concludeSolve (setInst (tickFree s) j) j c idx r.1 ws)

/-! ### The descriptors (R100, R215, R229) -/

/-- The areas lie in the workspace; blocks, panels and frame lists name columns of the pattern (R209 to R212, R216, R217). -/
def solveFits (c : Solve) : Bool :=
  let off := fun o => fieldAt c.sched o 2
  let blocks := scNp c + scNf c
  let frameCols := scFd c * scNf c
  [(0x20, 8 * scNcol c), (0x22, 8 * scNcol c), (0x24, 64 * scGl c * scNg c), (0x26, hbBytes c), (0x28, hbBytes c)].all
      (fun p => decide (2 ≤ off p.1 ∧ off p.1 + ceilDiv p.2 64 ≤ off 0x2A))
    && (List.range (scNg c)).all (fun g =>
      let x := groupAt c g
      let dims := blockDim c x.ba + if x.bb = 0xFFFF then 0 else blockDim c x.bb
      decide (x.ba < blocks ∧ (x.bb = 0xFFFF ∨ x.ba < x.bb ∧ x.bb < blocks) ∧ scGr c * (1 + dims) ≤ 16 * scGl c))
    && (panels c).all (fun p => decide (1 ≤ p.w ∧ p.w ≤ 64 ∧ p.w ≤ p.h ∧ p.h ≤ 2048 ∧ p.a + p.w ≤ frameCols)
      && p.rows.all fun r => decide (r < frameCols))
    && ((sectionSteps c 1).filter (·.kind = 0x11)).all fun st =>
      decide (st.a < scNp c) && (framesOf c st).all fun b => decide (scNp c ≤ b ∧ b < blocks)

/-- The schedule, the workspace and the steps are as R216, R217 and R229 ask. -/
def solveGuarded (c : Solve) (d : Bytes) (sec : Nat) : Bool :=
  let t := dTref d 0x18
  decide (fieldAt c.sched 0 4 = 0x4843534B ∧ scMethod c ≤ 1 ∧ 1 ≤ scFd c ∧ scFd c ≤ 6 ∧ 1 ≤ scGr c ∧ scGr c ≤ 8)
    && decide (1 ≤ scMaxIter c ∧ scMaxIter c ≤ 64 ∧ scNp c ≤ 1024 ∧ 1 ≤ scNf c ∧ scNf c ≤ 512 ∧ 1 ≤ scNg c ∧ scNg c ≤ 16384)
    && decide (scNcol c = 3 * scNp c + scFd c * scNf c ∧ scNcol c ≤ 4096 ∧ fieldAt c.sched 4 4 ≤ 262144)
    && decide (fieldAt c.sched 0x2A 2 ≤ t.rows * t.stride ∧ c.rhs.rows = 2 ∧ c.rhs.cols = scNcol c)
    && decide (dStepFirst d + dStepCount c sec d ≤ scSteps c sec)
    && (stepsOf c sec d).all (fun st => decide (st.kind ∈ kindsOf sec)) && solveFits c

def solveBodyOk (d : Bytes) : Bool :=
  noFormats d && decide (fieldAt d 0x10 4 + 2 ≤ 0x3000 ∧ fieldAt d 0x28 1 ≤ 1 ∧ fieldAt d 0x29 1 ≤ 1) && trefOk fmtByte (dTref d 0x18)
    && trefOk 9 (dTref d 0x20) && allZero (sliceOf d 0x2A 6)

/-- A SOLVE that is to work; the line WORK is scratch whose layout is not given (R212). -/
def solveWorks (s0 : State) (i : Inst) (c : Solve) (sec : Nat) (d : Bytes) (idx : Nat) : Attempt :=
  let s := devScramble s0 (tileBase c.tile + (c.base + 64)) 64
  if sec = 0 then runAssemble s i c d else if sec = 1 then runFactor s i c d idx
  else if sec = 2 then runSubst s i c d idx else runUpdate s i c idx

/-- One SOLVE descriptor of a section (R215, R224). -/
def solveDesc (sec : Nat) (s : State) (i : Inst) (d : Bytes) (idx : Nat) : Attempt :=
  let c := solveOf s i.tile d
  let x := ctrlOf s c
  if !solveGuarded c d sec ∨ 9 < x.status then .error "R229"
  else
    let j := if x.status = 0 then withWork i c { freshWork with desc := idx } else i
    let s1 := setInst s j
    if terminal x.status then .ok s1
    else if solveCutReached s1 j c then .ok (takeSolveCut s1 j c)
    else if sec = 0 ∧ !bitOf x.flags 1 then .ok s1
    else if x.status = 0 ∧ sec ≠ 3 then .error "R229"
    else solveWorks s1 j c sec d idx

def solveRun (sec : Nat) : DescRun :=
  { ok := fun _ _ d => solveBodyOk d
    access := fun s i d =>
      let n := min 262144 (max 128 (fieldAt (tileRead s i.tile (64 * fieldAt d 0x10 4) 8) 4 4))
      { reads := (64 * fieldAt d 0x10 4, n) :: trefRanges fmtByte (dTref d 0x18) ++ trefRanges 9 (dTref d 0x20)
        writes := trefRanges fmtByte (dTref d 0x18) ++ trefRanges 9 (dTref d 0x20) }
    holds := true
    run := solveDesc sec }

def execSolveAssemble (tile ctx : Nat) (s : State) : Result := issueDesc s tile ctx 0x40 (solveRun 0)
def execSolveFactor (tile ctx : Nat) (s : State) : Result := issueDesc s tile ctx 0x41 (solveRun 1)
def execSolveSubst (tile ctx : Nat) (s : State) : Result := issueDesc s tile ctx 0x42 (solveRun 2)
def execSolveUpdate (tile ctx : Nat) (s : State) : Result := issueDesc s tile ctx 0x43 (solveRun 3)

/-! ### SOLVE_REPORT (R225) -/

/-- The report is recorded: the event's writes are made, and a copy at its target takes the cut. -/
def acceptReport (s : State) (i : Inst) (c : Solve) (r : SolveRun) : State :=
  let w := { workOf i c with report := (r.iter, r.status) }
  let j := withWork { i with solve := none } c w
  let s1 := recordReport (setInst (applyWrites s c.tile r.writes) j) j w (r.iter, r.status)
  if solveCutReached s1 j c then takeSolveCut s1 j c else s1

/-- The report is refused: nothing is written, and the copy takes the cut. -/
def refuseReport (s : State) (i : Inst) (c : Solve) : State := takeSolveCut (setInst s { i with solve := none }) { i with solve := none } c

def answerSolve (s : State) (i : Inst) (c : Solve) (r : SolveRun) : State :=
  let k := reportKey (r.iter, r.status)
  if inReplay s then
    match forcedSolveCut s i (workOf i c) with
    | some f => if reportKey f < k then factFails (acceptReport s i c r) else acceptReport s i c r
    | none => acceptReport s i c r
  else if !cutsSolves i || decide (k ≤ reportKey (targetOf s i (workOf i c))) then acceptReport s i c r
  else refuseReport s i c

def execSolveReport (tile ctx : Nat) (s : State) : Result :=
  match instOf s tile ctx with
  | none => .next s
  | some i => match i.solve with
    | none => .next s
    | some r => onlyIf s (!i.finished) (answerSolve s i (solveOf s tile (descBytes s i r.index)) r)

/-! ### The cut at a running instance (R224, R225) -/

/-- The SOLVE in flight on a context, if there is one. -/
def solveInFlight (s : State) (i : Inst) : Option Nat :=
  (i.inflight.find? fun p => decide (p.2 = 5 ∧ 0x40 ≤ dOpcode (descBytes s i p.1) ∧ dOpcode (descBytes s i p.1) ≤ 0x43)).map (·.1)

/-- The cut reaches an instance that solves. A pending report is answered by SOLVE_REPORT. -/
def cutSolve (s : State) (i : Inst) : State :=
  match solveInFlight s i with
  | none => s
  | some k =>
    let c := solveOf s i.tile (descBytes s i k)
    if solveCutReached s i c && i.solve.isNone then takeSolveCut s i c else s

end Sys2Proof.Machine
end

