-- ==== Sys2Proof/Machine/CutDeadline.lean ====
section
/-! DEFINITION. What the cycle timer raises (R231): the start of a cycle, the cut (R236), the deadline (R244,
R307, R321); and the FP_SYNC filter (R447). -/

namespace Sys2Proof.Machine

/-! ### Starts (R231, R233, R245) -/

/-- A cycle begins, its cut and deadline measured from the given AO cycle; INGEST is released if SCH runs. A cycle
whose INVALID record went out early has released no PRIMARY record (R319, R326). -/
def beginCycle (s : State) (start : Nat) : State :=
  let s1 := { s with
    cyc := { s.cyc with
      inCycle := true, prevPeriod := s.cyc.params.period, prevSync := s.cyc.params.sync, startAo := start, everStarted := true, resumedGrid := false, earlyStart := none, cutDone := false, cutT := none,
      deadlineDone := false, released := [], phaseEpoch := [], counts := .reset, item := .none, planSeen := false,
      noPlan := false, refusedItem := false, stitchBad := false, stitchRefuse := false,
      lateAbort := s.cyc.lateAbortNext, lateAbortNext := false, refineDropped := false, thinned := false, cutActed := false,
      miss := false, record := s.cyc.earlyRecord, earlyRecord := none, startMsg := none }
    lat := { s.lat with running := false, runStop := false, complete := false, failed := false, blocked := false, epoch := 0,
                        state := none, traj := [],
                        fallbackT := if s.cyc.earlyRecord.isSome then fallbackNext s else s.lat.fallbackT,
                        incumbentAge := if s.cyc.earlyRecord.isSome then ageNext s else s.lat.incumbentAge }
    safety := { s.safety with primaryOk := false } }
  let s2 := match s.cyc.startMsg with
    | some m => reply s1 m stOk
    | none => s1
  if s2.disp.schRun then releasePhase s2 0 else s2

/-- The cycle starts now, or at the boundary that has not fallen yet (R245, R250). -/
def startCycle (s : State) (start : Nat) : State :=
  if s.cyc.inCycle then { s with cyc := { s.cyc with earlyStart := some start } } else beginCycle s start

/-- The earliest AO cycle at which an accepted edge starts the next cycle, and the timer's. -/
def syncFrom (s : State) : Nat := if s.cyc.everStarted then lastStart s + 98 * gapPeriod s else s.cyc.effectAo
def syncLimit (s : State) : Nat :=
  if s.cyc.everStarted then lastStart s + 102 * gapPeriod s else s.cyc.effectAo + 102 * s.cyc.params.period

/-- SYNC mode decides the next start. -/
def nextSync (s : State) : Bool := if s.cyc.everStarted then gapSync s else s.cyc.params.sync

/-- The accepted edge that starts the next cycle: one that comes before the timer's start. -/
def startEdge (s : State) : Option Nat := s.outp.acceptAt.filter fun t => decide (syncFrom s ≤ t ∧ t ≤ syncLimit s)

/-- The AO cycle at which the next cycle starts by timer or edge, once it has come. -/
def dueStart (s : State) : Option Nat :=
  if s.cyc.dev ≠ .running ∨ s.cyc.earlyStart.isSome then none
  else if nextSync s then startEdge s
  else
    let t := if s.cyc.everStarted then lastStart s + 100 * gapPeriod s else firstStart s
    if t ≤ s.ao then some t else none

/-- CYCLE_START (R231). -/
def execCycleStart (s : State) : Result :=
  match dueStart s with
  | some t => onlyIf s true (startCycle s t)
  | none => .next s

/-- SYNC_TIMEOUT (R231): no edge by 1.02 PERIOD. -/
def execSyncTimeout (s : State) : Result :=
  onlyIf s (decide (s.cyc.dev = .running) && s.cyc.earlyStart.isNone && nextSync s && (startEdge s).isNone && decide (syncLimit s ≤ s.ao))
    (startCycle (bumpReg s offSyncLate) (syncLimit s))

/-! ### FP_SYNC (R447) -/

/-- One second of AO cycles. -/
def aoSecond : Nat := 100000000

/-- SYNC_LOST is set: logged and reported with SYNC_IGNORED. -/
def loseSync (s : State) : State :=
  let data := toLe 4 (regNat s offSyncIgnored)
  sendEvent (logIsland { s with outp := { s.outp with syncLost := true } } 0x0010 data) 0x0010 data

/-- An ignored edge; the seventeenth within a second loses the signal. -/
def ignoreEdge (s : State) : State :=
  let l := s.ao :: s.outp.ignoredAt.filter fun t => decide (s.ao < t + aoSecond)
  let s1 := bumpReg { s with outp := { s.outp with ignoredAt := l } } offSyncIgnored
  if 17 ≤ l.length ∧ ¬s.outp.syncLost then loseSync s1 else s1

/-- The edge comes too soon after the previous start: the last cycle's, or the timer's where that is past. -/
def edgeEarly (s : State) : Bool :=
  (s.cyc.everStarted && decide (s.ao < syncFrom s)) || (s.cyc.earlyStart.isNone && decide (syncLimit s < s.ao))

/-- An accepted edge too early to start a cycle is counted (R231). -/
def acceptEdge (s : State) : State :=
  let s1 := { s with outp := { s.outp with acceptAt := some s.ao } }
  if s.cyc.dev = .running && nextSync s && edgeEarly s then bumpReg s1 offSyncEarly else s1

/-- FP_SYNC_EDGE: a qualified edge, at its second sample. -/
def execFpSyncEdge (s : State) : Result :=
  let spaced := match s.outp.acceptAt with
    | some t => decide (t + 50000 ≤ s.ao)
    | none => true
  onlyIf s true (if spaced && !s.outp.syncLost then acceptEdge s else ignoreEdge s)

def execSyncLostClear (s : State) : Result :=
  onlyIf s (s.outp.syncLost && s.outp.ignoredAt.all fun t => decide (t + aoSecond ≤ s.ao))
    { s with outp := { s.outp with syncLost := false, ignoredAt := [] } }

/-! ### Batches left undispatched (R280 RANGE) -/

/-- Maximal runs of an ascending list. -/
def runsFrom (a e : Nat) : List Nat → List (Nat × Nat)
  | [] => [(a, e)]
  | x :: t => if x = e then runsFrom a (e + 1) t else (a, e) :: runsFrom x (x + 1) t

def runsOf : List Nat → List (Nat × Nat)
  | [] => []
  | x :: t => runsFrom x (x + 1) t

/-- RANGE entries of a copy once more batches stay undispatched. -/
def leaveBatches (s : State) (taskId copy : Nat) (l : List Nat) : State :=
  let mine := fun f : Fact => decide (f.kind = 2 ∧ f.taskId = taskId ∧ f.copy = copy)
  let old := ((s.cyc.facts.filter mine).map fun f => (List.range f.valB).filter fun b => decide (f.valA ≤ b)).flatten
  let new := (runsOf (sortNat (old ++ l))).map fun r : Nat × Nat =>
    ({ kind := 2, copy := copy, taskId := taskId, batch := r.1, desc := 0xFFFF, valA := r.1, valB := r.2 } : Fact)
  { s with cyc := { s.cyc with facts := s.cyc.facts.filter (fun f => !mine f) ++ new } }

/-- A copy of a batched task stays undispatched in the given batches. -/
def leaveCopy (s : State) (t : Task) (copy : Nat) (l : List Nat) : State :=
  if t.units = 0 ∨ l = [] then s else leaveBatches s t.taskId copy l

/-- A due task whose phase is never released. -/
def leaveTask (s : State) (t : Task) : State :=
  let s1 := leaveCopy s t 0 (List.range t.units)
  if t.safe then leaveCopy s1 t 1 (List.range t.units) else s1

/-! ### The cut (R236, R304) -/

def isCutPhase (p : Nat) : Bool := decide (p = 4 ∨ p = 7)

/-- Batches of a ready entry that the cut stops: a SAFE batch stays while its other copy has been dispatched. -/
def stoppedBatches (s : State) (e : Ready) : List Nat :=
  if isCutPhase e.task.phase then e.pending.filter fun b => !s.disp.openSafe.any fun o => decide (o.1 = e.task.taskId ∧ o.2.1 = b)
  else []

/-- One entry at the cut: its RANGE entries, UNITS_CUT and CAUSE bits. -/
def cutEntry (s : State) (e : Ready) : State :=
  let gone := stoppedBatches s e
  if gone = [] then s
  else
    let s1 := leaveCopy s e.task e.copy gone
    let n := if e.task.phase = 4 ∧ e.copy = 0 ∧ e.task.units ≠ 0 then gone.length else 0
    { s1 with cyc := { s1.cyc with
      cutActed := true, refineDropped := s1.cyc.refineDropped || decide (e.task.phase = 7),
      counts := { s1.cyc.counts with unitsCut := s1.cyc.counts.unitsCut + n } } }

/-- The ready lists lose what the cut stops. -/
def cutLists (s : State) : State :=
  let s1 := s.disp.ready.foldl cutEntry s
  { s1 with disp := { s1.disp with
    ready := (s.disp.ready.map fun e => { e with pending := e.pending.filter fun b => decide (b ∉ stoppedBatches s e) }).filter
      fun e => decide (e.pending ≠ []) } }

/-- Phases up to CHECK, and REFINE, that were never released. -/
def cutPhases (s : State) : State :=
  let skip := (dueTasks s).filter fun t => decide ((t.phase ≤ 4 ∨ t.phase = 7) ∧ t.phase ∉ s.cyc.released)
  let s1 := skip.foldl leaveTask s
  let units := ((skip.filter (·.phase = 4)).map (·.units)).sum
  { s1 with cyc := { s1.cyc with
    cutActed := s1.cyc.cutActed || skip.any fun t => isCutPhase t.phase
    refineDropped := s1.cyc.refineDropped || skip.any fun t => decide (t.phase = 7)
    counts := { s1.cyc.counts with unitsFull := s1.cyc.counts.unitsFull + units, unitsCut := s1.cyc.counts.unitsCut + units } } }

/-- The cut reaches a running instance: the SWEEPs of a CHECK instance, the solves of a REFINE instance (R185, R224,
R236). -/
def cutInstance (s : State) (i : Inst) : State :=
  let j := { i with cut := true }
  let s1 := setInst s j
  if cutsSolves j then cutSolve s1 j
  else match (if cutsSweeps j then sweepOf j else none) with
    | none => s1
    | some w => sweepGo s1 j (descBytes s1 j w.index) w

/-- The cut (R236): lists, phases, instances, then Latigo's start against the newest epoch (R242, R317). -/
def cutNow (s : State) : State :=
  let s1 := cutPhases (cutLists { s with cyc := { s.cyc with cutDone := true, cutT := some (cutTime s) } })
  let s2 := (s1.disp.running.filter fun i => !i.finished && isCutPhase i.task.phase).foldl cutInstance s1
  let s3 := traceRec s2 6 0 0 s2.cyc.seq.toNat s2.cyc.counts.candChecked
  startLatigo s3 s3.world.newest (cutTime s3)

def execCut (s : State) : Result :=
  onlyIf s (decide (s.cyc.dev = .running) && s.cyc.inCycle && !s.cyc.cutDone && !s.cyc.deadlineDone && decide (cutAo s ≤ s.ao))
    (cutNow s)

/-! ### The deadline (R244, R307) -/

/-- The other copy of a SAFE batch that was never dispatched: its record counts as DEADLINE_ABORT (log entry 19). -/
def absentCopies (s : State) (e : Ready) : List (Nat × SigRec) :=
  if e.task.safe then
    (e.pending.filter fun b => s.disp.openSafe.any fun o => decide (o.1 = e.task.taskId ∧ o.2.1 = b)).map fun b =>
      (e.tile / 16, { taskId := e.task.taskId, batch := b, tile := e.tile, copy := e.copy, status := csDeadlineAbort, len := 0,
                      seq := s.cyc.seq, crc := 0 })
  else []

/-- Nothing of the cycle is dispatched any more. -/
def clearLists (s : State) : State :=
  let s1 := s.disp.ready.foldl (fun t e => leaveCopy t e.task e.copy e.pending) s
  let skip := (dueTasks s).filter fun t => decide (t.phase ∉ s.cyc.released) && !(s.cyc.cutDone && decide (t.phase ≤ 4 ∨ t.phase = 7))
  let s2 := skip.foldl leaveTask s1
  { s2 with disp := { s2.disp with ready := [] }
            safety := { s2.safety with sigQ := s2.safety.sigQ ++ (s.disp.ready.map (absentCopies s)).flatten } }

/-- The instance that handed something over is one of those given. -/
def madeBy (l : List Inst) (o : Nat × Nat × Nat) : Bool := l.any fun i => decide ((i.task.taskId, i.batch, i.copy) = o)

/-- What aborted instances handed over and no consumer has taken yet is discarded: items in reorder buffers, batches not yet
copied (R244, log entry 19). -/
def discardOutputs (s : State) (l : List Inst) : State :=
  { s with
    flows := s.flows.map fun x => { x with items := x.items.filter fun p => !madeBy l p.owner }
    world := { s.world with taskQ := s.world.taskQ.filter fun b => !(match b.owner with | some o => madeBy l o | none => false) } }

/-- Every running instance is aborted, its outputs discarded; LATE_ABORT goes into the record still to come (R244, R247). -/
def abortAll (s : State) : State :=
  let live := s.disp.running.filter fun i => !i.finished
  let s1 := discardOutputs (live.foldl (fun t i => abortAt t i.tile i.ctx csDeadlineAbort) s) live
  if live.isEmpty then s1
  else if s.cyc.record.isNone then { s1 with cyc := { s1.cyc with lateAbort := true } }
  else { s1 with cyc := { s1.cyc with lateAbortNext := true } }

/-- A Latigo that is still running ends without a record (R320). -/
def stopLatigo (s : State) : State :=
  if s.lat.running then endLatigo { s with lat := { s.lat with failed := true } } else s

/-- A plan item that waits for its request or its judgement is refused (R305, R307). -/
def lapseItem (s : State) : State :=
  match s.cyc.item with
  | .admitted _ => { s with cyc := { s.cyc with item := .refused } }
  | .waiting _ => { s with cyc := { s.cyc with item := .refused } }
  | _ => s

/-- No grant by the deadline; in the safe state, the conditions of R241 apart from it did not all hold (R321). -/
def missed (s : State) : Bool := if s.safety.safe then !s.safety.primaryOk else s.cyc.record.isNone

/-- The cycle's record at the deadline, if it is still to come (R242, R243, R326). -/
def deadlineRecord (s : State) : State :=
  if s.cyc.record.isSome then s
  else if s.safety.safe then releaseRecord s (invalidRecord s)
  else latigoDue s

/-- What the deadline finds of Latigo: one still running has failed, and the record goes out. -/
def settleDeadline (s : State) : State := deadlineRecord (stopLatigo s)

/-- The deadline. A Latigo still running may complete until the end of the deadline's own AO cycle (R250). -/
def deadlineNow (s : State) : State :=
  let s1 := lapseItem (abortAll (clearLists { s with cyc := { s.cyc with deadlineDone := true } }))
  let s2 := if missed s1 then markMiss s1 else s1
  if s2.lat.running && decide (s2.ao = deadlineAo s2) then s2 else settleDeadline s2

/-- The end of the deadline's AO cycle (R250). -/
def settleIfDue (s : State) : State := if s.cyc.inCycle && s.cyc.deadlineDone && s.lat.running then settleDeadline s else s

def execDeadline (s : State) : Result :=
  onlyIf s (decide (s.cyc.dev = .running) && s.cyc.inCycle && !s.cyc.deadlineDone && decide (deadlineAo s ≤ s.ao)) (deadlineNow s)

end Sys2Proof.Machine
end

