-- ==== Sys2Proof/Machine/Lifecycle.lean ====
section
/-! DEFINITION. START, PAUSE, RESUME, SAVE, CKPT_PUT, REPLAY and REPLAY_DATA (R286 to R290, R395, R397). -/

namespace Sys2Proof.Machine

/-- The device is past its boot (R463). -/
def deviceReady (s : State) : Bool := decide (s.boot.stage = 7)

/-- In tack mode they wait for the next WORLD phase (R277). -/
def holdAllHost (s : State) : State := { s with world := { s.world with hostQ := s.world.hostQ.map fun b => { b with held := true } } }

/-- A run begins or goes on; the host-loss timer counts from here when it was held (R398, log entry 47). -/
def enterRun (s : State) (dev : DevState) : State :=
  let s1 := if s.cyc.dev = .stopped then { s with host := { s.host with timerAt := s.ao } } else s
  { s1 with cyc := { s1.cyc with dev := dev, effectAo := s.ao, everStarted := false, resumedGrid := false, earlyStart := none } }

/-! ### START (R111, R232, R249, R264, R283, R395) -/

/-- What a run starts from. -/
def startRun (s : State) (m : Msg) (tack : Bool) : State :=
  let s1 := resetRings (devWrite (devWrite s incumbentBase [0]) latigoStateBase (zeros 64))
  let s2 := enterRun { s1 with
    cyc := { s1.cyc with tack := tack, seq := 0, seqRun := true, startMsg := some m, prevDigest := zeros 48, facts := [],
                         earlyRecord := none }
    lat := { s1.lat with prevTraj := [], usedStamp := 0 } } .running
  if tack then holdAllHost s2 else s2

/-- A staged image becomes active first (R111). -/
def startStatus (s : State) : State × Nat :=
  if !deviceReady s then (s, stNotReady)
  else match s.load.staged with
    | .verified i _ => activateImage s i
    | _ => (s, if s.load.active.isSome then stOk else stNoImage)

def startCommand (s : State) (m : Msg) : State :=
  if s.cyc.dev ≠ .stopped then reply s m stNotStopped
  else if 1 < fieldAt m.payload 0 1 then replyBadArg s m 0
  else
    let r := startStatus s
    if r.2 = stOk then startRun r.1 m (decide (fieldAt m.payload 0 1 = 1)) else reply r.1 m r.2

def execStart (s : State) : Result :=
  withFront s .sch (isOp 0x40) fun m t => if rsvdZero m.payload [(1, 15)] then .next (startCommand t m) else .fault (.unguarded "R10")

/-! ### PAUSE (R286, R395) -/

def pauseCommand (s : State) (m : Msg) : State :=
  if s.cyc.dev = .running then { s with cyc := { s.cyc with pauseMsg := some m } } else reply s m stNotRunning

def execPause (s : State) : Result := if s.cyc.pauseMsg.isSome then .next s else withFront s .sch (isOp 0x42) fun m t => .next (pauseCommand t m)

/-! ### RESUME (R231, R287, R289) -/

def resumeCommand (s : State) (m : Msg) : State :=
  if s.cyc.dev ≠ .paused then reply s m stNotPaused
  else
    let s1 := enterRun s .running
    let s2 := { s1 with cyc := { s1.cyc with resumedGrid := !s.cyc.params.sync } }
    replyData (if s.cyc.tack then s2 else unholdHost s2) m (toLe 4 0)

/-- RS_FLAGS: bit 0 CKPT. -/
def resumeCkpt (m : Msg) : Bool := bitOf (fieldAt m.payload 0 1) 0

def resumeRsvd (m : Msg) : Bool := decide (fieldAt m.payload 0 1 < 2) && rsvdZero m.payload [(1, 15)]

def execResume (s : State) : Result :=
  withFront s .sch (fun m => isOp 0x43 m && !resumeCkpt m) fun m t =>
    if resumeRsvd m then .next (resumeCommand t m) else .fault (.unguarded "R10")

/-- No batch is inside the update engine. -/
def worldIdle (s : State) : Bool := s.world.built.isNone && (s.world.hostQ ++ s.world.staged).all (·.held)

def resumeCkptCommand (s : State) (m : Msg) : State :=
  if ¬(s.cyc.dev = .paused ∨ s.cyc.dev = .stopped) then reply s m stNotPaused
  else if !deviceReady s then reply s m stNotReady
  else
    let r := restoreCkpt s
    if r.1 = stOk then replyData (enterRun r.2 .running) m (toLe 4 (heldBatches s)) else reply s m r.1

/-- RESUME with a checkpoint; a batch in the update engine is finished first (log entry 49). -/
def execResumeCheckpoint (s : State) : Result :=
  if atOnce s && !worldIdle s then .next s
  else withFront s .sch (fun m => isOp 0x43 m && resumeCkpt m) fun m t =>
    if resumeRsvd m then .next (resumeCkptCommand t m) else .fault (.unguarded "R10")

/-! ### SAVE and CKPT_PUT (R288, R395) -/

def saveCommand (s : State) (m : Msg) : State :=
  if !atOnce s then reply s m stNotPaused
  else
    let bs := ckptBytes s
    replyData (devWrite s ckptBase bs) m (toLe 4 bs.length ++ zeros 12 ++ sliceOf bs 0xB0 48)

def execSave (s : State) : Result := withFront s .sch (isOp 0x44) fun m t => .next (saveCommand t m)

/-- A checkpoint longer than its area is out of range (log entry 47). -/
def execCkptPut (s : State) : Result :=
  withFront s .sch (isOp 0x45) fun m t =>
    if !atOnce t then .next (reply t m stNotPaused)
    else if ckptMax < (pieceOf m).total then .next (replyBadArg t m 8)
    else pieceRun0 t m fun u bs => .next (reply (devWrite u ckptBase bs) m stOk)

/-! ### REPLAY (R290, R291) -/

/-- The queues hold nothing but what the packages bring (log entry 48). -/
def emptyQueues (s : State) : State :=
  { s with ing := { s.ing with queues := s.ing.queues.map fun x =>
    { x with words := [], rPtr := x.wPtr, bPtr := x.wPtr, markValid := false, frames := [] } } }

def replayCommand (s : State) (m : Msg) : State :=
  let n := fieldAt m.payload 0 1
  if s.cyc.dev ≠ .stopped then reply s m stNotStopped
  else if n = 0 ∨ 64 < n then replyBadArg s m 0
  else if !deviceReady s then reply s m stNotReady
  else
    let r := restoreCkpt s
    if r.1 = stOk then
      let s0 := enterRun (emptyQueues r.2) .replay
      let s1 := { s0 with cyc := { s0.cyc with lateAbortNext := false } }
      reply { s1 with rep := some { cycles := n, index := 0, packages := [], stopReq := false, factError := false } } m stOk
    else reply s m r.1

def execReplay (s : State) : Result :=
  if atOnce s && !worldIdle s then .next s
  else withFront s .sch (isOp 0x46) fun m t =>
    if rsvdZero m.payload [(1, 15)] then .next (replayCommand t m) else .fault (.unguarded "R10")

/-! ### REPLAY_DATA (R290, R397) -/

def parseFact (b : Bytes) : Fact :=
  { kind := fieldAt b 0 1, copy := fieldAt b 1 1, taskId := fieldAt b 2 2, batch := fieldAt b 4 2, desc := fieldAt b 6 2,
    valA := fieldAt b 8 4, valB := fieldAt b 12 4 }

/-- One section of a package: an 8-byte length, then the content; the rest. -/
def pkgSection (bs : Bytes) : Option (Bytes × Bytes) :=
  let n := fieldAt bs 0 8
  if 8 + n ≤ bs.length then some (sliceOf bs 8 n, bs.drop (8 + n)) else none

def pkgSections : Nat → Bytes → Option (List Bytes × Bytes)
  | 0, bs => some ([], bs)
  | n + 1, bs => match pkgSection bs with
    | none => none
    | some (x, rest) => (pkgSections n rest).map fun p => (x :: p.1, p.2)

/-- A queue's frames: a 4-byte length and the frame padded to 8 bytes. -/
def pkgFrames : Nat → Bytes → Option (List Bytes)
  | 0, bs => if bs = [] then some [] else none
  | n + 1, bs =>
    if bs = [] then some []
    else
      let len := fieldAt bs 0 4
      let size := 8 * ceilDiv (4 + len) 8
      if bs.length < size then none else (pkgFrames n (bs.drop size)).map fun t => sliceOf bs 4 len :: t

/-- The host batches, each of the length its OP_COUNT gives. -/
def pkgBatches (bs : Bytes) : Option (List Bytes) :=
  let l := splitBatches bs (bs.length / 32) 0
  if (l.map (·.length)).sum = bs.length ∧ l.all fun b => decide (b.length = 32 + 16 * batchOps b) then some l else none

/-- The package of a cycle: 17 sections; none where it is not laid out as R397 says. -/
def parsePkg (index : Nat) (bs : Bytes) : Option ReplayPkg :=
  match pkgSections 17 bs with
  | none => none
  | some (l, rest) =>
    let facts := l.getD 0 []
    let n := fieldAt facts 12 4
    match ((List.range 14).map fun q => pkgFrames 32768 (l.getD (2 + q) [])), pkgBatches (l.getD 16 []) with
    | frames, some batches =>
      if rest = [] ∧ frames.all Option.isSome ∧ facts.length = 64 + 16 * n ∧ (l.getD 1 []).length = 48 ∧ facts.take 5 = [0x46, 0x43, 0x54, 0x53, 1] then
        some { index := index, header := facts.take 64, facts := (List.range n).map fun i => parseFact (sliceOf facts (64 + 16 * i) 16),
               digest := l.getD 1 [], frames := frames.map (·.getD []), batches := batches }
      else none
    | _, none => none

/-- The cycle's facts can be replayed: no OVERFLOW, and the CYCLE_SEQ that follows. -/
def pkgReplayable (s : State) (r : Replay) (p : ReplayPkg) : Bool :=
  !bitOf (fieldAt p.header 6 1) 0 && decide (fieldAt p.header 8 4 = (s.cyc.seq + BitVec.ofNat 32 (p.index - r.index)).toNat)

/-- A package buffer is free for the index: two stand in the checkpoint area. -/
def bufferFree (r : Replay) (i : Nat) : Bool :=
  decide (r.index ≤ i ∧ i < r.index + 2 ∧ i < r.cycles) && !r.packages.any fun p => decide (p.index = i)

def keepPackage (s : State) (r : Replay) (m : Msg) (i : Nat) (bs : Bytes) : State :=
  match parsePkg i bs with
  | none => reply s m stNotReplayable
  | some p =>
    if pkgReplayable s r p then reply { s with rep := some { r with packages := r.packages ++ [p] } } m stOk
    else reply s m stNotReplayable

def replayPiece (s : State) (r : Replay) (m : Msg) : Result :=
  let p := pieceOf m
  if !bufferFree r p.obj then .next (replyBadArg s m 0)
  else if 0x2000000 < p.total then .next (replyBadArg s m 8)
  else pieceRun s m fun u bs => .next (keepPackage u r m p.obj bs)

def execReplayData (s : State) : Result :=
  withFront s .sch (isOp 0x47) fun m t =>
    match t.rep with
    | some r => if t.cyc.dev = .replay then replayPiece t r m else .next (reply t m stNotStopped)
    | none => .next (reply t m stNotStopped)

end Sys2Proof.Machine
end

