-- ==== Sys2Proof/Machine/Boundary.lean ====
section
/-! DEFINITION. The plan-cycle boundary (R245, R279, R286, R293), a substitution's end (R50) and the start of a replayed
cycle (R291). -/

namespace Sys2Proof.Machine

/-! ### When the boundary falls (R142, R245) -/

/-- No instance, ready-list entry or record of one is left. -/
def workOver (s : State) : Bool :=
  s.disp.running.isEmpty && s.disp.ready.isEmpty && s.disp.compQ.isEmpty && s.safety.sigQ.isEmpty && s.world.taskQ.isEmpty

/-- Every phase has completed and so has Latigo, unless its tiles keep it from running. -/
def cycleOver (s : State) : Bool :=
  (List.range 11).all (phaseComplete s) && !s.lat.running && (latigoEnded s || !(latigoTiles s).all (tileWorks s))

/-- No batch is left that may still be published in a replayed cycle. -/
def worldQuiet (s : State) : Bool := s.world.built.isNone && (s.world.hostQ ++ s.world.taskQ ++ s.world.staged).all (·.held)

def publishes (s : State) : Nat := (s.cyc.facts.filter (·.kind = 9)).length

/-- A replayed cycle has published what was recorded. -/
def replayDone (s : State) : Bool := !inReplay s || decide ((forced s 9).length ≤ publishes s)

def boundaryReady (s : State) : Bool :=
  s.cyc.record.isSome && workOver s && (cycleOver s || s.cyc.deadlineDone) && replayDone s

/-! ### The end of a replayed cycle (R291 to R293, log entry 48) -/

/-- A recorded steal that can be applied: its place among the thief's batches has come, and its batch waits. -/
def stealReady (s : State) : Bool :=
  (List.range 256).any fun t => match stealDue s t with
    | some f => (replayVictim s f).isSome
    | none => false

/-- A recorded steal cannot be applied (R293): nothing runs, what waits is all to be stolen, and no steal's place has come; or a
steal's place has come and its batch is in no list though its phase was released. -/
def stealStuck (s : State) : Bool :=
  inReplay s &&
    ((s.disp.running.isEmpty && !s.disp.ready.isEmpty && s.disp.ready.all (fun e => decide (ownPending s e = [])) && !stealReady s
        && (!phaseComplete s 0 || decide (10 ∈ s.cyc.released) || (dueIn s 10).isEmpty))
      || (List.range 256).any fun t => match stealDue s t with
        | some f => (replayVictim s f).isNone && (dueTasks s).any fun u => decide (u.taskId = f.taskId ∧ u.phase ∈ s.cyc.released)
        | none => false)

/-- A recorded cut of a SWEEP or a solve that the run did not reach. -/
def cutUnmet (s : State) (f : Fact) : Bool :=
  !s.cyc.facts.any (fun g => decide (g.kind = f.kind ∧ g.taskId = f.taskId ∧ g.batch = f.batch ∧ g.desc = f.desc ∧ g.copy = f.copy))
    && !(forced s 6).any fun g => decide (g.taskId = f.taskId ∧ g.batch = f.batch)

/-- The record of a cycle without a plan item, or in the safe state, goes out; facts left over cannot be applied. -/
def closeReplayed (s : State) : State :=
  if stealStuck s then factFails s
  else if !(inReplay s && workOver s && cycleOver s) then s
  else
    let s1 :=
      if s.cyc.record.isSome then s
      else if s.safety.safe then releaseRecord s (invalidRecord s)
      else match s.cyc.item with
        | .none => refuseItem { s with cyc := { s.cyc with noPlan := true } }
        | _ => latigoIfDue s
    if (forced s1 4 ++ forced s1 5).any (cutUnmet s1) || (worldQuiet s1 && !replayDone s1) then factFails s1 else s1

def factError (s : State) : Bool :=
  match s.rep with
  | some r => r.factError
  | none => false

/-! ### Step 1: holds end (R146) -/

def endHolds (s : State) : State :=
  reapEpochs { s with
    world := { s.world with table := s.world.table.map fun p => (p.1, { p.2 with holds := 0 }) }
    disp := { s.disp with openSafe := [], acks := [], solveAcks := [] }
    cyc := { s.cyc with phaseHeld := [] } }

/-! ### Step 2: counters, flags, flows, banks (R88, R123, R266, R360) -/

/-- Every ON bank of every tile enters retention. -/
def retainBanks (s : State) : State :=
  { s with plat := { s.plat with bankBase := 1, banks := s.plat.banks.filter (·.2 = 2) } }

/-- Token counters, FULL flags and pending stream entries, flows, banks; no context waits for a test any more (R257). -/
def clearTokens (s : State) : State :=
  retainBanks (emptyFlows { s with disp := { s.disp with
    tokens := [], inbound := [], full := [], leftover := [], freedAt := [], starved := [] } })

/-- The comparator's table is empty from here on (R303). -/
def clearStitch (s : State) : State :=
  addReg { s with safety := { s.safety with stitch := [] } } offStitchDropped s.safety.stitch.length

/-! ### Step 3: the incumbent (R249), and the facts record (R279) -/

def incumbentImage (s : State) (r : Released) : Bytes :=
  [1] ++ zeros 3 ++ toLe 4 s.cyc.seq.toNat ++ sliceOf r.bytes 0x30 4 ++ toLe 4 s.lat.incumbentAge ++ zeros 48 ++ r.trajectory

def keepIncumbent (s : State) (r : Released) : State :=
  if r.source = 0 then devWrite s incumbentBase (incumbentImage s r) else s

def headOf (r : Released) : RecordHead :=
  { state := r.state, source := r.source, cause := r.cause.toNat, recheckEpoch := fieldAt r.bytes 0x30 4 }

def cycleFacts (s : State) (r : Released) : Bytes := factsRecord s (headOf r) s.rep.isSome

def keepFacts (s : State) (r : Released) : State :=
  let n := s.cyc.seq.toNat
  let s1 := devWrite s (factsSlot n) (cycleFacts s r)
  { s1 with cyc := { s1.cyc with factsSlots := n :: s1.cyc.factsSlots.filter fun q => decide (q % 64 ≠ n % 64) } }

/-! ### Step 4: pending settings (R404, R505) -/

def settingsInForce (s : State) : State :=
  recheckLost (latigoListsDue (applyWritten (paramsInForce (activateDue (weightsInForce (profilesInForce s))))))

/-! ### Step 5: substitutions (R49 to R51, R324) -/

/-- The name is lost. -/
def loseTile (s : State) (t : Nat) : State :=
  let s1 := setSpare s (t / 16) fun sp =>
    { sp with lost := sp.lost ||| BitVec.ofNat 16 (2 ^ (t % 16)), pending := sp.pending.filter (· ≠ t) }
  let s2 := { s1 with disp := { s1.disp with quarantined := s1.disp.quarantined.filter (· ≠ t) } }
  recheckLost (enterSafe (raiseOpenFault s2 fsTileMap fSpareExhausted) 16)

/-- A name due for substitution: its spare is taken up, or waits for the cluster's CCC (R410), or the name is lost. -/
def substTile (s : State) (t : Nat) : State :=
  let sp := s.plat.spares.getD (t / 16) .reset
  if sp.begun = some t then s
  else if sp.st ≠ 0 ∨ sp.begun.isSome then loseTile s t
  else if s.disp.cccRun.getD (t / 16) false then
    let s1 := setSpare s (t / 16) fun x => { x with begun := some t }
    { s1 with disp := { s1.disp with quarantined := addOnce s1.disp.quarantined t } }
  else s

def substitute (s : State) : State := (s.plat.spares.flatMap (·.pending)).foldl substTile s

/-! ### Counts (R319, R321, R323, R327, R328) -/

/-- The cycle is clean; Latigo BLOCKED has completed stitch-checked (log entry 39). -/
def cleanCycle (s : State) : Bool :=
  s.safety.primaryOk && (s.lat.complete || s.lat.blocked) && !s.lat.failed && decide (s.safety.mismatchNow = 0)

def shiftCounts (s : State) : State :=
  let y := s.safety
  { s with
    safety := { y with
      clean := if cleanCycle s then min 15 (y.clean + 1) else 0
      missRun := if s.cyc.miss then y.missRun else 0
      mismatchMask := y.mismatchMask <<< 1 ||| (if 0 < y.mismatchNow then 1 else 0)
      mismatchNow := 0
      worldFullRun := if y.worldFullNow then y.worldFullRun + 1 else 0
      worldFullNow := false, selfGap := 0, selfSpec := y.selfSpecNext.getD y.selfSpec, selfSpecNext := none }
    plat := { s.plat with boundaries := s.plat.boundaries + 1 } }

/-- An accepted SAFE_CLEAR that no later cause has undone takes effect. -/
def clearIfDue (s : State) : State := if s.safety.clearPending then clearSafe s else s

/-! ### Step 6: the next cycle, STOP and PAUSE (R232, R286) -/

/-- What belongs to the ended cycle alone goes. -/
def nextSeq (s : State) (r : Released) : State :=
  let live := fun e : Nat => s.world.table.any fun p => decide (p.2.num = e)
  { s with
    cyc := { s.cyc with
      seq := s.cyc.seq + 1, inCycle := false, boundaryAt := some s.ao, prevDigest := r.digest, framesDone := [], queueBytes := [], batchPos := [], facts := [] }
    lat := { s.lat with prevTraj := s.lat.traj }
    world := { s.world with chains := s.world.chains.filter fun c => live c.1, badLines := [] }
    ing := { s.ing with flagged := [] }
    disp := { s.disp with waiters := s.disp.waiters.filter (·.1 = 4), granted := s.disp.granted.filter (·.1 = 4) }
    links := { s.links with colls := [], early := [] } }

def answerMsg (s : State) (m : Option Msg) (st : Nat) : State :=
  match m with
  | some x => reply s x st
  | none => s

/-- STOP, or else PAUSE, takes effect; STOP wins. -/
def stopOrPause (s : State) : State :=
  let msgs := s.cyc
  let s1 := { s with cyc := { s.cyc with stopMsg := none, pauseMsg := none } }
  if msgs.stopMsg.isSome then
    answerMsg (answerMsg (stopNow { s1 with cyc := { s1.cyc with earlyStart := none } }) msgs.pauseMsg stNotRunning) msgs.stopMsg stOk
  else if msgs.pauseMsg.isSome then
    answerMsg (linesStatic { s1 with cyc := { s1.cyc with dev := .paused, earlyStart := none } }) msgs.pauseMsg stOk
  else s1

/-- The nonzero words of the window's image for READ_COUNTERS (R395): offsets 0x1000 to 0x9FFF. -/
def windowWords (s : State) : List (Nat × Word) :=
  (List.range 9216).filterMap fun i =>
    let v := BitVec.ofNat 32 (regRead s (0x1000 + 4 * i))
    if v = 0 then none else some (0x1000 + 4 * i, v)

def snapCounters (s : State) : State := { s with plat := { s.plat with counters := windowWords s } }

/-- The next cycle begins here when its start has come already (R245). -/
def startEarly (s : State) : State :=
  match s.cyc.earlyStart with
  | some t => if s.cyc.dev = .running then beginCycle s t else s
  | none => s

/-! ### Replayed boundaries (R290, R293, R397) -/

/-- No fact was created that the recorded cycle lacks. -/
def factsKnown (s : State) (p : ReplayPkg) : Bool := (allFacts s).all fun f => decide (f ∈ p.facts)

def replayMatch (s : State) (r : Released) : Bool :=
  match curPkg s with
  | some p => decide (p.digest = r.digest) && factsKnown s p
  | none => false

/-- REPLAY_RESULT's data: the record, the facts record, MATCH (log entry 8). -/
def replayResult (s : State) (r : Released) : Bytes := r.bytes ++ cycleFacts s r ++ toLe 1 (boolNat (replayMatch s r))

/-- A replay ends: STOPPED, a STOP answered. -/
def endReplay (s : State) : State :=
  let s1 := stopNow { s with rep := none, cyc := { s.cyc with stopMsg := none, earlyStart := none } }
  answerMsg s1 s.cyc.stopMsg stOk

/-- The next package that may be sent: the lowest index in the two-package window not delivered yet. -/
def nextPackage (r : Replay) : Option Nat := [r.index + 1, r.index + 2].find? fun i =>
  decide (i < r.cycles) && !r.packages.any fun p => decide (p.index = i)

/-- CKPT_READY (R397); where no package is left to send its index is open (log entry 9). -/
def ckptReady (s : State) (r : Replay) : State :=
  tickFree (sendEvent s 0x0008 (toLe 1 ((nextPackage r).getD (Config.freeNat 96 s.disp.freeCtr % 256)) ++ zeros 3))

/-- The result goes out, the package's buffer is free, and the replay goes on or ends. -/
def replayOn (s : State) (r : Replay) (result : Bytes) : State :=
  let s2 := ckptReady (sendEvent s 0x0009 result) r
  if r.stopReq ∨ r.cycles ≤ r.index + 1 then endReplay s2
  else { s2 with rep := some { r with index := r.index + 1, packages := r.packages.filter (·.index ≠ r.index) } }

/-- A forced fact could not be applied: the cycle in progress is abandoned, and the replay ends. -/
def abandonReplay (s : State) : State :=
  let live := s.disp.running.filter fun i => !i.finished
  let s1 := live.foldl (fun t i => abortSets (dropStream t i) i) s
  let s2 := { s1 with
    disp := { s1.disp with running := [], ready := [], compQ := [], waiters := s1.disp.waiters.filter (·.1 = 4), granted := s1.disp.granted.filter (·.1 = 4) }
    lat := { s1.lat with running := false }
    safety := { s1.safety with sigQ := [], stitch := [] }
    links := { s1.links with colls := [], early := [] }
    cyc := { s1.cyc with inCycle := false, boundaryAt := some s1.ao, facts := [], framesDone := [], queueBytes := [], batchPos := [] } }
  endReplay (sendOpenEvent (settingsInForce (clearTokens (endHolds s2))) 0x000A)

/-! ### STOP (R286, R395) -/

/-- STOP in REPLAY: at the next boundary, or at once between cycles, settings that still wait coming into force (R505, log entry
48). -/
def stopReplay (s : State) (m : Msg) : State :=
  let s1 := { s with cyc := { s.cyc with stopMsg := some m } }
  if s.cyc.inCycle then { s1 with rep := s1.rep.map fun r => { r with stopReq := true } } else endReplay (settingsInForce s1)

def stopCommand (s : State) (m : Msg) : State :=
  match s.cyc.dev with
  | .stopped => reply s m stNotRunning
  | .paused => reply (stopNow s) m stOk
  | .running => { s with cyc := { s.cyc with stopMsg := some m } }
  | .replay => stopReplay s m

/-- A second STOP waits for the first (log entry 47). -/
def execStop (s : State) : Result := if s.cyc.stopMsg.isSome then .next s else withFront s .sch (isOp 0x41) fun m t => .next (stopCommand t m)


/-! ### BOUNDARY -/

/-- Up to step 5, with the counts of the ended cycle. -/
def endCycle (s : State) (r : Released) : State :=
  let s1 := clearStitch (clearTokens (endHolds (rejoinAll s)))
  let s2 := keepFacts (keepIncumbent s1 r) r
  clearIfDue (shiftCounts (substitute (settingsInForce s2)))

def passBoundary (s : State) (r : Released) : State :=
  let s1 := updateReach (nextSeq (endCycle s r) r)
  match s1.rep with
  | some p => snapCounters (replayOn s1 p (replayResult s r))
  | none => startEarly (snapCounters (stopOrPause s1))

def execBoundary (s : State) : Result :=
  if s.boot.inReset || !s.cyc.inCycle || atOnce s then .next s
  else
    let s1 := closeReplayed s
    if factError s1 then .next (abandonReplay s1)
    else match s1.cyc.record with
      | some r => if boundaryReady s1 then .next (passBoundary s1 r) else .next s
      | none => .next s

/-! ### SPARE_IN (R50 steps 3 to 6) -/

/-- The spare stands in: its banks and handoff region zero, its cache and FULL flags clear, the map updated. -/
def spareIn (s : State) (n t : Nat) : State :=
  let lo := tileBase t
  let s1 := setSpare s n fun sp => { sp with st := 1, subst := t % 16, begun := none, power := 0, pending := sp.pending.filter (· ≠ t) }
  let s2 := { s1 with
    mem := memClear s1.mem lo 0xC0000
    plat := { s1.plat with
      mapEpoch := s1.plat.mapEpoch + 1
      badWords := s1.plat.badWords.filter fun w => decide (w < lo ∨ lo + 0xC0000 ≤ w)
      banks := (List.range 46).foldl (fun l b => mapSet (fun _ => s1.plat.bankBase) l (64 * t + b) 0) s1.plat.banks
      waking := s1.plat.waking.filter fun w => decide (w.1 / 64 ≠ t) }
    world := { s1.world with cached := s1.world.cached.filter (·.1 ≠ t), filling := s1.world.filling.filter (·.1 ≠ t) }
    disp := { s1.disp with full := s1.disp.full.filter (fun f => decide (f.1 / 8 ≠ t)), quarantined := s1.disp.quarantined.filter (· ≠ t) } }
  let s3 := sendOpenEvent s2 0x0002
  logNow s3 (Config.logCode lcSpareIn) srcDispatch (toLe 1 n ++ toLe 1 t)

def execSpareIn (cluster : Nat) (s : State) : Result :=
  match (s.plat.spares.getD cluster .reset).begun with
  | some t => onlyIf s true (spareIn s cluster t)
  | none => .next s

/-! ### REPLAY_CYCLE_START (R291) -/

/-- A recorded frame takes its place in its queue, as accepted (log entry 48). -/
def placeFrame (q : Nat) (s : State) (w : Bytes) : State :=
  if queueFree s q < ceilDiv w.length 64 then factFails s
  else
    let entry := toLe 1 q ++ sliceOf w 0x14 1 ++ toLe 2 (fieldBe w 0 2) ++ toLe 4 (fieldBe w 4 4)
    let s1 := setQueue s q fun x =>
      let x1 := queuePush s.ao w x
      { x1 with frames := x.frames ++ [{ entry := entry, words := ceilDiv w.length 64, bytes := w, hash := none }] }
    drainQueue s1 q

def placeFrames (s : State) (p : ReplayPkg) : State :=
  (List.range 14).foldl (fun t q => (p.frames.getD q []).foldl (placeFrame q) t) s

/-- The stream's host batches wait to be published in their order. -/
def placeBatches (s : State) (p : ReplayPkg) : State :=
  let mk := fun b : Bytes =>
    ({ host := true, bytes := b, digest := [], msg := none, coll := none, held := s.cyc.tack, since := s.cyc.seq, phase := 0,
       owner := none } : Batch)
  { s with world := { s.world with hostQ := s.world.hostQ ++ p.batches.map mk } }

/-- Enough host batches for the host's recorded epochs. -/
def batchesEnough (p : ReplayPkg) : Bool :=
  decide ((p.facts.filter fun f => decide (f.kind = 9 ∧ f.taskId = 0xFFFF)).length ≤ p.batches.length)

/-- The instance, or the copy of a task, that an entry of KIND 1 to 7 names is due in the cycle (R280, R293). -/
def namesInstance (s : State) (f : Fact) : Bool :=
  (dueTasks s).any fun t => decide (t.taskId = f.taskId ∧ (f.copy = 0 ∨ (t.safe ∧ f.copy = 1))) &&
    (if f.kind = 1 then true
     else if f.kind = 2 then decide (f.valA ≤ f.valB ∧ f.valB ≤ t.units)
     else if t.units = 0 then decide (f.batch = 0xFFFF) else decide (f.batch < t.units))

def namesAll (s : State) (p : ReplayPkg) : Bool := (p.facts.filter fun f => decide (1 ≤ f.kind ∧ f.kind ≤ 7)).all (namesInstance s)

def startReplayed (s : State) (p : ReplayPkg) : State :=
  let s1 := { s with cyc := { s.cyc with tack := decide (fieldAt p.header 5 1 = 1) } }
  let s2 := placeBatches (placeFrames s1 p) p
  let s3 := beginCycle s2 s2.ao
  if batchesEnough p && namesAll s3 p then s3 else factFails s3

def execReplayCycleStart (s : State) : Result :=
  match curPkg s with
  | some p => onlyIf s (!s.cyc.inCycle) (startReplayed s p)
  | none => .next s

end Sys2Proof.Machine
end

