-- ==== Sys2Proof/Machine/SelfTest.lean ====
section
/-! DEFINITION. The rotating self-test (R308 to R316). Classes are 1 to 11. -/

namespace Sys2Proof.Machine

/-! ### The rotation (R308 to R310, R315) -/

/-- The part has the unit (R3, R310, R501): Rein timers, decoders, DMA channels and sensors of its clusters and GDDR6 channels. -/
def unitPresent (s : State) (c u : Nat) : Bool :=
  decide (1 ≤ c ∧ c ≤ 11 ∧ u < classUnits c) &&
    (if c = 3 then presentCluster s (u / 32)
     else if c = 4 then
       if u < 272 then presentCluster s (u / 17)
       else if u < 544 then presentCluster s ((u - 272) / 17)
       else if u < 560 then presentCluster s (u - 544)
       else if u < 579 then presentProc s (u - 560)
       else if u < 582 then true
       else presentChannel s (u - 582)
     else if c = 6 then presentCluster s (u / 8)
     else if c = 9 then decide (16 ≤ u) || presentCluster s u
     else true)

/-- The slice after one. -/
def nextSlice (c k : Nat) : Nat × Nat := if k + 1 < classSlices c then (c, k + 1) else if c < 11 then (c + 1, 0) else (1, 0)

/-- AO cycle in which the slice in progress started. -/
def sliceAt (s : State) : Nat :=
  match s.safety.selfRun with
  | some (_, _, t) => t
  | none => s.ao

/-- Something happened at a port or queue while the slice in progress ran. -/
def sinceSlice (s : State) (at' : Option Nat) : Bool :=
  match at' with
  | some t => decide (sliceAt s ≤ t)
  | none => false

/-- Units left out because they are busy (R309, R315): ports that received a frame and queues that were written, or hold an open
burst, during the slice; slots being written for a substitution (log entry 50). -/
def busyUnits (s : State) (c k : Nat) : List Nat :=
  if c = 2 then (List.range 12).filter fun p => inSlice 2 k p && sinceSlice s (queueOf s p).rxAt
  else if c = 5 then (List.range 14).filter fun q =>
    sinceSlice s (queueOf s q).wrAt || (decide (12 ≤ q) && decide (s.host.burst.getD (q - 12) [] ≠ []))
  else if c = 4 then
    ((List.range 16).filter fun n => (s.plat.spares.getD n .reset).begun.isSome).flatMap fun n =>
      [17 * n + 16, 272 + 17 * n + 16].filter (inSlice 4 k)
  else []

/-! ### Gaps (R311, R312) -/

/-- AO cycles by which a slice that starts now must have ended: the gap's end less 2 µs. -/
def gapEnd (s : State) : Nat := s.cyc.startAo + gapPeriod s * (if gapSync s then 98 else 100)

/-- A slice may start: while running, up to SLICES_PER_GAP of them, each ending 2 µs before the earliest start;
otherwise one each 100 µs. Replayed cycles leave no gap. -/
def sliceMay (s : State) : Bool :=
  s.safety.selfRun.isNone && decide (6 ≤ s.boot.stage ∧ s.boot.stage ≤ 7) &&
    (match s.cyc.dev with
     | .running => !s.cyc.inCycle && s.cyc.everStarted && decide (s.safety.selfGap < s.safety.selfSpec)
         && decide (s.ao + 100 * sliceTime s.safety.selfNext.1 + 200 ≤ gapEnd s)
     | .replay => false
     | _ => decide (s.safety.selfLast + 10000 ≤ s.ao) || decide (s.safety.rotations = 0 ∧ s.safety.selfNext = (1, 0)))

def startSlice (s : State) : State :=
  { s with safety := { s.safety with
      selfRun := some (s.safety.selfNext.1, s.safety.selfNext.2, s.ao), selfLast := s.ao,
      selfNext := nextSlice s.safety.selfNext.1 s.safety.selfNext.2,
      selfGap := if s.cyc.dev = .running then s.safety.selfGap + 1 else s.safety.selfGap } }

def execSelftestSlice (s : State) : Result := onlyIf s (sliceMay s) (startSlice s)

/-! ### Bookkeeping (R314, R316)

`selfCycles` holds, by class: under 4096 + slice the boundaries passed when the slice last ran; under a unit that busy
slices have left out, those passed when it was last tested; under class 16 + c a starvation already raised. -/

def setMark (c u n : Nat) (l : List (Nat × Nat × Nat)) : List (Nat × Nat × Nat) :=
  (c, u, n) :: l.filter fun e => !decide (e.1 = c ∧ e.2.1 = u)

/-- A slice has run: its units are tested but for the busy ones. -/
def markTested (s : State) (c k : Nat) : List (Nat × Nat × Nat) :=
  let busy := busyUnits s c k
  let kept := s.safety.selfCycles.filter fun e => !(decide (e.1 = c ∧ e.2.1 ∉ busy) && inSlice c k e.2.1)
  setMark c (4096 + k) s.plat.boundaries (busy.foldl (fun l u => setMark c u (lastTested s.safety c u) l) kept)

/-- The class has passed completely: its last slice ran, none of its units failed, none was left out. -/
def classPassed (c k : Nat) (y : Safety) : Bool :=
  decide (k + 1 = classSlices c) && !y.selfBad.any (·.1 = c) && !y.selfCycles.any fun e => decide (e.1 = c ∧ e.2.1 < 4096)

/-! ### SLICE_DONE (R313, R324) -/

/-- The slice's units pass, all but those that failed. -/
def passUnits (s : State) (c k : Nat) (bad : List Nat) : List (Nat × Nat) :=
  bad.map (fun u => (c, u)) ++ s.safety.selfBad.filter fun e => !(decide (e.1 = c ∧ e.2 ∉ busyUnits s c k) && inSlice c k e.2)

/-- The slice is over. -/
def sliceEnds (s : State) (c k : Nat) (bad : List Nat) : State :=
  let y := { s.safety with selfCycles := markTested s c k, selfBad := passUnits s c k bad, selfRun := none,
                           rotations := if c = 11 then s.safety.rotations + 1 else s.safety.rotations }
  let passed := classPassed c k y
  { s with safety := { y with selfPass := if passed then y.selfPass.set (c - 1) (some s.ao) else y.selfPass
                              selfLate := if passed then y.selfLate.filter (· ≠ c) else y.selfLate } }

/-- Conditions of R324 that a passing slice ends: SELFTEST_FAIL, and by class 8 FP_READBACK. -/
def sliceCeases (s : State) (c : Nat) (bad : List Nat) : State :=
  let s1 := if s.safety.selfBad = [] then ceaseCause s 5 else s
  if c = 8 ∧ bad = [] then ceaseCause { s1 with outp := { s1.outp with readbackBad := false } } 11 else s1

/-- What SELFTEST_FAIL carries: class and unit. -/
def failData (c u : Nat) : Bytes := toLe 1 c ++ zeros 1 ++ toLe 2 u

/-- ST_FAIL_INFO and FAILED record a wrong response (R313, R316). -/
def noteFail (s : State) (c u : Nat) : State :=
  { s with safety := { s.safety with
    stFlags := s.safety.stFlags ||| 512, stFail := (c, u, min 65535 (s.safety.stFail.2.2 + 1)),
    selfBad := addOnce s.safety.selfBad (c, u) } }

/-- A wrong response (R313). -/
def sliceFails (s : State) (c u : Nat) : State := raiseFault (noteFail s c u) fsSelftest fSelftestFail (failData c u)

/-- The failed units are ones the slice tests. -/
def failFits (s : State) (c k : Nat) (bad : List Nat) : Bool :=
  decide bad.Nodup && bad.all fun u => inSlice c k u && unitPresent s c u && decide (u ∉ busyUnits s c k)

def endSlice (s : State) (c k : Nat) (bad : List Nat) : State :=
  bad.foldl (fun t u => sliceFails t c u) (sliceCeases (sliceEnds s c k bad) c bad)

/-- SLICE_DONE, with the units that answered wrongly. -/
def execSliceDone (failedUnits : List Nat) (s : State) : Result :=
  match s.safety.selfRun with
  | none => .next s
  | some (c, k, _) => onlyIf s (failFits s c k failedUnits) (endSlice s c k failedUnits)

/-! ### SELFTEST_LATE, SELFTEST_STARVED (R314) -/

/-- A class that has passed once is 100 ms old, and that has not been reported yet. -/
def classLate (s : State) (c : Nat) : Bool :=
  decide (1 ≤ c ∧ c ≤ 11 ∧ c ∉ s.safety.selfLate) &&
    (match s.safety.selfPass.getD (c - 1) none with
     | some t => decide (t + 10000000 ≤ s.ao)
     | none => false)

def reportLate (s : State) (c : Nat) : State :=
  let s1 := { s with safety := { s.safety with selfLate := c :: s.safety.selfLate } }
  sendOpenEvent (logIsland s1 (Config.logCode lcSelftest) (toLe 1 c)) 0x0007

def execSelftestLate (cls : Nat) (s : State) : Result := onlyIf s (classLate s cls) (reportLate s cls)

/-- 1,000 plan cycles without a test, not raised yet since that test. -/
def unitStarved (s : State) (c u : Nat) : Bool :=
  let t := lastTested s.safety c u
  unitPresent s c u && decide (t + 1000 ≤ s.plat.boundaries) && decide (cycleMark s.safety.selfCycles (16 + c) u ≠ some t)

def reportStarved (s : State) (c u : Nat) : State :=
  let t := lastTested s.safety c u
  let y := { s.safety with
    stFlags := s.safety.stFlags ||| 1024, stStarved := (c, u),
    selfCycles := setMark (16 + c) u t s.safety.selfCycles }
  raiseFault { s with safety := y } fsSelftest fSelftestStarved (failData c u)

def execSelftestStarved (cls unit : Nat) (s : State) : Result := onlyIf s (unitStarved s cls unit) (reportStarved s cls unit)

/-! ### SELFTEST_CONFIG (R312, R315, R395) -/

def setSlices (s : State) (m : Msg) : State :=
  let n := fieldAt m.payload 0 1
  if n = 0 ∨ 8 < n then replyBadArg s m 0
  else reply (if s.safety.selfRun.isSome then { s with safety := { s.safety with selfSpecNext := some n } }
    else { s with safety := { s.safety with selfSpec := n, selfSpecNext := none } }) m stOk

def execSelftestConfig (s : State) : Result :=
  withFront s .pmc (isOp 0x24) fun m t =>
    if rsvdZero m.payload [(1, 15)] then .next (setSlices t m) else .fault (.unguarded "R10")

end Sys2Proof.Machine
end

