-- ==== Sys2Proof/Machine/FaultBus.lean ====
section
/-! DEFINITION. The fault-bus collector and the log unit (R23, R323, R368, R412). -/

namespace Sys2Proof.Machine

/-! ### FAULT_EVENT (R23, R323) -/

/-- A word of GDDR6 or SRAM whose content is lost (R363). -/
def markBad (s : State) (a : Nat) : State :=
  { s with plat := { s.plat with badWords := addOnce s.plat.badWords (8 * (a / 8)) } }

/-- The four words of the 32-byte burst at an address. -/
def markBurst (s : State) (a : Nat) : State := (List.range 4).foldl (fun t k => markBad t (a / 32 * 32 + 8 * k)) s

/-- EDC_RETRY_LIMIT (R368): data byte 0 is 1 for a write, bytes 1 to 8 the address (log entry 8). Four retries are counted; a
write poisons its granule, a read's burst is in error. -/
def edcLimit (s : State) (data : Bytes) : State :=
  let a := fieldAt data 1 8
  let s1 := addReg s offEdcRetries 4
  if fieldAt data 0 1 = 1 then { s1 with plat := { s1.plat with poison := addOnce s1.plat.poison (a / 512) } } else markBurst s1 a

/-- A unit of the tile has read a word in error: data byte 0 is its context, bytes 1 to 4 the tile-local address (R363, log entry
8). -/
def tileUnitReads (s : State) (t : Nat) (data : Bytes) : State :=
  abortAt (tileWordLost s t (fieldAt data 1 4)) t (fieldAt data 0 1) csTileFault

/-- An instance has read GDDR6 in error: data bytes 0 and 1 are its tile and context, bytes 2 to 9 the address (R363, log entry
8). -/
def gddrReads (s : State) (c : Nat) (data : Bytes) : State :=
  abortAt (eccReport s 6 (582 + c) (fieldAt data 2 8)) (fieldAt data 0 1) (fieldAt data 1 1) csTileFault

/-- A PUT in flight reads back something else: data byte 0 is its context (R306, log entry 8). -/
def putDiffers (s : State) (t : Nat) (data : Bytes) : State :=
  match instOf s t (fieldAt data 0 1) with
  | none => s
  | some i => match (if i.finished then none else putInFlight s i) with
    | none => s
    | some k => putMismatch s i (descBytes s i k) k

/-- What a fault does to what it is about, where no command of the reading unit says it. -/
def faultMemory (s : State) (source code : Nat) (data : Bytes) : State :=
  if code = fEdcRetryLimit then edcLimit s data
  else if code = fWorldBankEcc then bankUe s (source - 256) (fieldAt data 0 4)
  else if code = fTileStoreEcc then tileUnitReads s source data
  else if code = fWorldCacheEcc then lineLost s source (fieldAt data 0 4)
  else if code = fGddr6Ecc then gddrReads s (source - 304) data
  else if code = fSelftestFail then noteFail s (fieldAt data 0 1) (fieldAt data 2 2)
  else if code = fDmaReadback ∧ source < 256 then putDiffers s source data
  else s

/-- The part has the source (R3). -/
def sourcePresent (s : State) (source : Nat) : Bool :=
  if source < 256 then presentTile s source
  else if source < 288 then presentCluster s ((source - 256) % 16)
  else if source < 304 then decide (source < 302)
  else if source < 328 then presentChannel s (source - 304)
  else if source < 347 then presentProc s (source - 328)
  else if source < 355 then true
  else decide (512 ≤ source ∧ source < 768) && presentTile s (source - 512)

/-- The fault is one of the source's: memories report for themselves, a self-test failure names a unit of the part. -/
def sourceFits (s : State) (source code : Nat) (data : Bytes) : Bool :=
  decide (code ≤ 22) && sourcePresent s source &&
    (if code = fWorldBankEcc then decide (256 ≤ source ∧ source < 272)
     else if code = fTileStoreEcc ∨ code = fWorldCacheEcc then decide (source < 256)
     else if code = fGddr6Ecc then decide (304 ≤ source ∧ source < 328)
     else if code = fSelftestFail then unitPresent s (fieldAt data 0 1) (fieldAt data 2 2)
     else true)

def execFaultEvent (source code : Nat) (data : Bytes) (s : State) : Result :=
  onlyIf s (sourceFits s source code data) (raiseFault (faultMemory s source code data) source code data)

/-! ### FAULT_DRAIN (R23) -/

/-- A record's data and L_FLAGS: FAULT, and FOLDED with the repeat count. -/
def drainData (e : Staging) : Bytes := if e.folded then toLe 1 e.count ++ e.data.take 39 else e.data.take 40
def drainFlags (e : Staging) : Nat := 1 + 8 * boolNat e.folded

/-- The fold register of the lowest-numbered source moves into the freed entry. -/
def refillStaging (y : Safety) : Safety :=
  match y.folds with
  | [] => y
  | x :: rest => { y with staging := y.staging ++ [x], folds := rest }

/-- The entry's record reaches the tail directly; its LOG_SEQ is not assigned yet (log entry 8). -/
def drainTail (s : State) (e : Staging) : State :=
  tickFree (tailPush s (logBytes (Config.tailSeq s.disp.freeCtr) (Config.faultCode e.code) srcCollector (drainFlags e + 2) e.stamp
    s.cyc.seq.toNat (drainData e)))

/-- It is offered to the log unit; a full handshake queue drops the copy. -/
def offerLog (s : State) (e : Staging) : State :=
  if s.safety.handshake.length < 64 then { s with safety := { s.safety with handshake := s.safety.handshake ++ [e] } }
  else bumpReg s offLogDropped

def drainEntry (s : State) (e : Staging) (rest : List Staging) : State :=
  offerLog (drainTail { s with safety := refillStaging { s.safety with staging := rest, drainAt := some s.ao } } e) e

/-- FAULT_DRAIN: one entry an AO cycle. -/
def execFaultDrain (s : State) : Result :=
  match s.safety.staging with
  | [] => .next s
  | e :: rest => onlyIf s (decide (s.safety.drainAt ≠ some s.ao)) (drainEntry s e rest)

/-! ### LOG_RECORD (R412) -/

/-- The log unit takes the collector's oldest record. -/
def takeHandshake (s : State) : State :=
  match s.safety.handshake with
  | [] => s
  | e :: rest => logTake { s with safety := { s.safety with handshake := rest } } (Config.faultCode e.code) srcCollector (drainFlags e)
      e.stamp (drainData e) true

/-- A source that may log: a processor that runs, its island not gated (R26), or a block of the device. -/
def mayLog (s : State) (source : Nat) : Bool :=
  if source < 19 then presentProc s source && (procRuns s source || (procOf s source).warmBegun)
      && (decide (source < 3) || decide (oppOf s (source - 3) ≠ 0))
  else decide (0x22 ≤ source ∧ source ≤ 0x27)

/-- LOG_RECORD: the collector's next record or one of a test injection (R308), the island's, or any other source's; of
L_FLAGS a source gives TEST. -/
def execLogRecord (code source flags : Nat) (data : Bytes) (s : State) : Result :=
  onlyIf s true
    (if source = srcCollector then (if bitOf flags 2 then logTake s code source 4 s.ao (data.take 40) false else takeHandshake s)
     else if source = srcIsland then logIslandAs s code (flags &&& 4) (data.take 40)
     else if mayLog s source then logTake s code source (flags &&& 4) s.ao (data.take 40) false
     else s)

end Sys2Proof.Machine
end

