-- ==== Sys2Proof/Machine/Phy.lean ====
section
/-! DEFINITION. PHY management of the vehicle link and the Ethernet sensor ports (R417, R441). Interface k
is that of `phyOfPort`. -/

namespace Sys2Proof.Machine

def mdioBusy (s : State) (k : Nat) : Bool := s.ing.mdio.any (·.1 = k)

/-- A write of OP starts an operation: a write operation only while STOPPED, none while BUSY (R441). -/
def mdioStart (s : State) (k port : Nat) (v : Word) : Attempt :=
  let isWrite := bitOf v.toNat 30
  if mdioBusy s k || (isWrite && decide (s.cyc.dev ≠ .stopped)) then .ok s
  else if bitsOf v.toNat 16 4 ≠ 0 then .error "R10"
  else .ok { s with ing := { s.ing with mdio := (k, v) :: s.ing.mdio },
                    out := .mdioFrame port v (BitVec.ofNat 16 (regNat s (offMdioAddr k))) :: s.out }

/-- One MDIO command with the OP code it must have. -/
def mdioCommand (s : State) (port : Nat) (v : Word) (op : Nat) : Result :=
  match phyOfPort port with
  | none => .next s
  | some k =>
    if s.boot.inReset || !s.host.linkUp || decide (v.toNat / 2 ^ 30 ≠ op) then .next s
    else ofAttempt (mdioStart s k port v)

def execMdioC22Read (port : Nat) (v : Word) (s : State) : Result := mdioCommand s port v 0
def execMdioC22Write (port : Nat) (v : Word) (s : State) : Result := mdioCommand s port v 1
def execMdioC45Read (port : Nat) (v : Word) (s : State) : Result := mdioCommand s port v 2
def execMdioC45Write (port : Nat) (v : Word) (s : State) : Result := mdioCommand s port v 3

/-- MDIO_DONE (R441): a read sets RDATA and NO_RESP; BUSY clears. -/
def execMdioDone (port : Nat) (response : Option Half) (s : State) : Result :=
  match phyOfPort port with
  | none => .next s
  | some k =>
    match s.ing.mdio.find? (·.1 = k) with
    | none => .next s
    | some op =>
      let status : Nat := match response with
        | some d => d.toNat
        | none => 2 ^ 30 + 0xFFFF
      let s1 := if bitOf op.2.toNat 30 then s else setReg s (offMdioStatus k) (BitVec.ofNat 32 status)
      onlyIf s true { s1 with ing := { s1.ing with mdio := s.ing.mdio.filter (·.1 ≠ k) } }

/-- 10 ms have passed since reset release (R441). -/
def phyReleased (s : State) : Bool := decide (s.boot.releasedAt + 1000000 ≤ s.ao)

/-- The commanded level of PHY_RST_N of interface k. -/
def phyRstLevel (s : State) (k : Nat) : Bool := phyReleased s && decide (regNat s (offPhyCtrl k) < 2 ^ 31)

/-- A PHY_CTRL write (R441): setting RST only while STOPPED, otherwise ignored whole. -/
def phyCtrlWrite (s : State) (k : Nat) (v : Word) : Attempt :=
  let rst := bitOf v.toNat 31
  if rst && decide (s.cyc.dev ≠ .stopped) then .ok s
  else if bitsOf v.toNat 16 14 ≠ 0 then .error "R10"
  else
    let s1 := setReg s (offPhyCtrl k) (BitVec.ofNat 32 (2 ^ 31 * boolNat rst + regNat s (offPhyCtrl k) % 65536))
    .ok { s1 with boot := { s1.boot with phyRstN := boolSet s.boot.phyRstN k (phyReleased s && !rst) } }

/-- PHY_RESET_WRITE (R417, R441). -/
def execPhyResetWrite (port : Nat) (v : Word) (s : State) : Result :=
  match phyOfPort port with
  | none => .next s
  | some k => if s.boot.inReset || !s.host.linkUp then .next s else ofAttempt (phyCtrlWrite s k v)

/-- PHY_INT_FALL (R441): INT_COUNT counts the edge, and the pin is low. -/
def execPhyIntFall (port : Nat) (s : State) : Result :=
  match phyOfPort port with
  | none => .next s
  | some k =>
    let v := regNat s (offPhyCtrl k)
    let s1 := setReg s (offPhyCtrl k) (BitVec.ofNat 32 (v - v % 65536 + (v + 1) % 65536))
    onlyIf s true { s1 with ing := { s1.ing with intLow := addOnce s.ing.intLow k } }

/-- PHY_RST_N_RELEASE (R441): high 10 ms after reset release, but for a PHY held by RST. -/
def execPhyRstNRelease (s : State) : Result :=
  onlyIf s (phyReleased s)
    { s with boot := { s.boot with phyRstN := (List.range 5).foldl (fun l k => boolSet l k (phyRstLevel s k)) [] } }

end Sys2Proof.Machine
end

