-- ==== Sys2Proof/Machine/Flit.lean ====
section
/-! DEFINITION. Stirrup (R375 to R379): FLIT_RECEIVE and the transactions it carries. -/

namespace Sys2Proof.Machine

/-- A register write that arrives over Stirrup is the command of its register. -/
def windowWrite (off : Nat) (v : Word) (s : State) : Result :=
  if off = 8 then execCmdDoorbell v s
  else if off = 0x10 ∨ off = 0x18 ∨ off = 0x20 then execHeadWrite off v s
  else if off = 0x28 then execHostLossCfgWrite v s
  else if off = 0x6040 then execStopEnWrite v s
  else match phyOfOffset off with
    | some (k, 0) => ofAttempt (phyCtrlWrite s k v)
    | some (k, 1) => ofAttempt (mdioStart s k (gptpPorts.getD ((k + 4) % 5) 14) v)
    | _ => execRegisterWrite off v s

/-- A write of n bytes at ring offset p touches bytes between CMD_HEAD and the last doorbell value (R385). -/
def hitsTaken (s : State) (p n : Nat) : Bool :=
  let head := regNat s offCmdHead % commandSize
  let used := (s.host.cmdTail - regOf s offCmdHead).toNat
  let d := (p + commandSize - head) % commandSize
  decide (0 < used) && decide (0 < n) && (decide (d < used) || decide (commandSize < d + n))

/-- A posted write (R377, R379). -/
def stirrupWrite (addr : Nat) (data : Bytes) (s : State) : Result :=
  if addr < 0x10000 then
    if data.length = 4 ∧ addr % 4 = 0 then windowWrite addr (BitVec.ofNat 32 (leNat data)) s else .next (badAccess s)
  else if 0x100000 ≤ addr ∧ addr + data.length ≤ 0x180000 ∧ addr % 4 = 0 ∧ data.length % 4 = 0 ∧ data.length ≤ 256 then
    if hitsTaken s (addr - 0x100000) data.length then .fault (.unguarded "R385")
    else .next (devWrite s (mailboxBase + (addr - 0x100000)) data)
  else .next (badAccess s)

/-- A read is answered by a CPL (R377, R379): 0 OK, 1 UR, 2 ERR. -/
def stirrupRead (addr len tag : Nat) (s : State) : State :=
  if addr < 0x10000 ∧ len = 4 ∧ addr % 4 = 0 then sendTrans s (.cpl 0 tag (toLe 4 (regRead s addr)))
  else if 0x100000 ≤ addr ∧ addr + len ≤ 0x1C0000 ∧ addr % 4 = 0 ∧ len % 4 = 0 ∧ len ≤ 256 then
    let a := mailboxBase + (addr - 0x100000)
    if badRead s a len then sendTrans (mailboxUe (correctRead s a len) (firstBad s a len - mailboxBase)) (.cpl 2 tag [])
    else sendTrans (correctRead s a len) (.cpl 0 tag (devRead s a len))
  else sendTrans (badAccess s) (.cpl 1 tag [])

/-- An acknowledged write: only the host queue ports take one, and it stays inside its port (R379). -/
def stirrupWra (addr tag : Nat) (data : Bytes) (s : State) : State :=
  if 0x1C0000 ≤ addr ∧ addr < 0x1C2000 ∧ addr % 0x1000 + data.length ≤ 0x1000 ∧ data.length % 8 = 0 ∧ data.length ≤ 256 then
    hostWra s (12 + (addr - 0x1C0000) / 0x1000) (addr % 0x1000) tag data
  else answerWra (badAccess s) { queue := 0, tag := tag, len := data.length, closing := false, status := 1, ready := true }

/-- The device returns a WR or RD credit; a WRA's goes with its CPL (R378). -/
def returnCredit (s : State) (wr rd : Nat) : State :=
  { s with host := { s.host with credits := (s.host.credits.1 + wr, s.host.credits.2.1, s.host.credits.2.2 + rd) } }

/-- One transaction: its header and data (R377). -/
def transaction (h data : Bytes) (s : State) : Result :=
  let ty := fieldAt h 0 1
  let addr := fieldAt h 4 4
  let tag := fieldAt h 1 1
  if (ty = 1 ∨ ty = 2 ∨ ty = 3) ∧ allZero (sliceOf h 8 8) = false then .fault (.unguarded "R10")
  else if ty = 1 then stirrupWrite addr data (returnCredit s 1 0)
  else if ty = 2 then .next (stirrupWra addr tag data s)
  else if ty = 3 then .next (stirrupRead addr (fieldAt h 2 2) tag (returnCredit s 0 1))
  else .next (badAccess s)

/-- Data bytes that follow a header: a read request carries none (log entry 13). -/
def transactionData (h : Bytes) : Nat := if byteAt h 0 = 3 then 0 else fieldAt h 2 2

/-- Whole transactions in order; an incomplete one waits for the next flit (R376). -/
def transactions : Nat → Bytes → State → Result
  | 0, _, s => .next s
  | n + 1, bs, s =>
    let len := transactionData bs
    let size := 16 + 8 * ceilDiv len 8
    if bs.length < 16 ∨ bs.length < size then .next { s with host := { s.host with rxBytes := bs } }
    else match transaction (bs.take 16) (sliceOf bs 16 len) s with
      | .next t => transactions n (bs.drop size) t
      | r => r

/-- A flit out of place or damaged is discarded, and a replay requested from the one expected (R376). While a replay
is awaited, a damaged flit is the expected one only if its FSEQ says so (log entry 13). -/
def discardFlit (s : State) (fseq : Half) (damaged : Bool) : State :=
  let fails := damaged && (!s.host.rxReplay || decide (fseq = s.host.rxFseq))
  let n := if fails then s.host.rxFails + 1 else s.host.rxFails
  if 16 ≤ n then dropTransactions s
  else if fails || !s.host.rxReplay then
    { s with host := { s.host with rxReplay := true, rxFails := n }, out := .replayRequest s.host.rxFseq :: s.out }
  else s

/-- Flits up to the one acknowledged need no replay: newest first, those sent after it stay (R376). -/
def ackFlits (ack : Nat) : List Bytes → List Bytes
  | [] => []
  | f :: t => if fieldAt f 0 2 = ack then [] else f :: ackFlits ack t

/-- ACKSEQ of a good flit, when it names a flit still kept (R376). -/
def takeAck (s : State) (flit : Bytes) : State :=
  let ack := fieldAt flit 2 2
  if s.host.txKept.any fun f => decide (fieldAt f 0 2 = ack) then
    { s with host := { s.host with txKept := ackFlits ack s.host.txKept } }
  else s

def flitSeq (flit : Bytes) : Half := BitVec.ofNat 16 (fieldAt flit 0 2)

/-- The flit's FCRC is good (R376). -/
def flitGood (flit : Bytes) : Bool := decide (fieldAt flit 0xFC 4 = crc32c (flit.take 0xFC))

/-- FLIT_RECEIVE (R376). -/
def execFlitReceive (flit : Bytes) (s : State) : Result :=
  if s.boot.inReset || !s.host.linkUp then .next s
  else if !flitGood flit then .next (discardFlit s (flitSeq flit) true)
  else if flitSeq flit ≠ s.host.rxFseq then .next (discardFlit s (flitSeq flit) false)
  else
    let t := takeAck s flit
    let bytes := t.host.rxBytes ++ sliceOf flit 8 244
    transactions bytes.length bytes
      { t with host := { t.host with rxFseq := t.host.rxFseq + 1, rxReplay := false, rxFails := 0, rxBytes := [] } }

end Sys2Proof.Machine
end

