-- ==== Sys2Proof/Machine/Vect.lean ====
section
/-! DEFINITION. VECT and REDUCE on VX (R62, R65 to R72, R95, R96). -/

namespace Sys2Proof.Machine

/-! ### Domains (R62, R65, log entry 29) -/

/-- What VX computes in; `free` where the spec gives the operation no meaning on the operands' formats. -/
inductive Domain where
  | i32 | gq | f32 | f64 | free
  deriving DecidableEq, Repr

/-- The domain of a binary operation: integers and GQ32 stay so where VX offers the operation on them. -/
def binDomain (fa fb func : Nat) : Domain :=
  if fa = 11 ∨ fb = 11 then
    if fa = fb ∧ (func = 0 ∨ func = 1 ∨ func = 3 ∨ func = 4 ∨ func = 6) then .gq else .free
  else if fa = 9 ∨ fb = 9 then .f64
  else if isIntFmt fa && isIntFmt fb && decide (func = 0 ∨ func = 1 ∨ func = 2 ∨ func = 3 ∨ func = 4 ∨ func = 6) then .i32
  else .f32

/-- The domain of a unary operation. RELU, ABS and NEG of a GQ32 operand, which R60's list does not name, work on the steps:
DESIGN CHOICE (log entry 29). -/
def unDomain (fa func : Nat) : Domain :=
  let simple := decide (func = 0 ∨ func = 10 ∨ func = 11)
  if fa = 11 then (if simple then .gq else .free)
  else if fa = 9 ∧ ¬(2 ≤ func ∧ func ≤ 7) then .f64
  else if isIntFmt fa && simple then .i32
  else .f32

/-- A result of the GQ32 domain as the output format takes it. -/
def gqVal (fo : Nat) (i : Int) : Val := if fo = 11 ∨ isIntFmt fo then .int i else .num (ofGq i)

def liftNum (r : Flagged Num) : Flagged Val := (.num r.1, r.2)
def liftInt (r : Flagged Int) : Flagged Val := (.int r.1, r.2)

/-! ### Elements -/

/-- Integer operations saturate (R65). -/
def binInt (func : Nat) (a b : Int) : Flagged Int :=
  if func = 0 then satInt 32 (a + b) else if func = 1 then satInt 32 (a - b) else if func = 2 then satInt 32 (a * b)
  else if func = 3 then (min a b, 0) else if func = 4 then (max a b, 0)
  else (if a < b then 1 else 0, 0)

def binFloat (f : FFmt) (rm : Rm) (func : Nat) (a b imm : Num) : Flagged Val :=
  if func = 0 then liftNum (fAdd f rm a b) else if func = 1 then liftNum (fSub f rm a b)
  else if func = 2 then liftNum (fMul f rm a b) else if func = 3 then liftNum (fMin a b)
  else if func = 4 then liftNum (fMax a b) else if func = 5 then liftNum (fDiv f rm a b)
  else if func = 6 then (.int (if ltNum a b then 1 else 0), useFlags [a, b])
  else liftNum (fFma f rm a b imm)

/-- An operand of the float domain, with the flags of its conversion on load. An I32 operand of DIV, MULADD or an elementary
function, or beside a float operand, becomes F32, rounded RTZ under RM = RTZ, else RNE: DESIGN CHOICE (log entry 29). -/
def operand (f : FFmt) (d : Bytes) (fmt : Nat) (v : Val) : Flagged Num := loadFloat f (arithRm d) fmt v

/-- One element of VECT.BIN. -/
def binElem (d : Bytes) (dom : Domain) (a b : Val) : Flagged Val :=
  let func := fieldAt d 0x28 1
  let imm := decodeFloat fF32 (fieldAt d 0x2C 4)
  let fl := fun f : FFmt =>
    let x := operand f d (dFmtA d) a
    let y := operand f d (dFmtB d) b
    let r := binFloat f (arithRm d) func x.1 y.1 imm
    (r.1, r.2 ||| x.2 ||| y.2)
  match dom with
  | .i32 => liftInt (binInt func (asInt a) (asInt b))
  | .gq =>
    let r := binInt func (asInt a) (asInt b)
    (if func = 6 then .int r.1 else gqVal (dFmtOut d) r.1, r.2)
  | .f64 => fl fF64
  | _ => fl fF32

def unInt (func : Nat) (a : Int) : Flagged Int :=
  if func = 0 then (max a 0, 0) else if func = 10 then satInt 32 (if a < 0 then -a else a) else satInt 32 (-a)

def absNum (x : Num) : Num :=
  match x with
  | .nan => .nan
  | .inf _ => .inf false
  | .fin _ m e => .fin false m e

def unFloat (f : FFmt) (rm : Rm) (func : Nat) (x imm : Num) : Flagged Num :=
  if func = 0 then fMax x pzero
  else if func = 1 then (if ltNum x pzero then fMul f rm x imm else (x, useFlags [x]))
  else if func ≤ 7 then vxElem func x
  else if func = 8 then fSqrt f rm x
  else if func = 9 then fDiv f rm (ofInt 1) x
  else if func = 10 then (absNum x, useFlags [x])
  else if func = 11 then (negNum x, useFlags [x])
  else fMul f rm x imm

/-- One element of VECT.UN. -/
def unElem (d : Bytes) (dom : Domain) (a : Val) : Flagged Val :=
  let func := fieldAt d 0x28 1
  let imm := decodeFloat fF32 (fieldAt d 0x2C 4)
  let fl := fun f : FFmt =>
    let x := operand f d (dFmtA d) a
    let r := unFloat f (arithRm d) func x.1 imm
    liftNum (r.1, r.2 ||| x.2)
  match dom with
  | .i32 => liftInt (unInt func (asInt a))
  | .gq =>
    let r := unInt func (asInt a)
    (gqVal (dFmtOut d) r.1, r.2)
  | .f64 => fl fF64
  | _ => fl fF32

/-! ### Rows -/

def mapFlagged (l : List Val) (f : Val → Flagged Val) : List Val × Nat :=
  let r := l.map f
  (r.map (·.1), orFlags (r.map (·.2)))

def mapRows (rows : List (List Val)) (f : Val → Flagged Val) : List (List Val) × Nat :=
  let r := rows.map fun l => mapFlagged l f
  (r.map (·.1), orFlags (r.map (·.2)))

/-- Rows written as the descriptor's output, with the flags of their computation. -/
def landRows (s : State) (i : Inst) (d : Bytes) (idx : Nat) (dst : Tref) (r : List (List Val) × Nat) : Attempt :=
  landFlags i (writeTensor s i.tile (dFmtOut d) dst (descRm s i d idx) r.1) r.2

/-- The output's rows hold unspecified bytes (log entry 29). -/
def landFree (s : State) (i : Inst) (d : Bytes) (dst : Tref) : Attempt :=
  .ok ((trefRanges (dFmtOut d) dst).foldl (fun t r => devScramble t (tileBase i.tile + r.1) r.2) s)

def fmtsOk (l : List Nat) : Bool := l.all fun f => decide (f ≤ 11)

/-! ### VECT.BIN -/

/-- SRC_B's value for an element under BCAST. -/
def bcastVal (bc : Nat) (b : List (List Val)) (r c : Nat) : Val :=
  if bc = 1 then (b.getD 0 []).getD c (.int 0) else if bc = 2 then (b.getD 0 []).getD 0 (.int 0) else (b.getD r []).getD c (.int 0)

def binRows (s : State) (i : Inst) (d : Bytes) (dom : Domain) : List (List Val) × Nat :=
  let a := readTensor s i.tile (dFmtA d) (dTref d 0x10)
  let b := readTensor s i.tile (dFmtB d) (dTref d 0x18)
  let rows := (List.range a.length).map fun r =>
    let l := a.getD r []
    (List.range l.length).map fun c => binElem d dom (l.getD c (.int 0)) (bcastVal (fieldAt d 0x29 1) b r c)
  (rows.map fun l => l.map (·.1), orFlags (rows.map fun l => orFlags (l.map (·.2))))

def sameShape (a b : Tref) : Bool := decide (a.rows = b.rows ∧ a.cols = b.cols)

def binOk (d : Bytes) : Bool :=
  let a := dTref d 0x10
  let b := dTref d 0x18
  let o := dTref d 0x20
  let bc := fieldAt d 0x29 1
  fmtsOk [dFmtA d, dFmtB d, dFmtOut d] && trefOk (dFmtA d) a && trefOk (dFmtB d) b && trefOk (dFmtOut d) o && sameShape a o
    && decide (fieldAt d 0x28 1 ≤ 7 ∧ bc < 3) && allZero (sliceOf d 0x2A 2) && allZero (d.drop 0x30)
    && (if bc = 0 then sameShape a b else if bc = 1 then decide (b.rows = 1 ∧ b.cols = a.cols) else decide (b.rows = 1 ∧ b.cols = 1))

def binRun : DescRun :=
  { ok := fun _ _ d => binOk d
    access := fun _ _ d =>
      { reads := trefRanges (dFmtA d) (dTref d 0x10) ++ trefRanges (dFmtB d) (dTref d 0x18)
        writes := trefRanges (dFmtOut d) (dTref d 0x20) }
    holds := true
    run := fun s i d idx =>
      let dom := binDomain (dFmtA d) (dFmtB d) (fieldAt d 0x28 1)
      if dom = .free then landFree s i d (dTref d 0x20) else landRows s i d idx (dTref d 0x20) (binRows s i d dom) }

def execVectBin (tile ctx : Nat) (s : State) : Result := issueDesc s tile ctx 0x18 binRun

/-! ### VECT.UN -/

/-- The conditions UN and CVT share. -/
def unaryOk (d : Bytes) (maxFunc : Nat) : Bool :=
  let a := dTref d 0x10
  let o := dTref d 0x20
  fmtsOk [dFmtA d, dFmtOut d] && decide (dFmtB d = 0) && trefOk (dFmtA d) a && trefOk (dFmtOut d) o && sameShape a o
    && decide (fieldAt d 0x28 1 ≤ maxFunc) && allZero (sliceOf d 0x18 8) && allZero (sliceOf d 0x29 3) && allZero (sliceOf d 0x38 8)

def unaryAccess (d : Bytes) : Access :=
  { reads := trefRanges (dFmtA d) (dTref d 0x10), writes := trefRanges (dFmtOut d) (dTref d 0x20) }

def unRun : DescRun :=
  { ok := fun _ _ d => unaryOk d 12 && allZero (sliceOf d 0x30 8)
    access := fun _ _ d => unaryAccess d
    holds := true
    run := fun s i d idx =>
      let dom := unDomain (dFmtA d) (fieldAt d 0x28 1)
      if dom = .free then landFree s i d (dTref d 0x20)
      else landRows s i d idx (dTref d 0x20) (mapRows (readTensor s i.tile (dFmtA d) (dTref d 0x10)) (unElem d dom)) }

def execVectUn (tile ctx : Nat) (s : State) : Result := issueDesc s tile ctx 0x19 unRun

/-! ### VECT.CVT -/

/-- CONVERT: GQ32 to a float gives metres, to an integer the steps (R60, log entry 29); KB6 comes by way of F32 (R62). -/
def cvtVal (rm : Rm) (fa fo : Nat) (v : Val) : Flagged Val :=
  match v with
  | .int i => (if fa = 11 then gqVal fo i else v, 0)
  | .num x => if fa = 10 then liftNum (loadFloat fF32 rm fa v) else (v, useFlags [x])

/-- One requantised element of channel c (R74). -/
def requantElem (d : Bytes) (rm : Rm) (qp : Bytes) (c : Nat) (v : Val) : Flagged Val :=
  let q := qparam qp c
  liftInt (requant (elemBits (dFmtOut d)) rm (asInt v) q.1 q.2.1 q.2.2)

def requantRows (s : State) (i : Inst) (d : Bytes) (idx : Nat) (qp : Bytes) (rows : List (List Val)) : List (List Val) × Nat :=
  let n := (dTref d 0x10).cols
  let r := (List.range rows.length).map fun k =>
    let l := rows.getD k []
    (List.range l.length).map fun c => requantElem d (descRm s i d idx (k * n + c)) qp c (l.getD c (.int 0))
  (r.map fun l => l.map (·.1), orFlags (r.map fun l => orFlags (l.map (·.2))))

/-- The QPARAM table: one row of COLS entries of 8 bytes (R94). -/
def qparamRange (d : Bytes) (off : Nat) : Nat × Nat := (64 * (dTref d off).line, 8 * (dTref d off).cols)

def qparamOk (d : Bytes) (off n : Nat) : Bool :=
  let q := dTref d off
  decide (q.rsvd = 0 ∧ q.rows = 1 ∧ q.cols = n ∧ ceilDiv (8 * n) 64 ≤ q.stride ∧ q.line + q.stride ≤ 0x3000)

def isRequant (d : Bytes) : Bool := decide (fieldAt d 0x28 1 = 1)

def cvtOk (d : Bytes) : Bool :=
  unaryOk d 1 && (if isRequant d then decide (dFmtA d = 3 ∧ dFmtOut d ≤ 2) && qparamOk d 0x30 (dTref d 0x10).cols
    else allZero (sliceOf d 0x30 8))

def cvtRun : DescRun :=
  { ok := fun _ _ d => cvtOk d
    access := fun _ _ d =>
      { reads := trefRanges (dFmtA d) (dTref d 0x10) ++ (if isRequant d then [qparamRange d 0x30] else [])
        writes := trefRanges (dFmtOut d) (dTref d 0x20) }
    holds := true
    run := fun s i d idx =>
      let rows := readTensor s i.tile (dFmtA d) (dTref d 0x10)
      if isRequant d then
        let qp := tileRead s i.tile (qparamRange d 0x30).1 (qparamRange d 0x30).2
        landRows s i d idx (dTref d 0x20) (requantRows s i d idx qp rows)
      else
        landRows s i d idx (dTref d 0x20) (mapRows rows (cvtVal (arithRm d) (dFmtA d) (dFmtOut d))) }

def execVectCvt (tile ctx : Nat) (s : State) : Result := issueDesc s tile ctx 0x1B cvtRun

/-! ### REDUCE (R67, R96) -/

/-- One level of the binary tree. -/
def treeLevel {α : Type} (f : α → α → α) : List α → List α
  | a :: b :: t => f a b :: treeLevel f t
  | l => l

/-- A binary tree over 2^n elements, in index order. -/
def treeFold {α : Type} (f : α → α → α) : Nat → List α → List α
  | 0, l => l
  | n + 1, l => treeFold f n (treeLevel f l)

/-- R67 over a padded list: 128-element slices by tree, folded into a running value. -/
def sliceFold {α : Type} (f : α → α → α) (e : α) (l : List α) : α :=
  (List.range (ceilDiv l.length 128)).foldl (fun acc k =>
    let part := (l.drop (128 * k)).take 128
    f acc ((treeFold f 7 (part ++ List.replicate (128 - part.length) e)).headD e)) e

/-- A node of the float tree with its rounding flags. -/
def sumNode (f : FFmt) (a b : Flagged Num) : Flagged Num :=
  let r := roundFloat f .rne false (addExact a.1 b.1)
  (r.1, a.2 ||| b.2 ||| r.2)

def reduceFloat (f : FFmt) (op : Nat) (l : List Num) : Flagged Num :=
  let z := l.map fun x => (x, 0)
  let r := if op = 0 then sliceFold (sumNode f) (pzero, 0) z
    else if op = 1 then sliceFold (fun a b => ((fMax a.1 b.1).1, 0)) (.inf true, 0) z
    else sliceFold (fun a b => ((fMin a.1 b.1).1, 0)) (.inf false, 0) z
  (r.1, r.2 ||| useFlags l ||| (if isNan r.1 then flNan else 0))

def reduceInt (op : Nat) (l : List Int) : Flagged Int :=
  let z := l.map fun x => (x, 0)
  if op = 0 then sliceFold (fun a b => let r := satInt 32 (a.1 + b.1); (r.1, a.2 ||| b.2 ||| r.2)) (0, 0) z
  else if op = 1 then sliceFold (fun a b => (max a.1 b.1, 0)) (-(2 ^ 31), 0) z
  else sliceFold (fun a b => (min a.1 b.1, 0)) (2 ^ 31 - 1, 0) z

/-- One reduction over a list of elements. -/
def reduceVals (d : Bytes) (l : List Val) : Flagged Val :=
  let fa := dFmtA d
  let op := fieldAt d 0x20 1
  if fa = 11 then
    let r := reduceInt op (l.map asInt)
    (gqVal (dFmtOut d) r.1, r.2)
  else if isIntFmt fa then liftInt (reduceInt op (l.map asInt))
  else
    let f := if fa = 9 then fF64 else fF32
    let x := l.map (operand f d fa)
    let r := reduceFloat f op (x.map (·.1))
    liftNum (r.1, r.2 ||| orFlags (x.map (·.2)))

/-- The lists reduced: rows, or columns with rows ascending. -/
def reduceLists (d : Bytes) (rows : List (List Val)) : List (List Val) :=
  if fieldAt d 0x21 1 = 0 then rows
  else (List.range (dTref d 0x10).cols).map fun c => rows.map fun l => l.getD c (.int 0)

/-- Results in the order of the lists fill the output row by row. -/
def fillRows (t : Tref) (l : List Val) : List (List Val) :=
  (List.range t.rows).map fun r => (l.drop (r * t.cols)).take t.cols

def reduceOk (d : Bytes) : Bool :=
  let a := dTref d 0x10
  let o := dTref d 0x18
  fmtsOk [dFmtA d, dFmtOut d] && decide (dFmtB d = 0) && trefOk (dFmtA d) a && trefOk (dFmtOut d) o
    && decide (fieldAt d 0x20 1 ≤ 2 ∧ fieldAt d 0x21 1 ≤ 1) && allZero (d.drop 0x22)
    && decide (o.rows * o.cols = if fieldAt d 0x21 1 = 0 then a.rows else a.cols)

def reduceRun : DescRun :=
  { ok := fun _ _ d => reduceOk d
    access := fun _ _ d =>
      { reads := trefRanges (dFmtA d) (dTref d 0x10), writes := trefRanges (dFmtOut d) (dTref d 0x18) }
    holds := true
    run := fun s i d idx =>
      let r := (reduceLists d (readTensor s i.tile (dFmtA d) (dTref d 0x10))).map (reduceVals d)
      landRows s i d idx (dTref d 0x18) (fillRows (dTref d 0x18) (r.map (·.1)), orFlags (r.map (·.2))) }

def execReduce (tile ctx : Nat) (s : State) : Result := issueDesc s tile ctx 0x20 reduceRun

/-! ### VECT.NORM -/

/-- The F32 values of a row on load. -/
def rowF32 (d : Bytes) (fmt : Nat) (l : List Val) : List Num × Nat :=
  let r := l.map (operand fF32 d fmt)
  (r.map (·.1), orFlags (r.map (·.2)))

/-- A statistic of a row in the order of R67, over its F32 values. -/
def rowMean (rm : Rm) (l : List (Flagged Num)) : Flagged Num :=
  let s := reduceFloat fF32 0 (l.map (·.1))
  let m := fDiv fF32 rm s.1 (ofInt l.length)
  (m.1, orFlags (l.map (·.2)) ||| s.2 ||| m.2)

/-- x − c, its square, and a product, with the flags so far. -/
def subF (rm : Rm) (c : Num) (x : Flagged Num) : Flagged Num := let r := fSub fF32 rm x.1 c; (r.1, x.2 ||| r.2)
def squareF (rm : Rm) (x : Flagged Num) : Flagged Num := let r := fMul fF32 rm x.1 x.1; (r.1, x.2 ||| r.2)
def scaleF (rm : Rm) (c : Num) (x : Flagged Num) : Flagged Num := let r := fMul fF32 rm x.1 c; (r.1, x.2 ||| r.2)

/-- (x × scale) × gamma + beta. -/
def affineF (rm : Rm) (scale gamma beta : Num) (x : Flagged Num) : Flagged Num :=
  let p := scaleF rm gamma (scaleF rm scale x)
  let r := fAdd fF32 rm p.1 beta
  (r.1, p.2 ||| r.2)

/-- LAYERNORM and RMSNORM of a row: centred on its mean or as it is, scaled by RSQRT of the mean square plus epsilon. -/
def normStat (rm : Rm) (centre : Bool) (eps : Num) (gamma beta : List Num) (x : List Num) : List (Flagged Num) :=
  let l := x.map fun v => (v, 0)
  let m := rowMean rm l
  let c := if centre then (l.map (subF rm m.1)).map fun v => (v.1, v.2 ||| m.2) else l
  let q := rowMean rm (c.map (squareF rm))
  let e := fAdd fF32 rm q.1 eps
  let k := vxElem 7 e.1
  (List.range c.length).map fun j =>
    let y := affineF rm k.1 (gamma.getD j pzero) (beta.getD j pzero) (c.getD j (pzero, 0))
    (y.1, y.2 ||| q.2 ||| e.2 ||| k.2)

/-- SOFTMAX of a row: exponentials of the distances from its maximum, over their sum. -/
def softmaxStat (rm : Rm) (x : List Num) : List (Flagged Num) :=
  let m := reduceFloat fF32 1 x
  let e := x.map fun v => let a := fSub fF32 rm v m.1; let r := vxElem 2 a.1; (r.1, a.2 ||| r.2)
  let t := reduceFloat fF32 0 (e.map (·.1))
  e.map fun v => let r := fDiv fF32 rm v.1 t.1; (r.1, m.2 ||| v.2 ||| t.2 ||| r.2)

/-- One row: statistics in the order of R67; gamma and beta apply to LAYERNORM and RMSNORM. Each step is one VX operation; that
they are these and come in this order is a DESIGN CHOICE (log entry 10): the spec names the functions alone. -/
def normRow (d : Bytes) (gamma beta : List Num) (l : List Val) : List Val × Nat :=
  let x := rowF32 d (dFmtA d) l
  let y := if fieldAt d 0x28 1 = 2 then softmaxStat (arithRm d) x.1
    else normStat (arithRm d) (decide (fieldAt d 0x28 1 = 0)) (decodeFloat fF32 (fieldAt d 0x2C 4)) gamma beta x.1
  (y.map fun v => Val.num v.1, x.2 ||| orFlags (y.map (·.2)))

def normOk (d : Bytes) : Bool :=
  let a := dTref d 0x10
  let b := dTref d 0x18
  let o := dTref d 0x20
  fmtsOk [dFmtA d, dFmtB d, dFmtOut d] && trefOk (dFmtA d) a && trefOk (dFmtB d) b && trefOk (dFmtOut d) o && sameShape a o
    && decide (fieldAt d 0x28 1 ≤ 2) && allZero (sliceOf d 0x29 3) && allZero (d.drop 0x30)
    && (decide (fieldAt d 0x28 1 = 2) || decide (b.rows = 2 ∧ b.cols = a.cols))

def normRun : DescRun :=
  { ok := fun _ _ d => normOk d
    access := fun _ _ d =>
      { reads := trefRanges (dFmtA d) (dTref d 0x10) ++ trefRanges (dFmtB d) (dTref d 0x18)
        writes := trefRanges (dFmtOut d) (dTref d 0x20) }
    holds := true
    run := fun s i d idx =>
      let g := readTensor s i.tile (dFmtB d) (dTref d 0x18)
      let gamma := rowF32 d (dFmtB d) (g.getD 0 [])
      let beta := rowF32 d (dFmtB d) (g.getD 1 [])
      let r := (readTensor s i.tile (dFmtA d) (dTref d 0x10)).map (normRow d gamma.1 beta.1)
      landRows s i d idx (dTref d 0x20) (r.map (·.1), (if fieldAt d 0x28 1 = 2 then 0 else gamma.2 ||| beta.2) ||| orFlags (r.map (·.2))) }

def execVectNorm (tile ctx : Nat) (s : State) : Result := issueDesc s tile ctx 0x1A normRun

end Sys2Proof.Machine
end

