-- ==== Sys2Proof/Machine/Matmul.lean ====
section
/-! DEFINITION. MATMUL and MATMUL.CONV on MX (R61, R63 to R65, R74, R94, R119, R121) and the cluster weight bus
(R39, R120, R122, R123). -/

namespace Sys2Proof.Machine

/-! ### Fields (R94) -/

def mmA (d : Bytes) : Tref := dTref d 0x10
def mmOut (d : Bytes) : Tref := dTref d 0x18
def mmSlotFirst (d : Bytes) : Nat := fieldAt d 0x24 1
def mmSlotCount (d : Bytes) : Nat := fieldAt d 0x25 1
def mmAccLoad (d : Bytes) : Bool := bitOf (fieldAt d 0x26 2) 0
def mmRequant (d : Bytes) : Bool := bitOf (fieldAt d 0x26 2) 1
def mmConv (d : Bytes) : Bool := decide (dOpcode d = 0x11)
def cvInH (d : Bytes) : Nat := fieldAt d 0x30 2
def cvInW (d : Bytes) : Nat := fieldAt d 0x32 2
def cvKH (d : Bytes) : Nat := fieldAt d 0x34 1
def cvKW (d : Bytes) : Nat := fieldAt d 0x35 1
def cvSH (d : Bytes) : Nat := fieldAt d 0x36 1
def cvSW (d : Bytes) : Nat := fieldAt d 0x37 1
def cvPT (d : Bytes) : Nat := fieldAt d 0x38 1
def cvPL (d : Bytes) : Nat := fieldAt d 0x39 1
def cvDH (d : Bytes) : Nat := fieldAt d 0x3A 1
def cvDW (d : Bytes) : Nat := fieldAt d 0x3B 1

/-- Integer operands: I32 accumulators; else F32 (R61). -/
def mmInt (d : Bytes) : Bool := isIntFmt (dFmtA d)

/-- The operand pairs of R61. -/
def mmPair (a w : Nat) : Bool :=
  decide (a = 0 ∧ w = 0) || decide (a = 1 ∧ w ≤ 1) || decide (4 ≤ a ∧ a ≤ 5 ∧ 4 ≤ w ∧ w ≤ 5)
    || decide (a = w ∧ (a = 6 ∨ a = 7 ∨ a = 10))

/-- The reduction group of a pair (R61) as a power of two. -/
def mmGroupLog (a : Nat) : Nat := if a = 0 then 6 else if a = 6 ∨ a = 7 then 4 else 5

/-- K of the product. -/
def mmK (d : Bytes) : Nat := if mmConv d then cvKH d * cvKW d * (mmA d).cols else (mmA d).cols

/-- K rows of one chunk (R119). -/
def chunkRows (w : Nat) : Nat := if w = 0 then 128 else if w = 6 ∨ w = 7 then 32 else 64

/-- Chunks of one panel: K padded to the reduction group, in whole chunks (R119). -/
def mmChunks (d : Bytes) : Nat :=
  let g := 2 ^ mmGroupLog (dFmtA d)
  ceilDiv (g * ceilDiv (mmK d) g) (chunkRows (dFmtB d))

def mmPanels (d : Bytes) : Nat := ceilDiv (mmOut d).cols 64
def mmBlocks (d : Bytes) : Nat := ceilDiv (mmOut d).rows 32

/-- The panel stays in the slots for all row blocks (R121). -/
def mmHeld (d : Bytes) : Bool := decide (mmChunks d ≤ mmSlotCount d)

/-! ### Convolution positions (R94) -/

/-- Output positions along one axis: input length, padding on both sides, kernel, dilation, stride. -/
def convPositions (n pad k dil st : Nat) : Nat :=
  let ext := (k - 1) * dil + 1
  if n + pad < ext then 0 else (n + pad - ext) / st + 1

/-- The output width: padding on the right none, or as on the left, whichever gives M positions; else free
(log entry 33). -/
def convOutW (d : Bytes) : Nat :=
  let h := fun p => convPositions (cvInH d) p (cvKH d) (cvDH d) (cvSH d)
  let w := fun p => convPositions (cvInW d) p (cvKW d) (cvDW d) (cvSW d)
  let m := (mmOut d).rows
  if m = h (cvPT d) * w (cvPL d) then w (cvPL d)
  else if m = h (2 * cvPT d) * w (2 * cvPL d) then w (2 * cvPL d)
  else Config.convWidth (d.drop 16)

/-- The input pixel of output pixel m and kernel position, if it lies inside the input. -/
def convPixel (d : Bytes) (m kh kw : Nat) : Option Nat :=
  let y := m / convOutW d * cvSH d + kh * cvDH d
  let x := m % convOutW d * cvSW d + kw * cvDW d
  if cvPT d ≤ y ∧ y - cvPT d < cvInH d ∧ cvPL d ≤ x ∧ x - cvPL d < cvInW d
    then some ((y - cvPT d) * cvInW d + (x - cvPL d)) else none

/-- Zero in A's format. -/
def zeroVal (f : Nat) : Val := if isIntFmt f then .int 0 else .num pzero

/-- The K activations of output row m: kernel rows, kernel columns, channels (log entry 33). -/
def mmRow (s : State) (tile : Nat) (d : Bytes) (m : Nat) : List Val :=
  let a := mmA d
  if mmConv d then
    ((List.range (cvKH d)).map fun kh => ((List.range (cvKW d)).map fun kw =>
      match convPixel d m kh kw with
      | some p => readRow s tile (dFmtA d) a p
      | none => List.replicate a.cols (zeroVal (dFmtA d))).flatten).flatten
  else readRow s tile (dFmtA d) a m

/-! ### Weights (R119) -/

/-- The first K weights of column col of a panel, from its chunks. -/
def mmColumn (w k col : Nat) (chunks : List Bytes) : List Val :=
  if w = 10 then
    (List.range k).map fun r =>
      let unit := r / 32
      let base := unit % 2 * 1600
      let c := chunks.getD (unit / 2) []
      .num (kb6Elem (bitsOf (fieldAt c (base + 24 * col) 24) (6 * (r % 32)) 6) (byteAt c (base + 1536 + col)).toNat)
  else
    (List.range k).map fun r =>
      let c := chunks.getD (r / chunkRows w) []
      decodeElem w (elemField w (sliceOf c (r % chunkRows w * rowBytes w 64) (rowBytes w 64)) col) 0

/-! ### Lanes (R63 to R65) -/

/-- The integer accumulator wraps modulo 2³² (R65). -/
def laneInt (acc : Int) (a w : List Val) : Int :=
  toSigned 32 (ofSigned 32 ((a.zip w).foldl (fun t p => t + asInt p.1 * asInt p.2) acc))

def valNum (v : Val) : Num :=
  match v with
  | .num x => x
  | .int i => ofInt i

/-- One reduction group: its products summed by a tree, added to the accumulator (R63). -/
def laneGroup (lg : Nat) (acc : Flagged Num) (ps : List Num) : Flagged Num :=
  let full := ps ++ List.replicate (2 ^ lg - ps.length) pzero
  sumNode fF32 acc ((treeFold (sumNode fF32) lg (full.map fun x => (x, 0))).headD (pzero, 0))

/-- One KB6 block pair: an exact sum, rounded once, added to the accumulator (R64). -/
def laneBlock (acc : Flagged Num) (ps : List Num) : Flagged Num :=
  sumNode fF32 acc (roundFloat fF32 .rne false (ps.foldl addExact pzero))

/-- A float lane: groups in ascending K order; its flags include the operands'. R63 calls every product exact in F32; a
BF16 × BF16 product beyond F32's range is kept exact until the first node of the tree rounds: DESIGN CHOICE (log entry 29). -/
def laneFloat (kb : Bool) (lg : Nat) (acc : Num) (a w : List Num) : Flagged Num :=
  let ps := (a.zip w).map fun p => mulExact p.1 p.2
  let r := (List.range (ceilDiv ps.length (2 ^ lg))).foldl (fun t b =>
    let part := (ps.drop (b * 2 ^ lg)).take (2 ^ lg)
    if kb then laneBlock t part else laneGroup lg t part) (acc, 0)
  (r.1, r.2 ||| useFlags a ||| useFlags w ||| useFlags [acc, r.1])

/-- A KB6 convolution whose channels do not fill blocks: the spec gives its sums no order (log entry 33). -/
def mmLoose (d : Bytes) : Bool := mmConv d && decide (dFmtA d = 10 ∧ (mmA d).cols % 32 ≠ 0)

/-- The output element of row r, column c. -/
def mmElem (s : State) (i : Inst) (d : Bytes) (idx : Nat) (qp : Bytes) (a w : List Val) (r c : Nat) (old : Val) : Flagged Val :=
  let rm := descRm s i d idx (r * (mmOut d).cols + c)
  if mmInt d then
    let acc := laneInt (if mmAccLoad d then asInt old else 0) a w
    if mmRequant d then
      let q := qparam qp c
      liftInt (requant (elemBits (dFmtOut d)) rm acc q.1 q.2.1 q.2.2)
    else (.int acc, 0)
  else if mmLoose d then (.num (decodeFloat fF32 (Config.freeNat (64 + r * 65536 + c) s.disp.freeCtr % 2 ^ 32)), 0)
  else liftNum (laneFloat (decide (dFmtA d = 10)) (mmGroupLog (dFmtA d))
    (if mmAccLoad d then valNum old else pzero) (a.map valNum) (w.map valNum))

/-! ### Write-back -/

/-- Columns c0 on of row r written; the last panel pads the row to a whole line (R56). -/
def writePart (s : State) (tile f : Nat) (t : Tref) (rm : Nat → Rm) (r c0 : Nat) (l : List Val) : Flagged State :=
  let land := fun (off : Nat) (bs : Bytes) =>
    let pad := if c0 + l.length = t.cols then zeros ((64 - (off + bs.length) % 64) % 64) else []
    tileWrite s tile (rowAddr t r + off) (bs ++ pad)
  if f = 10 then
    let k := kb6Row ((List.range l.length).map rm) (l.map (asNum fmtF32))
    (tileWrite (land (24 * (c0 / 32)) k.1) tile (expAddr t r + c0 / 32) k.2.1, k.2.2)
  else
    let e := (List.range l.length).map fun j => storeElem f (rm j) (l.getD j (.int 0))
    (land (elemBits f * c0 / 8) (packFields f (e.map (·.1))), orFlags (e.map (·.2)))

/-- One row of a panel. -/
def mmRowOut (s : State) (i : Inst) (d : Bytes) (idx : Nat) (qp : Bytes) (c0 : Nat) (cols : List (List Val)) (r : Nat) :
    Flagged State :=
  let a := mmRow s i.tile d r
  let old := if mmAccLoad d then readRow s i.tile (dFmtOut d) (mmOut d) r else []
  let e := (List.range cols.length).map fun j =>
    mmElem s i d idx qp a (cols.getD j []) r (c0 + j) (old.getD (c0 + j) (.int 0))
  let w := writePart s i.tile (dFmtOut d) (mmOut d) (fun j => descRm s i d idx (r * (mmOut d).cols + c0 + j)) r c0 (e.map (·.1))
  (w.1, w.2 ||| orFlags (e.map (·.2)))

/-- The rows lo to lo + n - 1 of a panel (R121). -/
def mmBlockOut (s : State) (i : Inst) (d : Bytes) (idx panel lo n : Nat) (chunks : List Bytes) : State :=
  let c0 := 64 * panel
  let qp := if mmRequant d then tileRead s i.tile (qparamRange d 0x28).1 (qparamRange d 0x28).2 else []
  let cols := (List.range (min 64 ((mmOut d).cols - c0))).map fun j => mmColumn (dFmtB d) (mmK d) j chunks
  let r := (List.range n).foldl (fun (acc : Flagged State) k =>
    let w := mmRowOut acc.1 i d idx qp c0 cols (lo + k)
    (w.1, acc.2 ||| w.2)) (s, 0)
  let t := gatherFlags r.1 i.tile i.ctx r.2
  if mmLoose d then tickFree t else t

/-! ### Chunks read in rotation (R39, R121) -/

def slotBase (slot : Nat) : Nat := 0xB8000 + 4096 * slot

def mmSlot (d : Bytes) (rot : Nat) : Nat := (mmSlotFirst d + rot % mmSlotCount d) % 8

def isFull (s : State) (tile slot : Nat) : Bool := boolGet s.disp.full (8 * tile + slot)

def setFull (s : State) (tile slot : Nat) (v : Bool) : State :=
  { s with disp := { s.disp with full := boolSet s.disp.full (8 * tile + slot) v } }

/-- The slots of rotations lo to lo + n - 1 become clear. -/
def clearSlots (s : State) (tile : Nat) (d : Bytes) (lo n : Nat) : State :=
  (List.range n).foldl (fun t k => setFull t tile (mmSlot d (lo + k)) false) s

/-- A row block, or a held panel with all its row blocks, has read its chunks. -/
def mmCompute (s : State) (i : Inst) (d : Bytes) (m : MmRun) : State × MmRun :=
  let rows := (mmOut d).rows
  if mmHeld d then
    let s1 := mmBlockOut s i d m.index m.panel 0 rows m.got
    (clearSlots s1 i.tile d (m.rot - mmChunks d) (mmChunks d), { m with panel := m.panel + 1, block := 0, got := [] })
  else
    let s1 := mmBlockOut s i d m.index m.panel (32 * m.block) (min 32 (rows - 32 * m.block)) m.got
    (s1, if m.block + 1 < mmBlocks d then { m with block := m.block + 1, got := [] }
         else { m with panel := m.panel + 1, block := 0, got := [] })

/-- The run goes on as far as FULL slots take it; none when it is done. -/
def mmAdvance (i : Inst) (d : Bytes) : Nat → State → MmRun → State × Option MmRun
  | 0, s, m => (s, some m)
  | n + 1, s, m =>
    if mmPanels d ≤ m.panel ∨ mmBlocks d = 0 then (s, none)
    else if m.got.length < mmChunks d then
      let slot := mmSlot d m.rot
      if isFull s i.tile slot && !badRead s (tileBase i.tile + slotBase slot) 4096 then
        let s0 := correctRead s (tileBase i.tile + slotBase slot) 4096
        let bs := tileRead s i.tile (slotBase slot) 4096
        let s1 := if !mmHeld d || decide (mmBlocks d = 1) then setFull s0 i.tile slot false else s0
        mmAdvance i d n s1 { m with rot := m.rot + 1, got := m.got ++ [bs] }
      else (s, some m)
    else
      let r := mmCompute s i d m
      mmAdvance i d n r.1 r.2

/-- The slot the run waits for is FULL and holds an uncorrectable error (R363). -/
def mmMeetsBad (s : State) (i : Inst) (d : Bytes) (m : MmRun) : Option Nat :=
  let slot := mmSlot d m.rot
  let a := tileBase i.tile + slotBase slot
  if decide (m.panel < mmPanels d ∧ m.got.length < mmChunks d) && isFull s i.tile slot && badRead s a 4096
    then some (firstBad s a 4096 - tileBase i.tile) else none

/-- The MATMUL in progress on a context advances. -/
def mmRunOn (s : State) (tile ctx : Nat) : State :=
  match instOf s tile ctx with
  | none => s
  | some i =>
    match i.mm with
    | none => s
    | some m =>
      let d := descBytes s i m.index
      let r := mmAdvance i d (mmPanels d * (mmBlocks d + 1) + 2 * mmChunks d + 17) s m
      match instOf r.1 tile ctx with
      | none => r.1
      | some j =>
        let s1 := setInst r.1 { j with mm := r.2 }
        match r.2 with
        | none => s1
        | some k => match mmMeetsBad s1 j d k with
          | some a => abortAt (tileStoreUe s1 tile a) tile ctx csTileFault
          | none => s1

/-! ### The descriptors -/

def convFieldsOk (d : Bytes) : Bool :=
  decide (1 ≤ cvKH d ∧ cvKH d ≤ 15 ∧ 1 ≤ cvKW d ∧ cvKW d ≤ 15 ∧ 1 ≤ cvSH d ∧ cvSH d ≤ 8 ∧ 1 ≤ cvSW d ∧ cvSW d ≤ 8)
    && decide (1 ≤ cvDH d ∧ cvDH d ≤ 8 ∧ 1 ≤ cvDW d ∧ cvDW d ≤ 8 ∧ (mmA d).rows = cvInH d * cvInW d)
    && allZero (d.drop 0x3C)

def mmOk (s : State) (d : Bytes) : Bool :=
  mmPair (dFmtA d) (dFmtB d) && decide (dFmtOut d ≤ 11) && trefOk (dFmtA d) (mmA d) && trefOk (dFmtOut d) (mmOut d)
    && decide (mmSlotFirst d < 8 ∧ 1 ≤ mmSlotCount d ∧ mmSlotCount d ≤ 8 ∧ fieldAt d 0x26 2 < 3)
    && (!mmAccLoad d || decide (dFmtOut d = if mmInt d then 3 else 8))
    && (if mmRequant d then mmInt d && decide (dFmtOut d ≤ 2) && qparamOk d 0x28 (mmOut d).cols else allZero (sliceOf d 0x28 8))
    && (if mmConv d then convFieldsOk d else decide ((mmA d).rows = (mmOut d).rows) && allZero (d.drop 0x30))
    && s.load.weights.any (fun w => decide (w.wsetId = fieldAt d 0x20 4))

def matmulRun : DescRun :=
  { ok := fun s _ d => mmOk s d
    access := fun _ _ d =>
      { reads := trefRanges (dFmtA d) (mmA d) ++ (if mmRequant d then [qparamRange d 0x28] else [])
          ++ (if mmAccLoad d then trefRanges (dFmtOut d) (mmOut d) else [])
        writes := trefRanges (dFmtOut d) (mmOut d) }
    holds := true
    run := fun s i _ idx =>
      .ok (mmRunOn (setInst s { i with mm := some { index := idx, panel := 0, block := 0, rot := 0, got := [] } }) i.tile i.ctx) }

def execMatmul (tile ctx : Nat) (s : State) : Result := issueDesc s tile ctx 0x10 matmulRun

def execMatmulConv (tile ctx : Nat) (s : State) : Result := issueDesc s tile ctx 0x11 matmulRun

/-! ### The weight bus (R122) -/

/-- The instance's next chunk and the slot it goes to. -/
def nextChunk (i : Inst) : Option (StreamRun × Nat × Nat) :=
  match i.stream with
  | [] => none
  | e :: _ => some (e, e.chunkFirst + i.streamPos % e.chunkCount, (e.slotFirst + i.streamRot % e.slotCount) % 8)

/-- The bus waits to write the next chunk of what is pending: its slot is clear (R122, R123). -/
def wantsChunk (s : State) (i : Inst) : Bool :=
  match nextChunk i with
  | some p => !isFull s i.tile p.2.2
  | none => false

/-- A chunk has been written: the entry ends after its passes; the rotation carries on. -/
def chunkDone (i : Inst) (slot : Nat) : Inst :=
  match i.stream with
  | [] => i
  | e :: t =>
    let i1 := { i with streamRot := i.streamRot + 1, slots := addOnce i.slots slot }
    if i.streamPos + 1 < e.chunkCount * e.passes then { i1 with streamPos := i.streamPos + 1 }
    else { i1 with stream := t, streamPos := 0 }

/-- Whose entries a cluster's bus holds: the instances that run, and those that ended with entries pending (R123). -/
def busUsers (s : State) (cluster : Nat) : List Inst :=
  (s.disp.leftover ++ s.disp.running).filter fun i => decide (i.tile / 16 = cluster)

/-- The bus's user on a context; what an earlier instance left there comes first. -/
def busUser (s : State) (tile ctx : Nat) : Option Inst :=
  (busUsers s (tile / 16)).find? fun i => decide (i.tile = tile ∧ i.ctx = ctx) && wantsChunk s i

/-- The bus's pointer within a class: that of the SAFE instances, that of the PLAIN ones (R122). -/
def busPtr (s : State) (i : Inst) : Nat := natGet s.disp.chunkPtr (2 * (i.tile / 16) + (if i.task.safe then 0 else 1))

/-- User j goes before user i: SAFE before PLAIN, then as the class's pointer reaches them (R122). -/
def busBefore (s : State) (j i : Inst) : Bool :=
  if j.task.safe = i.task.safe then decide (ctxRank (busPtr s i) (ctxKey j) < ctxRank (busPtr s i) (ctxKey i))
  else j.task.safe

/-- No user that waits goes before this one. -/
def chunkTurn (s : State) (i : Inst) : Bool :=
  !(busUsers s (i.tile / 16)).any fun j => wantsChunk s j && busBefore s j i

/-- The users that wait for the same chunk of the same set: one read serves them all (R122). -/
def sharers (s : State) (cluster wset chunk : Nat) : List Inst :=
  (busUsers s cluster).filter fun j => wantsChunk s j && (match nextChunk j with
    | some p => decide (p.1.wset = wset ∧ p.2.1 = chunk)
    | none => false)

/-- A user's record changes where it stands. -/
def putUser (s : State) (i j : Inst) : State :=
  let put := fun k => if k = i then j else k
  { s with disp := { s.disp with running := s.disp.running.map put, leftover := s.disp.leftover.map put } }

/-- The chunk is written to one user's slot and the slot becomes FULL; never over an unread chunk (R39, R123). -/
def giveChunk (s : State) (bs : Bytes) (i : Inst) : State :=
  match nextChunk i with
  | none => s
  | some p =>
    if isFull s i.tile p.2.2 then s
    else putUser (setFull (tileWrite s i.tile (slotBase p.2.2) bs) i.tile p.2.2 true) i (chunkDone i p.2.2)

/-- The pointer of the class moves past the user served (R122). -/
def notePtr (s : State) (i : Inst) : State :=
  { s with disp := { s.disp with
    chunkPtr := natSet s.disp.chunkPtr (2 * (i.tile / 16) + (if i.task.safe then 0 else 1)) ((ctxKey i + 1) % 512) } }

/-- A user whose chunk cannot be read: the bus drops its entries, DESIGN CHOICE (log entry 61); an instance that still runs is
aborted (R363). -/
def failUser (s : State) (i : Inst) : State :=
  let s1 := putUser s i { i with stream := [] }
  if i.finished then s1 else abortAt s1 i.tile i.ctx csTileFault

/-- The MATMULs of a tile go on with what they find FULL. -/
def tileRuns (s : State) (tile : Nat) : State := mmRunOn (mmRunOn s tile 0) tile 1

/-- One read of a chunk serves every user that waits for it. -/
def writeChunk (s : State) (w : WeightSet) (chunk : Nat) (l : List Inst) : State :=
  let a := w.addr + 4096 * chunk
  let s0 := correctRead s a 4096
  if badRead s a 4096 then l.foldl failUser (gddrUe s0 (firstBad s a 4096))
  else ((l.map (·.tile)).eraseDups).foldl tileRuns (l.foldl (fun t i => giveChunk t (devRead s a 4096) i) s0)

/-- WEIGHT_CHUNK_WRITE: the bus writes the next chunk of the user whose turn it is, and sets FULL (R39, R122). -/
def execWeightChunkWrite (tile ctx : Nat) (s : State) : Result :=
  match busUser s tile ctx with
  | none => .next s
  | some i =>
    if s.boot.inReset || !chunkTurn s i then .next s
    else match nextChunk i with
      | none => .next s
      | some p =>
        match s.load.weights.find? (fun w => decide (w.wsetId = p.1.wset)) with
        | none => .fault (.unguarded "R118")
        | some w =>
          if w.len < 4096 * (p.2.1 + 1) then .fault (.unguarded "R118")
          else .next (writeChunk (notePtr s i) w p.2.1 (sharers s (tile / 16) p.1.wset p.2.1))

end Sys2Proof.Machine
end

