-- ==== Sys2Proof/Machine/Power.lean ====
section
/-! DEFINITION. Boot stages (R463), cold resets and their release (R486 to R489, R500), the reference clock (R28, R485)
and the thermal limits (R490 to R492). -/

namespace Sys2Proof.Machine

/-! ### Boot (R48, R49, R463) -/

/-- ROM_STAGE_DONE: image 0 is awaited; a fuse block that reads inconsistent, or a failed self-check, ends the boot in FAILED,
which no state of the block foretells (log entry 59). Memory is zero-filled already (R489). -/
def execRomStageDone (s : State) : Result :=
  onlyIf s (decide (s.boot.stage = 1)) (tickFree (setStage s (if Config.freeNat 93 s.disp.freeCtr % 2 = 0 then 2 else 15)))

/-- GDDR6_TRAINING_DONE (R366): the data rate is PMC's choice from the VDDQ it measured, a free value (log entry 9). -/
def execGddr6TrainingDone (s : State) : Result :=
  onlyIf s (decide (s.boot.stage = 4))
    (tickFree { s with boot := { s.boot with stage := 5 }
                       plat := { s.plat with gddrTrained := true, gddrRate := Config.freeNat 72 s.disp.freeCtr % 2 } })

/-- A spare slot fails the boot self-test: it is FAILED, and a name it stood in for is lost. -/
def spareFails (s : State) (n : Nat) : State :=
  let sp := s.plat.spares.getD n .reset
  setSpare (if sp.st = 1 ∨ sp.st = 2 then loseTile s (16 * n + sp.subst) else s) n fun x => { x with st := 3, subst := 0 }

/-- A tile's own slot fails: its name moves to the spare, or is lost (R49, R51). A slot without a name stands aside. -/
def tileFails (s : State) (n p : Nat) : State :=
  let sp := s.plat.spares.getD n .reset
  if (sp.st = 1 ∨ sp.st = 2) ∧ sp.subst = p then s
  else if sp.st = 0 then
    let s1 := setSpare s n fun x => { x with st := 1, subst := p }
    { s1 with plat := { s1.plat with mapEpoch := s1.plat.mapEpoch + 1 } }
  else loseTile s (16 * n + p)

def slotFails (s : State) (f : Nat × Nat) : State := if f.2 = 16 then spareFails s f.1 else tileFails s f.1 f.2

/-- Failed slots in order: spares first, then the others as they are numbered. -/
def failOrder (s : State) (l : List (Nat × Nat)) : List (Nat × Nat) :=
  let at' := fun p => ((List.range (clusterCount s)).filter fun n => decide ((n, p) ∈ l)).map fun n => (n, p)
  at' 16 ++ (List.range 16).flatMap at'

/-- The rotation that precedes READY is over: a class no slice was commanded of has passed (log entry 50). -/
def bootRotation (s : State) : State :=
  let y := s.safety
  let mark := fun (i : Nat) (v : Option Nat) => if v.isNone && !y.selfBad.any (·.1 = i + 1) then some s.ao else v
  { s with safety := { y with rotations := max 1 y.rotations, selfPass := (List.range 11).map fun i => mark i (y.selfPass.getD i none) } }

/-- The banks of FREE and FAILED spare slots go OFF (R360). -/
def spareBanksOff (s : State) : State :=
  { s with plat := { s.plat with spares := s.plat.spares.map fun x => { x with power := if x.st = 0 ∨ x.st = 3 then 2 else x.power } } }

/-- BOOT_SELFTEST_DONE: READY. -/
def execBootSelftestDone (failedSlots : List (Nat × Nat)) (s : State) : Result :=
  onlyIf s (decide (s.boot.stage = 6) && s.safety.selfRun.isNone)
    (setStage (spareBanksOff (bootRotation ((failOrder s failedSlots).foldl slotFails s))) 7)

/-! ### Reset sources (R479, R486, R487, R500) -/

/-- POWER_ON_RESET: internal reset at once; RESET_CAUSE then reads POR alone (R489). -/
def execPowerOnReset (s : State) : Result := .next (heldReset s 1)

/-- RESET_PIN: RESET_N or PWR_OK low in 16 AO cycles in a row. -/
def execResetPin (s : State) : Result := .next (coldReset s 2)

/-- The rail's voltage lies within its monitor's thresholds (R476, R479): VDD_T's follow its setpoint, and take in the old one's
for 20 µs after a change. VDDQ's follow a level that PMC measured, of which the spec says no more: the event's word is taken. -/
def railInside (s : State) (rail mv : Nat) : Bool :=
  let set := s.plat.vddtSet
  let old := match s.plat.vddtRelax with
    | some p => if s.ao < p.1 + 2000 then p.2 else set
    | none => set
  if rail = 0 then decide (9 * min old set ≤ 10 * mv ∧ 10 * mv ≤ 11 * max old set)
  else if rail = 4 ∨ rail = 5 then false
  else if rail = 6 then decide (1620 ≤ mv ∧ mv ≤ 1980)
  else decide (680 ≤ mv ∧ mv ≤ 830)

/-- RAIL_OUT_OF_WINDOW: a rail, as RAIL_OK numbers them, has stood at a voltage (in mV) for 1 µs; VDD_AO has its power-on reset instead. -/
def execRailOutOfWindow (rail : Nat × Nat) (s : State) : Result :=
  if rail.1 < 7 ∧ railInside s rail.1 rail.2 = false then .next (coldReset s 8) else .next s

/-! ### Release (R480, R487, R488) -/

/-- Internal reset has lasted: 10 µs, from 40 µs after the decision on; a power-on reset, 100 µs. -/
def resetLasted (s : State) : Bool :=
  match s.boot.resetAt with
  | some t => decide (t + (if bitOf s.boot.resetCause.toNat 0 then 10000 else 5000) ≤ s.ao)
  | none => true

/-- Fused factory repairs (R48). -/
def factorySpares (f : Fuses) : List Spare :=
  (List.range 16).map fun n =>
    match f.factory.find? fun p => decide (p.1 = n) with
    | some p => { Spare.reset with st := 2, subst := p.2 % 16 }
    | none => .reset

/-- The machine at the release of reset: everything at its reset value but the fuses and RESET_CAUSE, every rail in its
window; the model's own queue, outputs and free counter go on. -/
def released (s : State) : State :=
  { State.reset with
    pending := s.pending
    fuses := s.fuses
    out := s.out
    disp := { Dispatcher.reset with freeCtr := s.disp.freeCtr }
    boot := { Boot.reset with resetCause := s.boot.resetCause }
    plat := { Platform.reset with rails := 0xFF, spares := factorySpares s.fuses } }

/-- RESET_RELEASE: RESET_N and PWR_OK high, every monitor in its window, internal reset over, THERM_N not asserted. -/
def execResetRelease (s : State) : Result :=
  .next (if s.boot.inReset && resetLasted s && !s.outp.thermN then released s else s)

/-! ### REFCLK (R28, R324, R485) -/

/-- The edge dies' links go down. -/
def edgeLinksDown (s : State) : State :=
  { vlLink s false with
    ing := { s.ing with linkUp := [] }
    links := { s.links with up := 0 } }

def execRefclkLoss (s : State) : Result :=
  onlyIf s s.plat.refclkOk (edgeLinksDown (raiseOpenFault { s with plat := { s.plat with refclkOk := false } } fsRefclk fRefclkLoss))

def execRefclkReturn (s : State) : Result :=
  onlyIf s (!s.plat.refclkOk) (ceaseCause { s with plat := { s.plat with refclkOk := true } } 10)

/-! ### Temperature (R490 to R492, R500) -/

/-- A sensor's value in sixteenths of a degree. -/
def tempOf (t : Half) : Int := t.toInt

def setTemp (s : State) (k : Nat) (t : Half) : State := { s with plat := { s.plat with temps := s.plat.temps.set k t } }

/-- Raises under way are withdrawn, their tokens not spent; the governor keeps one of them. -/
def withdrawRaises (s : State) : State :=
  let isRaise := fun w : Nat × Nat => decide (w.1 = 4 ∧ 16 ≤ w.2)
  { s with disp := { s.disp with
      waiters := s.disp.waiters.filter fun w => !isRaise w
      granted := s.disp.granted.filter fun w => !isRaise w
      tokensHeld := if s.disp.granted.any isRaise then 1 else s.disp.tokensHeld } }

/-- Every running island goes to 420 MHz. -/
def slowIslands (s : State) : State :=
  { s with disp := { s.disp with trip := true, islands := s.disp.islands.map fun i => { i with opp := min 1 i.opp } } }

def tripNow (s : State) : State := withdrawRaises (slowIslands (raiseOpenFault s fsThermal fThermalTrip))

/-- THERMAL_TRIP: a sensor at 115 °C or more. -/
def execThermalTrip (sensor : Nat) (temp : Half) (s : State) : Result :=
  onlyIf s (!s.disp.trip && sensorPresent s sensor && decide (1840 ≤ tempOf temp)) (tripNow (setTemp s sensor temp))

/-- Every sensor is below 105 °C. -/
def allCool (temps : List Half) : Bool := decide (temps.length = 20) && temps.all fun t => decide (tempOf t < 1680)

/-- THERMAL_TRIP_END: the trip's cause ceases; in internal reset it is THERM_N that goes. -/
def execThermalTripEnd (temps : List Half) (s : State) : Result :=
  if !allCool temps then .next s
  else
    let s1 := { s with plat := { s.plat with temps := temps } }
    if s.boot.inReset then (if s.outp.thermN then .next { s1 with outp := { s1.outp with thermN := false } } else .next s)
    else if s.disp.trip then .next (ceaseCause { s1 with disp := { s1.disp with trip := false } } 9)
    else .next s

/-- CRITICAL_TEMP: a sensor at 125 °C or more; THERM_N, and a cold reset with cause CRITICAL, its bit 4. -/
def execCriticalTemp (sensor : Nat) (temp : Half) (s : State) : Result :=
  if sensorPresent s sensor && decide (2000 ≤ tempOf temp) then
    let s1 := setTemp (coldReset s 16) sensor temp
    .next { s1 with outp := { s1.outp with thermN := true } }
  else .next s

end Sys2Proof.Machine
end

