-- ==== Sys2Proof/Machine/Upkeep.lean ====
section
/-! DEFINITION. Memory upkeep: bank wakes (R360, R361), patrol scrubbing (R362, R365) and GDDR6 retraining (R366). -/

namespace Sys2Proof.Machine

/-! ### BANK_WAKE (R361) -/

/-- The wake has taken its 80 ns. -/
def wakeDone (s : State) (key : Nat) : Bool := s.plat.waking.any fun w => decide (w.1 = key ∧ w.2 + 8 ≤ s.ao)

def endWake (s : State) (key : Nat) : State :=
  setBank { s with plat := { s.plat with waking := s.plat.waking.filter fun w => decide (w.1 ≠ key) } } key 0

def execBankWake (tile bank : Nat) (s : State) : Result :=
  onlyIf s (decide (bank < 46) && wakeDone s (64 * tile + bank) && decide (bankState s (64 * tile + bank) = 1)) (endWake s (64 * tile + bank))

/-! ### PATROL_SCRUB (R362, R363, R365) -/

/-- The unit is one that is scrubbed: a world bank, a firmware memory, or the GDDR6 channel of the address. -/
def scrubbed (s : State) (c unit addr : Nat) : Bool :=
  if c = 2 then decide (544 ≤ unit) && presentCluster s (unit - 544) && decide (addr < 0x400000)
  else if c = 3 then decide (560 ≤ unit) && presentProc s (unit - 560)
  else decide (c = 6 ∧ unit = 582 + gddrChannel s addr ∧ addr < gddrEnd s)

/-- An uncorrectable error found by a scrub: reported under R363 with no reader to abort. -/
def scrubUe (s : State) (c unit addr : Nat) : State :=
  if c = 2 then raiseOpenFault (bankUe s (unit - 544) (addr / 8)) (fsBank (unit - 544)) fWorldBankEcc
  else if c = 3 then
    let p := unit - 560
    let s1 := raiseOpenFault (eccReport s 3 unit addr) (fsProc p) fFwMemEcc
    if canCrash s p then crash s1 p 2 else s1
  else gddrUe (markBad s addr) addr

def execPatrolScrub (cls unit addr : Nat) (uncorrectable : Bool) (s : State) : Result :=
  onlyIf s (scrubbed s cls unit addr) (if uncorrectable then scrubUe s cls unit addr else corrected s cls)

/-! ### GDDR6_RETRAIN (R366) -/

/-- PMC runs (R403, R410), the channel was last retrained 100 ms ago or more, and no other is being retrained. -/
def retrainDue (s : State) (c : Nat) : Bool :=
  procRuns s 1 && s.plat.retraining.isNone && presentChannel s c && s.plat.gddrTrained
    && (match s.plat.retrainAt.find? (fun e => decide (e.1 = c)) with
        | some e => decide (e.2 + 10000000 ≤ s.ao)
        | none => true)

/-- The channel pauses; the tick that ends its microsecond ends the retraining. -/
def execGddr6Retrain (channel : Nat) (s : State) : Result :=
  onlyIf s (retrainDue s channel)
    { s with plat := { s.plat with retraining := some channel, retrainAt := (channel, s.ao) :: s.plat.retrainAt.filter fun e => decide (e.1 ≠ channel) } }

end Sys2Proof.Machine
end

