-- ==== Sys2Proof/Machine/Dispatch.lean ====
section
/-! DEFINITION. One arm per command: each calls its meaning (R12: a step is whole and indivisible). -/

namespace Sys2Proof.Machine

/-- The effect of a command on everything but the queue. -/
def exec (i : Instr) (s : State) : Host.Outcome State Fault Refusal :=
  match i with
  | .hello => Sys2Proof.Machine.execHello s
  | .helloReattach => Sys2Proof.Machine.execHelloReattach s
  | .heartbeat => Sys2Proof.Machine.execHeartbeat s
  | .queryDevice => Sys2Proof.Machine.execQueryDevice s
  | .queryFacts => Sys2Proof.Machine.execQueryFacts s
  | .queryCkptRead => Sys2Proof.Machine.execQueryCkptRead s
  | .queryWeightDir => Sys2Proof.Machine.execQueryWeightDir s
  | .readCounters => Sys2Proof.Machine.execReadCounters s
  | .loadFirmware => Sys2Proof.Machine.execLoadFirmware s
  | .fuseRequest => Sys2Proof.Machine.execFuseRequest s
  | .restartProcessor => Sys2Proof.Machine.execRestartProcessor s
  | .attest => Sys2Proof.Machine.execAttest s
  | .loadTaskImage => Sys2Proof.Machine.execLoadTaskImage s
  | .loadWeights => Sys2Proof.Machine.execLoadWeights s
  | .profileSet => Sys2Proof.Machine.execProfileSet s
  | .cycleConfig => Sys2Proof.Machine.execCycleConfig s
  | .selftestConfig => Sys2Proof.Machine.execSelftestConfig s
  | .worldDelta => Sys2Proof.Machine.execWorldDelta s
  | .start => Sys2Proof.Machine.execStart s
  | .stop => Sys2Proof.Machine.execStop s
  | .pause => Sys2Proof.Machine.execPause s
  | .resume => Sys2Proof.Machine.execResume s
  | .resumeCheckpoint => Sys2Proof.Machine.execResumeCheckpoint s
  | .save => Sys2Proof.Machine.execSave s
  | .ckptPut => Sys2Proof.Machine.execCkptPut s
  | .replay => Sys2Proof.Machine.execReplay s
  | .replayData => Sys2Proof.Machine.execReplayData s
  | .safeClear => Sys2Proof.Machine.execSafeClear s
  | .safeRequest => Sys2Proof.Machine.execSafeRequest s
  | .aoRead addr => Sys2Proof.Machine.execAoRead addr s
  | .aoLogRead index word => Sys2Proof.Machine.execAoLogRead index word s
  | .aoSafeRequest => Sys2Proof.Machine.execAoSafeRequest s
  | .aoResetArm data => Sys2Proof.Machine.execAoResetArm data s
  | .aoResetGo data => Sys2Proof.Machine.execAoResetGo data s
  | .cmdDoorbell tail => Sys2Proof.Machine.execCmdDoorbell tail s
  | .headWrite off value => Sys2Proof.Machine.execHeadWrite off value s
  | .hostLossCfgWrite value => Sys2Proof.Machine.execHostLossCfgWrite value s
  | .registerWrite off value => Sys2Proof.Machine.execRegisterWrite off value s
  | .mdioC22Read port value => Sys2Proof.Machine.execMdioC22Read port value s
  | .mdioC22Write port value => Sys2Proof.Machine.execMdioC22Write port value s
  | .mdioC45Read port value => Sys2Proof.Machine.execMdioC45Read port value s
  | .mdioC45Write port value => Sys2Proof.Machine.execMdioC45Write port value s
  | .mdioDone port response => Sys2Proof.Machine.execMdioDone port response s
  | .phyResetWrite port value => Sys2Proof.Machine.execPhyResetWrite port value s
  | .stopEnWrite value => Sys2Proof.Machine.execStopEnWrite value s
  | .hostQueueWra queue offset tag data => Sys2Proof.Machine.execHostQueueWra queue offset tag data s
  | .flitReceive flit => Sys2Proof.Machine.execFlitReceive flit s
  | .mainbandDown => Sys2Proof.Machine.execMainbandDown s
  | .mainbandUp rate repaired => Sys2Proof.Machine.execMainbandUp rate repaired s
  | .ntf ring => Sys2Proof.Machine.execNtf ring s
  | .hostLossExpiry => Sys2Proof.Machine.execHostLossExpiry s
  | .cycleStart => Sys2Proof.Machine.execCycleStart s
  | .syncTimeout => Sys2Proof.Machine.execSyncTimeout s
  | .fpSyncEdge => Sys2Proof.Machine.execFpSyncEdge s
  | .syncLostClear => Sys2Proof.Machine.execSyncLostClear s
  | .phaseRelease phase => Sys2Proof.Machine.execPhaseRelease phase s
  | .cut => Sys2Proof.Machine.execCut s
  | .deadline => Sys2Proof.Machine.execDeadline s
  | .boundary => Sys2Proof.Machine.execBoundary s
  | .spareIn cluster => Sys2Proof.Machine.execSpareIn cluster s
  | .replayCycleStart => Sys2Proof.Machine.execReplayCycleStart s
  | .dispatch tile ctx => Sys2Proof.Machine.execDispatch tile ctx s
  | .steal tile ctx => Sys2Proof.Machine.execSteal tile ctx s
  | .listCopyDone tile ctx => Sys2Proof.Machine.execListCopyDone tile ctx s
  | .completionRecord cluster => Sys2Proof.Machine.execCompletionRecord cluster s
  | .instanceComplete tile ctx => Sys2Proof.Machine.execInstanceComplete tile ctx s
  | .ledgerWindowStart => Sys2Proof.Machine.execLedgerWindowStart s
  | .oppSwitch cluster opp => Sys2Proof.Machine.execOppSwitch cluster opp s
  | .islandGate cluster => Sys2Proof.Machine.execIslandGate cluster s
  | .islandWake cluster => Sys2Proof.Machine.execIslandWake cluster s
  | .wakeToken => Sys2Proof.Machine.execWakeToken s
  | .nop tile ctx => Sys2Proof.Machine.execNop tile ctx s
  | .fence tile ctx => Sys2Proof.Machine.execFence tile ctx s
  | .moveCopy tile ctx => Sys2Proof.Machine.execMoveCopy tile ctx s
  | .moveFill tile ctx => Sys2Proof.Machine.execMoveFill tile ctx s
  | .moveFetch tile ctx => Sys2Proof.Machine.execMoveFetch tile ctx s
  | .movePut tile ctx => Sys2Proof.Machine.execMovePut tile ctx s
  | .putTimeout tile ctx => Sys2Proof.Machine.execPutTimeout tile ctx s
  | .matmul tile ctx => Sys2Proof.Machine.execMatmul tile ctx s
  | .matmulConv tile ctx => Sys2Proof.Machine.execMatmulConv tile ctx s
  | .vectBin tile ctx => Sys2Proof.Machine.execVectBin tile ctx s
  | .vectUn tile ctx => Sys2Proof.Machine.execVectUn tile ctx s
  | .vectNorm tile ctx => Sys2Proof.Machine.execVectNorm tile ctx s
  | .vectCvt tile ctx => Sys2Proof.Machine.execVectCvt tile ctx s
  | .reduce tile ctx => Sys2Proof.Machine.execReduce tile ctx s
  | .genprim tile ctx => Sys2Proof.Machine.execGenprim tile ctx s
  | .sweep tile ctx => Sys2Proof.Machine.execSweep tile ctx s
  | .sweepPairDone tile ctx => Sys2Proof.Machine.execSweepPairDone tile ctx s
  | .sweepStartReport tile ctx => Sys2Proof.Machine.execSweepStartReport tile ctx s
  | .cacheFill tile line uncorrectable => Sys2Proof.Machine.execCacheFill tile line uncorrectable s
  | .topk tile ctx => Sys2Proof.Machine.execTopk tile ctx s
  | .topkMerge tile ctx => Sys2Proof.Machine.execTopkMerge tile ctx s
  | .knn tile ctx => Sys2Proof.Machine.execKnn tile ctx s
  | .solveAssemble tile ctx => Sys2Proof.Machine.execSolveAssemble tile ctx s
  | .solveFactor tile ctx => Sys2Proof.Machine.execSolveFactor tile ctx s
  | .solveSubst tile ctx => Sys2Proof.Machine.execSolveSubst tile ctx s
  | .solveUpdate tile ctx => Sys2Proof.Machine.execSolveUpdate tile ctx s
  | .solveReport tile ctx => Sys2Proof.Machine.execSolveReport tile ctx s
  | .dmareq tile ctx => Sys2Proof.Machine.execDmareq tile ctx s
  | .wait tile ctx => Sys2Proof.Machine.execWait tile ctx s
  | .signal tile ctx => Sys2Proof.Machine.execSignal tile ctx s
  | .tokenIncrement tile counter amount => Sys2Proof.Machine.execTokenIncrement tile counter amount s
  | .emit tile ctx => Sys2Proof.Machine.execEmit tile ctx s
  | .descriptorComplete tile ctx index => Sys2Proof.Machine.execDescriptorComplete tile ctx index s
  | .weightChunkWrite tile ctx => Sys2Proof.Machine.execWeightChunkWrite tile ctx s
  | .flowRelease flow => Sys2Proof.Machine.execFlowRelease flow s
  | .flowAckPoll flow => Sys2Proof.Machine.execFlowAckPoll flow s
  | .releaseRequest => Sys2Proof.Machine.execReleaseRequest s
  | .latigoComplete => Sys2Proof.Machine.execLatigoComplete s
  | .vlFrameSend => Sys2Proof.Machine.execVlFrameSend s
  | .vlLinkChange up => Sys2Proof.Machine.execVlLinkChange up s
  | .vlRxFrame frame => Sys2Proof.Machine.execVlRxFrame frame s
  | .phyIntFall port => Sys2Proof.Machine.execPhyIntFall port s
  | .fpToggle => Sys2Proof.Machine.execFpToggle s
  | .fpReadback line => Sys2Proof.Machine.execFpReadback line s
  | .stopInputActive => Sys2Proof.Machine.execStopInputActive s
  | .stopInputInactive => Sys2Proof.Machine.execStopInputInactive s
  | .signatureRecord cluster => Sys2Proof.Machine.execSignatureRecord cluster s
  | .reinExpiry tile ctx => Sys2Proof.Machine.execReinExpiry tile ctx s
  | .faultEvent source code data => Sys2Proof.Machine.execFaultEvent source code data s
  | .faultDrain => Sys2Proof.Machine.execFaultDrain s
  | .logRecord code source flags data => Sys2Proof.Machine.execLogRecord code source flags data s
  | .worldBatchTake => Sys2Proof.Machine.execWorldBatchTake s
  | .batchApply => Sys2Proof.Machine.execBatchApply s
  | .epochPublish => Sys2Proof.Machine.execEpochPublish s
  | .worldBankRepair cluster slot => Sys2Proof.Machine.execWorldBankRepair cluster slot s
  | .dmaTransferStart engine => Sys2Proof.Machine.execDmaTransferStart engine s
  | .dmaComplete engine channel readbackOk => Sys2Proof.Machine.execDmaComplete engine channel readbackOk s
  | .dmaTimeout engine channel => Sys2Proof.Machine.execDmaTimeout engine channel s
  | .queueReset queue => Sys2Proof.Machine.execQueueReset queue s
  | .queueReadTimeout queue => Sys2Proof.Machine.execQueueReadTimeout queue s
  | .frameReceived port carrier stamp => Sys2Proof.Machine.execFrameReceived port carrier stamp s
  | .frameAccept queue => Sys2Proof.Machine.execFrameAccept queue s
  | .frameHashDone queue => Sys2Proof.Machine.execFrameHashDone queue s
  | .gptpSyncRx port offset => Sys2Proof.Machine.execGptpSyncRx port offset s
  | .gptpSyncTimeout => Sys2Proof.Machine.execGptpSyncTimeout s
  | .collFrameRx port frame => Sys2Proof.Machine.execCollFrameRx port frame s
  | .collTimeout collId => Sys2Proof.Machine.execCollTimeout collId s
  | .lkLinkChange port turn => Sys2Proof.Machine.execLkLinkChange port turn s
  | .watchdogExpiry proc => Sys2Proof.Machine.execWatchdogExpiry proc s
  | .fwReloadDone proc digestOk => Sys2Proof.Machine.execFwReloadDone proc digestOk s
  | .plannedRestartBegin proc => Sys2Proof.Machine.execPlannedRestartBegin proc s
  | .plannedRestartDone proc => Sys2Proof.Machine.execPlannedRestartDone proc s
  | .imageVerifyDone => Sys2Proof.Machine.execImageVerifyDone s
  | .fwVerifyDone => Sys2Proof.Machine.execFwVerifyDone s
  | .selftestSlice => Sys2Proof.Machine.execSelftestSlice s
  | .sliceDone failedUnits => Sys2Proof.Machine.execSliceDone failedUnits s
  | .selftestLate cls => Sys2Proof.Machine.execSelftestLate cls s
  | .selftestStarved cls unit => Sys2Proof.Machine.execSelftestStarved cls unit s
  | .bankWake tile bank => Sys2Proof.Machine.execBankWake tile bank s
  | .patrolScrub cls unit addr uncorrectable => Sys2Proof.Machine.execPatrolScrub cls unit addr uncorrectable s
  | .gddr6Retrain channel => Sys2Proof.Machine.execGddr6Retrain channel s
  | .refclkLoss => Sys2Proof.Machine.execRefclkLoss s
  | .refclkReturn => Sys2Proof.Machine.execRefclkReturn s
  | .powerOnReset => Sys2Proof.Machine.execPowerOnReset s
  | .resetPin => Sys2Proof.Machine.execResetPin s
  | .railOutOfWindow rail => Sys2Proof.Machine.execRailOutOfWindow rail s
  | .resetRelease => Sys2Proof.Machine.execResetRelease s
  | .romStageDone => Sys2Proof.Machine.execRomStageDone s
  | .gddr6TrainingDone => Sys2Proof.Machine.execGddr6TrainingDone s
  | .bootSelftestDone failedSlots => Sys2Proof.Machine.execBootSelftestDone failedSlots s
  | .thermalTrip sensor temp => Sys2Proof.Machine.execThermalTrip sensor temp s
  | .thermalTripEnd temps => Sys2Proof.Machine.execThermalTripEnd temps s
  | .criticalTemp sensor temp => Sys2Proof.Machine.execCriticalTemp sensor temp s
  | .fwMemEcc proc => Sys2Proof.Machine.execFwMemEcc proc s
  | .internalFatalException proc => Sys2Proof.Machine.execInternalFatalException proc s
  | .dmaErrEcc engine channel line => Sys2Proof.Machine.execDmaErrEcc engine channel line s
  | .tileIdle tile => Sys2Proof.Machine.execTileIdle tile s
  | .phyRstNRelease => Sys2Proof.Machine.execPhyRstNRelease s
  | .sensorLinkChange port up => Sys2Proof.Machine.execSensorLinkChange port up s
  | .sidebandLinkChange up => Sys2Proof.Machine.execSidebandLinkChange up s
  | .gptpSyncTx port => Sys2Proof.Machine.execGptpSyncTx port s
  | .avsbusSetpointChange millivolt => Sys2Proof.Machine.execAvsbusSetpointChange millivolt s

end Sys2Proof.Machine
end

