-- ==== Sys2Proof/Machine/Tick.lean ====
section
/-! DEFINITION. One AO cycle (R7): what an empty queue leaves to pass. Clocks and Rein timers move, the router goes on
taking command entries it had to leave waiting (R393), and a channel's retraining ends after its microsecond (R366). What was to
wait for the end of the AO cycle is settled (R250), and what happens to memories, links and pins without a command (R362, R368,
R445) is a free value. Everything else that falls due at a time is a command of its own (log entry 1). -/

namespace Sys2Proof.Machine

/-- One AO cycle of a Rein timer (R298). -/
def reinTick (s : State) (i : Inst) : Inst :=
  if i.finished then i
  else if 0 < i.grace then { i with grace := i.grace - 1 }
  else { i with acc := i.acc + tileRate s i.tile }

/-- A retraining that has paused its channel for 1 µs is over (R366). -/
def endRetrain (s : State) : State :=
  match s.plat.retraining with
  | none => s
  | some c =>
    if s.plat.retrainAt.any fun e => decide (e.1 = c ∧ s.ao < e.2 + 100) then s
    else { s with plat := { s.plat with retraining := none } }

/-! ### The end of the AO cycle (R250) -/

/-- A release request that waited for a mismatch of its own AO cycle is judged; a Latigo that did not complete in the deadline's
AO cycle has failed. -/
def settleAo (s : State) : State := settleIfDue (judgeIfWaiting s)

/-! ### What happens without a command (log entry 55) -/

/-- A word takes a correctable error, or none does (R362). -/
def upset (s : State) : State :=
  let n := Config.freeNat 91 s.disp.freeCtr
  if n % 2 = 0 then s
  else { s with plat := { s.plat with softWords := sortedInsert (8 * (n / 2)) s.plat.softWords } }

/-- Bursts read or written again within their four retries: each is counted, none changes a value (R368). -/
def retryBursts (s : State) : State :=
  if s.plat.gddrTrained then addReg s offEdcRetries (Config.freeNat 92 s.disp.freeCtr) else s

/-- The pins are compared with their commands once in 100 AO cycles (R445); a mismatch holds cause FP_READBACK (R324). -/
def comparePins (s : State) : State :=
  if s.ao % 100 = 0 ∧ Config.freeNat 95 s.disp.freeCtr % 2 = 1 then
    { s with outp := { s.outp with readbackBad := true }
             safety := { s.safety with present := s.safety.present ||| (s.safety.cause &&& 0x800) } }
  else s

/-- Input pins whose level no command gives: while filtered STOP is active its last sample, taken every 100 AO cycles, may be high
or low (R446); a low PHY_INT_N may have gone high again, which only VL_PHY_CTRL.INT shows (R441). -/
def samplePins (s : State) : State :=
  let raw := s.outp.stopFilt && bitOf (Config.freeNat 98 s.disp.freeCtr) 0
  { s with outp := { s.outp with stopRaw := if s.ao % 100 = 0 then raw else s.outp.stopRaw }
           ing := { s.ing with intLow := s.ing.intLow.filter fun k => bitOf (Config.freeNat 97 s.disp.freeCtr) k } }

/-- A high pulse on FP_SYNC shorter than two samples may end at a sample: ignored and counted (R447). -/
def shortPulse (s : State) : State :=
  if s.ao % 100 = 0 ∧ Config.freeNat 99 s.disp.freeCtr % 2 = 1 then ignoreEdge s else s

/-- Every 10 µs the junction sensors are sampled (R490): between −40 °C and the trip point, which THERMAL_TRIP passes; while the
trip lasts its own samples stand. -/
def sampleTemps (s : State) : State :=
  let temp := fun k : Nat =>
    if sensorPresent s k then BitVec.ofInt 16 (Int.ofNat (Config.freeNat (100 + k) s.disp.freeCtr % 2480) - 640) else 0
  if s.ao % 1000 = 0 ∧ !s.disp.trip then { s with plat := { s.plat with temps := (List.range 20).map temp } } else s

def unbidden (s : State) : State := tickFree (sampleTemps (samplePins (comparePins (retryBursts (upset (shortPulse s))))))

/-- One AO cycle passes; in internal reset only time does. -/
def tickAo (s : State) : State :=
  if s.boot.inReset then { s with ao := s.ao + 1, disp := { s.disp with running := s.disp.running.map (reinTick s) } }
  else
    let s0 := unbidden (settleAo s)
    routeRun (endRetrain { s0 with ao := s0.ao + 1, disp := { s0.disp with running := s0.disp.running.map (reinTick s0) } })

end Sys2Proof.Machine
end

