-- ==== Sys2Proof/Safety.lean ====
section
/-! DEFINITION. What counts as a safe run of the block, in the terms claims use: the fuses only ever blow, the
memories keep their canonical form, and the field-port lines tell the vehicle nothing valid while the
safe-state latch is set. -/

namespace Sys2Proof.Machine

/-- From fuses q to fuses r nothing is undone: no count goes down, no blown bit returns (R466, R468). -/
structure Grown (q r : Fuses) : Prop where
  part : r.part = q.part
  factory : r.factory = q.factory
  trim : r.setpoints = q.setpoints
  lock : q.fieldLock → r.fieldLock
  sign : q.imgSignReq → r.imgSignReq
  valid : ∀ k, q.ikeyValid.getD k false → r.ikeyValid.getD k false
  revoked : ∀ k, q.ikeyRevoked.getD k false → r.ikeyRevoked.getD k false
  kkey : r.kkeyRevoked = q.kkeyRevoked
  rb : ∀ k, q.rbFused.getD k 0 ≤ r.rbFused.getD k 0

/-- The field-port lines: complementary while they toggle, both low otherwise (R443); while the latch is
set they are static and FP_DEGRADED is high (R324, R325). -/
def linesOf (toggling validA validB degraded latch : Bool) : Bool :=
  if toggling then (validA != validB) && !latch else !validA && !validB && (!latch || degraded)

/-- What every step keeps: the canonical form of the memories and of the register file, and the lines. -/
structure Inv (s : State) : Prop where
  mem : memWf s.mem = true
  regs : mapWf resetVal s.regs = true
  lines : linesOf s.outp.toggling s.outp.validA s.outp.validB s.outp.degraded s.safety.safe = true

/-- The safe-state latch is set (R324). -/
def Latched (s : State) : Prop := s.safety.safe = true

/-! ### Vocabulary of the claims -/

/-- The message m of opcode code stands at the front of its owner's queue and the owner takes it (R393). -/
def Front (s : State) (o : Owner) (code : Nat) (m : Msg) (rest : List Msg) : Prop :=
  ownerQueue s o = m :: rest ∧ m.opcode.toNat = code ∧ ownerRuns s o = true ∧ ownerAway s o = false ∧
    s.boot.inReset = false

/-- The message brings a whole object in one piece (R394). -/
def WholeObject (m : Msg) : Prop :=
  pieceRsvd m = true ∧ (pieceOf m).off = 0 ∧ pieceLast (pieceOf m) = true ∧
    (pieceOf m).data.length = (pieceOf m).total ∧ (pieceOf m).data.length ≤ 65472

/-- The state in which an owner acts on its front message's object: the message taken, and no older piece of the
object kept (R393, R394). -/
def afterPiece (s : State) (o : Owner) (m : Msg) (rest : List Msg) : State :=
  dropObject (setOwnerQueue s o rest) m.opcode (pieceOf m).obj

/-- What the descriptor at the instance's pointer touches, its list line among it (R77, R84). -/
def accessAt (s : State) (r : DescRun) (i : Inst) : Access := withListLine i (r.access s i (descBytes s i i.pc))

/-- The instance on a context stands at a descriptor of opcode op that may issue, is well formed, and names only
ranges in the tile, in banks that are on, free of uncorrectable errors (R84, R104, R36, R361, R363). -/
structure Issues (s : State) (tile ctx op : Nat) (r : DescRun) (i : Inst) : Prop where
  up : s.boot.inReset = false
  inst : instOf s tile ctx = some i
  line : listLineBad s i = false
  code : dOpcode (descBytes s i i.pc) = op
  may : mayIssue s i (descBytes s i i.pc) = true
  grant : pointerGrants s i (opUnit op) = true
  pc : i.pc < 8192
  header : headerOk (descBytes s i i.pc) = true
  body : r.ok s i (descBytes s i i.pc) = true
  access : accessOk s tile (accessAt s r i) = true
  rests : accessRests s tile (accessAt s r i) = false
  clean : badAccessAt s tile (accessAt s r i) = none

/-- The state after the issue, in which the descriptor's work is done: the instance has moved on, the unit is
taken, single-bit errors in what it reads are corrected (R84, R41, R362). -/
def issued (s : State) (tile : Nat) (r : DescRun) (i : Inst) : State :=
  correctAccess (noteIssue s i (descBytes s i i.pc) r.holds (accessAt s r i).writes) tile (accessAt s r i)

/-- The instance after the issue. -/
def issuedInst (s : State) (r : DescRun) (i : Inst) : Inst :=
  let d := descBytes s i i.pc
  { i with pc := i.pc + 1, ended := dLast d, wrote := i.wrote ++ (accessAt s r i).writes,
           inflight := if r.holds then i.inflight ++ [(i.pc, opUnit (dOpcode d))] else i.inflight }

/-- The three device rings lie from here on, 256 KiB together (R384). -/
def ringsBase : Nat := 0x200000080000

/-- The registers that reporting moves: TAIL and DROPPED of the three device rings (R387). -/
def isRingReg (off : Nat) : Bool := decide (off = 0x14 ∨ off = 0x1C ∨ off = 0x24 ∨ off = 0x30 ∨ off = 0x34 ∨ off = 0x38)

/-- The state without what reporting changes: the bytes of the device rings with TAIL, DROPPED, SEQUENCE and
pending notifications (R387 to R389), the log tail and LOG_SEQ (R412), the trace port and the other outputs
(R413), and the model's counter of free values. Two states that agree on it differ in reports alone. -/
def unreported (s : State) : State :=
  { s with
    mem := memClear s.mem ringsBase 0x40000
    regs := s.regs.filter fun p => !isRingReg p.1
    host := { s.host with seqs := [], ntfDue := [] }
    safety := { s.safety with tail := [], logSeq := 0 }
    disp := { s.disp with freeCtr := 0 }
    out := [] }

end Sys2Proof.Machine
end

