-- ==== Sys2Proof/Certificates/Slice0/Obligations.lean ====
section
/-! DEFINITION. The statements for the provers. A clause that says where a command completes has hypotheses on the
state and the operands alone; a frame says what stays, by equality of whole records or of `unreported`. -/

open Sys2Proof Sys2Proof.Machine

/-! ### The whole machine -/

/-- R12: a step runs the command at the front of the queue on everything but the queue. -/
def Obligations.StepRunsTheFrontCommand : Prop :=
  ∀ (c : Instr) (rest : List Instr) (s : State), s.pending = c :: rest → step s = exec c { s with pending := rest }

/-- The model's choice (log entry 1): on an empty queue one AO cycle passes. In internal reset only time and the Rein timers
move. Else, with nothing for the router to take, no request and no Latigo to settle, they move, a retraining of 1 µs ends, a short
pulse on FP_SYNC may end, and of the rest only what log entry 55 leaves to chance may change: words in error, the retry count,
the pins, the samples. -/
def Obligations.IdleStepPassesOneAoCycle : Prop :=
  ∀ s : State, s.pending = [] →
    (s.boot.inReset = true →
      step s = .next { s with ao := s.ao + 1, disp := { s.disp with running := s.disp.running.map (reinTick s) } }) ∧
    (s.boot.inReset = false → Inv s → s.host.cmdTail = regOf s 0x0C → (∀ item, s.cyc.item ≠ .waiting item) → s.lat.running = false →
      ∃ s0 t, (s0 = s ∨ (s.ao % 100 = 0 ∧ s0 = ignoreEdge s)) ∧ step s = .next t ∧ t.ao = s.ao + 1 ∧
        t.disp = { s0.disp with running := s0.disp.running.map (reinTick s0), freeCtr := s0.disp.freeCtr + 1 } ∧
        t.outp = { s0.outp with readbackBad := t.outp.readbackBad, stopRaw := t.outp.stopRaw } ∧
        (s0.outp.readbackBad = true → t.outp.readbackBad = true) ∧ (s.ao % 100 ≠ 0 → t.outp.stopRaw = s0.outp.stopRaw) ∧
        t.ing = { s0.ing with intLow := t.ing.intLow } ∧ (∀ k ∈ t.ing.intLow, k ∈ s0.ing.intLow) ∧
        t.safety = { s0.safety with present := t.safety.present } ∧
        t.safety.present &&& ~~~0x800#16 = s0.safety.present &&& ~~~0x800#16 ∧
        t.plat = { s0.plat with softWords := t.plat.softWords, temps := t.plat.temps, retraining := t.plat.retraining } ∧
        t.plat.retraining = s0.plat.retraining.filter (fun c => s0.plat.retrainAt.any fun e =>
          decide (e.1 = c ∧ s0.ao + 1 < e.2 + 100)) ∧
        (∀ off, off ≠ 0x3190 → regOf t off = regOf s0 off) ∧
        { t with ao := s0.ao, disp := s0.disp, outp := s0.outp, ing := s0.ing, safety := s0.safety, plat := s0.plat, regs := s0.regs } = s0) ∧
    ∃ t, step s = .next t ∧ t.pending = []

/-- What reset leaves: the values the spec gives (R129, R143, R230, R232, R312, R324, R330, R373, R443, R463,
R469, R501). -/
def Obligations.ResetValues : Prop :=
  State.reset.cyc.dev = .stopped ∧ State.reset.cyc.seq = 0 ∧ State.reset.cyc.params.period = 10000 ∧
  State.reset.cyc.params.deadline = 9950 ∧ State.reset.cyc.params.emitMargin = 150 ∧ State.reset.cyc.params.sync = false ∧
  State.reset.safety.safe = false ∧ State.reset.safety.selfSpec = 4 ∧ State.reset.boot.stage = 1 ∧
  State.reset.boot.resetCause = 1 ∧ State.reset.world.newest = 0 ∧ State.reset.host.session = false ∧
  (∀ p ∈ State.reset.procs, p.state = .boot) ∧ State.reset.pending = [] ∧
  (∀ off, regOf State.reset off = resetVal off) ∧
  ∀ a, a ≠ 0x100000000006 → a ≠ 0x100000000007 → memGet State.reset.mem a = 0

/-- The invariant holds at reset. -/
def Obligations.InvariantHoldsAtReset : Prop := Inv State.reset

/-- Every step keeps the canonical form of memory and registers, and the field-port lines complementary while
they toggle, low otherwise, static and degraded while the safe-state latch is set (R325, R443). -/
def Obligations.EveryStepKeepsTheInvariant : Prop := ∀ s t : State, Inv s → step s = .next t → Inv t

/-- R466, R468: no step lowers an anti-rollback count or undoes a fuse; a cold reset keeps them. -/
def Obligations.NoStepUndoesAFuse : Prop := ∀ s t : State, step s = .next t → Grown s.fuses t.fuses

/-- No command touches the queue of waiting commands. -/
def Obligations.NoCommandTouchesTheQueue : Prop :=
  ∀ (c : Instr) (s t : State), exec c s = .next t → t.pending = s.pending

/-- R328, R489: the safe state ends only through SAFE_CLEAR, at a boundary, or in a cold reset. -/
def Obligations.OnlyTheseEndTheSafeState : Prop :=
  ∀ (c : Instr) (s t : State), Latched s → exec c s = .next t →
    Latched t ∨ c = .safeClear ∨ c = .boundary ∨ c = .powerOnReset ∨ c = .resetPin ∨ c = .resetRelease ∨
    (∃ d, c = .aoResetGo d) ∨ (∃ r, c = .railOutOfWindow r) ∨ ∃ i w, c = .criticalTemp i w

/-- R487: while internal reset holds the dies, no command but a reset source, the release and the end of a
thermal trip has an effect. -/
def Obligations.InternalResetHoldsTheBlock : Prop :=
  ∀ (c : Instr) (s : State), s.boot.inReset = true →
    exec c s = .next s ∨ c = .powerOnReset ∨ c = .resetPin ∨ c = .resetRelease ∨ (∃ r, c = .railOutOfWindow r) ∨
    (∃ i w, c = .criticalTemp i w) ∨ ∃ l, c = .thermalTripEnd l

/-! ### The host's session and queries -/

/-- R398, R400, R401: HELLO in STOPPED or without a session opens one and clears every ring pointer (its own reply then stands
first in the REPLY ring); with a session it is refused. With REATTACH it keeps them, clears HOST_LOST and ceases its cause, also
where the timer runs out in its own AO cycle. HELLO and HEARTBEAT restart the timer; nothing else changes but reports. -/
def Obligations.SessionCommandsComplete : Prop :=
  ∀ (s : State) (m : Msg) (rest : List Msg),
    let u := setOwnerQueue s .router rest
    let reports : List Nat := [0x14, 0x1C, 0x24, 0x30, 0x34, 0x38]
    (Front s .router 1 m rest → isReattach m = false → helloRsvd m = true →
      ((s.host.session = false ∨ s.cyc.dev = .stopped) → Inv s →
        ∃ t, exec .hello s = .next t ∧
          { unreported t with regs := [] } = { unreported u with regs := [], host := { (unreported u).host with
            session := true, agreedMinor := m.minor, hbAt := some s.ao, timerAt := s.ao, cmdTail := 0, helloDrops := [0, 0, 0] } } ∧
          (∀ off ∈ [0x0C, 0x10, 0x18, 0x20, 0x1C, 0x24, 0x30, 0x34, 0x38], regOf t off = 0) ∧
          regOf t 0x14 = (if m.flags.toNat % 2 = 1 then 0 else 128) ∧
          (∀ off, off ∉ [0x0C, 0x10, 0x18, 0x20] → off ∉ reports → regOf t off = regOf s off)) ∧
      (s.host.session = true → s.cyc.dev ≠ .stopped → exec .hello s = .next (routeRun (reply u m 6)))) ∧
    (Front s .router 1 m rest → isReattach m = true → helloRsvd m = true →
      ∃ v, exec .helloReattach s = .next (routeRun v) ∧ (Inv s → s.host.cmdTail = regOf s 0x0C → routeRun v = v) ∧
        v.host.hostLost = false ∧ v.host.session = true ∧ v.host.agreedMinor = m.minor ∧ v.host.hbAt = some s.ao ∧
        v.host.timerAt = s.ao ∧ v.safety.present &&& 0x100#16 = 0 ∧
        (lossBy s s.ao = false → unreported v = unreported { u with
          host := { u.host with session := true, agreedMinor := m.minor, hbAt := some s.ao, timerAt := s.ao, hostLost := false,
                                helloDrops := [regOf s 0x30, regOf s 0x34, regOf s 0x38] }
          safety := { u.safety with present := s.safety.present &&& ~~~0x100#16 } }) ∧
        (lossBy s s.ao = true → v.host.lostAtSeq = s.cyc.seq ∧ v.host.lostPolicy = regNat s 0x28 / 2 ^ 30 ∧
          (regNat s 0x28 / 2 ^ 30 = 2 → v.safety.safe = true ∧ v.safety.cause = s.safety.cause ||| 256))) ∧
    (Front s .router 2 m rest → rsvdZero m.payload [(8, 8)] = true →
      ∃ t, exec .heartbeat s = .next t ∧
        unreported t = unreported { u with host := { u.host with hbAt := some s.ao, timerAt := s.ao } })

/-- R395: the queries answer from the state (DEVICE block, facts record still in the ring, checkpoint, weight
directory, counters of the last boundary) and change nothing but their queue and what reporting changes. -/
def Obligations.QueriesAnswerAndChangeNothing : Prop :=
  ∀ (s : State) (m : Msg) (rest : List Msg), let u := setOwnerQueue s .sch rest
    (Front s .sch 3 m rest → rsvdZero m.payload [(1, 3), (12, 4)] = true →
      (queryKind m = 0 → exec .queryDevice s = .next (replyPiece u m (queryOffset m) (deviceBlock u)) ∧
        unreported (replyPiece u m (queryOffset m) (deviceBlock u)) = unreported u) ∧
      (queryKind m = 1 → queryArg m ∈ s.cyc.factsSlots →
        let n := 64 + 16 * leNat (devRead s (factsSlot (queryArg m) + 12) 4)
        exec .queryFacts s = .next (replyMemPiece u m (factsSlot (queryArg m)) n) ∧
        unreported (replyMemPiece u m (factsSlot (queryArg m)) n) = unreported u) ∧
      (queryKind m = 2 → let n := min 0x6000000 (leNat (devRead s (ckptBase + 0x0C) 4))
        exec .queryCkptRead s = .next (replyMemPiece u m ckptBase n) ∧
        unreported (replyMemPiece u m ckptBase n) = unreported u) ∧
      (queryKind m = 3 →
        let d := ((s.load.weights.drop (queryArg m)).map weightDirEntry).flatten
        exec .queryWeightDir s = .next (replyPiece u m (queryOffset m) d) ∧
        unreported (replyPiece u m (queryOffset m) d) = unreported u)) ∧
    (Front s .sch 4 m rest →
      exec .readCounters s = .next (replyData u m (counterImage s)) ∧
      unreported (replyData u m (counterImage s)) = unreported u)

/-- R387, R389: a reply that fits appears at the REPLY ring's TAIL, with the agreed FMT_MINOR, the opcode with bit
15 set, the next SEQUENCE and the command's SEQUENCE; TAIL advances by its length. One that does not fit is
dropped and counted. A successful command with NO_REPLY gets none. -/
def Obligations.RepliesStandInTheRing : Prop :=
  ∀ (s : State) (m : Msg) (rest : List Msg), Front s .sch 4 m rest → Inv s →
    let u := setOwnerQueue s .sch rest
    let bs := msgBytes s.host.agreedMinor (m.opcode.toNat ||| 0x8000) (s.host.seqs.getD 0 0).toNat m.seq.toNat
      (replyPayload 0 0 (counterImage s))
    let tail := regOf s 0x14
    ∃ t, exec .readCounters s = .next t ∧
      (m.flags.toNat % 2 = 1 → t = u) ∧
      (m.flags.toNat % 2 = 0 → (tail + BitVec.ofNat 32 bs.length - regOf s 0x10).toNat ≤ 0x20000 →
        ringRead t.mem 0x200000080000 0x20000 tail.toNat bs.length = bs ∧ regOf t 0x14 = tail + BitVec.ofNat 32 bs.length ∧
        t.host.seqs = s.host.seqs.set 0 (s.host.seqs.getD 0 0 + 1) ∧ 0 ∈ t.host.ntfDue) ∧
      (m.flags.toNat % 2 = 0 → 0x20000 < (tail + BitVec.ofNat 32 bs.length - regOf s 0x10).toNat →
        t.mem = s.mem ∧ regOf t 0x14 = tail ∧ regOf t 0x30 = regOf s 0x30 + 1)

/-! ### Safe state by command -/

/-- R324, R325, R395: SAFE_REQUEST and AO_SAFE_REQUEST set the latch with cause bit 6; the lines are static. -/
def Obligations.SafeRequestsSetTheLatch : Prop :=
  ∀ (s : State) (m : Msg) (rest : List Msg), Inv s →
    (Front s .island 0x51 m rest →
      ∃ t, exec .safeRequest s = .next t ∧ t.safety.safe = true ∧ t.safety.cause = s.safety.cause ||| 64 ∧
        t.outp.toggling = false ∧ t.outp.validA = false ∧ t.outp.validB = false ∧ t.outp.degraded = true ∧
        ownerQueue t .island = rest ∧ t.cyc.dev = s.cyc.dev ∧ t.cyc.seq = s.cyc.seq ∧ t.disp.running = s.disp.running ∧
        t.world = s.world ∧ t.load = s.load) ∧
    (s.boot.inReset = false → s.host.sbUp = true →
      ∃ t, exec .aoSafeRequest s = .next t ∧ t.safety.safe = true ∧ t.safety.cause = s.safety.cause ||| 64 ∧
        t.outp.toggling = false ∧ t.outp.validA = false ∧ t.outp.validB = false ∧ t.outp.degraded = true ∧
        t.out.head? = some (.aoResponse 1) ∧ t.cyc.dev = s.cyc.dev ∧ t.cyc.seq = s.cyc.seq ∧ t.disp.running = s.disp.running ∧
        t.world = s.world ∧ t.load = s.load)

/-- R327, R328, R329: with no reason left against it, and no cause decided in its own AO cycle, SAFE_CLEAR clears the latch,
SAFE_CAUSE and the counts at once in STOPPED, and is pending until a boundary otherwise; else it is refused with its reasons. -/
def Obligations.SafeClearEndsTheSafeState : Prop :=
  ∀ (s : State) (m : Msg) (rest : List Msg), Front s .island 0x50 m rest →
    let u := setOwnerQueue s .island rest
    (s.safety.safe = true → safeBlock u = 0 → causeNow u = false → s.cyc.dev = .stopped →
      exec .safeClear s = .next (replyData { u with safety := { s.safety with
        safe := false, cause := 0, present := 0, clearPending := false, missRun := 0, mismatchMask := 0, clean := 0, counted := [] } }
        m (toLe 4 0))) ∧
    (s.safety.safe = true → safeBlock u = 0 → causeNow u = false → s.cyc.dev ≠ .stopped →
      exec .safeClear s = .next (replyData { u with safety := { s.safety with clearPending := true } } m (toLe 4 0))) ∧
    ((s.safety.safe = false ∨ safeBlock u ≠ 0 ∨ causeNow u = true) →
      exec .safeClear s = .next (replyInfo u m 34 0 (toLe 4 (safeBlock u))))

/-! ### Sideband -/

/-- R380, R381, R412: AO_READ and AO_LOG_READ answer on the sideband and change nothing; AO_RESET_ARM with the key
remembers the moment; AO_RESET_GO without an arming in the last millisecond is answered 0. -/
def Obligations.SidebandAnswers : Prop :=
  ∀ s : State, s.boot.inReset = false → s.host.sbUp = true →
    (∀ a, exec (.aoRead a) s = .next { s with out := .aoResponse (BitVec.ofNat 64 (aoWord s a)) :: s.out }) ∧
    (∀ i w, exec (.aoLogRead i w) s =
      .next { s with out := .aoResponse (BitVec.ofNat 64 (fieldAt (s.safety.tail.getD i []) (8 * w) 8)) :: s.out }) ∧
    (exec (.aoResetArm 0x4B595253) s =
      .next { s with host := { s.host with sbArmedAt := some s.ao }, out := .aoResponse 1 :: s.out }) ∧
    (∀ d, d ≠ 0x4B595253 → exec (.aoResetArm d) s = .next { s with out := .aoResponse 0 :: s.out }) ∧
    (∀ d, (d ≠ 0x4B595253 ∨ s.host.sbArmedAt = none ∨ ∃ n, s.host.sbArmedAt = some n ∧ n + 100000 < s.ao) →
      exec (.aoResetGo d) s = .next { s with out := .aoResponse 0 :: s.out })

/-! ### The register window -/

/-- R386, R391 to R393: an invalid doorbell value is counted and has no other effect. A valid one hands entries to their owners'
queues, behind what waits there. With one whole entry up to it and no HELLO to execute first, CMD_HEAD passes the entry: a
message that passes every check stands last in its owner's queue, one that does not is refused with the check's status. -/
def Obligations.DoorbellRoutesTheMessage : Prop :=
  ∀ (s : State) (tail : Word), s.boot.inReset = false → s.host.linkUp = true →
    (doorbellOk s tail = false → exec (.cmdDoorbell tail) s = .next (setReg s 0x40 (regOf s 0x40 + 1))) ∧
    (doorbellOk s tail = true →
      ∃ t, exec (.cmdDoorbell tail) s = .next t ∧ t.host.cmdTail = tail ∧ ∀ o, ∃ l, ownerQueue t o = ownerQueue s o ++ l) ∧
    (doorbellOk s tail = true →
      let u := { s with host := { s.host with cmdTail := tail } }
      let h := readEntry u
      let v := entryEcc u h
      let w := { setReg v 0x0C tail with host := { v.host with lastCmdSeq := h.msg.seq } }
      (tail = regOf s 0x0C ∨ helloWaits s = true ∨ s.boot.stage < 2 ∨ 7 < s.boot.stage → exec (.cmdDoorbell tail) s = .next u) ∧
      (Inv s → 2 ≤ s.boot.stage → s.boot.stage ≤ 7 → helloWaits s = false → tail ≠ regOf s 0x0C →
        tail - regOf s 0x0C = BitVec.ofNat 32 (entrySize u h) →
        (∀ o, opcodeOwner h.msg.opcode.toNat = some o → routeStatus u h = stOk → (ownerQueue s o).length < 256 →
          exec (.cmdDoorbell tail) s = .next (setOwnerQueue w o (ownerQueue s o ++ [h.msg]))) ∧
        (routeStatus u h ≠ stOk → exec (.cmdDoorbell tail) s = .next (routeRefuse w h.msg (routeStatus u h))))) ∧
    (s.plat.softWords = [] → s.plat.badWords = [] → s.plat.poison = [] → ∀ h, entryEcc s h = s)

/-- R382, R385, R398, R446, R505: a HEAD write that is a multiple of 64 and not beyond TAIL sets HEAD, another is counted;
HOST_LOSS_CFG in range is set, out of range ignored; STOP_EN is set while STOPPED and ignored else; a write to a register
without behaviour of its own sets its bits, at once or, in RUNNING and REPLAY, for the next boundary; with a field out of range
or to an offset that takes none it has no effect. -/
def Obligations.WindowWritesSetTheirRegister : Prop :=
  ∀ (s : State) (v : Word), s.boot.inReset = false → s.host.linkUp = true →
    (∀ off ∈ [0x10, 0x18, 0x20],
      (v.toNat % 64 = 0 → (regOf s (off + 4) - v).toNat < 2 ^ 31 → exec (.headWrite off v) s = .next (setReg s off v)) ∧
      (v.toNat % 64 ≠ 0 ∨ 2 ^ 31 ≤ (regOf s (off + 4) - v).toNat →
        exec (.headWrite off v) s = .next (setReg s 0x40 (regOf s 0x40 + 1)))) ∧
    (v.toNat / 2 ^ 30 ≠ 3 → 10 ≤ v.toNat % 16384 → v.toNat % 16384 ≤ 10000 → bitsOf v.toNat 14 16 = 0 →
      exec (.hostLossCfgWrite v) s = .next (setReg s 0x28 v)) ∧
    (v.toNat / 2 ^ 30 = 3 ∨ v.toNat % 16384 < 10 ∨ 10000 < v.toNat % 16384 → exec (.hostLossCfgWrite v) s = .next s) ∧
    (s.cyc.dev = .stopped → (v = 0x80000000 → s.outp.stopFilt = false →
      exec (.stopEnWrite v) s = .next (setReg s 0x6040 v)) ∧
      (v = 0x80000000 → s.outp.stopFilt = true → 2 ^ 31 ≤ regNat s 0x6040 → exec (.stopEnWrite v) s = .next (setReg s 0x6040 v)) ∧
      (v = 0x80000000 → s.outp.stopFilt = true → regNat s 0x6040 < 2 ^ 31 → ∃ t, exec (.stopEnWrite v) s = .next t ∧
        t.safety.safe = true ∧ t.safety.cause = s.safety.cause ||| 128) ∧
      (v = 0 → exec (.stopEnWrite v) s = .next (ceaseCause (setReg s 0x6040 v) 7))) ∧
    (s.cyc.dev ≠ .stopped → v.toNat % 2 ^ 31 = 0 → exec (.stopEnWrite v) s = .next s) ∧
    (∀ off, ownBehaviour off = false →
      (65536 ≤ off ∨ off % 4 ≠ 0 → exec (.registerWrite off v) s = .next (setReg s 0x40 (regOf s 0x40 + 1))) ∧
      (off < 65536 → off % 4 = 0 →
        (rwInfo s off = none → exec (.registerWrite off v) s = .next s) ∧
        (∀ i, rwInfo s off = some i → i.ok v.toNat = false → exec (.registerWrite off v) s = .next s) ∧
        (∀ i, rwInfo s off = some i → i.ok v.toNat = true → v.toNat &&& i.rsvd = 0 →
          (s.cyc.dev = .stopped ∨ s.cyc.dev = .paused ∨ i.atBoundary = false →
            exec (.registerWrite off v) s = .next (applySetting s off (BitVec.ofNat 32 (v.toNat &&& i.keep)))) ∧
          (s.cyc.dev = .running ∨ s.cyc.dev = .replay → i.atBoundary = true → mapWf (fun k => regOf s k) s.written = true →
            ∃ t, exec (.registerWrite off v) s = .next t ∧ regWritten t off = BitVec.ofNat 32 (v.toNat &&& i.keep) ∧
              (∀ k, k ≠ off → regWritten t k = regWritten s k) ∧ { t with written := s.written } = s))))

/-! ### PHY management, the links, host loss -/

/-- R417, R441: an MDIO operation of its command's OP starts on an interface that is not BUSY, a write operation only while
STOPPED; when it is done BUSY clears and a read sets RDATA and NO_RESP. PHY_CTRL sets RST, only while STOPPED, and the pin
follows 10 ms after release; a falling PHY_INT_N is counted in INT_COUNT. A port without PHY management takes none of them. -/
def Obligations.PhyManagementCommandsComplete : Prop :=
  ∀ (s : State) (port : Nat) (v : Word), s.boot.inReset = false →
    let ops := [(Instr.mdioC22Read port v, 0), (Instr.mdioC22Write port v, 1), (Instr.mdioC45Read port v, 2),
      (Instr.mdioC45Write port v, 3)]
    (phyOfPort port = none → (∀ c op, (c, op) ∈ ops → exec c s = .next s) ∧ (∀ r, exec (.mdioDone port r) s = .next s) ∧
      exec (.phyResetWrite port v) s = .next s ∧ exec (.phyIntFall port) s = .next s) ∧
    (∀ k, phyOfPort port = some k →
      (s.host.linkUp = true → ∀ c op, (c, op) ∈ ops →
        (v.toNat / 2 ^ 30 = op → (op % 2 = 1 → s.cyc.dev = .stopped) → mdioBusy s k = false → bitsOf v.toNat 16 4 = 0 →
          exec c s = .next { s with ing := { s.ing with mdio := (k, v) :: s.ing.mdio },
                                    out := .mdioFrame port v (BitVec.ofNat 16 (regNat s (offMdioAddr k))) :: s.out }) ∧
        (v.toNat / 2 ^ 30 ≠ op ∨ mdioBusy s k = true ∨ (op % 2 = 1 ∧ s.cyc.dev ≠ .stopped) → exec c s = .next s)) ∧
      (s.ing.mdio.find? (·.1 = k) = none → ∀ r, exec (.mdioDone port r) s = .next s) ∧
      (∀ w r, s.ing.mdio.find? (·.1 = k) = some (k, w) →
        let u := { s with ing := { s.ing with mdio := s.ing.mdio.filter (·.1 ≠ k) } }
        (w.toNat / 2 ^ 30 % 2 = 1 → exec (.mdioDone port r) s = .next u) ∧
        (w.toNat / 2 ^ 30 % 2 = 0 → exec (.mdioDone port none) s = .next (setReg u (offMdioStatus k) 0x4000FFFF) ∧
          ∀ d : Half, exec (.mdioDone port (some d)) s = .next (setReg u (offMdioStatus k) (d.zeroExtend 32)))) ∧
      (s.host.linkUp = true →
        (2 ^ 31 ≤ v.toNat → s.cyc.dev ≠ .stopped → exec (.phyResetWrite port v) s = .next s) ∧
        (2 ^ 31 ≤ v.toNat → s.cyc.dev = .stopped → bitsOf v.toNat 16 14 = 0 → exec (.phyResetWrite port v) s =
          .next { setReg s (offPhyCtrl k) (BitVec.ofNat 32 (2 ^ 31 + regNat s (offPhyCtrl k) % 65536)) with
            boot := { s.boot with phyRstN := boolSet s.boot.phyRstN k false } }) ∧
        (v.toNat < 2 ^ 31 → bitsOf v.toNat 16 14 = 0 → exec (.phyResetWrite port v) s =
          .next { setReg s (offPhyCtrl k) (BitVec.ofNat 32 (regNat s (offPhyCtrl k) % 65536)) with
            boot := { s.boot with phyRstN := boolSet s.boot.phyRstN k (decide (s.boot.releasedAt + 1000000 ≤ s.ao)) } })) ∧
      exec (.phyIntFall port) s = .next { setReg s (offPhyCtrl k)
          (BitVec.ofNat 32 (regNat s (offPhyCtrl k) / 65536 * 65536 + (regNat s (offPhyCtrl k) + 1) % 65536)) with
        ing := { s.ing with intLow := addOnce s.ing.intLow k } }) ∧
    (phyReleased s = true → ∃ t, exec .phyRstNRelease s = .next t ∧
      (∀ j, j < 5 → boolGet t.boot.phyRstN j = decide (regNat s (offPhyCtrl j) < 2 ^ 31)) ∧
      { t with boot := { t.boot with phyRstN := s.boot.phyRstN } } = s)

/-- R376 to R379: a good flit in sequence acknowledges the flits up to its ACKSEQ and hands its transactions over in order: an
unfinished one waits for the next flit; a whole posted write to the COMMAND ring stands there, a read of a register is answered
by a CPL, each returns its credit; a WRA goes to its host queue port. A damaged flit, or one out of sequence, is discarded and a
replay requested once; at the sixteenth failure in a row of the flit expected the link goes down. -/
def Obligations.FlitsCarryTransactions : Prop :=
  ∀ (s : State) (flit : Bytes), s.boot.inReset = false → s.host.linkUp = true →
    let bs := s.host.rxBytes ++ sliceOf flit 8 244
    let len := if byteAt bs 0 = 3 then 0 else fieldAt bs 2 2
    let whole := bs.length = 16 + 8 * ceilDiv len 8
    let a := takeAck s flit
    let u := { a with host := { a.host with rxFseq := s.host.rxFseq + 1, rxReplay := false, rxFails := 0, rxBytes := [] } }
    let expected := s.host.rxReplay = false ∨ BitVec.ofNat 16 (fieldAt flit 0 2) = s.host.rxFseq
    (flitGood flit = true → BitVec.ofNat 16 (fieldAt flit 0 2) = s.host.rxFseq →
      (bs.length < 16 + 8 * ceilDiv len 8 →
        exec (.flitReceive flit) s = .next { u with host := { u.host with rxBytes := bs } }) ∧
      (whole → fieldAt bs 0 1 = 1 → allZero (sliceOf bs 8 8) = true → 0x100000 ≤ fieldAt bs 4 4 →
        fieldAt bs 4 4 + len ≤ 0x180000 → fieldAt bs 4 4 % 4 = 0 → len % 4 = 0 → len ≤ 256 →
        hitsTaken u (fieldAt bs 4 4 - 0x100000) len = false →
        exec (.flitReceive flit) s =
          .next (devWrite (returnCredit u 1 0) (0x200000000000 + (fieldAt bs 4 4 - 0x100000)) (sliceOf bs 16 len))) ∧
      (whole → fieldAt bs 0 1 = 2 → allZero (sliceOf bs 8 8) = true → 0x1C0000 ≤ fieldAt bs 4 4 → fieldAt bs 4 4 < 0x1C2000 →
        fieldAt bs 4 4 % 0x1000 + len ≤ 0x1000 → len % 8 = 0 → len ≤ 256 →
        exec (.flitReceive flit) s = .next (hostWra u (12 + (fieldAt bs 4 4 - 0x1C0000) / 0x1000) (fieldAt bs 4 4 % 0x1000)
          (fieldAt bs 1 1) (sliceOf bs 16 len))) ∧
      (∀ hd : Bytes, hd.length = 16 → fieldAt hd 0 1 = 3 → fieldAt hd 2 2 = 4 → fieldAt hd 4 4 < 0x10000 →
        fieldAt hd 4 4 % 4 = 0 → allZero (sliceOf hd 8 8) = true → ∀ tl : Bytes, bs = hd ++ tl → 16 ≤ tl.length →
        fieldAt tl 0 1 ≠ 3 → tl.length < 16 + fieldAt tl 2 2 →
        let w := sendTrans (returnCredit u 0 1) (.cpl 0 (fieldAt hd 1 1) (toLe 4 (regRead u (fieldAt hd 4 4))))
        exec (.flitReceive flit) s = .next { w with host := { w.host with rxBytes := tl } })) ∧
    (flitGood flit = false → expected → s.host.rxFails < 15 → exec (.flitReceive flit) s = .next { s with
      host := { s.host with rxReplay := true, rxFails := s.host.rxFails + 1 }, out := .replayRequest s.host.rxFseq :: s.out }) ∧
    (flitGood flit = false → expected → 15 ≤ s.host.rxFails → ∃ t, exec (.flitReceive flit) s = .next t ∧
      t.host.linkUp = false ∧ t.host.rxBytes = [] ∧ t.host.wraHeld = [] ∧ t.host.credits = (0, 0, 0) ∧
      (s.host.wraHeld = [] → t = { s with host := { s.host with
        linkUp := false, rxBytes := [], rxReplay := false, rxFails := 0, wraHeld := [], credits := (0, 0, 0) } })) ∧
    (flitGood flit = true → BitVec.ofNat 16 (fieldAt flit 0 2) ≠ s.host.rxFseq → s.host.rxFails < 16 →
      (s.host.rxReplay = false → exec (.flitReceive flit) s = .next { s with
        host := { s.host with rxReplay := true }, out := .replayRequest s.host.rxFseq :: s.out }) ∧
      (s.host.rxReplay = true → exec (.flitReceive flit) s = .next s))

/-- R374, R375, R388, R398, R399, R417: when the mainband goes down its transactions in flight are lost; when it is back its flit
numbers start afresh; the sideband and the sensor ports have link bits of their own. An NTF goes out for a ring that is due, at
most once a µs. When the host-loss timer ran out in an earlier AO cycle HOST_LOST is set with the policy, and SAFE_AFTER sets
the latch. -/
def Obligations.LinkEventsAndHostLossComplete : Prop :=
  ∀ (s : State), s.boot.inReset = false →
    (s.host.linkUp = true → ∃ t, exec .mainbandDown s = .next t ∧ t.host.linkUp = false ∧ t.host.rxBytes = [] ∧
      t.host.wraHeld = [] ∧ t.host.credits = (0, 0, 0) ∧ { t with host := s.host, ing := s.ing } = s ∧
      (s.host.wraHeld = [] → t = { s with host := { s.host with
        linkUp := false, rxBytes := [], rxReplay := false, rxFails := 0, wraHeld := [], credits := (0, 0, 0) } })) ∧
    (s.host.linkUp = false → exec .mainbandDown s = .next s) ∧
    (s.host.linkUp = false → ∀ rate rep, rate < 3 → exec (.mainbandUp rate rep) s = .next { s with host := { s.host with
      linkUp := true, linkRate := rate, linkRepaired := rep, rxFseq := 0, rxReplay := false, rxFails := 0, rxBytes := [],
      txFseq := 0, txKept := [] } }) ∧
    (∀ up, exec (.sidebandLinkChange up) s = .next { s with host := { s.host with sbUp := up } }) ∧
    (∀ port up, ∃ t, exec (.sensorLinkChange port up) s = .next t ∧ (port ∈ t.ing.linkUp ↔ up = true) ∧
      (∀ p, p ≠ port → (p ∈ t.ing.linkUp ↔ p ∈ s.ing.linkUp)) ∧ { t with ing := { t.ing with linkUp := s.ing.linkUp } } = s) ∧
    (∀ r, r < 3 →
      (s.host.linkUp = true → r ∈ s.host.ntfDue → (∀ at', s.host.ntfAt.find? (·.1 = r) = some (r, at') → at' + 100 ≤ s.ao) →
        exec (.ntf (r + 1)) s = .next (sendTrans { s with host := { s.host with
          ntfDue := s.host.ntfDue.filter (· ≠ r), ntfAt := (r, s.ao) :: s.host.ntfAt.filter (·.1 ≠ r) } } (.ntf (r + 1)))) ∧
      (s.host.linkUp = false ∨ r ∉ s.host.ntfDue ∨ (∃ at', s.host.ntfAt.find? (·.1 = r) = some (r, at') ∧ s.ao < at' + 100) →
        exec (.ntf (r + 1)) s = .next s)) ∧
    (∀ v w o, (sendTrans v o).out = o :: v.out ∧ { sendTrans v o with host := w, out := v.out } = { v with host := w } ∧
      (sendTrans v o).host.queues = v.host.queues ∧ (sendTrans v o).host.ntfDue = v.host.ntfDue) ∧
    (s.host.session = true → s.cyc.dev ≠ .stopped → s.host.hostLost = false →
      let due := s.host.timerAt + 100000 * (regNat s 0x28 % 16384)
      let u := { s with host := { s.host with
        hostLost := true, lostPolicy := regNat s 0x28 / 2 ^ 30, lostAtSeq := s.cyc.seq } }
      (s.ao ≤ due → exec .hostLossExpiry s = .next s) ∧
      (due < s.ao → ∃ t, exec .hostLossExpiry s = .next t ∧ t.host.hostLost = true ∧
        t.host.lostPolicy = regNat s 0x28 / 2 ^ 30 ∧ t.host.lostAtSeq = s.cyc.seq ∧
        (regNat s 0x28 / 2 ^ 30 = 2 → t.safety.safe = true ∧ t.safety.cause = s.safety.cause ||| 256) ∧
        (regNat s 0x28 / 2 ^ 30 ≠ 2 → unreported t = unreported u)))

/-- R489, and R330, R466, R486 to R488, R492, R500: every reset source puts the block in internal reset with its cause: all at
its reset value but the fuses (memories zero-filled, registers cleared, STOPPED), of which those SEC is blowing may stand at any
count on the way; THERM_N asserted by the critical temperature; a further source, power-on apart, adds its bit; a rail within its window (R476, R479) resets nothing. Once internal reset has lasted and THERM_N is not asserted,
RESET_RELEASE begins the boot with every field at its reset value but the fuses, RESET_CAUSE and what they give: the
factory substitutions, RAIL_OK. -/
def Obligations.ColdResetsAndTheirRelease : Prop :=
  ∀ (s : State),
    let fusesKept := fun t : State => { t.fuses with rbFused := s.fuses.rbFused } = s.fuses ∧
      ∀ k m, s.fuses.rbFused.getD k 0 ≤ m → (∀ f ∈ s.boot.fwStaged, f.num = k → blowing s f = true → f.rbLevel ≤ m) →
        s.fuses.rbFused.getD k 0 ≤ t.fuses.rbFused.getD k 0 ∧ t.fuses.rbFused.getD k 0 ≤ m
    (∃ t, exec .powerOnReset s = .next t ∧ t = heldReset s 1 ∧ t.boot.resetCause = 1 ∧ fusesKept t) ∧
    (s.boot.inReset = false → ∀ c cause, (c, cause) ∈ [(Instr.resetPin, (2 : Byte)), (Instr.aoResetGo 0x4B595253, 4)] ∨
        (cause = 8 ∧ ∃ r mv, c = .railOutOfWindow (r, mv) ∧ r < 7 ∧ railInside s r mv = false) →
      (c = .aoResetGo 0x4B595253 → s.host.sbUp = true ∧ ∃ n, s.host.sbArmedAt = some n ∧ s.ao ≤ n + 100000) →
      ∃ t, exec c s = .next t ∧ t.boot.inReset = true ∧ t.boot.resetCause = cause ∧ t.boot.resetAt = some s.ao ∧
        fusesKept t ∧ t.ao = s.ao ∧ t.pending = s.pending ∧ t.mem = State.reset.mem ∧ t.regs = [] ∧ t.cyc.dev = .stopped ∧
        t.host = State.reset.host ∧ t.load = State.reset.load ∧ t.world = State.reset.world ∧ t.ing = State.reset.ing ∧
        t.safety = State.reset.safety ∧ t.outp = State.reset.outp ∧ t.procs = State.reset.procs ∧ t.chans = []) ∧
    (s.boot.inReset = false → ∀ i w, sensorPresent s i = true → 2000 ≤ tempOf w →
      ∃ t, exec (.criticalTemp i w) s = .next t ∧ t.boot.inReset = true ∧ t.boot.resetCause = 16 ∧ t.outp.thermN = true ∧
        fusesKept t ∧ t.mem = State.reset.mem ∧ t.regs = [] ∧ t.cyc.dev = .stopped) ∧
    (s.boot.inReset = true →
      exec .resetPin s = .next { s with boot := { s.boot with resetCause := s.boot.resetCause ||| 2 } } ∧
      ∀ r mv, r < 7 → railInside s r mv = false →
        exec (.railOutOfWindow (r, mv)) s = .next { s with boot := { s.boot with resetCause := s.boot.resetCause ||| 8 } }) ∧
    (∀ mv, (9 * s.plat.vddtSet ≤ 10 * mv → 10 * mv ≤ 11 * s.plat.vddtSet → exec (.railOutOfWindow (0, mv)) s = .next s) ∧
      (∀ t v, s.plat.vddtRelax = some (t, v) → s.ao < t + 2000 → 9 * v ≤ 10 * mv → 10 * mv ≤ 11 * v →
        exec (.railOutOfWindow (0, mv)) s = .next s) ∧
      (∀ r ∈ [1, 2, 3], railInside s r mv = true ↔ 680 ≤ mv ∧ mv ≤ 830) ∧ (railInside s 6 mv = true ↔ 1620 ≤ mv ∧ mv ≤ 1980) ∧
      ∀ r, railInside s r mv = true → exec (.railOutOfWindow (r, mv)) s = .next s) ∧
    (s.boot.inReset = true →
      (resetLasted s = true → s.outp.thermN = false →
        ∃ t, exec .resetRelease s = .next t ∧ t.boot.inReset = false ∧ t.boot.resetCause = s.boot.resetCause ∧
          t.boot.stage = 1 ∧ t.ao = 0 ∧ t.fuses = s.fuses ∧ t.pending = s.pending ∧ t.plat.rails = 0xFF ∧
          t.plat.spares = factorySpares s.fuses ∧ t.boot.fwActive = [] ∧ t.load = State.reset.load ∧ t.disp.running = [] ∧
          t.mem = State.reset.mem ∧ t.regs = [] ∧ t.cyc = State.reset.cyc ∧ t.host = State.reset.host ∧
          t.world = State.reset.world ∧ t.safety = State.reset.safety ∧ t.ing = State.reset.ing ∧ t.outp = State.reset.outp) ∧
      (resetLasted s = false ∨ s.outp.thermN = true → exec .resetRelease s = .next s))

/-! ### Sensor ingress, queues and gPTP -/

/-- R427, R428: a frame of an enabled port that passes the checks enters the port's buffer; one that fails them is dropped and
counted in DROP_BAD, as is every one in REPLAY, one without room in DROP_FULL; another port takes none. R378, R379, R431: a WRA
to a host queue port continues the burst, and above offset 0x800 closes it: the frame then goes the same way; its CPL goes out
behind those of earlier WRAs, a closing one's when its frame needs no longer wait. -/
def Obligations.FramesEnterTheBuffers : Prop :=
  ∀ (s : State), s.boot.inReset = false →
    (∀ port carrier stamp, port < 12 → portReceives s port = true → isGptpCarrier port carrier = false →
      let kept := (weltOf s port carrier).bind fun w => weltCheck s port w stamp
      let v := setQueue s port fun x => { x with rxAt := some s.ao }
      (s.cyc.dev = .replay → exec (.frameReceived port carrier stamp) s = .next (bumpReg s (0x5104 + 16 * port))) ∧
      (s.cyc.dev ≠ .replay → kept = none →
        exec (.frameReceived port carrier stamp) s = .next (bumpReg v (0x5104 + 16 * port))) ∧
      (s.cyc.dev ≠ .replay → ∀ f, kept = some f →
        (buffered (queueOf v port) + f.bytes.length ≤ bufferSize port →
          exec (.frameReceived port carrier stamp) s =
            .next (setQueue v port fun x => { x with buffer := x.buffer ++ [f] })) ∧
        (bufferSize port < buffered (queueOf v port) + f.bytes.length →
          exec (.frameReceived port carrier stamp) s = .next (bumpReg v (0x5108 + 16 * port))))) ∧
    (∀ port carrier stamp, 12 ≤ port ∨ portReceives s port = false ∨ isGptpCarrier port carrier = true →
      exec (.frameReceived port carrier stamp) s = .next s) ∧
    (∀ q tag data off, s.host.linkUp = true → q = 12 ∨ q = 13 →
      let bytes := s.host.burst.getD (q - 12) [] ++ data
      let drop := s.host.burstDrop.getD (q - 12) false || decide (65536 < bytes.length)
      let v := { s with host := { s.host with burst := s.host.burst.set (q - 12) [],
                                              burstDrop := s.host.burstDrop.set (q - 12) false } }
      let wra := fun (closing ready : Bool) => HeldWra.mk q tag data.length closing 0 ready
      (off < 0x800 → exec (.hostQueueWra q off tag data) s = .next (answerWra { s with host := { s.host with
        burst := s.host.burst.set (q - 12) (if drop then [] else bytes)
        burstDrop := s.host.burstDrop.set (q - 12) drop } } (wra false true))) ∧
      (0x800 ≤ off →
        (drop = true → exec (.hostQueueWra q off tag data) s = .next (answerWra (bumpReg v 0x44) (wra true true))) ∧
        (drop = false → weltCheck v q bytes (gptpNow v) = none →
          exec (.hostQueueWra q off tag data) s = .next (answerWra (bumpReg v (0x5104 + 16 * q)) (wra true true))) ∧
        (drop = false → ∀ f, weltCheck v q bytes (gptpNow v) = some f →
          let waits := decide ((queueOf v q).buffer ≠ []) || decide (queueFree v q < ceilDiv bytes.length 64)
          s.cyc.dev ≠ .replay → exec (.hostQueueWra q off tag data) s =
            .next (answerWra (setQueue v q fun x => { x with buffer := x.buffer ++ [f] }) (wra true (!waits)))))) ∧
    (∀ v (h : HeldWra), v.host.wraHeld = [] → h.ready = true → answerWra v h = sendTrans { v with host := { v.host with
      credits := (v.host.credits.1, v.host.credits.2.1 + 1, v.host.credits.2.2) } } (.cpl h.status h.tag [])) ∧
    (∀ v (h : HeldWra), (∀ g ∈ v.host.wraHeld, g.ready = false) → v.host.wraHeld ≠ [] ∨ h.ready = false →
      answerWra v h = { v with host := { v.host with wraHeld := v.host.wraHeld ++ [h] } })

/-- R343 to R345, R424, R426, R429, R430: a buffered frame is accepted when the queue has room for all of it: its words
with the ingress record filled in, padded to 64 bytes, stand at the write side, W passes them, the source's reference
moves and RX_ACCEPT counts; hashing gives the oldest unhashed frame its SHA-384. R349: a queue unread for RD_TIMEOUT fires. -/
def Obligations.AcceptedFramesStandInTheQueue : Prop :=
  ∀ (s : State) (q : Nat), s.boot.inReset = false → q < 14 → s.ing.queues.length = 14 →
    (∀ f rest, (queueOf s q).buffer = f :: rest → ceilDiv f.bytes.length 64 ≤ queueFree s q → s.cyc.dev ≠ .replay →
      let ref := s.ing.refs.getD f.entry { counter := 0, valid := false }
      let c := BitVec.ofNat 32 (fieldBe f.bytes 4 4)
      let chk := counterCheck ref (decide (regOf s (offSrcCfg f.entry) = f.entryCfg)) c (!bitOf f.flags.toNat 0)
      let flags := f.flags.toNat ||| chk.1
      let w := burstWords (withIngressRecord f.bytes flags q f.age chk.2.1)
      ∃ t, exec (.frameAccept q) s = .next t ∧ (queueOf t q).words = (queueOf s q).words ++ w ∧
        (queueOf t q).wPtr = (queueOf s q).wPtr + BitVec.ofNat 32 w.length ∧ (queueOf t q).rPtr = (queueOf s q).rPtr ∧
        (queueOf t q).bPtr = (queueOf s q).bPtr ∧ (queueOf t q).buffer = rest ∧
        (∀ p, p ≠ q → queueOf t p = queueOf s p) ∧ t.ing.refs = listUpd s.ing.refs f.entry (fun _ => chk.2.2) ∧
        (flags &&& 0x3F = 0 → (t.ing.flagged = s.ing.flagged ∧ t.mem = s.mem ∧ t.safety = s.safety ∧ t.cyc = s.cyc ∧
          t.regs = (bumpReg s (0x5100 + 16 * q)).regs))) ∧
    ((queueOf s q).buffer = [] ∨ s.cyc.dev = .replay ∨
      (∃ f rest, (queueOf s q).buffer = f :: rest ∧ queueFree s q < ceilDiv f.bytes.length 64) → exec (.frameAccept q) s = .next s) ∧
    ((queueOf s q).frames.any (·.hash.isNone) = true →
      exec (.frameHashDone q) s = .next (setQueue s q fun x => { x with frames := hashFirst x.frames })) ∧
    ((queueOf s q).fired = false → (queueOf s q).wPtr ≠ (queueOf s q).rPtr →
      (queueOf s q).timerAt + 100 * (regNat s (0x3008 + 16 * q) % 16384) ≤ s.ao →
      exec (.queueReadTimeout q) s = .next (setQueue s q fun x => { x with fired := true }))

/-- R419, R420: a Sync from the slave port resets the timeout and counts towards SYNCED, which eight in a row within
100 ns set; three intervals without one clear it; a MASTER port with link sends one each interval. -/
def Obligations.GptpEventsComplete : Prop :=
  ∀ (s : State) (port : Nat), s.boot.inReset = false →
    (gptpSlave s = some port → ∀ off : Int,
      ∃ t, exec (.gptpSyncRx port off) s = .next t ∧ t.ing.syncAt = s.ao ∧ t.ing.offset = off ∧
        (-100 ≤ off ∧ off ≤ 100 → t.ing.inRange = min 8 (s.ing.inRange + 1) ∧
          (t.ing.synced = true ↔ s.ing.synced = true ∨ 7 ≤ s.ing.inRange)) ∧
        (off < -100 ∨ 100 < off → t.ing.inRange = 0 ∧ t.ing.synced = s.ing.synced) ∧ t.ing.queues = s.ing.queues ∧
        { unreported t with ing := s.ing } = { unreported s with ing := s.ing }) ∧
    ((gptpSlave s).isSome = true → s.ing.syncAt + 3 * syncInterval s ≤ s.ao →
      exec .gptpSyncTimeout s = .next { s with ing := { s.ing with synced := false, inRange := 0 } }) ∧
    (gptpRole s port = 1 → (port = 14 → s.outp.linkUp = true ∧ s.outp.txq = [] ∧ s.boot.stage = 7) → (port ≠ 14 → port ∈ s.ing.linkUp) →
      (∀ p, s.ing.syncTxAt.find? (·.1 = port) = some p → p.2 + syncInterval s ≤ s.ao) →
      exec (.gptpSyncTx port) s = .next { s with
        ing := { s.ing with syncTxAt := (port, s.ao) :: s.ing.syncTxAt.filter (·.1 ≠ port) }
        out := .gptpSync port :: s.out }) ∧
    (gptpRole s port ≠ 1 ∨ (port = 14 ∧ (s.outp.linkUp = false ∨ s.outp.txq ≠ [] ∨ s.boot.stage ≠ 7)) ∨ (port ≠ 14 ∧ port ∉ s.ing.linkUp) →
      exec (.gptpSyncTx port) s = .next s)

/-! ### DMA -/

/-- R337, R348: an engine that serves no channel evaluates its channels' readiness and starts the one the arbitration picks; the
pointer of its class moves past it, and a queue source samples the words then unread. R338: with its words read without error, a
transfer from memory to memory that neither signals, chains nor has an armed shadow ends with LAST_STATUS OK and DONE_BYTES, its
words at the destination. R339, R346: it ends with status 2 where the read-back differs, 1 at a timeout, after some number of
its words, which DONE_BYTES counts (a free value of the model, log entry 17), with the event DMA_TIMEOUT of engine and channel
(laid out by log entry 8) and its count, 4 at a source line in error; a queue whose pointers disagree is emptied, with its fault,
and where no transfer reads it, memory stays. -/
def Obligations.DmaSetsAndQueueResetsComplete : Prop :=
  ∀ (s : State) (e ch ptr : Nat) (r : RegSet), s.boot.inReset = false → ch < 8 →
    let key := 8 * e + ch
    (engineBusy s e = true → exec (.dmaTransferStart e) s = .next s) ∧
    (enginePick s e = none → engineBusy s e = false → exec (.dmaTransferStart e) s = .next (idleDecision s e) ∧
      { idleDecision s e with chans := s.chans } = s) ∧
    (enginePick s e = some (ch, ptr) → engineBusy s e = false → (chanGet s key).active = some r →
      let u := serviceDecision s e ptr ch
      u.dmaPtr = natSet s.dmaPtr ptr ((ch + 1) % 8) ∧ { u with dmaPtr := s.dmaPtr, chans := s.chans } = s ∧
      (fromQueue r = false → exec (.dmaTransferStart e) s =
        .next (wakeStarted (setChan u { chanGet u key with running := true, moved := r.length / 64 }) key)) ∧
      (fromQueue r = true → r.safe = false → dctrlBit r 19 = false →
        let w := startQueue u key r
        exec (.dmaTransferStart e) s = .next (wakeStarted (setChan w { chanGet w key with
          running := true, moved := min (r.length / 64) (queueUnread (queueOf w (setQueueNo r))) }) key))) ∧
    (∀ v, { wakeStarted v key with plat := v.plat } = v) ∧
    (∀ c, c = chanGet s key → c.active = some r → c.running = true → c.shared = false → c.armed = false →
      c.key = key → srcKind r = 0 → dstKind r = 0 → r.safe = false → dctrlBit r 21 = false → dctrlBit r 22 = false →
      badLine s c r = none →
      let words := fun n => ((List.range n).map fun i => memRead s.mem (devKey (r.src + 64 * i)) 64).flatten
      let ended := fun (status n : Nat) => { c with
        active := none, running := false, moved := 0, lastStatus := status, done := BitVec.ofNat 32 (64 * n) }
      exec (.dmaComplete e ch true) s =
        .next (setChan (devWrite (correctSource s c r) r.dst (words c.moved)) (ended 0 c.moved)) ∧
      (s.plat.softWords = [] → correctSource s c r = s) ∧
      (∃ t, exec (.dmaComplete e ch false) s = .next t ∧ chanGet t key = ended 2 c.moved) ∧
      (∃ n tail, n ≤ c.moved ∧ tail.length = 6 ∧ exec (.dmaTimeout e ch) s = .next (tickFree (sendEvent (bumpReg
        (setChan (tickFree (devWrite s r.dst (words n))) (ended 1 n)) 0x2400) 0x0004 (toLe 1 e ++ toLe 1 ch ++ tail)))) ∧
      (∀ line, line < c.moved → ∃ t, exec (.dmaErrEcc e ch line) s = .next t ∧ chanGet t key = ended 4 (line + 1))) ∧
    ((chanGet s key).running = true → ∀ line, line < (chanGet s key).moved →
      exec (.dmaErrEcc e ch line) s = .next (stopAtLine s key line)) ∧
    ((chanGet s key).running = false → (∀ b, exec (.dmaComplete e ch b) s = .next s) ∧ exec (.dmaTimeout e ch) s = .next s ∧
      ∀ line, exec (.dmaErrEcc e ch line) s = .next s) ∧
    (∀ q, q < 14 → s.ing.queues.length = 14 → ∃ t, exec (.queueReset q) s = .next t ∧ (queueOf t q).words = [] ∧
      (queueOf t q).wPtr = 0 ∧ (queueOf t q).rPtr = 0 ∧ (queueOf t q).bPtr = 0 ∧ (queueOf t q).markValid = false ∧
      (queueOf t q).frames = [] ∧ (queueOf t q).reading = none ∧ (queueOf t q).buffer = (queueOf s q).buffer ∧
      ((queueOf s q).reading = none → t.mem = s.mem) ∧ t.world = s.world)

/-! ### Bulk objects, images, weights -/

/-- R394, R395, R465, R469, R110, R118, R141, R288, R397: an object that arrives whole goes where its command sends it:
firmware and fuse requests to SEC's verification, a task image to the staged slot's, a weight set to free storage and the
directory, a world batch to the host queue, a checkpoint to its area, a replay package to its buffer. -/
def Obligations.ObjectsInOnePieceComplete : Prop :=
  ∀ (s : State) (m : Msg) (rest : List Msg), WholeObject m →
    let d := (pieceOf m).data
    (Front s .sec 0x10 m rest → secFree s = true →
      ∀ c, c = (if (pieceOf m).obj = 0x100 then Instr.fuseRequest else .loadFirmware) →
      let v := afterPiece s .sec m rest
      exec c s = .next { v with boot := { v.boot with verifying := some (d, (pieceOf m).obj, m) } }) ∧
    (Front s .sec 0x20 m rest → s.boot.verifying = none → (pieceOf m).obj = 0 →
      exec .loadTaskImage s =
        .next (setStaged (beginLoad (afterPiece s .sec m rest)) (.verifying d (pieceActivate (pieceOf m)) m))) ∧
    (Front s .sec 0x21 m rest → s.boot.verifying = none → let v := afterPiece s .sec m rest
      (weightPlace v d.length = none → exec .loadWeights s = .next (reply v m 25)) ∧
      (∀ a, weightPlace v d.length = some a →
        let w : WeightSet := { wsetId := (pieceOf m).obj, addr := a, len := d.length, digest := sha384 d }
        ∃ t, exec .loadWeights s = .next t ∧ weightFits v d.length a = true ∧ t.load.weights =
            (if s.cyc.dev = .stopped ∨ s.cyc.dev = .paused then weightInsert w s.load.weights else s.load.weights) ∧
          t.load.weightsNext =
            (if s.cyc.dev = .stopped ∨ s.cyc.dev = .paused then s.load.weightsNext else weightInsert w s.load.weightsNext) ∧
          { unreported t with load := s.load } = { unreported (devWrite v a d) with load := s.load })) ∧
    (Front s .world 0x30 m rest → (pieceOf m).obj = 0 → let v := afterPiece s .world m rest
      exec .worldDelta s = .next { v with world := { v.world with hostQ := v.world.hostQ ++
        [{ host := true, bytes := d, digest := [], msg := some m, coll := none, held := holdsHost s,
            since := s.cyc.seq, phase := 0, owner := none }] } }) ∧
    (Front s .sch 0x45 m rest → (pieceOf m).obj = 0 → s.cyc.dev = .stopped ∨ s.cyc.dev = .paused → (pieceOf m).total ≤ 0x6000000 →
      exec .ckptPut s = .next (reply (devWrite (afterPiece s .sch m rest) ckptBase d) m 0)) ∧
    (Front s .sch 0x47 m rest → s.cyc.dev = .replay → ∀ r p, s.rep = some r → bufferFree r (pieceOf m).obj = true →
      (pieceOf m).total ≤ 0x2000000 → parsePkg (pieceOf m).obj d = some p → let v := afterPiece s .sch m rest
      (pkgReplayable v r p = true →
        exec .replayData s = .next (reply { v with rep := some { r with packages := r.packages ++ [p] } } m 0)) ∧
      (pkgReplayable v r p = false → exec .replayData s = .next (reply v m 32)))

/-- R394: a piece that is not the last, a multiple of 64 bytes and at most 65,472, is kept behind those before it and
answered OK; the last completes the object, or is refused with BAD_LENGTH where it does not end at TOTAL; one that does not
follow is refused with PIECE_ORDER, a longer one or one of another length with BAD_LENGTH, and what was kept of its
object is dropped. -/
def Obligations.PiecesFollowInOrder : Prop :=
  ∀ (s : State) (m : Msg) (rest : List Msg), Front s .sec 0x21 m rest → s.boot.verifying = none → pieceRsvd m = true →
    let p := pieceOf m
    let v := afterPiece s .sec m rest
    let kept := fun (all : Bytes) => { v with host := { v.host with
      pieces := { opcode := m.opcode, obj := p.obj, total := p.total, data := all } :: v.host.pieces } }
    (∀ before, (p.off = 0 ∧ before = []) ∨ (p.off ≠ 0 ∧ ∃ o, pieceObject s m.opcode p.obj = some o ∧ o.data.length = p.off ∧
        o.total = p.total ∧ before = o.data) →
      (p.data.length ≤ 65472 → pieceLast p = false → p.data.length % 64 = 0 →
        exec .loadWeights s = .next (reply (kept (before ++ p.data)) m 0)) ∧
      (p.data.length ≤ 65472 → pieceLast p = false → p.data.length % 64 ≠ 0 → exec .loadWeights s = .next (reply v m 2)) ∧
      (65472 < p.data.length → exec .loadWeights s = .next (reply v m 2)) ∧
      (p.data.length ≤ 65472 → pieceLast p = true → before.length + p.data.length ≠ p.total →
        exec .loadWeights s = .next (reply v m 2)) ∧
      (p.data.length ≤ 65472 → pieceLast p = true → before.length + p.data.length = p.total →
        weightPlace v (before ++ p.data).length = none → exec .loadWeights s = .next (reply v m 25))) ∧
    (p.off ≠ 0 → (∀ o, pieceObject s m.opcode p.obj = some o → o.data.length ≠ p.off ∨ o.total ≠ p.total) →
      exec .loadWeights s = .next (reply v m 16))

/-- R110, R465, R466, R468, R469: a verification that finds a fault answers with the first check's status and stages nothing; a
good task image stands in the staged slot (one with more flows than the tables hold is unguarded, R262), a good firmware image is staged after READY or taken in its boot stage, a
good fuse request blows exactly its fuses. -/
def Obligations.VerificationsComplete : Prop :=
  ∀ (s : State) (bs : Bytes) (m : Msg), s.boot.inReset = false → ownerRuns s .sec = true →
    (∀ act, s.load.staged = .verifying bs act m → let flows := (sectionBytes bs 6).length / 16
      (imageStatus s bs ≠ 0 → exec .imageVerifyDone s = .next (reply (setStaged s .none) m (imageStatus s bs))) ∧
      (imageStatus s bs = 0 → imageRsvdOk bs = true → flows ≤ 64 → act = false ∨ (s.cyc.dev ≠ .stopped ∧ s.cyc.dev ≠ .paused) →
        exec .imageVerifyDone s = .next (reply (setStaged (devWrite s (imageBase (stagedSlot s)) bs)
          (.verified (parseImage bs (stagedSlot s)) act)) m 0)) ∧
      (imageStatus s bs = 0 → imageRsvdOk bs = true → flows ≤ 64 → act = true → s.cyc.dev = .stopped ∨ s.cyc.dev = .paused →
        activationStatus s (parseImage bs (stagedSlot s)) = 0 →
        ∃ t, exec .imageVerifyDone s = .next t ∧ t.load.staged = .none ∧ t.load.active = some (parseImage bs (stagedSlot s)) ∧
          t.cyc = s.cyc ∧ t.world = s.world ∧ t.fuses = s.fuses ∧ t.load.weights = s.load.weights) ∧
      (imageStatus s bs = 0 → imageRsvdOk bs = true → 64 < flows → exec .imageVerifyDone s = .fault (.unguarded "R262"))) ∧
    (∀ obj, s.boot.verifying = some (bs, obj, m) →
      let u := { s with boot := { s.boot with verifying := none } }
      (obj ≠ 0x100 → fwStatus u bs obj ≠ 0 → exec .fwVerifyDone s = .next (reply u m (fwStatus u bs obj))) ∧
      (obj ≠ 0x100 → fwStatus u bs obj = 0 → s.boot.stage = 7 → ∃ t, exec .fwVerifyDone s = .next t ∧
        t.boot.fwStaged = parseFw bs :: s.boot.fwStaged.filter (·.num ≠ (parseFw bs).num) ∧ t.boot.fwActive = s.boot.fwActive ∧
        t.boot.verifying = none ∧ t.fuses = s.fuses ∧ t.cyc = s.cyc ∧ t.boot.stage = 7) ∧
      (obj ≠ 0x100 → fwStatus u bs obj = 0 → s.boot.stage ≠ 7 → ∃ t, exec .fwVerifyDone s = .next t ∧
        t.boot.fwActive = parseFw bs :: s.boot.fwActive.filter (·.num ≠ (parseFw bs).num) ∧
        t.boot.taken = (parseFw bs).num :: s.boot.taken ∧ t.fuses = s.fuses ∧
        ((parseFw bs).num = 0 → t.boot.stage = 3) ∧ ((parseFw bs).num = 1 → t.boot.stage = 4)) ∧
      (obj = 0x100 → fuseForm bs = false → exec .fwVerifyDone s = .next (reply u m 18)) ∧
      (obj = 0x100 → fuseForm bs = true → fuseSigned u bs = false → exec .fwVerifyDone s = .next (reply u m 21)) ∧
      (∀ off, obj = 0x100 → fuseForm bs = true → fuseSigned u bs = true → fuseArgFails u bs = some off →
        exec .fwVerifyDone s = .next (replyInfo u m 36 (16 + off - (pieceOf m).off) [])) ∧
      (obj = 0x100 → fuseForm bs = true → fuseSigned u bs = true → fuseArgFails u bs = none →
        ∃ t, exec .fwVerifyDone s = .next t ∧ t.fuses = blowFuses s.fuses bs ∧
          { unreported t with fuses := s.fuses } = { unreported u with fuses := s.fuses }))

/-- R155 to R158, R230, R312, R315, R395, R471, R505: settings by mailbox take effect at once in STOPPED and PAUSED, a
self-test spacing while no slice runs, and at the next boundary (slice) else; a bad one is refused whole; ATTEST answers
with the report and its signature and changes nothing else. -/
def Obligations.SettingsByMailboxComplete : Prop :=
  ∀ (s : State) (m : Msg) (rest : List Msg),
    let now := s.cyc.dev = .stopped ∨ s.cyc.dev = .paused
    (Front s .sch 0x22 m rest → rsvdZero m.payload [(1, 63)] = true → fieldAt m.payload 0 1 ≤ 7 →
      let u := setOwnerQueue s .sch rest
      let rec' := sliceOf m.payload 0x40 320
      let n := fieldAt m.payload 0 1
      (profileOk rec' = false → exec .profileSet s = .next (reply u m 28)) ∧
      (profileOk rec' = true → now → exec .profileSet s = .next (reply (devWrite u (profileBase + 512 * n) rec') m 0)) ∧
      (profileOk rec' = true → ¬now → exec .profileSet s = .next (reply { u with load := { u.load with
        profilesNext := (u.load.profilesNext.filter fun q => decide (q.1 ≠ n)) ++ [(n, rec')] } } m 0))) ∧
    (Front s .sch 0x23 m rest → rsvdZero m.payload [(16, 16)] = true → let u := setOwnerQueue s .sch rest
      (configOk m.payload = false → exec .cycleConfig s = .next (reply u m 29)) ∧
      (configOk m.payload = true → now → exec .cycleConfig s =
        .next (reply { u with cyc := { u.cyc with params := parseConfig m.payload, paramsNext := none } } m 0)) ∧
      (configOk m.payload = true → ¬now → exec .cycleConfig s =
        .next (reply { u with cyc := { u.cyc with paramsNext := some (parseConfig m.payload) } } m 0))) ∧
    (Front s .pmc 0x24 m rest → rsvdZero m.payload [(1, 15)] = true → let u := setOwnerQueue s .pmc rest
      let n := fieldAt m.payload 0 1
      (1 ≤ n → n ≤ 8 → s.safety.selfRun = none →
        exec .selftestConfig s = .next (reply { u with safety := { u.safety with selfSpec := n, selfSpecNext := none } } m 0)) ∧
      (1 ≤ n → n ≤ 8 → s.safety.selfRun ≠ none →
        exec .selftestConfig s = .next (reply { u with safety := { u.safety with selfSpecNext := some n } } m 0)) ∧
      (n = 0 ∨ 8 < n → exec .selftestConfig s = .next (replyInfo u m 36 0 []))) ∧
    (Front s .sec 0x12 m rest → secFree s = true → rsvdZero m.payload [(48, 16)] = true → let u := setOwnerQueue s .sec rest
      let body := attestBody u (m.payload.take 48)
      exec .attest s = .next (replyData u m (body ++ padTo 96 (Config.attestSign body))))

/-! ### The device's states -/

/-- R286, R287, R395: START begins a run from cycle 0 in STOPPED with an image; STOP and PAUSE wait for a boundary while
cycles run, and STOP ends a pause at once; RESUME goes on from PAUSED with the same CYCLE_SEQ. Otherwise each is refused. -/
def Obligations.LifecycleCommandsComplete : Prop :=
  ∀ (s : State) (m : Msg) (rest : List Msg), let u := setOwnerQueue s .sch rest
    (Front s .sch 0x40 m rest → rsvdZero m.payload [(1, 15)] = true →
      (s.cyc.dev ≠ .stopped → exec .start s = .next (reply u m 13)) ∧
      (s.cyc.dev = .stopped → fieldAt m.payload 0 1 ≤ 1 → s.boot.stage ≠ 7 → exec .start s = .next (reply u m 14)) ∧
      (s.cyc.dev = .stopped → fieldAt m.payload 0 1 ≤ 1 → s.boot.stage = 7 → s.load.staged = .none → s.load.active = none →
        exec .start s = .next (reply u m 15)) ∧
      (s.cyc.dev = .stopped → fieldAt m.payload 0 1 ≤ 1 → s.boot.stage = 7 → s.load.staged = .none → s.load.active.isSome = true →
        ∃ t, exec .start s = .next t ∧ t.cyc.dev = .running ∧ t.cyc.tack = decide (fieldAt m.payload 0 1 = 1) ∧ t.cyc.seq = 0 ∧
          t.cyc.startMsg = some m ∧ t.cyc.effectAo = s.ao ∧ t.cyc.everStarted = false ∧ t.cyc.prevDigest = zeros 48 ∧
          t.cyc.inCycle = s.cyc.inCycle ∧ t.host.timerAt = s.ao ∧ ownerQueue t .sch = rest ∧ t.regs = s.regs ∧ t.ing = s.ing ∧
          t.safety = s.safety ∧ t.load = s.load ∧ t.fuses = s.fuses ∧ t.world.table = s.world.table ∧
          t.world.newest = s.world.newest)) ∧
    (Front s .sch 0x41 m rest → s.cyc.stopMsg = none →
      (s.cyc.dev = .stopped → exec .stop s = .next (reply u m 11)) ∧
      (s.cyc.dev = .paused → ∃ t, exec .stop s = .next t ∧ t.cyc.dev = .stopped ∧ t.outp.toggling = false ∧
        t.outp.validA = false ∧ t.outp.validB = false ∧ (∀ b ∈ t.world.hostQ, b.host = true → b.held = false) ∧
        t.cyc.seq = s.cyc.seq ∧ t.safety.safe = s.safety.safe ∧ t.load = s.load ∧ t.world.table = s.world.table) ∧
      (s.cyc.dev = .running → exec .stop s = .next { u with cyc := { u.cyc with stopMsg := some m } }) ∧
      (s.cyc.dev = .replay → s.cyc.inCycle = true → exec .stop s = .next { u with
        cyc := { u.cyc with stopMsg := some m }, rep := u.rep.map (fun r => { r with stopReq := true }) }) ∧
      (s.cyc.dev = .replay → s.cyc.inCycle = false → ∃ t, exec .stop s = .next t ∧ t.cyc.dev = .stopped ∧ t.rep = none ∧
        t.cyc.stopMsg = none ∧ t.outp.toggling = false ∧ t.cyc.seq = s.cyc.seq ∧ t.world.table = s.world.table)) ∧
    (Front s .sch 0x42 m rest → s.cyc.pauseMsg = none →
      (s.cyc.dev = .running → exec .pause s = .next { u with cyc := { u.cyc with pauseMsg := some m } }) ∧
      (s.cyc.dev ≠ .running → exec .pause s = .next (reply u m 11))) ∧
    (Front s .sch 0x43 m rest → resumeRsvd m = true → resumeCkpt m = false →
      (s.cyc.dev ≠ .paused → exec .resume s = .next (reply u m 12)) ∧
      (s.cyc.dev = .paused → ∃ t, exec .resume s = .next t ∧ t.cyc.dev = .running ∧ t.cyc.effectAo = s.ao ∧ t.cyc.seq = s.cyc.seq ∧
        t.cyc.tack = s.cyc.tack ∧ t.cyc.resumedGrid = !s.cyc.params.sync ∧
        (s.cyc.tack = false → ∀ b ∈ t.world.hostQ, b.host = true → b.held = false) ∧
        (s.cyc.tack = true → t.world = s.world) ∧ t.load = s.load ∧ t.disp.running = s.disp.running))

/-- R288 to R290: SAVE writes the checkpoint to its area and answers its length and digest; a restore that every check
passes brings back mode, CYCLE_SEQ and parameters, and RESUME runs, REPLAY replays from there; else the first failed check's
status is answered and nothing is restored. -/
def Obligations.CheckpointCommandsComplete : Prop :=
  ∀ (s : State) (m : Msg) (rest : List Msg), let u := setOwnerQueue s .sch rest
    (Front s .sch 0x44 m rest →
      (s.cyc.dev = .stopped ∨ s.cyc.dev = .paused → exec .save s = .next (replyData (devWrite u ckptBase (ckptBytes u)) m
        (toLe 4 (ckptBytes u).length ++ zeros 12 ++ sliceOf (ckptBytes u) 0xB0 48))) ∧
      (s.cyc.dev = .running ∨ s.cyc.dev = .replay → exec .save s = .next (reply u m 12))) ∧
    (Front s .sch 0x43 m rest → resumeRsvd m = true → resumeCkpt m = true → worldIdle s = true → s.boot.stage = 7 →
      s.cyc.dev = .stopped ∨ s.cyc.dev = .paused →
      ((restoreCkpt u).1 ≠ 0 → exec .resumeCheckpoint s = .next (reply u m (restoreCkpt u).1)) ∧
      ((restoreCkpt u).1 = 0 → ∃ t, exec .resumeCheckpoint s = .next t ∧ t.cyc.dev = .running ∧ t.cyc.effectAo = s.ao ∧
        t.cyc.seq = BitVec.ofNat 32 (fieldAt (ckptStored u) 8 4) ∧ t.cyc.tack = decide (fieldAt (ckptStored u) 5 1 = 1) ∧
        t.safety.missRun = fieldAt (ckptStored u) 0x14 1 ∧ t.world.newest = fieldAt (ckptStored u) 0x10 4 ∧ t.load.active = s.load.active ∧
        t.fuses = s.fuses ∧ t.ing = s.ing)) ∧
    (Front s .sch 0x46 m rest → rsvdZero m.payload [(1, 15)] = true → worldIdle s = true → s.boot.stage = 7 → s.cyc.dev = .stopped →
      let n := fieldAt m.payload 0 1
      (n = 0 ∨ 64 < n → exec .replay s = .next (replyInfo u m 36 0 [])) ∧
      (1 ≤ n → n ≤ 64 → (restoreCkpt u).1 ≠ 0 → exec .replay s = .next (reply u m (restoreCkpt u).1)) ∧
      (1 ≤ n → n ≤ 64 → (restoreCkpt u).1 = 0 → ∃ t, exec .replay s = .next t ∧ t.cyc.dev = .replay ∧ t.cyc.lateAbortNext = false ∧
        t.rep = some { cycles := n, index := 0, packages := [], stopReq := false, factError := false } ∧
        t.cyc.seq = BitVec.ofNat 32 (fieldAt (ckptStored u) 8 4) ∧ (∀ q ∈ t.ing.queues, q.words = []) ∧ t.load.active = s.load.active))

/-! ### Restarts of the processors -/

/-- R404 to R411: RESTART_PROCESSOR of a running processor waits for its moment and is answered when the new code runs, of
a halted one restarts it at once; a watchdog that has run out, an uncorrectable firmware error or a fatal exception
restarts a processor and counts, and the fifth within a second halts it; SCH's begun START, STOP and PAUSE go with it;
reloaded code that passes lets it run, one that fails twice halts it. Planned restarts keep the memory (log entry 47). -/
def Obligations.RestartsComplete : Prop :=
  ∀ (s : State) (p : Nat), s.boot.inReset = false → p < s.procs.length → presentProc s p = true →
    (∀ m rest, Front s .router 0x11 m rest → rsvdZero m.payload [(1, 15)] = true → fieldAt m.payload 0 1 = p →
      let u := setOwnerQueue s .router rest
      ((procOf s p).state = .running → exec .restartProcessor s =
        .next (mapProc u p fun x => { x with state := .warmPending, warmMsg := some m })) ∧
      ((procOf s p).state = .boot → exec .restartProcessor s = .next (reply u m 14)) ∧
      ((procOf s p).state = .halted → ∃ t, exec .restartProcessor s = .next t ∧ (procOf t p).state = .restarting ∧
        (procOf t p).lastCause = 4 ∧ (procOf t p).warmMsg = some m ∧ ∀ q, q ≠ p → procOf t q = procOf s q)) ∧
    ((procOf s p).state = .warmPending → queueDone s p = true → restartMoment s p = true →
      ∃ t, exec (.plannedRestartBegin p) s = .next t ∧ (procOf t p).state = .restarting ∧ (procOf t p).warmBegun = true ∧
        (procOf t p).lastCause = 4 ∧ (procOf t p).warmMsg = (procOf s p).warmMsg ∧ (∀ q, q ≠ p → procOf t q = procOf s q) ∧
        (p = 1 → t.disp.next = none) ∧ (p ≠ 1 → t.disp.next = s.disp.next) ∧
        { t with procs := s.procs, disp := { t.disp with next := s.disp.next, freeCtr := s.disp.freeCtr } } = s) ∧
    ((procOf s p).warmBegun = true → ∀ m, (procOf s p).warmMsg = some m →
      (p ≠ 1 → fwOf s.boot.fwStaged (imageOfProc p) = none → exec (.plannedRestartDone p) s = .next (reply
        (mapProc s p fun x => { x with state := .running, warmBegun := false, warmMsg := none, watchAt := s.ao }) m 0)) ∧
      (∀ f, p < 3 → fwOf s.boot.fwStaged (imageOfProc p) = some f → (procOf s p).switched = false →
        ∃ t, exec (.plannedRestartDone p) s = .next t ∧ (procOf t p).state = .running ∧ (procOf t p).warmBegun = false ∧
          (procOf t p).version = f.version ∧ (procOf t p).code = some f ∧ fwOf t.boot.fwActive (imageOfProc p) = some f ∧
          fwOf t.boot.fwStaged (imageOfProc p) = none ∧ t.fuses = (blowRb s f).fuses ∧
          (∀ q, q ≠ p → procOf t q = procOf s q) ∧ t.cyc = s.cyc ∧ t.world = s.world)) ∧
    (canCrash s p = true → (procOf s p).warmMsg = none → ∀ c cause,
      (c, cause) ∈ [(Instr.watchdogExpiry p, 1), (Instr.fwMemEcc p, 2), (Instr.internalFatalException p, 3)] →
      (cause = 1 → watchdogDue s p = true) →
      ∃ t, exec c s = .next t ∧ (procOf t p).lastCause = cause ∧ (procOf t p).code = none ∧ (procOf t p).data = none ∧
        ((recentCrashes s p).length < 4 → (procOf t p).state = .restarting ∧
          (procOf t p).restarts = min 255 ((procOf s p).restarts + 1)) ∧
        (4 ≤ (recentCrashes s p).length → (procOf t p).state = .halted ∧ (procOf t p).restarts = (procOf s p).restarts) ∧
        (∀ q, q ≠ p → procOf t q = procOf s q) ∧ (∀ o, queueOwner p = some o → ownerQueue t o = []) ∧
        (p = 2 → t.cyc.startMsg = none ∧ t.cyc.stopMsg = none ∧ t.cyc.pauseMsg = none ∧ t.disp.schRun = false) ∧
        (p ≠ 2 → t.cyc = s.cyc ∧ t.world = s.world) ∧ t.lat = s.lat ∧ t.fuses = s.fuses ∧ t.disp.running = s.disp.running ∧
        t.safety.safe = s.safety.safe) ∧
    (watchdogDue s p = false → exec (.watchdogExpiry p) s = .next s) ∧
    ((procOf s p).state = .restarting → (procOf s p).warmBegun = false → (procOf s p).warmMsg = none →
      (∃ t, exec (.fwReloadDone p true) s = .next t ∧ (procOf t p).state =
          (if p < 2 ∨ s.cyc.dev = .stopped ∨ s.cyc.dev = .paused then .running else .rejoinWait) ∧
        (procOf t p).code = storedCode s p ∧ (procOf t p).failedOnce = false ∧ { t with procs := s.procs, disp := s.disp } = s) ∧
      ((procOf s p).failedOnce = false → ∃ t, exec (.fwReloadDone p false) s = .next t ∧ (procOf t p).lastCause = 5 ∧
        (procOf t p).failedOnce = true ∧ ((recentCrashes s p).length < 4 → (procOf t p).state = .restarting) ∧
        ∀ q, q ≠ p → procOf t q = procOf s q) ∧
      ((procOf s p).failedOnce = true → ∃ t, exec (.fwReloadDone p false) s = .next t ∧ (procOf t p).state = .halted ∧
        (procOf t p).lastCause = 5 ∧ { t with procs := s.procs } = s))

/-! ### The plan cycle -/

/-- R231, R233, R245, R291: the timer, the edge that comes due before 1.02 PERIOD, or its time-out starts the cycle: at once between cycles,
at the boundary otherwise; a replayed cycle starts with its recorded mode. The cycle's cut and deadline count from the
start, nothing of it is released but INGEST. -/
def Obligations.CyclesBegin : Prop :=
  ∀ (s : State), s.boot.inReset = false →
    (∀ t, s.cyc.dev = .running → s.cyc.earlyStart = none →
      ((nextSync s = false ∧ t ≤ s.ao ∧ t = if s.cyc.everStarted then s.cyc.startAo + 100 * s.cyc.prevPeriod else firstStart s) ∨
        (nextSync s = true ∧ s.outp.acceptAt = some t ∧ syncFrom s ≤ t ∧ t ≤ syncLimit s)) →
      (s.cyc.inCycle = true → exec .cycleStart s = .next { s with cyc := { s.cyc with earlyStart := some t } }) ∧
      (s.cyc.inCycle = false → ∃ u, exec .cycleStart s = .next u ∧ u.cyc.inCycle = true ∧ u.cyc.startAo = t ∧
        u.cyc.seq = s.cyc.seq ∧ u.cyc.cutDone = false ∧ u.cyc.cutT = none ∧ u.cyc.startMsg = none ∧ u.cyc.deadlineDone = false ∧ u.cyc.record = s.cyc.earlyRecord ∧
        u.cyc.released = (if s.disp.schRun then [0] else []) ∧ u.cyc.params = s.cyc.params ∧ u.disp.running = s.disp.running ∧
        deadlineAo u = t + 100 * s.cyc.params.deadline)) ∧
    (s.cyc.dev = .running → s.cyc.earlyStart = none → nextSync s = true → startEdge s = none → syncLimit s ≤ s.ao →
      exec .syncTimeout s = .next (startCycle (bumpReg s 0x6054) (syncLimit s))) ∧
    (∀ t, s.cyc.dev = .running → nextSync s = true → s.outp.acceptAt = some t → syncLimit s < t →
      exec .cycleStart s = .next s) ∧
    (∀ p, s.cyc.dev = .replay → curPkg s = some p → s.cyc.inCycle = false → ∃ u, exec .replayCycleStart s = .next u ∧
      u.cyc.inCycle = true ∧ u.cyc.startAo = s.ao ∧ u.cyc.seq = s.cyc.seq ∧ (u.cyc.tack = true ↔ fieldAt p.header 5 1 = 1) ∧
      u.cyc.released = (if s.disp.schRun then [0] else []))

/-- R231, R447: an FP_SYNC edge 500 µs or more after the last accepted one is accepted, and counted in SYNC_EARLY when it
comes too early to start a cycle, or after the timer has started it; an edge sooner, or after SYNC_LOST, is ignored and
counted; the seventeenth within a second sets SYNC_LOST, which a second without
one clears. -/
def Obligations.SyncEdgesAreFiltered : Prop :=
  ∀ (s : State), s.boot.inReset = false →
    let accepted := { s with outp := { s.outp with acceptAt := some s.ao } }
    let early := s.cyc.dev = .running ∧ nextSync s = true ∧
      ((s.cyc.everStarted = true ∧ s.ao < syncFrom s) ∨ (s.cyc.earlyStart = none ∧ syncLimit s < s.ao))
    let recent := s.outp.ignoredAt.filter fun t => decide (s.ao < t + 100000000)
    (s.outp.syncLost = false → (∀ t, s.outp.acceptAt = some t → t + 50000 ≤ s.ao) →
      (early → exec .fpSyncEdge s = .next (bumpReg accepted 0x6050)) ∧ (¬early → exec .fpSyncEdge s = .next accepted)) ∧
    (Inv s → (s.outp.syncLost = true ∨ ∃ t, s.outp.acceptAt = some t ∧ s.ao < t + 50000) → ∃ u, exec .fpSyncEdge s = .next u ∧
      u.outp = { s.outp with ignoredAt := s.ao :: recent, syncLost := s.outp.syncLost || decide (16 ≤ recent.length) } ∧
      regOf u 0x6048 = regOf (bumpReg s 0x6048) 0x6048 ∧ u.cyc = s.cyc ∧ u.safety.cause = s.safety.cause) ∧
    (s.outp.syncLost = true → recent = [] →
      exec .syncLostClear s = .next { s with outp := { s.outp with syncLost := false, ignoredAt := [] } })

/-- R233, R254: a phase is released once SCH runs, the phases before it have completed and the cut has not taken it: every due
task's batches stand on the ready lists, on HOME, and for a SAFE task on TWIN too, unless thinning or replay leaves some
out; nothing runs yet. -/
def Obligations.PhaseReleasePlacesTheDueTasks : Prop :=
  ∀ (s : State) (p : Nat), s.boot.inReset = false → releasable s p = true →
    ∃ u, exec (.phaseRelease p) s = .next u ∧ u.cyc.released = p :: s.cyc.released ∧ u.disp.running = s.disp.running ∧
      u.cyc.phaseEpoch = (p, s.world.newest) :: s.cyc.phaseEpoch ∧ u.mem = s.mem ∧ u.regs = s.regs ∧
      (∀ e ∈ s.disp.ready, e ∈ u.disp.ready) ∧
      (∀ e ∈ u.disp.ready, e ∈ s.disp.ready ∨ (e.task ∈ activeTasks s ∧ e.task.phase = p ∧
        s.cyc.seq.toNat % max 1 e.task.divisor = 0 ∧ e.tile = (if e.copy = 0 then e.task.home else e.task.twin))) ∧
      (inReplay s = false → ∀ t ∈ dueIn s p, t.thinOk = false → 0 < t.units → ∀ copy, copy < copies t →
        ∃ e ∈ u.disp.ready, e.task = t ∧ e.copy = copy ∧ e.pending = List.range t.units)

/-- R236, R244, R250, R304, R317: the cut keeps its time, takes the batches of CHECK and REFINE off the ready lists but for
those whose SAFE twin runs, and starts Latigo (its inputs free of uncorrectable errors); the deadline empties the
lists, aborts what runs, discards what it handed over, and leaves the cycle with its record, for which a Latigo still
running has to the end of the deadline's AO cycle. -/
def Obligations.CutAndDeadlineEndTheWork : Prop :=
  ∀ (s : State), s.boot.inReset = false → s.cyc.dev = .running → s.cyc.inCycle = true → s.cyc.deadlineDone = false →
    (s.cyc.cutDone = false → s.cyc.startAo + 100 * (s.cyc.params.deadline - s.cyc.params.emitMargin) ≤ s.ao →
      ∃ u, exec .cut s = .next u ∧ u = cutNow s ∧ u.cyc.cutDone = true ∧ u.cyc.cutT = some (cutTime s) ∧
        (s.disp.running.all (fun i => i.finished || !isCutPhase i.task.phase) = true →
          (∀ r ∈ latigoReads s, badRead s r.1 r.2 = false) → u.disp.running = s.disp.running ∧
          (∀ e ∈ u.disp.ready, isCutPhase e.task.phase = true →
            ∀ b ∈ e.pending, ∃ o ∈ s.disp.openSafe, o.1 = e.task.taskId ∧ o.2.1 = b) ∧
          (∀ e ∈ s.disp.ready, isCutPhase e.task.phase = false → e.pending ≠ [] → e ∈ u.disp.ready) ∧
          ((latigoTiles s).all (tileWorks s) = true → u.lat.running = true ∧ u.lat.epoch = s.world.newest ∧ u.lat.startAo = s.ao))) ∧
    (s.cyc.startAo + 100 * s.cyc.params.deadline ≤ s.ao →
      ∃ u, exec .deadline s = .next u ∧ u.cyc.deadlineDone = true ∧ u.disp.ready = [] ∧
        (s.lat.running = false ∨ s.ao ≠ s.cyc.startAo + 100 * s.cyc.params.deadline → u.cyc.record.isSome = true) ∧
        (u.cyc.record.isSome = true ∨ u.lat.running = true) ∧
        (∀ tile ctx i, instOf s tile ctx = some i → ∃ j, instOf u tile ctx = some j ∧ j.finished = true ∧ j.task = i.task) ∧
        (∀ x ∈ u.flows, ∀ p ∈ x.items, ∀ i ∈ s.disp.running, i.finished = false → p.owner ≠ (i.task.taskId, i.batch, i.copy)))

/-- R245, R88, R286, R395: the boundary, when all work is over and the record is out, ends the cycle: the next CYCLE_SEQ, no
tokens, no full weight slots, the facts record kept; STOP and PAUSE take effect. -/
def Obligations.BoundaryEndsTheCycle : Prop :=
  ∀ (s : State) (r : Released), s.boot.inReset = false → s.cyc.dev = .running → s.rep = none → s.cyc.inCycle = true →
    s.cyc.record = some r → boundaryReady s = true →
    ∃ u, exec .boundary s = .next u ∧ u.cyc.seq = s.cyc.seq + 1 ∧ u.disp.tokens = [] ∧ u.disp.inbound = [] ∧ u.disp.full = [] ∧ u.disp.leftover = [] ∧ u.safety.stitch = [] ∧
      s.cyc.seq.toNat ∈ u.cyc.factsSlots ∧ u.cyc.prevDigest = r.digest ∧ u.plat.boundaries = s.plat.boundaries + 1 ∧
      (s.cyc.stopMsg.isSome = true → u.cyc.dev = .stopped ∧ u.cyc.inCycle = false ∧ u.cyc.stopMsg = none ∧ u.cyc.pauseMsg = none) ∧
      (s.cyc.stopMsg = none → s.cyc.pauseMsg.isSome = true → u.cyc.dev = .paused ∧ u.cyc.inCycle = false ∧ u.cyc.pauseMsg = none) ∧
      (s.cyc.stopMsg = none → s.cyc.pauseMsg = none → u.cyc.dev = .running ∧
        (s.cyc.earlyStart = none → u.cyc.inCycle = false) ∧
        (∀ t, s.cyc.earlyStart = some t → u.cyc.inCycle = true ∧ u.cyc.startAo = t))

/-! ### Dispatch and the ledger -/

/-- R257, R256, R146, R270, R271, R273, R260: a free context takes its tile's chosen entry, or steals the victim's highest
batch that its home does not take: with the ledger covering the charge, no token owed and no context before it in the
pointers' order, the instance runs with its list still to copy, its block written, the charge debited, the batch off the
list; uncovered, or with a window about to start, it does not start. -/
def Obligations.DispatchAndStealStartInstances : Prop :=
  ∀ (s : State) (tile ctx b : Nat) (e : Ready) (own : Bool) (c : Instr), s.boot.inReset = false →
    contextOpen s tile ctx = true → inReplay s = false → stitchRoom s e.task b = true →
    (own = true ∧ c = .dispatch tile ctx ∧ chooseEntry s tile = some e ∧ b = e.pending.headD 0 ∧
        pointerHolds s (2 * tile + ctx) = false) ∨
      (own = false ∧ c = .steal tile ctx ∧ s.cyc.tack = false ∧ chooseEntry s tile = none ∧ victim s (tile / 16) = some e ∧
        stolenBatch s e = some b ∧ mayTake s e b (tile / 16) = true ∧ thiefHolds s (2 * tile + ctx) e = false) →
    creditHolds s (2 * tile + ctx) e = false →
    let charge := chargeOf (energyOf e.task (e.first && own)) (scaleOf s tile)
    let n := dispatchEpoch s e b (!own)
    (epochOf s n).isSome = true →
    (∀ d, windowDue s = false → ledgerCovers s (tile / 16) charge e.task.safe = some d → tile ∉ s.disp.idleTiles →
      blockOk s tile e.task = true → badRead s (streamRange s e.task).1 (streamRange s e.task).2 = false →
      ∃ u i, exec c s = .next u ∧ instOf u tile ctx = some i ∧ i.task = e.task ∧ i.batch = b ∧ i.copy = e.copy ∧ i.epoch = n ∧
        i.charge = charge ∧ i.pc = 0 ∧ i.copied = false ∧ i.finished = false ∧ i.startAo = s.ao ∧ i.stream = streamOf s e.task ∧
        u.disp.running = s.disp.running ++ [i] ∧ u.disp.pool = s.disp.pool - d.2 ∧
        u.disp.islands = listUpd s.disp.islands (tile / 16) (fun x => { x with balance := x.balance - d.1 }) ∧
        (Inv s → tileRead u tile (64 * (e.task.listLine - 1)) 64 = instanceBlock s e b n) ∧
        (∀ x ∈ u.disp.ready, x.placed = e.placed → b ∉ x.pending)) ∧
    (windowDue s = false → ledgerCovers s (tile / 16) charge e.task.safe = none →
      ∃ u, exec c s = .next u ∧ (2 * tile + ctx, s.disp.window) ∈ u.disp.starved ∧ { u with
        out := s.out, disp := { u.disp with
          starved := s.disp.starved, freedAt := s.disp.freedAt, ctxPtr := s.disp.ctxPtr, stealPtr := s.disp.stealPtr } } = s) ∧
    (windowDue s = true → ∃ u, exec c s = .next u ∧
      { u with disp := { u.disp with freedAt := s.disp.freedAt, ctxPtr := s.disp.ctxPtr, stealPtr := s.disp.stealPtr } } = s)

/-- R124, R86, R258, R302: a list arrives in its tile, with its schedule; an instance whose descriptors have all completed ends
with status OK, its record, and a SAFE copy's signature record, queued; the tracker takes a cluster's oldest record
and frees the context. -/
def Obligations.InstancesCopyAndComplete : Prop :=
  ∀ (s : State) (tile ctx : Nat) (i : Inst), s.boot.inReset = false →
    (instOf s tile ctx = some i → i.copied = false → i.finished = false → copyOk s i = true →
      copyRests s i = false → copyBad s i = none →
      ∃ u, exec (.listCopyDone tile ctx) s = .next u ∧ u = copyList s i ∧ instOf u tile ctx = some { i with copied := true } ∧
        (Inv s → schedOf s i.task = none →
          tileRead u tile (64 * i.task.listLine) (64 * i.task.listLen) = devRead s (listAddr s i.task) (64 * i.task.listLen)) ∧
        (s.plat.softWords = [] → u.regs = s.regs) ∧ u.cyc = s.cyc ∧ u.safety = s.safety) ∧
    (instOf s tile ctx = some i → i.finished = false → i.ended = true → i.inflight = [] →
      ∃ u, exec (.instanceComplete tile ctx) s = .next u ∧ u = finishInst s i 0 ∧
        (∃ j, instOf u tile ctx = some j ∧ j.finished = true) ∧
        (∃ q, u.disp.compQ = s.disp.compQ ++ [(tile / 16, q)] ∧ q.taskId = i.task.taskId ∧ q.batch = i.batch ∧ q.copy = i.copy ∧
          q.tile = tile ∧ q.ctx = ctx ∧ q.status = 0 ∧ q.flags = i.flags ∧ q.charge = i.charge) ∧
        u.safety.sigQ = s.safety.sigQ ++ (if i.task.safe then [(tile / 16,
          { taskId := i.task.taskId, batch := i.batch, tile := tile, copy := i.copy, status := 0, len := (signatureInput i).length,
            seq := s.cyc.seq, crc := BitVec.ofNat 64 (crc64 (signatureInput i)) })] else [])) ∧
    (∀ cluster k q, s.disp.compQ.findIdx? (fun p => decide (p.1 = cluster)) = some k → s.disp.compQ[k]? = some (cluster, q) →
      ∃ u, exec (.completionRecord cluster) s = .next u ∧ u.disp.compQ = listDel s.disp.compQ k ∧
        u.disp.recent = (q :: s.disp.recent).take 64 ∧
        (∀ j ∈ s.disp.running, (j.tile ≠ q.tile ∨ j.ctx ≠ q.ctx) → j ∈ u.disp.running) ∧
        (∀ j ∈ u.disp.running, j.tile = q.tile → j.ctx = q.ctx → j.finished = false) ∧ u.mem = s.mem ∧ u.regs = s.regs)

/-- R267 to R269, R27, R478, R483: a ledger window starts after 100 µs with the limiter's values, each island's balance its
grant (in nJ: grants are µJ) plus what it overdrew, and POOL full; PMC moves an island's point, raises taking tokens; an idle island is gated and
wakes to 420 MHz; a token goes to the first waiter; a tile rested for 32 cycles is idle; PMC moves VDD_T to the setpoint of the
highest point in force or of one above, before any raise to it. -/
def Obligations.LedgerAndPowerEventsComplete : Prop :=
  ∀ (s : State) (c : Nat), s.boot.inReset = false → c < s.disp.islands.length →
    (s.disp.windowAt + 10000 ≤ s.ao → ∃ u, exec .ledgerWindowStart s = .next u ∧ u.disp.windowAt = s.ao ∧
      u.disp.window = s.disp.window + 1 ∧ u.disp.pool = 1000 * u.disp.poolSet ∧
      (u.disp.islands.getD c .reset).balance =
        Int.ofNat (1000 * (u.disp.islands.getD c .reset).grant) + min (s.disp.islands.getD c .reset).balance 0 ∧
      (s.disp.next = none → u.disp.frozen = true ∧ (u.disp.islands.getD c .reset).grant = (s.disp.islands.getD c .reset).grant) ∧
      (s.disp.next ≠ none → c < clusterCount s →
        (u.disp.islands.getD c .reset).grant ≤ (s.disp.islands.getD c .reset).grant + 500) ∧
      u.disp.ready = s.disp.ready ∧ u.disp.running = s.disp.running) ∧
    (presentCluster s c = true → procRuns s 1 = true → s.ao = s.disp.windowAt → ∀ v, 0 < v → v < oppOf s c →
      v ≤ 3 → exec (.oppSwitch c v) s = .next (setOpp s c v)) ∧
    (presentCluster s c = true → procRuns s 1 = true → s.ao = s.disp.windowAt → s.disp.trip = false → 0 < oppOf s c → oppOf s c < 3 →
      setpointOf s (oppOf s c + 1) ≤ s.plat.vddtSet →
      (4 ≤ (s.disp.granted.filter (· = (4, 16 + c))).length → exec (.oppSwitch c (oppOf s c + 1)) s =
        .next (setOpp { s with disp := { s.disp with granted := s.disp.granted.filter (· ≠ (4, 16 + c)) } } c (oppOf s c + 1))) ∧
      (s.disp.granted = [] → s.disp.tokensHeld < 4 → s.disp.waiters = [] → exec (.oppSwitch c (oppOf s c + 1)) s =
        .next (bumpReg { s with disp := { s.disp with waiters := List.replicate 4 (4, 16 + c) } } 0x900C))) ∧
    (presentCluster s c = true → oppOf s c ≠ 0 → islandIdle s c = true → ∃ u, exec (.islandGate c) s = .next u ∧ oppOf u c = 0 ∧
      (mapWf (fun _ => s.plat.bankBase) s.plat.banks = true → ∀ k, k < 736 →
        bankState s (1024 * c + 64 * (k / 46) + k % 46) = 0 → bankState u (1024 * c + 64 * (k / 46) + k % 46) = 1)) ∧
    (presentCluster s c = true → oppOf s c = 0 → (4, c) ∈ s.disp.granted → exec (.islandWake c) s =
      .next (setOpp { s with disp := { s.disp with granted := s.disp.granted.filter (· ≠ (4, c)) } } c 1)) ∧
    (s.disp.waiters = [] → exec .wakeToken s = .next { s with disp := { s.disp with tokensHeld := 1 } }) ∧
    (∀ w, s.disp.waiters = [w] → exec .wakeToken s = .next { s with disp := { s.disp with
      waiters := [], granted := s.disp.granted ++ [w], tokenPtr := natSet s.disp.tokenPtr w.1 ((waiterCluster w + 1) % 16) } }) ∧
    (∀ v, oppOf s c < v → s.plat.vddtSet < setpointOf s v → exec (.oppSwitch c v) s = .next s) ∧
    (∀ tile, presentTile s tile = true → instOf s tile 0 = none → instOf s tile 1 = none →
      (∀ p, s.disp.busyTo.find? (·.1 = tile) = some p → 320 ≤ tileRate s tile * (s.ao - p.2)) →
      (s.lat.running = true → tile ∉ latigoTiles s) →
      exec (.tileIdle tile) s = .next { s with disp := { s.disp with idleTiles := addOnce s.disp.idleTiles tile } }) ∧
    (∀ k, 1 ≤ k → k ≤ 3 → topOpp s ≤ k → procRuns s 1 = true → let v := setpointOf s k
      v % 5 = 0 → 620 ≤ v → v ≤ 800 → exec (.avsbusSetpointChange v) s = .next { s with
        plat := { s.plat with vddtSet := v, vddtRelax := some (s.ao, s.plat.vddtSet) }
        out := .avsbus v :: s.out }) ∧
    (∀ v, (∀ k, topOpp s ≤ k → setpointOf s k ≠ v) → exec (.avsbusSetpointChange v) s = .next s)

/-! ### Descriptors -/

/-- R76, R84, R85, R362: issuing a descriptor moves the instance to the next one, notes LAST, and puts a descriptor that
occupies a unit in flight; the tile stores read as before, and registers, tokens and the other instances are unchanged
by the issue itself but for the count of the errors it corrects. -/
def Obligations.IssueMovesTheInstanceOn : Prop :=
  ∀ (s : State) (tile ctx op : Nat) (r : DescRun) (i : Inst), Issues s tile ctx op r i →
    let u := issued s tile r i
    instOf u tile ctx = some (issuedInst s r i) ∧ (s.plat.softWords = [] → u.mem = s.mem ∧ u.regs = s.regs ∧ u.plat = s.plat) ∧
    (Inv s → ∀ t a n, tileRead u t a n = tileRead s t a n) ∧
    u.disp.tokens = s.disp.tokens ∧ u.cyc = s.cyc ∧ u.world = s.world ∧ u.chans = s.chans ∧ u.flows = s.flows ∧
    u.safety = s.safety ∧ (∀ t c, t ≠ tile ∨ c ≠ ctx → instOf u t c = instOf s t c)

/-- R104, R36, R361, R363: a descriptor with a reserved bit set or a body that its class does not allow, or one that reaches
outside the tile or into a bank that is OFF, stops; one that reaches a bank in retention waits for its wake; one that
reads an uncorrectable error aborts its instance. -/
def Obligations.IllFormedDescriptorsStop : Prop :=
  ∀ (s : State) (tile ctx : Nat) (i : Inst), s.boot.inReset = false → instOf s tile ctx = some i → listLineBad s i = false →
    ∀ c op r, (c, op, r) ∈ [(Instr.nop tile ctx, 0x00, nopRun), (.fence tile ctx, 0x01, fenceRun), (.moveCopy tile ctx, 0x08, copyRun),
        (.moveFill tile ctx, 0x09, fillRun), (.moveFetch tile ctx, 0x0A, fetchRun), (.movePut tile ctx, 0x0B, putRun),
        (.matmul tile ctx, 0x10, matmulRun), (.matmulConv tile ctx, 0x11, matmulRun), (.vectBin tile ctx, 0x18, binRun),
        (.vectUn tile ctx, 0x19, unRun), (.vectNorm tile ctx, 0x1A, normRun), (.vectCvt tile ctx, 0x1B, cvtRun),
        (.reduce tile ctx, 0x20, reduceRun), (.genprim tile ctx, 0x28, genprimRun), (.topk tile ctx, 0x38, topkRun),
        (.topkMerge tile ctx, 0x39, mergeRun), (.knn tile ctx, 0x3A, knnRun), (.solveAssemble tile ctx, 0x40, solveRun 0),
        (.solveFactor tile ctx, 0x41, solveRun 1), (.solveSubst tile ctx, 0x42, solveRun 2), (.solveUpdate tile ctx, 0x43, solveRun 3),
        (.dmareq tile ctx, 0x48, dmareqRun), (.wait tile ctx, 0x50, waitRun), (.signal tile ctx, 0x51, signalRun),
        (.emit tile ctx, 0x58, emitRun)] →
      let d := descBytes s i i.pc
      let acc := accessAt s r i
      dOpcode d = op → mayIssue s i d = true → pointerGrants s i (opUnit op) = true →
      ((headerOk d = false ∨ r.ok s i d = false) → exec c s = .fault (.unguarded "R104")) ∧
      (i.pc < 8192 → headerOk d = true → r.ok s i d = true →
        (accessOk s tile acc = false → exec c s = .fault (.unguarded "R36")) ∧
        (accessOk s tile acc = true → accessRests s tile acc = true → exec c s = .next (wakeAccess s tile acc)) ∧
        (∀ a, accessOk s tile acc = true → accessRests s tile acc = false → badAccessAt s tile acc = some a →
          exec c s = .next (readerAborts (issued s tile r i) tile ctx a)))

/-- R88 to R90, R93, R102: NOP and FENCE only issue; COPY writes the source's rows, FILL the pattern; WAIT takes its amount
from the counter and does not issue while the counter holds less; SIGNAL sends its increment, which reaches the counter, saturating, with TOKEN_INCREMENT. -/
def Obligations.MovesAndTokensComplete : Prop :=
  ∀ (s : State) (tile ctx : Nat) (i : Inst), let d := descBytes s i i.pc
    (Issues s tile ctx 0x00 nopRun i → exec (.nop tile ctx) s = .next (issued s tile nopRun i)) ∧
    (Issues s tile ctx 0x01 fenceRun i → exec (.fence tile ctx) s = .next (issued s tile fenceRun i)) ∧
    (Issues s tile ctx 0x08 copyRun i → let u := issued s tile copyRun i
      exec (.moveCopy tile ctx) s = .next (writeRows u tile (dTref d 0x18) (readRows u tile (dTref d 0x10)))) ∧
    (Issues s tile ctx 0x09 fillRun i → let u := issued s tile fillRun i
      exec (.moveFill tile ctx) s = .next (writeRows u tile (dTref d 0x18)
        (List.replicate (dTref d 0x18).rows (patternRow (sliceOf d 0x30 8) (dTref d 0x18).cols)))) ∧
    (Issues s tile ctx 0x50 waitRun i → let n := fieldAt d 0x12 2
      ∃ t, exec (.wait tile ctx) s = .next t ∧ n ≤ (tokenOf s tile (fieldAt d 0x10 1)).toNat ∧
        t = { issued s tile waitRun i with disp := { (issued s tile waitRun i).disp with
          tokens := halfSet s.disp.tokens (32 * tile + fieldAt d 0x10 1) (tokenOf s tile (fieldAt d 0x10 1) - BitVec.ofNat 16 n) } }) ∧
    (s.boot.inReset = false → instOf s tile ctx = some i → listLineBad s i = false → dOpcode d = 0x50 →
      (tokenOf s tile (fieldAt d 0x10 1)).toNat < fieldAt d 0x12 2 → exec (.wait tile ctx) s = .next s) ∧
    (s.boot.inReset = false → instOf s tile ctx = some i → i.finished = false → dOpcode d = 0x50 →
      (tokenOf s tile (fieldAt d 0x10 1)).toNat < fieldAt d 0x12 2 → 10 * i.task.reinBudget ≤ i.acc → 0 < i.acc →
      ∃ u, exec (.reinExpiry tile ctx) s = .next u ∧ ∃ j, instOf u tile ctx = some j ∧ j.finished = true) ∧
    (Issues s tile ctx 0x51 signalRun i → let u := issued s tile signalRun i
      exec (.signal tile ctx) s = .next { u with disp := { u.disp with inbound := u.disp.inbound ++
        [(32 * fieldAt d 0x10 1 + fieldAt d 0x11 1, BitVec.ofNat 16 (fieldAt d 0x12 2), tile, ctx, i.pc)] } }) ∧
    (s.boot.inReset = false → ∀ c n k, s.disp.inbound.findIdx? (fun p => decide (p.1 = 32 * tile + c ∧ p.2.1.toNat = n)) = some k →
      exec (.tokenIncrement tile c n) s = .next { s with disp := { s.disp with
        inbound := listDel s.disp.inbound k,
        tokens := halfSet s.disp.tokens (32 * tile + c) (BitVec.ofNat 16 (min 65535 ((tokenOf s tile c).toNat + n))) } })

/-- R93, R101, R336, R363, R370: FETCH writes the fabric rows to the tile, PUT the tile's rows to their fabric addresses, where
the unit may reach them; an error in what FETCH reads is reported; DMAREQ writes the channel's shadow set and arms it if
it asks, or arms the one that stands there, or stalls while the shadow is armed; a set outside R333 to R335 is unguarded
(R355); a PUT that times out counts as complete (its event: log entry 8). -/
def Obligations.FabricMovesComplete : Prop :=
  ∀ (s : State) (tile ctx : Nat) (i : Inst), let d := descBytes s i i.pc
    (Issues s tile ctx 0x0A fetchRun i → let u := issued s tile fetchRun i
      let rs := fabricRanges d (dTref d 0x18)
      let v := correctFetch u rs
      (rs.all (fun r => fetchable s tile r.1 r.2) = true → rs.find? (fun r => badDev u r.1 r.2) = none →
        exec (.moveFetch tile ctx) s = .next (tickFree (writeRows v tile (dTref d 0x18) (rs.map fun r => readDev v r.1 r.2)))) ∧
      (rs.all (fun r => fetchable s tile r.1 r.2) = true → ∀ r, rs.find? (fun r => badDev u r.1 r.2) = some r →
        exec (.moveFetch tile ctx) s = .next (fetchFault v (issuedInst s fetchRun i) d (firstBadDev u r.1 r.2))) ∧
      (rs.all (fun r => fetchable s tile r.1 r.2) = false → exec (.moveFetch tile ctx) s = .fault (.unguarded "R370"))) ∧
    (Issues s tile ctx 0x0B putRun i → let u := issued s tile putRun i
      let ps := (fabricRanges d (dTref d 0x10)).zip (readRows u tile (dTref d 0x10))
      (ps.all (fun p => (putKey i p.1.1 p.1.2).isSome) = true → exec (.movePut tile ctx) s = .next (ps.foldl
        (fun v p => match putKey i p.1.1 p.1.2 with | some k => devWrite v k p.2 | none => v) u)) ∧
      (ps.all (fun p => (putKey i p.1.1 p.1.2).isSome) = false → exec (.movePut tile ctx) s = .fault (.unguarded "R370"))) ∧
    (Issues s tile ctx 0x48 dmareqRun i → let u := issued s tile dmareqRun i
      let j := issuedInst s dmareqRun i
      let ch := fieldAt d 0x10 1
      let key := 8 * (tile / 16) + ch
      let req := reqSet s i d i.pc
      let old := rearmed (chanGet s key).shadow req
      let arming := setInst u { j with armed := addOnce j.armed ch, dmaArms := natSet j.dmaArms i.pc (armCount i i.pc + 1) }
      ((chanGet s key).armed = true →
        exec (.dmareq tile ctx) s = .next (setInst u { j with stalled := (j.stalled ++ [i.pc]) })) ∧
      ((chanGet s key).armed = false → fieldAt d 0x11 1 = 0 → setOk u req = true →
        exec (.dmareq tile ctx) s = .next (writeShadow (setInst u j) key req false)) ∧
      ((chanGet s key).armed = false → fieldAt d 0x11 1 = 1 → armOnly d = false → setOk u req = true →
        exec (.dmareq tile ctx) s = .next (writeShadow arming key req true)) ∧
      ((chanGet s key).armed = false → fieldAt d 0x11 1 = 1 → armOnly d = true → setOk u old = true →
        exec (.dmareq tile ctx) s = .next (writeShadow arming key old true)) ∧
      ((chanGet s key).armed = false → setOk u (if fieldAt d 0x11 1 = 1 ∧ armOnly d = true then old else req) = false →
        exec (.dmareq tile ctx) s = .fault (.unguarded "R355"))) ∧
    (instOf s tile ctx = some i → s.boot.inReset = false → i.finished = false → ∀ k, putInFlight s i = some k →
      exec (.putTimeout tile ctx) s = .next (putTimeout s i (descBytes s i k) k))

/-- R65, R94 to R96, R121, R122: VECT, REDUCE and MATMUL write their output rows in the output format and gather the flags;
MATMUL and CONV go as far as FULL slots take them, and the weight bus writes the next chunk of the user whose turn it is
to the slot of every user that waits for it and sets FULL. -/
def Obligations.MathDescriptorsComplete : Prop :=
  ∀ (s : State) (tile ctx : Nat) (i : Inst), let d := descBytes s i i.pc
    let land := fun (r : DescRun) (off : Nat) (v : List (List Val) × Nat) =>
      let u := issued s tile r i
      let w := writeTensor u tile (dFmtOut d) (dTref d off) (descRm u (issuedInst s r i) d i.pc) v.1
      .next (gatherFlags w.1 tile ctx (w.2 ||| v.2))
    let free := fun (r : DescRun) (dst : Tref) => .next ((trefRanges (dFmtOut d) dst).foldl
      (fun t x => devScramble t (tileBase tile + x.1) x.2) (issued s tile r i))
    let rowsOf := fun (r : DescRun) => readTensor (issued s tile r i) tile (dFmtA d) (dTref d 0x10)
    (Issues s tile ctx 0x18 binRun i → let dom := binDomain (dFmtA d) (dFmtB d) (fieldAt d 0x28 1)
      (dom ≠ .free → exec (.vectBin tile ctx) s = land binRun 0x20 (binRows (issued s tile binRun i) (issuedInst s binRun i) d dom)) ∧
      (dom = .free → exec (.vectBin tile ctx) s = free binRun (dTref d 0x20))) ∧
    (Issues s tile ctx 0x19 unRun i → let dom := unDomain (dFmtA d) (fieldAt d 0x28 1)
      (dom ≠ .free → exec (.vectUn tile ctx) s = land unRun 0x20 (mapRows (rowsOf unRun) (unElem d dom))) ∧
      (dom = .free → exec (.vectUn tile ctx) s = free unRun (dTref d 0x20))) ∧
    (Issues s tile ctx 0x1A normRun i →
      let g := readTensor (issued s tile normRun i) tile (dFmtB d) (dTref d 0x18)
      let gamma := rowF32 d (dFmtB d) (g.getD 0 [])
      let beta := rowF32 d (dFmtB d) (g.getD 1 [])
      let r := (rowsOf normRun).map (normRow d gamma.1 beta.1)
      exec (.vectNorm tile ctx) s = land normRun 0x20
        (r.map (·.1), (if fieldAt d 0x28 1 = 2 then 0 else gamma.2 ||| beta.2) ||| orFlags (r.map (·.2)))) ∧
    (Issues s tile ctx 0x1B cvtRun i →
      (isRequant d = false → exec (.vectCvt tile ctx) s =
        land cvtRun 0x20 (mapRows (rowsOf cvtRun) (cvtVal (arithRm d) (dFmtA d) (dFmtOut d)))) ∧
      (isRequant d = true → let u := issued s tile cvtRun i
        exec (.vectCvt tile ctx) s = land cvtRun 0x20 (requantRows u (issuedInst s cvtRun i) d i.pc
          (tileRead u tile (qparamRange d 0x30).1 (qparamRange d 0x30).2) (rowsOf cvtRun)))) ∧
    (Issues s tile ctx 0x20 reduceRun i →
      let r := (reduceLists d (rowsOf reduceRun)).map (reduceVals d)
      exec (.reduce tile ctx) s = land reduceRun 0x18 (fillRows (dTref d 0x18) (r.map (·.1)), orFlags (r.map (·.2)))) ∧
    (∀ c op, (c, op) ∈ [(Instr.matmul tile ctx, 0x10), (Instr.matmulConv tile ctx, 0x11)] → Issues s tile ctx op matmulRun i →
      exec c s = .next (mmRunOn (setInst (issued s tile matmulRun i) { issuedInst s matmulRun i with
        mm := some { index := i.pc, panel := 0, block := 0, rot := 0, got := [] } }) tile ctx)) ∧
    (s.boot.inReset = false → busUser s tile ctx = some i → chunkTurn s i = true → ∀ p w, nextChunk i = some p →
      s.load.weights.find? (fun w => decide (w.wsetId = p.1.wset)) = some w →
      (w.len < 4096 * (p.2.1 + 1) → exec (.weightChunkWrite tile ctx) s = .fault (.unguarded "R118")) ∧
      (4096 * (p.2.1 + 1) ≤ w.len → ∃ t, exec (.weightChunkWrite tile ctx) s = .next t ∧
        t = writeChunk (notePtr s i) w p.2.1 (sharers s (tile / 16) p.1.wset p.2.1) ∧
        (badRead s (w.addr + 4096 * p.2.1) 4096 = false → sharers s (tile / 16) p.1.wset p.2.1 = [i] →
          (∀ c j, instOf s tile c = some j → j.mm = none) → i.mm = none →
          (mapWf (fun _ => false) s.disp.full = true → isFull t tile p.2.2 = true) ∧
          (Inv s → tileRead t tile (slotBase p.2.2) 4096 = devRead s (w.addr + 4096 * p.2.1) 4096))))

/-- R154, R198 to R203, R208, R159, R160: TOPK, MERGE and KNN write their lists and gather their flags, or are unguarded outside
R208; GENPRIM writes the candidates' rows and counts those of PROPOSE; from a start state that is not finite its rows hold
unspecified bytes (log entry 34), with a profile outside R159 it is unguarded. -/
def Obligations.SelectAndGenprimComplete : Prop :=
  ∀ (s : State) (tile ctx : Nat) (i : Inst), let d := descBytes s i i.pc
    (Issues s tile ctx 0x38 topkRun i → let k := seIn0 d
      let u := issued s tile topkRun i
      let fits := seParam d + k.cols ≤ 2 ^ 32 ∧ ((seIn1 d).rows = 0 ∨ ((seIn1 d).rows = k.rows ∧ (seIn1 d).cols = k.cols))
      (fits → exec (.topk tile ctx) s = .next (gatherFlags (writeRows u tile (seOut d)
        ((List.range k.rows).map (topkRow u tile d))) tile ctx
        (nanKeys (seFmt d) ((List.range k.rows).map (keyWords u tile k)).flatten))) ∧
      (¬fits → exec (.topk tile ctx) s = .fault (.unguarded "R208"))) ∧
    (Issues s tile ctx 0x39 mergeRun i → let u := issued s tile mergeRun i
      let ls := (List.range (seIn0 d).rows).map (readRowBytes u tile fmtByte (seIn0 d))
      let fits := (seIn1 d).rows = 0 ∧ seParam d = 0 ∧ ls.all (listOk d) = true
      (fits → exec (.topkMerge tile ctx) s = .next (gatherFlags (writeRows u tile (seOut d)
        [mergeLists (seFmt d) (seLargest d) (seDedup d) (seK d) ls]) tile ctx
        (nanKeys (seFmt d) ((ls.map fun l => (listEnts l 0).map (·.key)).flatten)))) ∧
      (¬fits → exec (.topkMerge tile ctx) s = .fault (.unguarded "R208"))) ∧
    (Issues s tile ctx 0x3A knnRun i → let u := issued s tile knnRun i
      let r := (fmtF32Pts u tile (seIn0 d)).map fun q => knnRow (seK d) (seParam d) q (fmtF32Pts u tile (seIn1 d))
      let fits := (seIn0 d).cols = (seIn1 d).cols ∧ 1 ≤ (seIn0 d).cols ∧ (seIn0 d).cols ≤ 16
      (fits → exec (.knn tile ctx) s =
        .next (gatherFlags (writeRows u tile (seOut d) (r.map (·.1))) tile ctx (orFlags (r.map (·.2))))) ∧
      (¬fits → exec (.knn tile ctx) s = .fault (.unguarded "R208"))) ∧
    (Issues s tile ctx 0x28 genprimRun i → let u := issued s tile genprimRun i
      let j := issuedInst s genprimRun i
      let finite := stateFinite (tileRead u tile (64 * gpStateLine d) 64)
      (profileGuarded (gpProfile u i d) = true → finite = true → exec (.genprim tile ctx) s = .next (landCandidates u j d i.pc)) ∧
      (profileGuarded (gpProfile u i d) = true → finite = false → exec (.genprim tile ctx) s = .next (landNoStart u j d)) ∧
      (profileGuarded (gpProfile u i d) = false → exec (.genprim tile ctx) s = .fault (.unguarded "R159")))

/-- R146, R183, R185, R236, R304, R46: a SWEEP starts with every pair of its candidates waiting, against its instance's epoch or
the one it samples; a lane that finishes writes its pair's record; a start report is acknowledged unless the cut has
acted on the CHECK instance and no copy has come as far; a world-cache line arrives, or fails. -/
def Obligations.SweepsComplete : Prop :=
  ∀ (s : State) (tile ctx : Nat) (i : Inst), let d := descBytes s i i.pc
    (Issues s tile ctx 0x30 sweepRun i → inReplay s = false →
      (swNewest d = true → (epochOf s (sampleEpoch s i i.pc)).isSome = true) →
      let u := issued s tile sweepRun i
      let j := issuedInst s sweepRun i
      let n := if swNewest d then sampleEpoch u j i.pc else i.epoch
      let v := if swNewest d then holdSample u j i.pc n else u
      let w := if i.task.phase = 4 then { v with cyc := { v.cyc with counts := noteCheckEpoch v.cyc.counts n } } else v
      (profileGuarded (swProfile u tile d) = true → exec (.sweep tile ctx) s = .next (sweepGo w j d
        { index := i.pc, epoch := n, ownHold := swNewest d, pairs := allPairs u tile d, taken := [], started := 0, acked := 0,
          waiting := false, cutTaken := false, hits := [], opened := [] })) ∧
      (profileGuarded (swProfile u tile d) = false → exec (.sweep tile ctx) s = .fault (.unguarded "R159"))) ∧
    (s.boot.inReset = false → instOf s tile ctx = some i → i.finished = false → ∀ w, sweepOf i = some w →
      (∀ c k rest, w.taken = (c, k) :: rest →
        (pairLines s i (descBytes s i w.index) w.epoch c k).any (fun l => decide ((tile, l) ∈ s.world.filling)) = false →
        exec (.sweepPairDone tile ctx) s = .next (pairDone s i (descBytes s i w.index) w c k rest)) ∧
      (w.waiting = true → i.cut = false ∨ i.task.phase ≠ 4 ∨ w.started < ackOf s i w.index → exec (.sweepStartReport tile ctx) s =
        .next (sweepGo (setAck s i w.index (max (w.started + 1) (ackOf s i w.index))) i (descBytes s i w.index)
          { w with acked := w.started + 1, waiting := false })) ∧
      (w.waiting = true → inReplay s = false → i.cut = true → i.task.phase = 4 → ackOf s i w.index ≤ w.started →
        exec (.sweepStartReport tile ctx) s = .next (sweepGo (takeCut s i (descBytes s i w.index) w).1 i (descBytes s i w.index)
          (takeCut s i (descBytes s i w.index) w).2))) ∧
    (s.boot.inReset = false → ∀ line, (tile, line) ∈ s.world.filling →
      exec (.cacheFill tile line false) s = .next { s with world := { s.world with
        cached := cacheInsert s tile line, filling := s.world.filling.filter (· ≠ (tile, line)) } } ∧
      exec (.cacheFill tile line true) s = .next (lineFails s tile line))

/-- R212, R215 to R226: a SOLVE of a solve that has ended, and an ASSEMBLE without an accepted trial, only issue; one that the cut
has reached takes it; the others do their section's steps on the workspace's own values, with the line WORK left
unspecified; a SOLVE outside R229 is unguarded. -/
def Obligations.SolvesComplete : Prop :=
  ∀ (s : State) (tile ctx : Nat) (i : Inst), let d := descBytes s i i.pc
    ∀ c op sec, (c, op, sec) ∈ [(Instr.solveAssemble tile ctx, 0x40, 0), (Instr.solveFactor tile ctx, 0x41, 1),
        (Instr.solveSubst tile ctx, 0x42, 2), (Instr.solveUpdate tile ctx, 0x43, 3)] → Issues s tile ctx op (solveRun sec) i →
      let u0 := issued s tile (solveRun sec) i
      let q := solveOf u0 tile d
      let x := ctrlOf u0 q
      let j0 := issuedInst s (solveRun sec) i
      let j := if x.status = 0 then withWork j0 q { freshWork with desc := i.pc } else j0
      let u := setInst u0 j
      let v := devScramble u (tileBase q.tile + (q.base + 64)) 64
      let cut := solveCutReached u j q
      (solveGuarded q d sec = false ∨ 9 < x.status → exec c s = .fault (.unguarded "R229")) ∧
      (solveGuarded q d sec = true → x.status ≤ 9 →
        (2 ≤ x.status → exec c s = .next u) ∧
        (x.status < 2 → cut = true → exec c s = .next (takeSolveCut u j q)) ∧
        (x.status < 2 → cut = false →
          (sec = 0 → bitOf x.flags 1 = false → exec c s = .next u) ∧
          (x.status = 0 → sec ≠ 3 → (sec ≠ 0 ∨ bitOf x.flags 1 = true) → exec c s = .fault (.unguarded "R229")) ∧
          (x.status = 1 → sec = 0 → bitOf x.flags 1 = true → (assembleSteps v q (stepsOf q 0 d)).isSome = true →
            ∃ t, runAssemble v j q d = .ok t ∧ exec c s = .next t) ∧
          (x.status = 1 → sec = 1 → ∃ t, runFactor v j q d i.pc = .ok t ∧ exec c s = .next t) ∧
          (x.status = 1 → sec = 2 → ∃ t, runSubst v j q d i.pc = .ok t ∧ exec c s = .next t) ∧
          (sec = 3 → ∃ t, runUpdate v j q i.pc = .ok t ∧ exec c s = .next t)))

/-- R85, R103, R225, R262, R263, R273: EMIT offers its item to the flow's reorder buffer, or stalls while it must wait; a descriptor
whose work is done leaves its unit, a stalled one when its retry is served; a solve's report that is accepted makes its
writes, one that the cut refuses makes none. -/
def Obligations.EmitAndCompletion : Prop :=
  ∀ (s : State) (tile ctx : Nat) (i : Inst), let d := descBytes s i i.pc
    (Issues s tile ctx 0x58 emitRun i → let u := issued s tile emitRun i
      let f := fieldAt d 0x10 2
      let seq := fieldAt d 0x14 4
      let x := flowOf s f
      let n := (BitVec.ofNat 32 seq - x.nextSeq).toNat
      let dup := 2 ^ 31 ≤ n ∨ (n < 256 ∧ x.items.any (fun p => p.seq.toNat = seq) = true)
      let twin := isSink f = true ∧ i.task.safe = true ∧ i.copy = 1
      (¬twin → n < 256 → ¬dup → exec (.emit tile ctx) s = .next (setFlow u { x with items := x.items ++
        [{ seq := BitVec.ofNat 32 seq, phase := i.task.phase, owner := (i.task.taskId, i.batch, i.copy),
           bytes := emitItem u i d }] })) ∧
      (¬twin → 256 ≤ n → n < 2 ^ 31 → exec (.emit tile ctx) s =
        .next (setInst u { issuedInst s emitRun i with stalled := i.stalled ++ [i.pc] })) ∧
      (twin → exec (.emit tile ctx) s = .next u) ∧ (¬twin → dup → exec (.emit tile ctx) s = .next (flowDup u))) ∧
    (s.boot.inReset = false → instOf s tile ctx = some i → i.finished = false → ∀ k, i.inflight.any (·.1 = k) = true →
      workDone s i k = true →
      (k ∉ i.stalled → ∃ t, exec (.descriptorComplete tile ctx k) s = .next t ∧
        instOf t tile ctx = some { i with inflight := i.inflight.filter (·.1 ≠ k),
                                          sigs := if i.task.safe && dSig (descBytes s i k)
                                            then sigInsert (k, signaturePart s i (descBytes s i k)) i.sigs else i.sigs } ∧
        t.mem = s.mem ∧ t.regs = s.regs ∧ t.disp.tokens = s.disp.tokens ∧ t.flows = s.flows ∧ t.cyc = s.cyc) ∧
      (retryStalled s i (descBytes s i k) k = none → exec (.descriptorComplete tile ctx k) s = .next s) ∧
      (∀ t, retryStalled s i (descBytes s i k) k = some (.ok t) →
        exec (.descriptorComplete tile ctx k) s = .next (retire t tile ctx k))) ∧
    (s.boot.inReset = false → instOf s tile ctx = some i → i.finished = false → inReplay s = false → ∀ r, i.solve = some r →
      let q := solveOf s tile (descBytes s i r.index)
      let past := i.cut = true ∧ i.task.phase = 7 ∧ reportKey (targetOf s i (workOf i q)) < reportKey (r.iter, r.status)
      (¬past → exec (.solveReport tile ctx) s = .next (acceptReport s i q r)) ∧
      (past → exec (.solveReport tile ctx) s = .next (refuseReport s i q)))

/-! ### Flows and the cycle's record -/

/-- R262 to R264, R266, R277: the item at NEXT_SEQ leaves its flow: into the next ring slot, whose head and token counter then
count it, or, with no room, the flow blocks until a poll sees room; at a sink it goes to the world engine, to the emit
unit, where a second item of the cycle is a duplicate, or starts a collective. -/
def Obligations.FlowsReleaseInOrder : Prop :=
  ∀ (s : State) (f : Nat), s.boot.inReset = false →
    let x := flowOf s f
    (∀ p rest, nextItem x = some (p, rest) → x.blocked = false →
      let v := setFlow s { x with items := rest, nextSeq := p.seq + 1 }
      (∀ c, isSink f = false → flowCfg s f = some c → ringOk c = true →
        (ringRoom s c x = true → ∃ u, exec (.flowRelease f) s = .next u ∧ u = releaseToRing s c x p.seq p.bytes rest ∧
          flowOf u f = { x with items := rest, released := x.released + 1, nextSeq := p.seq + 1, blocked := false } ∧
          (∀ g, g ≠ f → flowOf u g = flowOf s g) ∧
          u.disp.tokens = (addToken s c.consTile c.consCounter 1).disp.tokens ∧ u.regs = s.regs ∧ u.cyc = s.cyc) ∧
        (ringRoom s c x = false → exec (.flowRelease f) s = .next (setFlow s { x with blocked := true, room := s.ao }))) ∧
      (f = 0xFFF0 → taskItemOk s p.bytes = true → exec (.flowRelease f) s = .next { v with
        world := { v.world with taskQ := v.world.taskQ ++
          [{ host := false, bytes := p.bytes, digest := [], msg := none, coll := none,
             held := s.cyc.tack && decide (p.phase = 10), since := s.cyc.seq, phase := p.phase, owner := some p.owner }] } }) ∧
      (f = 0xFFF0 → taskItemOk s p.bytes = false → exec (.flowRelease f) s = .fault (.unguarded "R141")) ∧
      (f = 0xFFF1 → s.cyc.planSeen = true → exec (.flowRelease f) s = .next (flowDup v)) ∧
      (f = 0xFFF1 → s.cyc.planSeen = false → planItemOk p.bytes = true →
        exec (.flowRelease f) s = .next (takePlanItem v (planItem p.bytes))) ∧
      (f = 0xFFF2 → collItemOk v p.bytes = true → s.links.early = [] →
        ∃ u, issueColl v p.bytes = .ok u ∧ exec (.flowRelease f) s = .next u ∧ u.flows = v.flows)) ∧
    (∀ c, flowCfg s f = some c → x.blocked = true → x.room + 26 ≤ s.ao →
      exec (.flowAckPoll f) s = .next (setFlow s { x with blocked := !ringRoom s c x, room := s.ao }))

/-- R241, R243, R250, R305, R327: a release request in time waits for open SAFE entries, for ESTIMATE's to the end of its AO
cycle; granted, it releases the primary record with the item's candidate, VALID or, while DEGRADE_AFTER is in force,
DEGRADED, and the valid lines toggle; in the safe state, or when a condition fails, it is refused. -/
def Obligations.ReleaseRequestsAreJudged : Prop :=
  ∀ (s : State) (item : Bytes), s.boot.inReset = false → s.cyc.inCycle = true → s.cyc.item = .admitted item →
    let opens := stitchOpen s = true ∨ mayMismatch s = true
    (inTime s = true → opens → exec .releaseRequest s = .next { s with cyc := { s.cyc with item := .waiting item } }) ∧
    (grantable s = true → ¬opens → s.safety.safe = false → s.cyc.dev = .running →
      ∃ u r, exec .releaseRequest s = .next u ∧ u.cyc.record = some r ∧ r.source = 0 ∧
        r.state = (if s.host.hostLost ∧ s.host.lostPolicy = 1 then 1 else 0) ∧ r.trajectory = item.drop 0x20 ∧
        u.cyc.item = .granted ∧ u.cyc.lastResult = r.digest ∧ u.lat.fallbackT = 0 ∧ u.safety.primaryOk = true ∧
        (r.state = 0 → u.outp.toggling = true ∧ u.outp.degraded = false) ∧ (r.state = 1 → u.outp.degraded = true) ∧
        u.disp = s.disp ∧ u.mem = s.mem) ∧
    (grantable s = true → ¬opens → s.safety.safe = true →
      ∃ u, exec .releaseRequest s = .next u ∧ u.cyc.item = .refused ∧ u.cyc.record = none ∧ u.safety.primaryOk = true) ∧
    (grantable s = false → (inTime s = false ∨ ¬opens) → latigoEnded s = false →
      ∃ u, exec .releaseRequest s = .next u ∧ u.cyc = { s.cyc with item := .refused } ∧ { u with cyc := s.cyc, out := s.out } = s)

/-- R27, R242, R317, R320, R321, R159: a Latigo copy that still waits for its island or its token starts; with both running, the two
copies agree: with a plan for a refused primary the record is released DEGRADED with its trajectory; BLOCKED enters the
safe state; when they differ the pair is a counted MISMATCH; with no profile to compute with Latigo is unguarded. -/
def Obligations.LatigoCompletes : Prop :=
  ∀ (s : State), s.boot.inReset = false → inReplay s = false → s.lat.running = true →
    let a := planOf s ((latigoTiles s).getD 0 0)
    let b := planOf s ((latigoTiles s).getD 1 0)
    (copiesRun s = false → exec .latigoComplete s = .next (startCopies s)) ∧
    (copiesRun s = true → latigoGuarded s = false → exec .latigoComplete s = .fault (.unguarded "R159")) ∧
    (copiesRun s = true → latigoGuarded s = true →
      exec .latigoComplete s = .next (afterLatigo (endLatigo (if a = b then latigoMatch s a else latigoFails s offStitchMismatch))) ∧
      (endLatigo (latigoFails s offStitchMismatch)).lat.failed = true ∧
      (a = b → ∃ u, exec .latigoComplete s = .next u ∧ u = afterLatigo (endLatigo (latigoMatch s a)) ∧ u.lat.running = false ∧
        (s.cyc.item ≠ .refused ∨ s.cyc.record.isSome = true → s.cyc.deadlineDone = false ∨ s.cyc.record.isSome = true →
          u.cyc = s.cyc ∧ u.lat.traj = a.1.getD [] ∧ u.safety = s.safety) ∧
        (s.cyc.item = .refused → s.cyc.inCycle = true → s.cyc.record = none → s.safety.safe = false → s.cyc.dev = .running →
          s.lat.failed = false →
          (∀ traj, a.1 = some traj → ∃ r, u.cyc.record = some r ∧ r.state = 1 ∧ r.source = 1 ∧ r.trajectory = traj ∧
            u.outp.degraded = true ∧ u.lat.stopMode = (s.lat.stopMode || a.2)) ∧
          (a.1 = none → u.safety.safe = true ∧ u.safety.cause = s.safety.cause ||| 8 ∧ ∃ r, u.cyc.record = some r ∧ r.state = 2))))

/-! ### The vehicle link and the field port -/

/-- R435, R436, R439: the oldest queued frame leaves while the link is up and VL_TX counts it; a link that goes down discards
the queue, counted in VL_DROP; a received frame that is not gPTP's is counted and has no other effect. R443, R445, R446,
R324: both valid lines change level after 50,000 AO cycles while they toggle; a readback mismatch is the fault
FP_READBACK and a cause; filtered STOP is a cause, counted in STOP_EVENTS, while STOP_EN is set, and ceases to be one. -/
def Obligations.VehicleLinkAndFieldPortEventsComplete : Prop :=
  ∀ (s : State), s.boot.inReset = false →
    (∀ f rest, s.outp.txq = f :: rest → s.outp.linkUp = true → exec .vlFrameSend s = .next { bumpReg s 0x6028 with
      outp := { s.outp with txq := rest }
      out := .vlFrame (vlFrameBytes s f) :: s.out }) ∧
    exec (.vlLinkChange true) s = .next { s with outp := { s.outp with linkUp := true } } ∧
    exec (.vlLinkChange false) s = .next { addReg s 0x602C s.outp.txq.length with
      outp := { s.outp with linkUp := false, txq := [] } } ∧
    (∀ frame, s.outp.linkUp = true → fieldBe frame 12 2 ≠ 0x88F7 → exec (.vlRxFrame frame) s = .next (bumpReg s 0x6030)) ∧
    (∀ frame, s.outp.linkUp = false ∨ fieldBe frame 12 2 = 0x88F7 → exec (.vlRxFrame frame) s = .next s) ∧
    (s.outp.toggling = true → s.outp.toggleAt + 50000 ≤ s.ao → exec .fpToggle s = .next { s with outp := { s.outp with
      validA := !s.outp.validA, validB := !s.outp.validB, toggleAt := s.outp.toggleAt + 50000 } }) ∧
    (∀ line, line < 3 → ∃ u, exec (.fpReadback line) s = .next u ∧ u.outp.readbackBad = true ∧ u.safety.safe = true ∧
      u.safety.cause = s.safety.cause ||| 2048 ∧ u.safety.present = s.safety.present ||| 2048 ∧ u.safety.clearPending = false ∧
      (s.safety.staging.length < 32 → ∃ e ∈ u.safety.staging, e.source = fsFieldPort ∧ e.code = fFpReadback ∧ e.stamp = s.ao) ∧
      (s.safety.safe = false → u.outp.toggling = false ∧ u.outp.validA = false ∧ u.outp.validB = false ∧ u.outp.degraded = true)) ∧
    (s.outp.stopFilt = false → ∃ u, exec .stopInputActive s = .next u ∧ u.outp.stopFilt = true ∧ u.outp.stopRaw = true ∧
      (bitOf (regNat s 0x6040) 31 = false → { u with outp := s.outp } = s) ∧
      (bitOf (regNat s 0x6040) 31 = true → u.safety.safe = true ∧ u.safety.cause = s.safety.cause ||| 128 ∧
        u.safety.present = s.safety.present ||| 128 ∧ (Inv s → regOf u 0x604C = regOf s 0x604C + 1))) ∧
    (s.outp.stopFilt = true → exec .stopInputInactive s = .next { s with
      outp := { s.outp with stopFilt := false, stopRaw := false }
      safety := { s.safety with present := s.safety.present &&& ~~~0x80#16 } })

/-! ### Stitch and Rein -/

/-- R299, R302, R303: the first signature record of a pair is kept; the second resolves it: equal lengths and CRCs pass, a
deadline abort drops, a bad status or a difference fails with its counts. A Rein timer that has reached ten times the budget
aborts its instance with status REIN_OVERRUN; of one that has completed it is raised alone; one of a Latigo copy makes
the pair INCOMPLETE. How the fault's data are laid out: log entry 8. -/
def Obligations.SignaturesAndReinComplete : Prop :=
  ∀ (s : State), s.boot.inReset = false →
    (∀ cluster k r, s.safety.sigQ.findIdx? (fun p => decide (p.1 = cluster)) = some k → s.safety.sigQ[k]? = some (cluster, r) →
      let v := { s with safety := { s.safety with sigQ := listDel s.safety.sigQ k } }
      let found := s.safety.stitch.find? (fun e => decide (e.seq = r.seq ∧ e.taskId = r.taskId ∧ e.batch = r.batch))
      (found = none → exec (.signatureRecord cluster) s = .next v) ∧
      (∀ e, found = some e → e.first = none → exec (.signatureRecord cluster) s = .next { v with
        safety := { v.safety with stitch := s.safety.stitch.map fun x => if x = e then { e with first := some r } else x } }) ∧
      (∀ e f, found = some e → e.first = some f →
        let w := { v with safety := { v.safety with stitch := s.safety.stitch.filter (· ≠ e) } }
        (f.status = 0 → r.status = 0 → f.len = r.len → f.crc = r.crc →
          exec (.signatureRecord cluster) s = .next (judgeIfWaiting (bumpReg w offStitchPairs))) ∧
        ((f.status = 3 ∧ (r.status = 0 ∨ r.status = 3)) ∨ (f.status = 0 ∧ r.status = 3) →
          exec (.signatureRecord cluster) s = .next (judgeIfWaiting (bumpReg w offStitchDropped))) ∧
        (f.status = 0 → r.status = 0 → f.len ≠ r.len ∨ f.crc ≠ r.crc →
          ∃ u, exec (.signatureRecord cluster) s = .next u ∧ u = judgeIfWaiting (stitchFails w offStitchMismatch f r)) ∧
        (f.status = 1 ∨ f.status = 2 ∨ f.status = 4 ∨ r.status = 1 ∨ r.status = 2 ∨ r.status = 4 →
          ∃ u, exec (.signatureRecord cluster) s = .next u ∧ u = judgeIfWaiting (stitchFails w offStitchIncomplete f r)))) ∧
    (∀ tile ctx i, instOf s tile ctx = some i → i.finished = false → 10 * i.task.reinBudget ≤ i.acc → 0 < i.acc →
      ∃ u, exec (.reinExpiry tile ctx) s = .next u ∧ (∃ j, instOf u tile ctx = some j ∧ j.finished = true) ∧
        (∃ q, u.disp.compQ = s.disp.compQ ++ [(tile / 16, q)] ∧ q.taskId = i.task.taskId ∧ q.batch = i.batch ∧ q.status = 1) ∧
        u.cyc.facts = s.cyc.facts ++ [{ kind := 6, copy := i.copy, taskId := i.task.taskId, batch := i.batch, desc := 0xFFFF,
                                        valA := 1, valB := 0 }] ∧
        (s.safety.staging.length < 32 → ∃ e ∈ u.safety.staging, e.source = 512 + tile ∧ e.code = fReinOverrun ∧
          e.data = toLe 1 tile ++ toLe 1 ctx ++ toLe 2 i.task.taskId)) ∧
    (∀ tile ctx i, instOf s tile ctx = some i → i.finished = true → 10 * i.task.reinBudget + tileRate s tile ≤ i.acc → 0 < i.acc →
      exec (.reinExpiry tile ctx) s = .next (reinOverrun (setInst s { i with acc := 0 }) tile ctx i.task.taskId)) ∧
    (∀ tile ctx, instOf s tile ctx = none → s.lat.running = true → tile ∈ s.lat.copies → ctx < 2 →
      exec (.reinExpiry tile ctx) s = .next (latigoOverrun s tile ctx))

/-! ### World -/

/-- R140 to R144, R150, R137: a batch is copied to staging with its digest; a good one is built on the newest epoch, one that
is not, or for which slots run out, is rejected and leaves the epoch as it was; publishing makes the built epoch the newest
under the next number; a bad slot is repaired from its neighbour's bank. -/
def Obligations.WorldCommandsComplete : Prop :=
  ∀ (s : State), s.boot.inReset = false →
    (∀ b, nextBatch s = some b → b.host = true → stagedSize s + b.bytes.length ≤ 0x1000000 ∨ s.world.staged = [] →
      exec .worldBatchTake s = .next { s with world := { s.world with
        staged := s.world.staged ++ [{ b with digest := sha384 b.bytes }], hostTurn := false, hostQ := s.world.hostQ.erase b } }) ∧
    (∀ b, nextBatch s = some b → b.host = false → badRead s (fieldAt b.bytes 0 8) (fieldAt b.bytes 8 4) = false →
      stagedSize s + fieldAt b.bytes 8 4 ≤ 0x1000000 ∨ s.world.staged = [] →
      let bs := devRead s (fieldAt b.bytes 0 8) (fieldAt b.bytes 8 4)
      let v := correctRead s (fieldAt b.bytes 0 8) (fieldAt b.bytes 8 4)
      exec .worldBatchTake s = .next { v with world := { v.world with
        staged := v.world.staged ++ [{ b with bytes := bs, digest := sha384 bs }], hostTurn := true, taskQ := v.world.taskQ.tail } }) ∧
    (∀ b, nextBatch s = some b → b.host = false → badRead s (fieldAt b.bytes 0 8) (fieldAt b.bytes 8 4) = true →
      stagedSize s ≤ 0x1000000 ∨ s.world.staged = [] →
      let v := gddrUe s (firstBad s (fieldAt b.bytes 0 8) (fieldAt b.bytes 8 4))
      exec .worldBatchTake s = .next { v with world := { v.world with
        staged := v.world.staged ++ [{ b with bytes := [], digest := sha384 [] }], hostTurn := true, taskQ := v.world.taskQ.tail } }) ∧
    (∀ b, applyNext s = some b → s.world.built = none → ∃ u, exec .batchApply s = .next u ∧
      u.world.newest = s.world.newest ∧ u.world.table = s.world.table ∧ u.world.staged = s.world.staged.erase b ∧
      (batchOk b.bytes = false → u = rejectBatch s b stBadDelta ∧ u.world.built = none ∧ u.world.nextSlot = s.world.nextSlot) ∧
      (batchOk b.bytes = true → storeTree s (applyBatchTo (loadTree s (newestEpoch s)) b.bytes) = none →
        u = rejectBatch s b stWorldFull ∧ u.world.built = none) ∧
      (∀ n root f l, batchOk b.bytes = true →
        storeTree s (applyBatchTo (loadTree s (newestEpoch s)) b.bytes) = some (n, root, f, l) →
        ∃ x, u.world.built = some x ∧ x.batch = b ∧ x.epoch.root = root ∧ x.slots = l.map (·.1) ∧
          x.source = batchSource b.bytes ∧ u.world.nextSlot = f.next ∧ u.world.freed = f.freed)) ∧
    (∀ x i, s.world.built = some x → freeEntry s = some i →
      let num := nextEpochNum s.world.newest
      let chain := sha384 (newestChain s ++ x.batch.digest ++ toLe 4 num)
      ∃ u, exec .epochPublish s = .next u ∧ u.world.newest = num ∧ u.world.built = none ∧
        u.world.chains.find? (·.1 = num) = some (num, chain) ∧
        (s.world.table.any (fun p => decide (p.2.num = num)) = false →
          ∃ e, epochOf u num = some e ∧ e.root = x.epoch.root ∧ e.chain = chain ∧ e.origin = x.epoch.origin)) ∧
    (∀ n slot, (n, slot) ∈ s.world.badSlots → (n ^^^ 1, slot) ∉ s.world.badSlots →
      exec (.worldBankRepair n slot) s =
        .next { s with world := { s.world with badSlots := s.world.badSlots.filter (· ≠ (n, slot)) } })

/-! ### Linked packages -/

/-- R453 to R460: a frame that fails its checks is counted; one of another cycle is stale; a good one is kept for its collective,
or until the collective is issued, and forwarded; a collective that times out completes PARTIAL; a link that drops
counts the frame it cuts off. -/
def Obligations.CollectivesComplete : Prop :=
  ∀ (s : State), s.boot.inReset = false →
    (∀ port f, port < 2 → portUp s port = true →
      (collFrameOk s f = false → exec (.collFrameRx port f) s = .next (bumpReg s (offLkCnt port 2))) ∧
      (collFrameOk s f = true →
        let v := bumpReg s (offLkCnt port 1)
        (fieldBe f 18 4 ≠ s.cyc.seq.toNat → exec (.collFrameRx port f) s = .next (bumpReg v offLkStale)) ∧
        (fieldBe f 18 4 = s.cyc.seq.toNat →
          (forMe s f = false → exec (.collFrameRx port f) s = .next (forwardFrame v port f)) ∧
          (forMe s f = true → collOf s (fieldBe f 16 2) = none → exec (.collFrameRx port f) s =
            .next (forwardFrame { v with links := { v.links with early := s.links.early ++ [f] } } port f)) ∧
          (∀ c, forMe s f = true → collOf s (fieldBe f 16 2) = some c → fieldBe f 15 1 = c.kind → partFits c f = true →
            exec (.collFrameRx port f) s =
              .next (forwardFrame (keepPart v c (fieldBe f 22 1) (fieldBe f 34 4) (fieldBe f 38 4) (fhPayload f)) port f))))) ∧
    (∀ id c, collOf s id = some c → c.ended = false → c.submitted = false → c.startAo + 100 * c.timeout ≤ s.ao →
      ∃ u, exec (.collTimeout id) s = .next u ∧ u = completeColl s c 1 0 ∧ collOf u id = some { c with ended := true } ∧
        (Inv s → devRead u c.dst 64 = completionLine s c 1 0) ∧
        u.disp.tokens = (addToken s c.sigTarget c.sigCounter 1).disp.tokens) ∧
    (∀ port turn, port < 2 → ∃ u, exec (.lkLinkChange port turn) s = .next u ∧ (bitOf u.links.up port = true ↔ turn = .up) ∧
      (∀ k, k ≠ port → bitOf u.links.up k = bitOf s.links.up k) ∧
      { u with links := s.links } =
        (if turn = .cut ∧ bitOf s.links.up port = true then bumpReg s (0x7010 + 16 * port + 8) else s))

/-! ### Faults and the log -/

/-- R23, R323, R412, R308: a fault is staged in time order, and folded when the staging is full unless an entry of the same AO
cycle and of a higher source gives way, with its reactions; the collector drains its oldest entry, one an AO cycle, to
the log tail and to the log unit, whose full handshake queue drops it; a logged record takes LOG_SEQ, and TEST if its
source sets it. -/
def Obligations.FaultsAndLogComplete : Prop :=
  ∀ (s : State), s.boot.inReset = false →
    (∀ source code data, sourceFits s source code data = true →
      exec (.faultEvent source code data) s = .next (raiseFault (faultMemory s source code data) source code data) ∧
      (code ∉ [2, 3, 4, 7, 8, 15, 16, 18, 19, 20] → (code = 13 → 256 ≤ source) →
        let e : Staging := { source := source, code := code, stamp := s.ao, data := data.take 40, count := 1, folded := false }
        let y := s.safety
        (y.staging.length < 32 → exec (.faultEvent source code data) s =
          .next { s with safety := { y with staging := stageInsert e y.staging } }) ∧
        (32 ≤ y.staging.length → ∀ z, givesWay y e = some z → exec (.faultEvent source code data) s =
          .next { s with safety := foldEvent z { y with staging := stageInsert e y.staging.dropLast } }) ∧
        (32 ≤ y.staging.length → givesWay y e = none →
          (∀ l, foldNewest e y.staging = some l → exec (.faultEvent source code data) s = .next { s with
            safety := { y with staging := l, foldCount := min 65535 (y.foldCount + 1) } }) ∧
          (foldNewest e y.staging = none → exec (.faultEvent source code data) s = .next { s with
            safety := { y with folds := foldRegister e y.folds, foldCount := min 65535 (y.foldCount + 1) } }))) ∧
      (code ∈ [16, 18, 19, 20] → ∃ u, exec (.faultEvent source code data) s = .next u ∧ u.safety.safe = true)) ∧
    (∀ e rest, s.safety.staging = e :: rest → s.safety.drainAt ≠ some s.ao → ∃ u, exec .faultDrain s = .next u ∧
      u.safety.drainAt = some s.ao ∧ u.safety.staging = rest ++ s.safety.folds.take 1 ∧ u.safety.folds = s.safety.folds.drop 1 ∧
      (s.safety.handshake.length < 64 → u.safety.handshake = s.safety.handshake ++ [e] ∧ u.regs = s.regs) ∧
      (64 ≤ s.safety.handshake.length → u.safety.handshake = s.safety.handshake ∧ u.regs = (bumpReg s 0x38).regs) ∧
      (∃ b, u.safety.tail = (b :: s.safety.tail).take 64) ∧ u.safety.logSeq = s.safety.logSeq) ∧
    (s.safety.drainAt = some s.ao → exec .faultDrain s = .next s) ∧
    (∀ e rest flags code data, bitOf flags 2 = false → s.safety.handshake = e :: rest →
      ∃ u, exec (.logRecord code 0x20 flags data) s = .next u ∧
        u.safety.handshake = rest ∧ u.safety.tail = s.safety.tail ∧ u.safety.logSeq = s.safety.logSeq + 1) ∧
    (∀ source code flags data, mayLog s source = true ∨ (source = 0x20 ∧ bitOf flags 2 = true) →
      ∃ u, exec (.logRecord code source flags data) s = .next u ∧ u.safety.logSeq = s.safety.logSeq + 1 ∧
        u.safety.tail = (logBytes s.safety.logSeq.toNat code source (flags &&& 4) s.ao s.cyc.seq.toNat (data.take 40) ::
          s.safety.tail).take 64 ∧ unreported u = unreported s) ∧
    (∀ code flags data, ∃ u, exec (.logRecord code 0x21 flags data) s = .next u ∧
      u.safety.tail = (logBytes (Config.tailSeq s.disp.freeCtr) code 0x21 (2 + (flags &&& 4)) s.ao s.cyc.seq.toNat (data.take 40) ::
        s.safety.tail).take 64 ∧ u.safety.logSeq = s.safety.logSeq + 1 ∧ unreported u = unreported s)

/-! ### Self-test -/

/-- R308 to R316, R324: a slice starts when its gap allows it, and the rotation names the next one from then on; at its end its
units are tested but the busy ones; each wrong response is the fault SELFTEST_FAIL, counted, and a cause; a class passed
100 ms ago is late, a unit untested for 1,000 cycles starved, each once. -/
def Obligations.SelfTestCommandsComplete : Prop :=
  ∀ (s : State), s.boot.inReset = false →
    (sliceMay s = true → ∃ u, exec .selftestSlice s = .next u ∧
      u.safety.selfRun = some (s.safety.selfNext.1, s.safety.selfNext.2, s.ao) ∧
      u.safety.selfNext = nextSlice s.safety.selfNext.1 s.safety.selfNext.2 ∧
      u.safety.selfGap = (if s.cyc.dev = .running then s.safety.selfGap + 1 else s.safety.selfGap) ∧ { u with safety := s.safety } = s) ∧
    (∀ c k t, s.safety.selfRun = some (c, k, t) →
      (∃ u, exec (.sliceDone []) s = .next u ∧ u.safety.selfRun = none ∧ u.safety.selfNext = s.safety.selfNext ∧
        u.safety.rotations = (if c = 11 then s.safety.rotations + 1 else s.safety.rotations) ∧
        u.safety.safe = s.safety.safe ∧ u.safety.staging = s.safety.staging ∧
        (s.safety.selfBad = [] → u.safety.selfBad = [] ∧ bitOf u.safety.present.toNat 5 = false) ∧
        (∀ x, inSlice c k x = true → x ∉ busyUnits s c k → (c, x) ∉ u.safety.selfBad) ∧ (c = 8 → u.outp.readbackBad = false)) ∧
      (∀ bad, bad ≠ [] → failFits s c k bad = true → ∃ u, exec (.sliceDone bad) s = .next u ∧
        u.safety.selfRun = none ∧ u.safety.selfNext = s.safety.selfNext ∧ (∀ x ∈ bad, (c, x) ∈ u.safety.selfBad) ∧
        u.safety.safe = true ∧ u.safety.cause = s.safety.cause ||| 32 ∧
        ∃ x ∈ bad, u.safety.stFail = (c, x, min 65535 (s.safety.stFail.2.2 + bad.length))) ∧
      (∀ bad, failFits s c k bad = false → exec (.sliceDone bad) s = .next s)) ∧
    (∀ c t, 1 ≤ c → c ≤ 11 → c ∉ s.safety.selfLate → s.safety.selfPass.getD (c - 1) none = some t → t + 10000000 ≤ s.ao →
      ∃ u, exec (.selftestLate c) s = .next u ∧ u.safety.selfLate = c :: s.safety.selfLate ∧ u.cyc = s.cyc ∧
        u.safety.safe = s.safety.safe ∧ u.safety.staging = s.safety.staging) ∧
    (∀ c x, unitStarved s c x = true → ∃ u, exec (.selftestStarved c x) s = .next u ∧
      u.safety.stStarved = (c, x) ∧ u.safety.safe = s.safety.safe ∧
      (s.safety.staging.length < 32 → ∃ e ∈ u.safety.staging, e.source = fsSelftest ∧ e.code = fSelftestStarved ∧ e.stamp = s.ao ∧
        e.data = failData c x) ∧ unitStarved u c x = false)

/-! ### Memory upkeep and spare tiles -/

/-- R361, R362, R365, R366: a bank is ON 80 ns after its wake was asked for; a scrub counts a correction, and reports an
uncorrectable error as its memory's fault; a due channel is retrained for 1 µs while PMC runs. R50: a spare that CCC has begun to bring in
takes the name up with its store zero. -/
def Obligations.MemoryUpkeepAndSparesComplete : Prop :=
  ∀ (s : State), s.boot.inReset = false →
    (∀ tile bank, bank < 46 → wakeDone s (64 * tile + bank) = true → bankState s (64 * tile + bank) = 1 →
      ∃ u, exec (.bankWake tile bank) s = .next u ∧ u.plat.waking = s.plat.waking.filter (fun w => decide (w.1 ≠ 64 * tile + bank)) ∧
        (mapWf (fun _ => s.plat.bankBase) s.plat.banks = true → bankState u (64 * tile + bank) = 0 ∧
          ∀ k, k ≠ 64 * tile + bank → bankState u k = bankState s k) ∧ u.mem = s.mem ∧ u.disp = s.disp) ∧
    (∀ cls unit addr, scrubbed s cls unit addr = true →
      (∃ u, exec (.patrolScrub cls unit addr false) s = .next u ∧ u = corrected s cls ∧ u.disp = s.disp ∧ u.safety = s.safety ∧
        ((recentCe s cls).length ≠ 64 → u.mem = s.mem ∧ u.regs = (bumpReg s (0x3140 + 8 * cls)).regs)) ∧
      (∃ u, exec (.patrolScrub cls unit addr true) s = .next u ∧ u = scrubUe s cls unit addr ∧
        (cls = 2 → (unit - 544, addr / 8) ∈ u.world.badSlots ∧ u.mem = s.mem) ∧
        (cls = 6 → badRead u (8 * (addr / 8)) 8 = true ∧ u.mem = s.mem))) ∧
    (∀ c, retrainDue s c = true → ∃ u, exec (.gddr6Retrain c) s = .next u ∧ u.plat.retraining = some c ∧
      u.plat.retrainAt.find? (fun e => decide (e.1 = c)) = some (c, s.ao) ∧ { u with plat := s.plat } = s) ∧
    (∀ c t, (s.plat.spares.getD c .reset).begun = some t → t / 16 = c → t < 256 → c < s.plat.spares.length →
      ∃ u, exec (.spareIn c) s = .next u ∧ (u.plat.spares.getD c .reset).st = 1 ∧ (u.plat.spares.getD c .reset).subst = t % 16 ∧
        (u.plat.spares.getD c .reset).begun = none ∧ (u.plat.spares.getD c .reset).power = 0 ∧ u.plat.mapEpoch = s.plat.mapEpoch + 1 ∧ slotOf u t = 16 ∧
        t ∉ u.disp.quarantined ∧ (Inv s → ∀ a, a < 0xC0000 → memGet u.mem (tileBase t + a) = 0) ∧ u.disp.running = s.disp.running)

/-! ### Boot, clock and temperature -/

/-- R28, R463, R485, R490 to R492: the boot stages follow each other up to READY, or end in FAILED after ROM; a lost reference clock is a cause until it
returns and takes the edge dies' links down; a sensor at 115 °C trips: every running island at 420 MHz, no raise, a cause,
until every sensor is below 105 °C. -/
def Obligations.BootClockAndThermalComplete : Prop :=
  ∀ (s : State), s.boot.inReset = false →
    (s.boot.stage = 1 → ∃ u, exec .romStageDone s = .next u ∧ (u.boot.stage = 2 ∨ u.boot.stage = 15) ∧
      { unreported u with boot := { u.boot with stage := 1 } } = unreported s) ∧
    (s.boot.stage = 4 → ∃ u, exec .gddr6TrainingDone s = .next u ∧ u.boot.stage = 5 ∧ u.plat.gddrTrained = true ∧ u.mem = s.mem ∧
      { u.boot with stage := 4 } = s.boot) ∧
    (s.boot.stage = 6 → s.safety.selfRun = none →
      (∃ u, exec (.bootSelftestDone []) s = .next u ∧ u.boot.stage = 7 ∧ u.plat = (spareBanksOff s).plat ∧
        1 ≤ u.safety.rotations) ∧
      (∀ n, n < clusterCount s → n < s.plat.spares.length → (s.plat.spares.getD n .reset).st = 0 →
        ∃ u, exec (.bootSelftestDone [(n, 16)]) s = .next u ∧ u.boot.stage = 7 ∧ (u.plat.spares.getD n .reset).st = 3 ∧
          (u.plat.spares.getD n .reset).power = 2) ∧
      (∀ n p, n < clusterCount s → p < 16 → n < s.plat.spares.length → (s.plat.spares.getD n .reset).st = 0 →
        ∃ u, exec (.bootSelftestDone [(n, p)]) s = .next u ∧ u.boot.stage = 7 ∧ slotOf u (16 * n + p) = 16 ∧
          u.plat.mapEpoch = s.plat.mapEpoch + 1)) ∧
    (s.plat.refclkOk = true → ∃ u, exec .refclkLoss s = .next u ∧ u.plat.refclkOk = false ∧ u.safety.safe = true ∧
      u.safety.cause = s.safety.cause ||| 1024 ∧ u.safety.present = s.safety.present ||| 1024 ∧ u.outp.linkUp = false ∧
      u.outp.txq = [] ∧ u.ing.linkUp = [] ∧ u.links.up = 0) ∧
    (s.plat.refclkOk = false → exec .refclkReturn s = .next { s with
      plat := { s.plat with refclkOk := true }
      safety := { s.safety with present := s.safety.present &&& ~~~0x400#16 } }) ∧
    (∀ k t, s.disp.trip = false → sensorPresent s k = true → 1840 ≤ t.toInt → ∃ u, exec (.thermalTrip k t) s = .next u ∧
      u.disp.trip = true ∧ u.disp.islands = s.disp.islands.map (fun i => { i with opp := min 1 i.opp }) ∧ u.safety.safe = true ∧
      u.safety.cause = s.safety.cause ||| 512 ∧ u.plat.temps = s.plat.temps.set k t ∧
      (∀ w ∈ u.disp.waiters, ¬(w.1 = 4 ∧ 16 ≤ w.2))) ∧
    (∀ temps, allCool temps = true → s.disp.trip = true → exec (.thermalTripEnd temps) s = .next { s with
      plat := { s.plat with temps := temps }
      disp := { s.disp with trip := false }
      safety := { s.safety with present := s.safety.present &&& ~~~0x200#16 } })
end

