-- ==== Sys2Proof/Laws/Latch.lean ====
section
/-! SUPPORT. The safe-state latch, once set, stays set through every function of the machine but the few that end the
safe state (R327, R328) or reset the dies (R489): `f_latched`. -/

set_option linter.unusedSimpArgs false
set_option linter.unusedTactic false
set_option linter.unreachableTactic false
set_option linter.unnecessarySeqFocus false

namespace Sys2Proof.Machine

def LatchedR : Result → Prop
  | .next t => Latched t
  | _ => True
def LatchedE {ε : Type} : Except ε State → Prop
  | .ok t => Latched t
  | .error _ => True
def LatchedO : Option State → Prop
  | some t => Latched t
  | none => True

@[simp] theorem latchedR_next {t} : LatchedR (.next t) ↔ Latched t := Iff.rfl

@[simp] theorem latchedR_fault {r} : LatchedR (.fault r) := trivial

@[simp] theorem latchedR_refused {r} : LatchedR (.refused r) := trivial

@[simp] theorem latchedE_ok {ε t} : LatchedE (ε := ε) (.ok t) ↔ Latched t := Iff.rfl

@[simp] theorem latchedE_error {ε} {r : ε} : LatchedE (.error r) := trivial

@[simp] theorem latchedO_some {t} : LatchedO (some t) ↔ Latched t := Iff.rfl

@[simp] theorem latchedO_none : LatchedO none := trivial

@[simp] theorem latched_mk {a1 a2 a3 a4 a5 a6 a7 a8 a9 a10 a11 a12 a13 a14 a15 a16 a17 a18 a19 a20 safety a22 a23 a24} :
    Latched (State.mk a1 a2 a3 a4 a5 a6 a7 a8 a9 a10 a11 a12 a13 a14 a15 a16 a17 a18 a19 a20 safety a22 a23 a24) ↔ safety.safe = true := Iff.rfl

@[simp] theorem Latched.safe' {s} (h : Latched s) : s.safety.safe = true := h

@[simp] theorem foldl_latched {β : Type} (f : State → β → State)
    (h : ∀ s x, Latched s → Latched (f s x)) (l : List β) (s : State) (hs : Latched s) : Latched (l.foldl f s) := by
  induction l generalizing s with
  | nil => exact hs
  | cons x l ih => exact ih _ (h s x hs)

theorem bindE_latched {ε} {a : Except ε State} {f : State → Except ε State} (h : LatchedE a)
    (hf : ∀ t, Latched t → LatchedE (f t)) : LatchedE (a.bind f) := by
  cases a with
  | ok t => exact hf t h
  | error e => trivial

theorem bindE_latched' {ε} {a : Except ε State} {f : State → Except ε State} (h : LatchedE a)
    (hf : ∀ t, Latched t → LatchedE (f t)) : LatchedE (a >>= f) := bindE_latched h hf

theorem mapE_latched {ε} {a : Except ε State} {f : State → State} (h : LatchedE a)
    (hf : ∀ t, Latched t → Latched (f t)) : LatchedE (a.map f) := by
  cases a with
  | ok t => exact hf t h
  | error e => trivial

theorem foldl_latchedE {ε β} (f : Except ε State → β → Except ε State)
    (h : ∀ a x, LatchedE a → LatchedE (f a x)) (l : List β) (a : Except ε State) (ha : LatchedE a) :
    LatchedE (l.foldl f a) := by
  induction l generalizing a with
  | nil => exact ha
  | cons x l ih => exact ih _ (h a x ha)

theorem foldlM_latchedE {ε β} (f : State → β → Except ε State)
    (h : ∀ s x, Latched s → LatchedE (f s x)) (l : List β) (s : State)
    (hp : Latched s) : LatchedE (l.foldlM f s) := by
  induction l generalizing s with
  | nil => exact hp
  | cons x l ih => exact bindE_latched' (h s x hp) fun t h1 => ih t h1

theorem foldlM_latchedO {β} (f : State → β → Option State)
    (h : ∀ s x, Latched s → LatchedO (f s x)) (l : List β) (s : State)
    (hp : Latched s) : LatchedO (l.foldlM f s) := by
  induction l generalizing s with
  | nil => exact hp
  | cons x l ih =>
    have := h s x hp
    simp only [List.foldlM_cons]
    cases hx : f s x with
    | none => trivial
    | some t => rw [hx] at this; exact ih t this

theorem foldl_latched2 {β γ : Type} (f : State × γ → β → State × γ)
    (h : ∀ s x, Latched s.1 → Latched (f s x).1) (l : List β) (s : State × γ) (hs : Latched s.1) :
    Latched (l.foldl f s).1 := by
  induction l generalizing s with
  | nil => exact hs
  | cons x l ih => exact ih _ (h s x hs)

@[simp] theorem onlyIf_latched {c} {s t : State} (h : Latched s) (h3 : Latched t) : LatchedR (onlyIf s c t) := by
  unfold onlyIf; split <;> simp [*]

@[simp] theorem ofAttempt_latched {a} (h : LatchedE a) : LatchedR (ofAttempt a) := by
  unfold ofAttempt; split <;> simp_all

@[simp] theorem ite_latched (c : Prop) [Decidable c] (a b : State) :
    Latched (if c then a else b) ↔ if c then Latched a else Latched b := by split <;> rfl

@[simp] theorem ite_latchedR (c : Prop) [Decidable c] (a b : Result) :
    LatchedR (if c then a else b) ↔ if c then LatchedR a else LatchedR b := by split <;> rfl

@[simp] theorem ite_latchedE {ε} (c : Prop) [Decidable c] (a b : Except ε State) :
    LatchedE (if c then a else b) ↔ if c then LatchedE a else LatchedE b := by split <;> rfl

@[simp] theorem ite_latchedO (c : Prop) [Decidable c] (a b : Option State) :
    LatchedO (if c then a else b) ↔ if c then LatchedO a else LatchedO b := by split <;> rfl

@[simp] theorem setReg_latched (s : State) (a1 : Nat) (a2 : Word) (h : Latched s) : Latched (setReg s a1 a2) := by
  unfold setReg; simp (maxDischargeDepth := 30) [*]

@[simp] theorem bumpReg_latched (s : State) (a1 : Nat) (h : Latched s) : Latched (bumpReg s a1) := by
  unfold bumpReg; simp (maxDischargeDepth := 30) [*]

@[simp] theorem addReg_latched (s : State) (a1 : Nat) (a2 : Nat) (h : Latched s) : Latched (addReg s a1 a2) := by
  unfold addReg; simp (maxDischargeDepth := 30) [*]

@[simp] theorem ringSend_latched (s : State) (a1 : Nat) (a2 : Byte) (a3 : Nat) (a4 : Nat) (a5 : Bytes)
    (h : Latched s) :
    Latched (ringSend s a1 a2 a3 a4 a5) := by
  unfold ringSend; simp (maxDischargeDepth := 30) [*]

@[simp] theorem replyInfo_latched (s : State) (a1 : Msg) (a2 : Nat) (a3 : Nat) (a4 : Bytes) (h : Latched s) :
    Latched (replyInfo s a1 a2 a3 a4) := by
  unfold replyInfo; simp (maxDischargeDepth := 30) [*]

@[simp] theorem reply_latched (s : State) (a1 : Msg) (a2 : Nat) (h : Latched s) : Latched (reply s a1 a2) := by
  unfold reply; simp (maxDischargeDepth := 30) [*]

@[simp] theorem tailPush_latched (s : State) (a1 : Bytes) (h : Latched s) : Latched (tailPush s a1) := by
  unfold tailPush; simp (maxDischargeDepth := 30) [*]

@[simp] theorem logTake_latched (s : State) (a1 : Nat) (a2 : Nat) (a3 : Nat) (a4 : Nat) (a5 : Bytes)
    (a6 : Bool) (h : Latched s) :
    Latched (logTake s a1 a2 a3 a4 a5 a6) := by
  unfold logTake; simp (maxDischargeDepth := 30) [*]

@[simp] theorem logNow_latched (s : State) (a1 : Nat) (a2 : Nat) (a3 : Bytes) (h : Latched s) :
    Latched (logNow s a1 a2 a3) := by
  unfold logNow; simp (maxDischargeDepth := 30) [*]

@[simp] theorem sendEvent_latched (s : State) (a1 : Nat) (a2 : Bytes) (h : Latched s) :
    Latched (sendEvent s a1 a2) := by
  unfold sendEvent; try simp only []
  (repeat' split) <;> simp_all (maxDischargeDepth := 30)

@[simp] theorem tickFree_latched (s : State) (h : Latched s) : Latched (tickFree s) := by
  unfold tickFree; simp (maxDischargeDepth := 30) [*]

@[simp] theorem sendOpenEvent_latched (s : State) (a1 : Nat) (h : Latched s) : Latched (sendOpenEvent s a1) := by
  unfold sendOpenEvent; simp (maxDischargeDepth := 30) [*]

@[simp] theorem replyBadArg_latched (s : State) (a1 : Msg) (a2 : Nat) (h : Latched s) :
    Latched (replyBadArg s a1 a2) := by
  unfold replyBadArg; simp (maxDischargeDepth := 30) [*]

@[simp] theorem replyData_latched (s : State) (a1 : Msg) (a2 : Bytes) (h : Latched s) :
    Latched (replyData s a1 a2) := by
  unfold replyData; simp (maxDischargeDepth := 30) [*]

@[simp] theorem devWrite_latched (s : State) (a1 : Nat) (a2 : Bytes) (h : Latched s) :
    Latched (devWrite s a1 a2) := by
  unfold devWrite; simp (maxDischargeDepth := 30) [*]

@[simp] theorem devScramble_latched (s : State) (a1 : Nat) (a2 : Nat) (h : Latched s) :
    Latched (devScramble s a1 a2) := by
  unfold devScramble; simp (maxDischargeDepth := 30) [*]

@[simp] theorem setOwnerQueue_latched (s : State) (a1 : Owner) (a2 : List Msg) (h : Latched s) :
    Latched (setOwnerQueue s a1 a2) := by
  unfold setOwnerQueue; simp (maxDischargeDepth := 30) [*]

@[simp] theorem sendTrans_latched (s : State) (a1 : Out) (h : Latched s) : Latched (sendTrans s a1) := by
  unfold sendTrans; simp (maxDischargeDepth := 30) [*]

@[simp] theorem logIslandAs_latched (s : State) (a1 : Nat) (a2 : Nat) (a3 : Bytes) (h : Latched s) :
    Latched (logIslandAs s a1 a2 a3) := by
  unfold logIslandAs; simp (maxDischargeDepth := 30) [*]

@[simp] theorem logIsland_latched (s : State) (a1 : Nat) (a2 : Bytes) (h : Latched s) :
    Latched (logIsland s a1 a2) := by
  unfold logIsland; simp (maxDischargeDepth := 30) [*]

@[simp] theorem foldEvent_safe (e : Staging) (y : Safety) : (foldEvent e y).safe = y.safe := by
  unfold foldEvent; simp only []; split <;> rfl

@[simp] theorem stageFault_latched (s : State) (source code : Nat) (data : Bytes) (h : Latched s) :
    Latched (stageFault s source code data) := by
  unfold stageFault; simp only []; (repeat' split) <;> simp [h]

@[simp] theorem withFront_latched (s : State) (o : Owner) (isIt : Msg → Bool) (f : Msg → State → Result)
    (h : Latched s) (hf : ∀ m t, Latched t → LatchedR (f m t)) : LatchedR (withFront s o isIt f) := by
  unfold withFront
  split
  · split
    · exact hf _ _ (by simp [h])
    · simp [*]
  · simp [*]

@[simp] theorem traceRec_latched (s : State) (a1 : Nat) (a2 : Nat) (a3 : Nat) (a4 : Nat) (a5 : Nat) (h : Latched s) :
    Latched (traceRec s a1 a2 a3 a4 a5) := by
  unfold traceRec; simp (maxDischargeDepth := 30) [*]

@[simp] theorem tileWrite_latched (s : State) (a1 : Nat) (a2 : Nat) (a3 : Bytes) (h : Latched s) :
    Latched (tileWrite s a1 a2 a3) := by
  unfold tileWrite; simp (maxDischargeDepth := 30) [*]

@[simp] theorem eccReport_latched (s : State) (a1 : Nat) (a2 : Nat) (a3 : Nat) (h : Latched s) :
    Latched (eccReport s a1 a2 a3) := by
  unfold eccReport; simp (maxDischargeDepth := 30) [*]

@[simp] theorem replyPiece_latched (s : State) (a1 : Msg) (a2 : Nat) (a3 : Bytes) (h : Latched s) :
    Latched (replyPiece s a1 a2 a3) := by
  unfold replyPiece; simp (maxDischargeDepth := 30) [*]

@[simp] theorem linesStatic_latched (s : State) (h : Latched s) : Latched (linesStatic s) := by
  unfold linesStatic; simp (maxDischargeDepth := 30) [*]

@[simp] theorem ceaseCause_latched (s : State) (a1 : Nat) (h : Latched s) : Latched (ceaseCause s a1) := by
  unfold ceaseCause; simp (maxDischargeDepth := 30) [*]

@[simp] theorem unholdHost_latched (s : State) (h : Latched s) : Latched (unholdHost s) := by
  unfold unholdHost; simp (maxDischargeDepth := 30) [*]

@[simp] theorem stopNow_latched (s : State) (h : Latched s) : Latched (stopNow s) := by
  unfold stopNow; simp (maxDischargeDepth := 30) [*]

@[simp] theorem earlyView_latched (s : State) (a1 : Nat) (h : Latched s) : Latched (earlyView s a1) := by
  unfold earlyView; simp (maxDischargeDepth := 30) [*]

@[simp] theorem releaseLines_latched (s : State) (a1 : Nat) (h : Latched s) : Latched (releaseLines s a1) := by
  unfold releaseLines; simp (maxDischargeDepth := 30) [*]

@[simp] theorem vlHandOver_latched (s : State) (a1 : Bytes) (h : Latched s) : Latched (vlHandOver s a1) := by
  unfold vlHandOver; simp (maxDischargeDepth := 30) [*]

@[simp] theorem releaseRecord_latched (s : State) (a1 : Released) (h : Latched s) : Latched (releaseRecord s a1) := by
  unfold releaseRecord; simp (maxDischargeDepth := 30) [*]

@[simp] theorem entryRecord_latched (s : State) (h : Latched s) : Latched (entryRecord s) := by
  unfold entryRecord; try simp only []
  split <;> simp (maxDischargeDepth := 30) [*]

@[simp] theorem enterSafe_latched (s : State) (n : Nat) (h : Latched s) : Latched (enterSafe s n) := by
  unfold enterSafe; simp only []; split <;> simp [h]

@[simp] theorem worldFullRaised_latched (s : State) (h : Latched s) : Latched (worldFullRaised s) := by
  unfold worldFullRaised; simp (maxDischargeDepth := 30) [*]

@[simp] theorem faultReact_latched (s : State) (a1 : Nat) (h : Latched s) : Latched (faultReact s a1) := by
  unfold faultReact; simp (maxDischargeDepth := 30) [*]

@[simp] theorem raiseFault_latched (s : State) (a1 : Nat) (a2 : Nat) (a3 : Bytes) (h : Latched s) :
    Latched (raiseFault s a1 a2 a3) := by
  unfold raiseFault; simp (maxDischargeDepth := 30) [*]

@[simp] theorem raiseOpenFault_latched (s : State) (a1 : Nat) (a2 : Nat) (h : Latched s) :
    Latched (raiseOpenFault s a1 a2) := by
  unfold raiseOpenFault; simp (maxDischargeDepth := 30) [*]

@[simp] theorem setSpare_latched (s : State) (a1 : Nat) (a2 : Spare → Spare) (h : Latched s) :
    Latched (setSpare s a1 a2) := by
  unfold setSpare; simp (maxDischargeDepth := 30) [*]

@[simp] theorem pendSubst_latched (s : State) (a1 : Nat) (h : Latched s) : Latched (pendSubst s a1) := by
  unfold pendSubst; simp (maxDischargeDepth := 30) [*]

@[simp] theorem countUe_latched (s : State) (a1 : Nat) (h : Latched s) : Latched (countUe s a1) := by
  unfold countUe; simp (maxDischargeDepth := 30) [*]

@[simp] theorem tileWordLost_latched (s : State) (a1 : Nat) (a2 : Nat) (h : Latched s) :
    Latched (tileWordLost s a1 a2) := by
  unfold tileWordLost; simp (maxDischargeDepth := 30) [*]

@[simp] theorem corrected_latched (s : State) (a1 : Nat) (h : Latched s) : Latched (corrected s a1) := by
  unfold corrected; simp (maxDischargeDepth := 30) [*]

@[simp] theorem tileStoreUe_latched (s : State) (a1 : Nat) (a2 : Nat) (h : Latched s) :
    Latched (tileStoreUe s a1 a2) := by
  unfold tileStoreUe; simp (maxDischargeDepth := 30) [*]

@[simp] theorem correctRead_latched (s : State) (a1 : Nat) (a2 : Nat) (h : Latched s) :
    Latched (correctRead s a1 a2) := by
  unfold correctRead; try simp only []
  (repeat' split) <;> simp_all (maxDischargeDepth := 30)

@[simp] theorem bankUe_latched (s : State) (a1 : Nat) (a2 : Nat) (h : Latched s) : Latched (bankUe s a1 a2) := by
  unfold bankUe; simp (maxDischargeDepth := 30) [*]

@[simp] theorem wakeBanks_latched (s : State) (a1 : Nat) (a2 : Nat) (a3 : Nat) (h : Latched s) :
    Latched (wakeBanks s a1 a2 a3) := by
  unfold wakeBanks; simp (maxDischargeDepth := 30) [*]

@[simp] theorem gddrUe_latched (s : State) (a1 : Nat) (h : Latched s) : Latched (gddrUe s a1) := by
  unfold gddrUe; simp (maxDischargeDepth := 30) [*]

@[simp] theorem mailboxUe_latched (s : State) (a1 : Nat) (h : Latched s) : Latched (mailboxUe s a1) := by
  unfold mailboxUe; simp (maxDischargeDepth := 30) [*]

@[simp] theorem devUe_latched (s : State) (a1 : Nat) (h : Latched s) : Latched (devUe s a1) := by
  unfold devUe; simp (maxDischargeDepth := 30) [*]

@[simp] theorem setBank_latched (s : State) (a1 : Nat) (a2 : Nat) (h : Latched s) : Latched (setBank s a1 a2) := by
  unfold setBank; simp (maxDischargeDepth := 30) [*]

@[simp] theorem vlLink_latched (s : State) (b : Bool) (h : Latched s) : Latched (vlLink s b) := by
  unfold vlLink; simp only []; split <;> simp [h]

@[simp] theorem execVlLinkChange_latched (a0 : Bool) (s : State) (h : Latched s) :
    LatchedR (execVlLinkChange a0 s) := by
  unfold execVlLinkChange; simp (maxDischargeDepth := 30) [*]

@[simp] theorem execVlRxFrame_latched (a0 : Bytes) (s : State) (h : Latched s) : LatchedR (execVlRxFrame a0 s) := by
  unfold execVlRxFrame; simp (maxDischargeDepth := 30) [*]

@[simp] theorem execVlFrameSend_latched (s : State) (h : Latched s) : LatchedR (execVlFrameSend s) := by
  unfold execVlFrameSend; simp only []; split
  · simp [h]
  · exact onlyIf_latched h (by simp [h])

@[simp] theorem drainWhere_latched (s : State) (a1 : Channel → RegSet → Bool) (h : Latched s) :
    Latched (drainWhere s a1) := by
  unfold drainWhere; simp (maxDischargeDepth := 30) [*]

@[simp] theorem drainQueue_latched (s : State) (a1 : Nat) (h : Latched s) : Latched (drainQueue s a1) := by
  unfold drainQueue; simp (maxDischargeDepth := 30) [*]

@[simp] theorem frameFlagged_latched (s : State) (a1 : Nat) (a2 : Nat) (a3 : Nat) (a4 : Nat) (h : Latched s) :
    Latched (frameFlagged s a1 a2 a3 a4) := by
  unfold frameFlagged; simp (maxDischargeDepth := 30) [*]

@[simp] theorem setQueue_latched (s : State) (a1 : Nat) (a2 : Queue → Queue) (h : Latched s) :
    Latched (setQueue s a1 a2) := by
  unfold setQueue; simp (maxDischargeDepth := 30) [*]

@[simp] theorem acceptFrame_latched (s : State) (a1 : Nat) (a2 : RxFrame) (a3 : List RxFrame) (h : Latched s) :
    Latched (acceptFrame s a1 a2 a3) := by
  unfold acceptFrame; simp (maxDischargeDepth := 30) [*]

@[simp] theorem flushCpls_latched (l : List HeldWra) (s : State) (hs : Latched s) : Latched (flushCpls l s) := by
  induction l generalizing s with
  | nil => unfold flushCpls; simp [hs]
  | cons h t ih =>
    unfold flushCpls; split
    · exact ih _ (sendTrans_latched _ _ (by simp [hs]))
    · simp [hs]

@[simp] theorem answerWra_latched (s : State) (a1 : HeldWra) (h : Latched s) : Latched (answerWra s a1) := by
  unfold answerWra; simp (maxDischargeDepth := 30) [*]

@[simp] theorem bufferFrame_latched (s : State) (a1 : Nat) (a2 : Option RxFrame) (h : Latched s) :
    Latched (bufferFrame s a1 a2) := by
  unfold bufferFrame; try simp only []
  split <;> simp (maxDischargeDepth := 30) [*]

@[simp] theorem closeBurst_latched (s : State) (a1 : Nat) (a2 : Bytes) (a3 : Bool) (h : Latched s) :
    Latched (closeBurst s a1 a2 a3).1 := by
  unfold closeBurst; try simp only []
  (repeat' split) <;> simp (maxDischargeDepth := 30) [*]

@[simp] theorem setBurst_latched (s : State) (a1 : Nat) (a2 : Bytes) (a3 : Bool) (h : Latched s) :
    Latched (setBurst s a1 a2 a3) := by
  unfold setBurst; simp (maxDischargeDepth := 30) [*]

@[simp] theorem hostWra_latched (s : State) (a1 : Nat) (a2 : Nat) (a3 : Nat) (a4 : Bytes) (h : Latched s) :
    Latched (hostWra s a1 a2 a3 a4) := by
  unfold hostWra; simp (maxDischargeDepth := 30) [*]

@[simp] theorem undoWra_latched (s : State) (a1 : HeldWra) (h : Latched s) : Latched (undoWra s a1) := by
  unfold undoWra; try simp only []
  (repeat' split) <;> simp (maxDischargeDepth := 30) [*]

@[simp] theorem releaseQueue_latched (s : State) (a1 : Nat) (h : Latched s) : Latched (releaseQueue s a1) := by
  unfold releaseQueue; simp (maxDischargeDepth := 30) [*]

@[simp] theorem noteRx_latched (s : State) (a1 : Nat) (h : Latched s) : Latched (noteRx s a1) := by
  unfold noteRx; simp (maxDischargeDepth := 30) [*]

@[simp] theorem execFrameReceived_latched (a0 : Nat) (a1 : Bytes) (a2 : Nat) (s : State) (h : Latched s) :
    LatchedR (execFrameReceived a0 a1 a2 s) := by
  unfold execFrameReceived; simp (maxDischargeDepth := 30) [*]

@[simp] theorem execGptpSyncTx_latched (a0 : Nat) (s : State) (h : Latched s) : LatchedR (execGptpSyncTx a0 s) := by
  unfold execGptpSyncTx; simp (maxDischargeDepth := 30) [*]

@[simp] theorem releaseHeldCpls_latched (s : State) (a1 : Nat) (h : Latched s) : Latched (releaseHeldCpls s a1) := by
  unfold releaseHeldCpls; simp (maxDischargeDepth := 30) [*]

@[simp] theorem execSensorLinkChange_latched (a0 : Nat) (a1 : Bool) (s : State) (h : Latched s) :
    LatchedR (execSensorLinkChange a0 a1 s) := by
  unfold execSensorLinkChange; simp (maxDischargeDepth := 30) [*]

@[simp] theorem dropTransactions_latched (s : State) (h : Latched s) : Latched (dropTransactions s) := by
  have k : Latched (s.host.wraHeld.reverse.foldl undoWra s) := foldl_latched _ (fun s x h => undoWra_latched _ _ h) _ _ h
  exact k

@[simp] theorem execFrameAccept_latched (a0 : Nat) (s : State) (h : Latched s) : LatchedR (execFrameAccept a0 s) := by
  unfold execFrameAccept; try simp only []
  split <;> simp (maxDischargeDepth := 30) [*]

@[simp] theorem execHostQueueWra_latched (a0 : Nat) (a1 : Nat) (a2 : Nat) (a3 : Bytes) (s : State) (h : Latched s) :
    LatchedR (execHostQueueWra a0 a1 a2 a3 s) := by
  unfold execHostQueueWra; simp (maxDischargeDepth := 30) [*]

@[simp] theorem execGptpSyncTimeout_latched (s : State) (h : Latched s) : LatchedR (execGptpSyncTimeout s) := by
  unfold execGptpSyncTimeout; simp (maxDischargeDepth := 30) [*]

@[simp] theorem execGptpSyncRx_latched (a0 : Nat) (a1 : ℤ) (s : State) (h : Latched s) :
    LatchedR (execGptpSyncRx a0 a1 s) := by
  unfold execGptpSyncRx; simp (maxDischargeDepth := 30) [*]

@[simp] theorem execFrameHashDone_latched (a0 : Nat) (s : State) (h : Latched s) :
    LatchedR (execFrameHashDone a0 s) := by
  unfold execFrameHashDone; simp (maxDischargeDepth := 30) [*]

@[simp] theorem execQueueReadTimeout_latched (a0 : Nat) (s : State) (h : Latched s) :
    LatchedR (execQueueReadTimeout a0 s) := by
  unfold execQueueReadTimeout; simp (maxDischargeDepth := 30) [*]

@[simp] theorem setChan_latched (s : State) (a1 : Channel) (h : Latched s) : Latched (setChan s a1) := by
  unfold setChan; simp (maxDischargeDepth := 30) [*]

@[simp] theorem stopReading_latched (s : State) (a1 : Nat) (a2 : RegSet) (h : Latched s) :
    Latched (stopReading s a1 a2) := by
  unfold stopReading; simp (maxDischargeDepth := 30) [*]

@[simp] theorem endSet_latched (s : State) (a1 : Nat) (a2 : Nat) (a3 : Nat) (h : Latched s) :
    Latched (endSet s a1 a2 a3) := by
  unfold endSet; try simp only []
  split <;> simp (maxDischargeDepth := 30) [*]

@[simp] theorem endWaiting_latched (s : State) (a1 : Nat) (a2 : Nat) (h : Latched s) :
    Latched (endWaiting s a1 a2) := by
  unfold endWaiting; simp (maxDischargeDepth := 30) [*]

@[simp] theorem endBoth_latched (s : State) (a1 : Nat) (a2 : Nat) (a3 : Nat) (h : Latched s) :
    Latched (endBoth s a1 a2 a3) := by
  unfold endBoth; try simp only []
  split <;> simp (maxDischargeDepth := 30) [*]

@[simp] theorem passWords_latched (s : State) (a1 : Nat) (a2 : Nat) (h : Latched s) :
    Latched (passWords s a1 a2) := by
  unfold passWords; simp (maxDischargeDepth := 30) [*]

@[simp] theorem advanceRead_latched (s : State) (a1 : RegSet) (a2 : Nat) (h : Latched s) :
    Latched (advanceRead s a1 a2) := by
  unfold advanceRead; simp (maxDischargeDepth := 30) [*]

@[simp] theorem landWords_latched (s : State) (a1 : RegSet) (a2 : List (Bytes × Nat)) (h : Latched s) :
    Latched (landWords s a1 a2) := by
  unfold landWords; simp (maxDischargeDepth := 30) [*]

@[simp] theorem landSides_latched (s : State) (a1 : Nat) (a2 : List (Bytes × Nat)) (h : Latched s) :
    Latched (landSides s a1 a2) := by
  unfold landSides; try simp only []
  (repeat' split) <;> simp (maxDischargeDepth := 30) [*]

@[simp] theorem cutTransfer_latched (s : State) (a1 : Nat) (a2 : Nat) (h : Latched s) :
    Latched (cutTransfer s a1 a2) := by
  unfold cutTransfer; try simp only []
  split <;> simp (maxDischargeDepth := 30) [*]

@[simp] theorem disarm_latched (s : State) (a1 : Nat) (h : Latched s) : Latched (disarm s a1) := by
  unfold disarm; try simp only []
  split <;> simp (maxDischargeDepth := 30) [*]

@[simp] theorem abortChannel_latched (a0 : Inst) (s : State) (a2 : Nat) (h : Latched s) :
    Latched (abortChannel a0 s a2) := by
  unfold abortChannel; try simp only []
  split <;> simp (maxDischargeDepth := 30) [*]

@[simp] theorem finishOk_latched (s : State) (a1 : Nat) (a2 : Nat) (h : Latched s) : LatchedE (finishOk s a1 a2) := by
  unfold finishOk; try simp only []
  split <;> simp (maxDischargeDepth := 30) [*]

@[simp] theorem abortSets_latched (s : State) (a1 : Inst) (h : Latched s) : Latched (abortSets s a1) := by
  unfold abortSets; try simp only []
  refine foldl_latched _ ?_ _ _ ?_; (intros; (repeat' split) <;> simp (maxDischargeDepth := 30) [*]); simp (maxDischargeDepth := 30) [*]

@[simp] theorem startQueue_latched (s : State) (a1 : Nat) (a2 : RegSet) (h : Latched s) :
    Latched (startQueue s a1 a2) := by
  unfold startQueue; simp (maxDischargeDepth := 30) [*]

@[simp] theorem addToken_latched (s : State) (a1 : Nat) (a2 : Nat) (a3 : Nat) (h : Latched s) :
    Latched (addToken s a1 a2 a3) := by
  unfold addToken; simp (maxDischargeDepth := 30) [*]

@[simp] theorem signalSet_latched (s : State) (a1 : RegSet) (h : Latched s) : Latched (signalSet s a1) := by
  unfold signalSet; simp (maxDischargeDepth := 30) [*]

@[simp] theorem completeSide_latched (s : State) (a1 : Nat) (a2 : List (Bytes × Nat)) (a3 : Bool) (h : Latched s) :
    LatchedE (completeSide s a1 a2 a3) := by
  unfold completeSide; try simp only []
  split <;> simp (maxDischargeDepth := 30) [*]

@[simp] theorem noteTimeout_latched (s : State) (a1 : Nat) (h : Latched s) : Latched (noteTimeout s a1) := by
  unfold noteTimeout; simp (maxDischargeDepth := 30) [*]

@[simp] theorem noteTimeouts_latched (s : State) (a1 : Nat) (a2 : Option Nat) (h : Latched s) :
    Latched (noteTimeouts s a1 a2) := by
  unfold noteTimeouts; try simp only []
  split <;> simp (maxDischargeDepth := 30) [*]

@[simp] theorem correctSource_latched (s : State) (a1 : Channel) (a2 : RegSet) (h : Latched s) :
    Latched (correctSource s a1 a2) := by
  unfold correctSource; try simp only []
  (repeat' split) <;> simp_all (maxDischargeDepth := 30)

@[simp] theorem sourceFault_latched (s : State) (a1 : RegSet) (a2 : Nat) (h : Latched s) :
    Latched (sourceFault s a1 a2) := by
  unfold sourceFault; simp (maxDischargeDepth := 30) [*]

@[simp] theorem stopAtLine_latched (s : State) (a1 : Nat) (a2 : Nat) (h : Latched s) :
    Latched (stopAtLine s a1 a2) := by
  unfold stopAtLine; try simp only []
  split <;> simp (maxDischargeDepth := 30) [*]

@[simp] theorem completeTransfer_latched (s : State) (key : Nat) (h : Latched s) :
    LatchedE (completeTransfer s key) := by
  unfold completeTransfer; simp only []
  split
  · simp [h]
  · split
    · simp [h]
    · have k := fun c r n => advanceRead_latched _ r n (correctSource_latched s c r h)
      split
      · exact completeSide_latched _ _ _ _ (k _ _ _)
      · exact bindE_latched (completeSide_latched _ _ _ _ (k _ _ _)) fun t ht => by simp [ht]

@[simp] theorem failReadback_latched (s : State) (a1 : Nat) (h : Latched s) : Latched (failReadback s a1) := by
  unfold failReadback; try simp only []
  split <;> simp (maxDischargeDepth := 30) [*]

@[simp] theorem execDmaComplete_latched (engine channel : Nat) (readbackOk : Bool) (s : State) (h : Latched s) :
    LatchedR (execDmaComplete engine channel readbackOk s) := by
  unfold execDmaComplete; simp only []
  split
  · simp [*]
  · split
    · simp [*]
    · split
      · simp [*]
      · exact ofAttempt_latched (by simp [*])

@[simp] theorem wakeTransfer_latched (s : State) (a1 : Channel) (a2 : RegSet) (h : Latched s) :
    Latched (wakeTransfer s a1 a2) := by
  unfold wakeTransfer; simp (maxDischargeDepth := 30) [*]

@[simp] theorem execQueueReset_latched (a0 : Nat) (s : State) (h : Latched s) : LatchedR (execQueueReset a0 s) := by
  unfold execQueueReset; try simp only []
  split <;> simp (maxDischargeDepth := 30) [*]

@[simp] theorem idleDecision_latched (s : State) (a1 : Nat) (h : Latched s) : Latched (idleDecision s a1) := by
  unfold idleDecision; simp (maxDischargeDepth := 30) [*]

@[simp] theorem wakeStarted_latched (s : State) (a1 : Nat) (h : Latched s) : Latched (wakeStarted s a1) := by
  unfold wakeStarted; try simp only []
  split <;> simp (maxDischargeDepth := 30) [*]

@[simp] theorem timeoutChain_latchedE (s : State) (key : Nat) (h : Latched s) : LatchedE (timeoutChain s key) := by
  unfold timeoutChain; simp only []
  split
  · simp [*]
  · exact mapE_latched (by simp [*]) (by intros; simp [*])

@[simp] theorem execDmaTimeout_latched (engine channel : Nat) (s : State) (h : Latched s) :
    LatchedR (execDmaTimeout engine channel s) := by
  unfold execDmaTimeout; simp only []
  split
  · simp [*]
  · split
    · exact ofAttempt_latched (mapE_latched (by simp [*]) (by intros; simp [*]))
    · simp [*]

@[simp] theorem execDmaErrEcc_latched (a0 : Nat) (a1 : Nat) (a2 : Nat) (s : State) (h : Latched s) :
    LatchedR (execDmaErrEcc a0 a1 a2 s) := by
  unfold execDmaErrEcc; simp (maxDischargeDepth := 30) [*]

@[simp] theorem startTransfer_latched (s : State) (a1 : Nat) (h : Latched s) : Latched (startTransfer s a1) := by
  unfold startTransfer; try simp only []
  (repeat' split) <;> simp (maxDischargeDepth := 30) [*]

@[simp] theorem serviceDecision_latched (s : State) (a1 : Nat) (a2 : Nat) (a3 : Nat) (h : Latched s) :
    Latched (serviceDecision s a1 a2 a3) := by
  unfold serviceDecision; simp (maxDischargeDepth := 30) [*]

@[simp] theorem execDmaTransferStart_latched (a0 : Nat) (s : State) (h : Latched s) :
    LatchedR (execDmaTransferStart a0 s) := by
  unfold execDmaTransferStart; try simp only []
  split <;> simp (maxDischargeDepth := 30) [*]

@[simp] theorem writeShadow_latched (s : State) (a1 : Nat) (a2 : RegSet) (a3 : Bool) (h : Latched s) :
    Latched (writeShadow s a1 a2 a3) := by
  unfold writeShadow; simp (maxDischargeDepth := 30) [*]

@[simp] theorem mapEpoch_latched (s : State) (a1 : Nat) (a2 : Epoch → Epoch) (h : Latched s) :
    Latched (mapEpoch s a1 a2) := by
  unfold mapEpoch; simp (maxDischargeDepth := 30) [*]

@[simp] theorem reapEpochs_latched (s : State) (h : Latched s) : Latched (reapEpochs s) := by
  unfold reapEpochs; simp (maxDischargeDepth := 30) [*]

@[simp] theorem dropHold_latched (s : State) (a1 : Nat) (h : Latched s) : Latched (dropHold s a1) := by
  unfold dropHold; simp (maxDischargeDepth := 30) [*]

@[simp] theorem holdEpoch_latched (s : State) (a1 : Nat) (h : Latched s) : Latched (holdEpoch s a1) := by
  unfold holdEpoch; simp (maxDischargeDepth := 30) [*]

@[simp] theorem mismatchRefuses_latched (s : State) (h : Latched s) : Latched (mismatchRefuses s) := by
  unfold mismatchRefuses; simp (maxDischargeDepth := 30) [*]

@[simp] theorem latigoDue_latched (s : State) (h : Latched s) : Latched (latigoDue s) := by
  unfold latigoDue; simp (maxDischargeDepth := 30) [*]

@[simp] theorem latigoIfDue_latched (s : State) (h : Latched s) : Latched (latigoIfDue s) := by
  unfold latigoIfDue; simp (maxDischargeDepth := 30) [*]

@[simp] theorem refuseItem_latched (s : State) (h : Latched s) : Latched (refuseItem s) := by
  unfold refuseItem; simp (maxDischargeDepth := 30) [*]

@[simp] theorem traceGrant_latched (s : State) (a1 : Bool) (h : Latched s) : Latched (traceGrant s a1) := by
  unfold traceGrant; simp (maxDischargeDepth := 30) [*]

@[simp] theorem judgeRelease_latched (s : State) (a1 : Bytes) (h : Latched s) : Latched (judgeRelease s a1) := by
  unfold judgeRelease; simp (maxDischargeDepth := 30) [*]

@[simp] theorem markMiss_latched (s : State) (h : Latched s) : Latched (markMiss s) := by
  unfold markMiss; simp (maxDischargeDepth := 30) [*]

@[simp] theorem execReleaseRequest_latched (s : State) (h : Latched s) : LatchedR (execReleaseRequest s) := by
  unfold execReleaseRequest; try simp only []
  split <;> simp (maxDischargeDepth := 30) [*]

@[simp] theorem takePlanItem_latched (s : State) (a1 : Bytes) (h : Latched s) : Latched (takePlanItem s a1) := by
  unfold takePlanItem; simp (maxDischargeDepth := 30) [*]

@[simp] theorem judgeIfWaiting_latched (s : State) (h : Latched s) : Latched (judgeIfWaiting s) := by
  unfold judgeIfWaiting; try simp only []
  split <;> simp (maxDischargeDepth := 30) [*]

@[simp] theorem afterLatigo_latched (s : State) (h : Latched s) : Latched (afterLatigo s) := by
  unfold afterLatigo; simp (maxDischargeDepth := 30) [*]

@[simp] theorem addFact_latched (s : State) (a1 : Fact) (h : Latched s) : Latched (addFact s a1) := by
  unfold addFact; simp (maxDischargeDepth := 30) [*]

@[simp] theorem scrambleOutputs_latched (s : State) (a1 : Inst) (h : Latched s) : Latched (scrambleOutputs s a1) := by
  unfold scrambleOutputs; try simp only []
  refine foldl_latched _ ?_ _ _ ?_; (intros; (repeat' split) <;> simp (maxDischargeDepth := 30) [*]); simp (maxDischargeDepth := 30) [*]

@[simp] theorem endLatigo_latched (s : State) (h : Latched s) : Latched (endLatigo s) := by
  unfold endLatigo; simp (maxDischargeDepth := 30) [*]

@[simp] theorem dropSweepHolds_latched (s : State) (a1 : Inst) (h : Latched s) : Latched (dropSweepHolds s a1) := by
  unfold dropSweepHolds; try simp only []
  refine foldl_latched _ ?_ _ _ ?_; (intros; (repeat' split) <;> simp (maxDischargeDepth := 30) [*]); simp (maxDischargeDepth := 30) [*]

@[simp] theorem setInst_latched (s : State) (a1 : Inst) (h : Latched s) : Latched (setInst s a1) := by
  unfold setInst; simp (maxDischargeDepth := 30) [*]

@[simp] theorem dropStream_latched (s : State) (a1 : Inst) (h : Latched s) : Latched (dropStream s a1) := by
  unfold dropStream; simp (maxDischargeDepth := 30) [*]

@[simp] theorem endStream_latched (s : State) (a1 : Inst) (a2 : Nat) (h : Latched s) :
    Latched (endStream s a1 a2) := by
  unfold endStream; simp (maxDischargeDepth := 30) [*]

@[simp] theorem finishInst_latched (s : State) (a1 : Inst) (a2 : Nat) (h : Latched s) :
    Latched (finishInst s a1 a2) := by
  unfold finishInst; simp (maxDischargeDepth := 30) [*]

@[simp] theorem abortInst_latched (s : State) (a1 : Inst) (a2 : Nat) (h : Latched s) :
    Latched (abortInst s a1 a2) := by
  unfold abortInst; simp (maxDischargeDepth := 30) [*]

@[simp] theorem abortAt_latched (s : State) (a1 : Nat) (a2 : Nat) (a3 : Nat) (h : Latched s) :
    Latched (abortAt s a1 a2 a3) := by
  unfold abortAt; try simp only []
  split <;> simp (maxDischargeDepth := 30) [*]

@[simp] theorem quarantineCore_latched (s : State) (a1 : Nat) (h : Latched s) : Latched (quarantineCore s a1) := by
  unfold quarantineCore; simp (maxDischargeDepth := 30) [*]

@[simp] theorem countCore_latched (s : State) (tiles : List Nat) (h : Latched s) : Latched (countCore s tiles) := by
  unfold countCore; simp only []
  split
  · exact enterSafe_latched _ _ (foldl_latched _ (fun s x h => quarantineCore_latched _ _ h) _ _ (by simp [h]))
  · simp [h]

@[simp] theorem latigoFails_latched (s : State) (a1 : Nat) (h : Latched s) : Latched (latigoFails s a1) := by
  unfold latigoFails; simp (maxDischargeDepth := 30) [*]

@[simp] theorem latigoIncomplete_latched (s : State) (h : Latched s) : Latched (latigoIncomplete s) := by
  unfold latigoIncomplete; simp (maxDischargeDepth := 30) [*]

@[simp] theorem latigoHit_latched (s : State) (h : Latched s) : Latched (latigoHit s) := by
  unfold latigoHit; simp (maxDischargeDepth := 30) [*]

@[simp] theorem quarantineTile_latched (s : State) (a1 : Nat) (h : Latched s) : Latched (quarantineTile s a1) := by
  unfold quarantineTile; simp (maxDischargeDepth := 30) [*]

@[simp] theorem countOutcome_latched (s : State) (tiles : List Nat) (h : Latched s) :
    Latched (countOutcome s tiles) := by
  unfold countOutcome; simp [h]

@[simp] theorem stitchFails_latched (s : State) (a1 : Nat) (a2 : SigRec) (a3 : SigRec) (h : Latched s) :
    Latched (stitchFails s a1 a2 a3) := by
  unfold stitchFails; simp (maxDischargeDepth := 30) [*]

@[simp] theorem resolveEntry_latched (s : State) (a1 : StitchEntry) (a2 : SigRec) (a3 : SigRec) (h : Latched s) :
    Latched (resolveEntry s a1 a2 a3) := by
  unfold resolveEntry; try simp only []
  split <;> simp (maxDischargeDepth := 30) [*]

@[simp] theorem takeSignature_latched (s : State) (a1 : SigRec) (h : Latched s) : Latched (takeSignature s a1) := by
  unfold takeSignature; try simp only []
  (repeat' split) <;> simp (maxDischargeDepth := 30) [*]

@[simp] theorem execSignatureRecord_latched (a0 : Nat) (s : State) (h : Latched s) :
    LatchedR (execSignatureRecord a0 s) := by
  unfold execSignatureRecord; try simp only []
  (repeat' split) <;> simp (maxDischargeDepth := 30) [*]

@[simp] theorem reinOverrun_latched (s : State) (a1 : Nat) (a2 : Nat) (a3 : Nat) (h : Latched s) :
    Latched (reinOverrun s a1 a2 a3) := by
  unfold reinOverrun; simp (maxDischargeDepth := 30) [*]

@[simp] theorem latigoOverrun_latched (s : State) (a1 : Nat) (a2 : Nat) (h : Latched s) :
    Latched (latigoOverrun s a1 a2) := by
  unfold latigoOverrun; simp (maxDischargeDepth := 30) [*]

@[simp] theorem execReinExpiry_latched (a0 : Nat) (a1 : Nat) (s : State) (h : Latched s) :
    LatchedR (execReinExpiry a0 a1 s) := by
  unfold execReinExpiry; try simp only []
  split <;> simp (maxDischargeDepth := 30) [*]

@[simp] theorem execInstanceComplete_latched (a0 : Nat) (a1 : Nat) (s : State) (h : Latched s) :
    LatchedR (execInstanceComplete a0 a1 s) := by
  unfold execInstanceComplete; try simp only []
  split <;> simp (maxDischargeDepth := 30) [*]

@[simp] theorem endPhaseHolds_latched (s : State) (h : Latched s) : Latched (endPhaseHolds s) := by
  unfold endPhaseHolds; try simp only []
  refine foldl_latched _ ?_ _ _ ?_; (intros; (repeat' split) <;> simp (maxDischargeDepth := 30) [*]); simp (maxDischargeDepth := 30) [*]

@[simp] theorem holdForPhase_latched (s : State) (a1 : Nat) (h : Latched s) : Latched (holdForPhase s a1) := by
  unfold holdForPhase; simp (maxDischargeDepth := 30) [*]

@[simp] theorem placePhase_latched (s : State) (a1 : Nat) (h : Latched s) : Latched (placePhase s a1) := by
  unfold placePhase; simp (maxDischargeDepth := 30) [*]

@[simp] theorem releaseHeld_latched (s : State) (h : Latched s) : Latched (releaseHeld s) := by
  unfold releaseHeld; simp (maxDischargeDepth := 30) [*]

@[simp] theorem releasePhase_latched (s : State) (a1 : Nat) (h : Latched s) : Latched (releasePhase s a1) := by
  unfold releasePhase; simp (maxDischargeDepth := 30) [*]

@[simp] theorem factFails_latched (s : State) (h : Latched s) : Latched (factFails s) := by
  unfold factFails; try simp only []
  split <;> simp (maxDischargeDepth := 30) [*]

@[simp] theorem execPhaseRelease_latched (a0 : Nat) (s : State) (h : Latched s) :
    LatchedR (execPhaseRelease a0 s) := by
  unfold execPhaseRelease; simp (maxDischargeDepth := 30) [*]

@[simp] theorem debit_latched (s : State) (a1 : Nat) (a2 : ℤ × Nat) (h : Latched s) : Latched (debit s a1 a2) := by
  unfold debit; simp (maxDischargeDepth := 30) [*]

@[simp] theorem noteStarved_latched (s : State) (a1 : Nat) (h : Latched s) : Latched (noteStarved s a1) := by
  unfold noteStarved; simp (maxDischargeDepth := 30) [*]

@[simp] theorem spendTokens_latched (s : State) (w : Nat × Nat) (n : Nat) (h : Latched s) :
    LatchedO (spendTokens s w n) := by
  unfold spendTokens; simp [*]

@[simp] theorem holdFact_latched (s : State) (a1 : Ready) (a2 : Nat) (a3 : Nat) (h : Latched s) :
    Latched (holdFact s a1 a2 a3) := by
  unfold holdFact; simp (maxDischargeDepth := 30) [*]

@[simp] theorem openStitch_latched (s : State) (a1 : Task) (a2 : Nat) (h : Latched s) :
    Latched (openStitch s a1 a2) := by
  unfold openStitch; simp (maxDischargeDepth := 30) [*]

@[simp] theorem takeBatch_latched (s : State) (a1 : Ready) (a2 : Nat) (a3 : Nat) (a4 : Bool) (h : Latched s) :
    Latched (takeBatch s a1 a2 a3 a4) := by
  unfold takeBatch; simp (maxDischargeDepth := 30) [*]

@[simp] theorem takeHold_latched (s : State) (a1 : Ready) (a2 : Nat) (a3 : Nat) (h : Latched s) :
    Latched (takeHold s a1 a2 a3) := by
  unfold takeHold; simp (maxDischargeDepth := 30) [*]

@[simp] theorem wakeUsed_latched (s : State) (a1 : Nat) (h : Latched s) : Latched (wakeUsed s a1) := by
  unfold wakeUsed; simp (maxDischargeDepth := 30) [*]

@[simp] theorem startInst_latched (s : State) (a1 : Ready) (a2 : Nat) (a3 : Nat) (a4 : Nat) (a5 : Nat)
    (a6 : Nat) (a7 : Bool) (h : Latched s) :
    Latched (startInst s a1 a2 a3 a4 a5 a6 a7) := by
  unfold startInst; simp (maxDischargeDepth := 30) [*]

@[simp] theorem streamRead_latched (s : State) (a1 : Nat) (a2 : Nat) (a3 : Task) (h : Latched s) :
    Latched (streamRead s a1 a2 a3) := by
  unfold streamRead; simp (maxDischargeDepth := 30) [*]

@[simp] theorem waitTokens_latched (s : State) (a1 : Nat × Nat) (a2 : Nat) (h : Latched s) :
    Latched (waitTokens s a1 a2) := by
  unfold waitTokens; simp (maxDischargeDepth := 30) [*]

@[simp] theorem tryStart_latched (s : State) (e : Ready) (tile ctx b : Nat) (own : Bool) (h : Latched s) :
    LatchedR (tryStart s e tile ctx b own) := by
  unfold tryStart; simp only []
  split
  · simp [*]
  · split
    · split <;> simp [*]
    · split
      · simp [*]
      · split
        · simp [*]
        · rename_i e1
          split
          · split at e1
            · have k := spendTokens_latched s (waiterOf s tile e.task.safe) 1 h
              rw [e1] at k
              split <;> simp (maxDischargeDepth := 30) [show Latched _ from k]
            · cases e1
              split <;> simp (maxDischargeDepth := 30) [*]
          · trivial

@[simp] theorem replayLate_latched (s : State) (a1 : Nat) (h : Latched s) : Latched (replayLate s a1) := by
  unfold replayLate; simp (maxDischargeDepth := 30) [*]

@[simp] theorem noteThief_latched (s : State) (a1 : Nat) (a2 : Ready) (h : Latched s) :
    Latched (noteThief s a1 a2) := by
  unfold noteThief; simp (maxDischargeDepth := 30) [*]

@[simp] theorem noteTested_latched (s : State) (a1 : Nat) (h : Latched s) : Latched (noteTested s a1) := by
  unfold noteTested; simp (maxDischargeDepth := 30) [*]

@[simp] theorem wakeCopy_latched (s : State) (a1 : Inst) (h : Latched s) : Latched (wakeCopy s a1) := by
  unfold wakeCopy; try simp only []
  refine foldl_latched _ ?_ _ _ ?_; (intros; (repeat' split) <;> simp (maxDischargeDepth := 30) [*]); simp (maxDischargeDepth := 30) [*]

@[simp] theorem copyList_latched (s : State) (a1 : Inst) (h : Latched s) : Latched (copyList s a1) := by
  unfold copyList; try simp only []
  refine foldl_latched _ ?_ _ _ ?_; (intros; (repeat' split) <;> simp (maxDischargeDepth := 30) [*]); simp (maxDischargeDepth := 30) [*]

@[simp] theorem applyAbort_latched (s : State) (a1 : Ready) (a2 : Nat) (a3 : Nat) (a4 : Fact) (h : Latched s) :
    Latched (applyAbort s a1 a2 a3 a4) := by
  unfold applyAbort; simp (maxDischargeDepth := 30) [*]

@[simp] theorem execDispatch_latched (a0 : Nat) (a1 : Nat) (s : State) (h : Latched s) :
    LatchedR (execDispatch a0 a1 s) := by
  unfold execDispatch; try simp only []
  (repeat' split) <;> simp (maxDischargeDepth := 30) [*]

@[simp] theorem execSteal_latched (a0 : Nat) (a1 : Nat) (s : State) (h : Latched s) :
    LatchedR (execSteal a0 a1 s) := by
  unfold execSteal; try simp only []
  (repeat' split) <;> simp (maxDischargeDepth := 30) [*]

@[simp] theorem execListCopyDone_latched (a0 : Nat) (a1 : Nat) (s : State) (h : Latched s) :
    LatchedR (execListCopyDone a0 a1 s) := by
  unfold execListCopyDone; try simp only []
  (repeat' split) <;> simp (maxDischargeDepth := 30) [*]

@[simp] theorem track_latched (s : State) (a1 : Completion) (h : Latched s) : Latched (track s a1) := by
  unfold track; simp (maxDischargeDepth := 30) [*]

@[simp] theorem execCompletionRecord_latched (a0 : Nat) (s : State) (h : Latched s) :
    LatchedR (execCompletionRecord a0 s) := by
  unfold execCompletionRecord; try simp only []
  (repeat' split) <;> simp (maxDischargeDepth := 30) [*]

@[simp] theorem setOpp_latched (s : State) (a1 : Nat) (a2 : Nat) (h : Latched s) : Latched (setOpp s a1 a2) := by
  unfold setOpp; simp (maxDischargeDepth := 30) [*]

@[simp] theorem retainCluster_latched (s : State) (a1 : Nat) (h : Latched s) : Latched (retainCluster s a1) := by
  unfold retainCluster; try simp only []
  refine foldl_latched _ ?_ _ _ ?_; (intros; (repeat' split) <;> simp (maxDischargeDepth := 30) [*]); simp (maxDischargeDepth := 30) [*]

@[simp] theorem execIslandGate_latched (a0 : Nat) (s : State) (h : Latched s) : LatchedR (execIslandGate a0 s) := by
  unfold execIslandGate; simp (maxDischargeDepth := 30) [*]

@[simp] theorem execTileIdle_latched (a0 : Nat) (s : State) (h : Latched s) : LatchedR (execTileIdle a0 s) := by
  unfold execTileIdle; simp (maxDischargeDepth := 30) [*]

@[simp] theorem pmcResumes_latched (s : State) (h : Latched s) : Latched (pmcResumes s) := by
  unfold pmcResumes; simp (maxDischargeDepth := 30) [*]

@[simp] theorem execOppSwitch_latched (cluster opp : Nat) (s : State) (h : Latched s) :
    LatchedR (execOppSwitch cluster opp s) := by
  have k := spendTokens_latched s (4, 16 + cluster) 4 h
  unfold execOppSwitch; simp only []
  (repeat' split) <;> simp_all

@[simp] theorem execIslandWake_latched (cluster : Nat) (s : State) (h : Latched s) :
    LatchedR (execIslandWake cluster s) := by
  have k := spendTokens_latched s (4, cluster) 1 h
  unfold execIslandWake
  (repeat' split) <;> simp_all

@[simp] theorem windowValues_latched (s : State) (h : Latched s) : Latched (windowValues s) := by
  unfold windowValues; try simp only []
  split <;> simp (maxDischargeDepth := 30) [*]

@[simp] theorem windowStart_latched (s : State) (h : Latched s) : Latched (windowStart s) := by
  unfold windowStart; simp (maxDischargeDepth := 30) [*]

@[simp] theorem execWakeToken_latched (s : State) (h : Latched s) : LatchedR (execWakeToken s) := by
  unfold execWakeToken; try simp only []
  split <;> simp (maxDischargeDepth := 30) [*]

@[simp] theorem execLedgerWindowStart_latched (s : State) (h : Latched s) : LatchedR (execLedgerWindowStart s) := by
  unfold execLedgerWindowStart; simp (maxDischargeDepth := 30) [*]

@[simp] theorem execAvsbusSetpointChange_latched (a0 : Nat) (s : State) (h : Latched s) :
    LatchedR (execAvsbusSetpointChange a0 s) := by
  unfold execAvsbusSetpointChange; simp (maxDischargeDepth := 30) [*]

@[simp] theorem writeRow_latched (s : State) (a1 : Nat) (a2 : Nat) (a3 : Tref) (a4 : Nat → Rm) (a5 : Nat)
    (a6 : List Val) (h : Latched s) :
    Latched (writeRow s a1 a2 a3 a4 a5 a6).1 := by
  unfold writeRow; try simp only []
  split <;> simp (maxDischargeDepth := 30) [*]

@[simp] theorem writeTensor_latched (s : State) (tile f : Nat) (t : Tref) (rm : Nat → Rm) (rows : List (List Val)) (h : Latched s) :
    Latched (writeTensor s tile f t rm rows).1 := by
  unfold writeTensor
  exact foldl_latched2 _ (fun s x h => by simp [h]) _ _ h

theorem correctReads_latched (b : Nat) (s : State) (l : List (Nat × Nat)) (h : Latched s) :
    Latched (l.foldl (fun t r => correctRead t (b + r.1) r.2) s) :=
  foldl_latched _ (fun s x h => correctRead_latched s (b + x.1) x.2 h) l s h

@[simp] theorem correctAccess_latched (s : State) (tile : Nat) (a : Access) (h : Latched s) :
    Latched (correctAccess s tile a) := by
  rw [correctAccess]
  exact correctReads_latched _ _ _ h

@[simp] theorem noteIssue_latched (s : State) (a1 : Inst) (a2 : Bytes) (a3 : Bool) (a4 : List (Nat × Nat))
    (h : Latched s) :
    Latched (noteIssue s a1 a2 a3 a4) := by
  unfold noteIssue; simp (maxDischargeDepth := 30) [*]

@[simp] theorem readerAborts_latched (s : State) (a1 : Nat) (a2 : Nat) (a3 : Nat) (h : Latched s) :
    Latched (readerAborts s a1 a2 a3) := by
  unfold readerAborts; simp (maxDischargeDepth := 30) [*]

@[simp] theorem wakeAccess_latched (s : State) (a1 : Nat) (a2 : Access) (h : Latched s) :
    Latched (wakeAccess s a1 a2) := by
  unfold wakeAccess; try simp only []
  refine foldl_latched _ ?_ _ _ ?_; (intros; (repeat' split) <;> simp (maxDischargeDepth := 30) [*]); simp (maxDischargeDepth := 30) [*]

@[simp] theorem issueDesc_latched (s : State) (tile ctx op : Nat) (r : DescRun)
    (h : Latched s) (hf : ∀ s i d k, Latched s → LatchedE (r.run s i d k)) : LatchedR (issueDesc s tile ctx op r) := by
  unfold issueDesc; (try simp only [])
  (repeat' split) <;> simp (maxDischargeDepth := 30) [*]

@[simp] theorem gatherFlags_latched (s : State) (a1 : Nat) (a2 : Nat) (a3 : Nat) (h : Latched s) :
    Latched (gatherFlags s a1 a2 a3) := by
  unfold gatherFlags; try simp only []
  split <;> simp (maxDischargeDepth := 30) [*]

@[simp] theorem landFlags_latched (i : Inst) (w : Flagged State) (more : Nat) (h : Latched w.1) :
    LatchedE (landFlags i w more) := by
  unfold landFlags; simp [*]

@[simp] theorem acceptReq_latched (s : State) (a1 : Inst) (a2 : Bytes) (a3 : Nat) (h : Latched s) :
    LatchedE (acceptReq s a1 a2 a3) := by
  unfold acceptReq; simp (maxDischargeDepth := 30) [*]

@[simp] theorem writeRows_latched (s : State) (a1 : Nat) (a2 : Tref) (a3 : List Bytes) (h : Latched s) :
    Latched (writeRows s a1 a2 a3) := by
  unfold writeRows; try simp only []
  refine foldl_latched _ ?_ _ _ ?_; (intros; (repeat' split) <;> simp (maxDischargeDepth := 30) [*]); simp (maxDischargeDepth := 30) [*]

@[simp] theorem landFetch_latched (s : State) (a1 : Inst) (a2 : Bytes) (h : Latched s) :
    Latched (landFetch s a1 a2) := by
  unfold landFetch; simp (maxDischargeDepth := 30) [*]

@[simp] theorem execDmareq_latched (a0 : Nat) (a1 : Nat) (s : State) (h : Latched s) :
    LatchedR (execDmareq a0 a1 s) := by
  unfold execDmareq
  try split
  all_goals first
  | (simp (maxDischargeDepth := 30) [*]; done)
  | (refine issueDesc_latched _ _ _ _ _ h ?_
     intro s i d k h
     simp only [dmareqRun]
     first
     | (simp (maxDischargeDepth := 30) [*]; done)
     | ((repeat' split) <;> simp (maxDischargeDepth := 30) [*]; done))

@[simp] theorem execFence_latched (a0 : Nat) (a1 : Nat) (s : State) (h : Latched s) :
    LatchedR (execFence a0 a1 s) := by
  unfold execFence
  try split
  all_goals first
  | (simp (maxDischargeDepth := 30) [*]; done)
  | (refine issueDesc_latched _ _ _ _ _ h ?_
     intro s i d k h
     simp only [fenceRun]
     first
     | (simp (maxDischargeDepth := 30) [*]; done)
     | ((repeat' split) <;> simp (maxDischargeDepth := 30) [*]; done))

@[simp] theorem fetchFault_latched (s : State) (a1 : Inst) (a2 : Bytes) (a3 : Nat) (h : Latched s) :
    Latched (fetchFault s a1 a2 a3) := by
  unfold fetchFault; simp (maxDischargeDepth := 30) [*]

@[simp] theorem execMovePut_latched (tile ctx : Nat) (s : State) (h : Latched s) :
    LatchedR (execMovePut tile ctx s) := by
  unfold execMovePut
  refine issueDesc_latched _ _ _ _ _ h ?_
  intro s i d k h
  simp only [putRun]
  split
  · trivial
  · exact latchedE_ok.2 (foldl_latched _ (fun s x h => by split <;> simp [h]) _ _ h)

@[simp] theorem correctFetch_latched (s : State) (a1 : List (Nat × Nat)) (h : Latched s) :
    Latched (correctFetch s a1) := by
  unfold correctFetch; try simp only []
  refine foldl_latched _ ?_ _ _ ?_; (intros; (repeat' split) <;> simp (maxDischargeDepth := 30) [*]); simp (maxDischargeDepth := 30) [*]

@[simp] theorem execMoveFetch_latched (a0 : Nat) (a1 : Nat) (s : State) (h : Latched s) :
    LatchedR (execMoveFetch a0 a1 s) := by
  unfold execMoveFetch
  try split
  all_goals first
  | (simp (maxDischargeDepth := 30) [*]; done)
  | (refine issueDesc_latched _ _ _ _ _ h ?_
     intro s i d k h
     simp only [fetchRun]
     first
     | (simp (maxDischargeDepth := 30) [*]; done)
     | ((repeat' split) <;> simp (maxDischargeDepth := 30) [*]; done))

@[simp] theorem execNop_latched (a0 : Nat) (a1 : Nat) (s : State) (h : Latched s) : LatchedR (execNop a0 a1 s) := by
  unfold execNop
  try split
  all_goals first
  | (simp (maxDischargeDepth := 30) [*]; done)
  | (refine issueDesc_latched _ _ _ _ _ h ?_
     intro s i d k h
     simp only [nopRun]
     first
     | (simp (maxDischargeDepth := 30) [*]; done)
     | ((repeat' split) <;> simp (maxDischargeDepth := 30) [*]; done))

@[simp] theorem execMoveFill_latched (a0 : Nat) (a1 : Nat) (s : State) (h : Latched s) :
    LatchedR (execMoveFill a0 a1 s) := by
  unfold execMoveFill
  try split
  all_goals first
  | (simp (maxDischargeDepth := 30) [*]; done)
  | (refine issueDesc_latched _ _ _ _ _ h ?_
     intro s i d k h
     simp only [fillRun]
     first
     | (simp (maxDischargeDepth := 30) [*]; done)
     | ((repeat' split) <;> simp (maxDischargeDepth := 30) [*]; done))

@[simp] theorem execMoveCopy_latched (a0 : Nat) (a1 : Nat) (s : State) (h : Latched s) :
    LatchedR (execMoveCopy a0 a1 s) := by
  unfold execMoveCopy
  try split
  all_goals first
  | (simp (maxDischargeDepth := 30) [*]; done)
  | (refine issueDesc_latched _ _ _ _ _ h ?_
     intro s i d k h
     simp only [copyRun]
     first
     | (simp (maxDischargeDepth := 30) [*]; done)
     | ((repeat' split) <;> simp (maxDischargeDepth := 30) [*]; done))

@[simp] theorem retire_latched (s : State) (a1 : Nat) (a2 : Nat) (a3 : Nat) (h : Latched s) :
    Latched (retire s a1 a2 a3) := by
  unfold retire; try simp only []
  split <;> simp (maxDischargeDepth := 30) [*]

@[simp] theorem putTimeout_latched (s : State) (i : Inst) (d : Bytes) (k : Nat) (h : Latched s) :
    Latched (putTimeout s i d k) := by
  unfold putTimeout; simp only []
  exact retire_latched _ _ _ _ (sendOpenEvent_latched _ _ (foldl_latched _ (fun s x h => by split <;> simp [h]) _ _ h))

@[simp] theorem putMismatch_latched (s : State) (a1 : Inst) (a2 : Bytes) (a3 : Nat) (h : Latched s) :
    Latched (putMismatch s a1 a2 a3) := by
  unfold putMismatch; try simp only []
  (repeat' split) <;> simp (maxDischargeDepth := 30) [*]

@[simp] theorem takeToken_latched (s : State) (a1 : Nat) (a2 : Nat) (a3 : Nat) (h : Latched s) :
    Latched (takeToken s a1 a2 a3) := by
  unfold takeToken; simp (maxDischargeDepth := 30) [*]

@[simp] theorem setFlow_latched (s : State) (a1 : Flow) (h : Latched s) : Latched (setFlow s a1) := by
  unfold setFlow; simp (maxDischargeDepth := 30) [*]

@[simp] theorem flowDup_latched (s : State) (h : Latched s) : Latched (flowDup s) := by
  unfold flowDup; simp (maxDischargeDepth := 30) [*]

@[simp] theorem offerItem_latched (s : State) (i : Inst) (f seq : Nat) (item : Bytes) (h : Latched s) :
    LatchedO (offerItem s i f seq item) := by
  unfold offerItem; (try simp only []); (repeat' split) <;> simp [*]

@[simp] theorem servedEmit_latched (s : State) (a1 : Inst) (a2 : Nat) (h : Latched s) :
    Latched (servedEmit s a1 a2) := by
  unfold servedEmit; simp (maxDischargeDepth := 30) [*]

theorem retryStalled_latched (s : State) (i : Inst) (d : Bytes) (k : Nat) (h : Latched s) (a : Attempt)
    (ha : retryStalled s i d k = some a) : LatchedE a := by
  unfold retryStalled at ha; simp only [] at ha
  split at ha
  · cases ha; simp [*]
  · split at ha
    · split at ha
      · cases ha
      · have e := offerItem_latched (setInst s { i with stalled := i.stalled.filter (· ≠ k) }) { i with stalled := i.stalled.filter (· ≠ k) }
          (fieldAt d 0x10 2) (fieldAt d 0x14 4) (emitItem s i d) (by simp [h])
        rw [Option.map_eq_some_iff] at ha
        obtain ⟨t, h1, rfl⟩ := ha
        rw [h1] at e; simp [show Latched _ from e]
    · split at ha
      · cases ha; simp [*]
      · cases ha

@[simp] theorem execDescriptorComplete_latched (tile ctx index : Nat) (s : State) (h : Latched s) :
    LatchedR (execDescriptorComplete tile ctx index s) := by
  unfold execDescriptorComplete
  split
  · simp [*]
  · split
    · simp [*]
    · split
      · simp [*]
      · rename_i e
        exact ofAttempt_latched (mapE_latched (retryStalled_latched _ _ _ _ h _ e) (by intro t h1; simp [h1]))

@[simp] theorem sendSignal_latched (s : State) (a1 : Inst) (a2 : Bytes) (a3 : Nat) (h : Latched s) :
    Latched (sendSignal s a1 a2 a3) := by
  unfold sendSignal; simp (maxDischargeDepth := 30) [*]

@[simp] theorem execWait_latched (a0 : Nat) (a1 : Nat) (s : State) (h : Latched s) : LatchedR (execWait a0 a1 s) := by
  unfold execWait
  try split
  all_goals first
  | (simp (maxDischargeDepth := 30) [*]; done)
  | (refine issueDesc_latched _ _ _ _ _ h ?_
     intro s i d k h
     simp only [waitRun]
     first
     | (simp (maxDischargeDepth := 30) [*]; done)
     | ((repeat' split) <;> simp (maxDischargeDepth := 30) [*]; done))

@[simp] theorem execTokenIncrement_latched (a0 : Nat) (a1 : Nat) (a2 : Nat) (s : State) (h : Latched s) :
    LatchedR (execTokenIncrement a0 a1 a2 s) := by
  unfold execTokenIncrement; try simp only []
  split <;> simp (maxDischargeDepth := 30) [*]

@[simp] theorem execSignal_latched (a0 : Nat) (a1 : Nat) (s : State) (h : Latched s) :
    LatchedR (execSignal a0 a1 s) := by
  unfold execSignal
  try split
  all_goals first
  | (simp (maxDischargeDepth := 30) [*]; done)
  | (refine issueDesc_latched _ _ _ _ _ h ?_
     intro s i d k h
     simp only [signalRun]
     first
     | (simp (maxDischargeDepth := 30) [*]; done)
     | ((repeat' split) <;> simp (maxDischargeDepth := 30) [*]; done))

@[simp] theorem execPutTimeout_latched (a0 : Nat) (a1 : Nat) (s : State) (h : Latched s) :
    LatchedR (execPutTimeout a0 a1 s) := by
  unfold execPutTimeout; try simp only []
  (repeat' split) <;> simp (maxDischargeDepth := 30) [*]

@[simp] theorem execEmit_latched (tile ctx : Nat) (s : State) (h : Latched s) : LatchedR (execEmit tile ctx s) := by
  unfold execEmit
  refine issueDesc_latched _ _ _ _ _ h ?_
  intro s i d k h
  simp only [emitRun]
  have k := offerItem_latched s i (fieldAt d 0x10 2) (fieldAt d 0x14 4) (emitItem s i d) h
  split
  · rename_i e; rw [e] at k; exact k
  · simp [*]

@[simp] theorem landLists_latched (s : State) (a1 : Inst) (a2 : Bytes) (a3 : List Bytes) (a4 : Nat) (h : Latched s) :
    LatchedE (landLists s a1 a2 a3 a4) := by
  unfold landLists; simp (maxDischargeDepth := 30) [*]

@[simp] theorem execTopk_latched (a0 : Nat) (a1 : Nat) (s : State) (h : Latched s) : LatchedR (execTopk a0 a1 s) := by
  unfold execTopk
  try split
  all_goals first
  | (simp (maxDischargeDepth := 30) [*]; done)
  | (refine issueDesc_latched _ _ _ _ _ h ?_
     intro s i d k h
     simp only [topkRun]
     first
     | (simp (maxDischargeDepth := 30) [*]; done)
     | ((repeat' split) <;> simp (maxDischargeDepth := 30) [*]; done))

@[simp] theorem execKnn_latched (a0 : Nat) (a1 : Nat) (s : State) (h : Latched s) : LatchedR (execKnn a0 a1 s) := by
  unfold execKnn
  try split
  all_goals first
  | (simp (maxDischargeDepth := 30) [*]; done)
  | (refine issueDesc_latched _ _ _ _ _ h ?_
     intro s i d k h
     simp only [knnRun]
     first
     | (simp (maxDischargeDepth := 30) [*]; done)
     | ((repeat' split) <;> simp (maxDischargeDepth := 30) [*]; done))

@[simp] theorem execTopkMerge_latched (a0 : Nat) (a1 : Nat) (s : State) (h : Latched s) :
    LatchedR (execTopkMerge a0 a1 s) := by
  unfold execTopkMerge
  try split
  all_goals first
  | (simp (maxDischargeDepth := 30) [*]; done)
  | (refine issueDesc_latched _ _ _ _ _ h ?_
     intro s i d k h
     simp only [mergeRun]
     first
     | (simp (maxDischargeDepth := 30) [*]; done)
     | ((repeat' split) <;> simp (maxDischargeDepth := 30) [*]; done))

@[simp] theorem fillMissing_latched (s : State) (a1 : Coll) (h : Latched s) : Latched (fillMissing s a1) := by
  unfold fillMissing; try simp only []
  (repeat' split) <;> simp_all (maxDischargeDepth := 30)

@[simp] theorem setColl_latched (s : State) (a1 : Coll) (h : Latched s) : Latched (setColl s a1) := by
  unfold setColl; simp (maxDischargeDepth := 30) [*]

@[simp] theorem completeColl_latched (s : State) (a1 : Coll) (a2 : Nat) (a3 : Nat) (h : Latched s) :
    Latched (completeColl s a1 a2 a3) := by
  unfold completeColl; simp (maxDischargeDepth := 30) [*]

@[simp] theorem collSettled_latched (s : State) (a1 : Batch) (a2 : Nat) (a3 : Nat) (h : Latched s) :
    Latched (collSettled s a1 a2 a3) := by
  unfold collSettled; try simp only []
  (repeat' split) <;> simp (maxDischargeDepth := 30) [*]

@[simp] theorem updateReach_latched (s : State) (h : Latched s) : Latched (updateReach s) := by
  unfold updateReach; simp (maxDischargeDepth := 30) [*]

@[simp] theorem submitColl_latched (s : State) (a1 : Coll) (a2 : Nat) (h : Latched s) :
    Latched (submitColl s a1 a2) := by
  unfold submitColl; simp (maxDischargeDepth := 30) [*]

@[simp] theorem advanceColl_latched (s : State) (a1 : Coll) (h : Latched s) : Latched (advanceColl s a1) := by
  unfold advanceColl; simp (maxDischargeDepth := 30) [*]

@[simp] theorem sendLink_latched (s : State) (a1 : Nat) (a2 : State → Bytes) (h : Latched s) :
    Latched (sendLink s a1 a2) := by
  unfold sendLink; simp (maxDischargeDepth := 30) [*]

@[simp] theorem broadcastColl_latched (s : State) (a1 : Coll) (a2 : Nat) (a3 : Bytes) (h : Latched s) :
    Latched (broadcastColl s a1 a2 a3) := by
  unfold broadcastColl; try simp only []
  (repeat' split) <;> simp_all (maxDischargeDepth := 30)

@[simp] theorem keepPart_latched (s : State) (a1 : Coll) (a2 : Nat) (a3 : Nat) (a4 : Nat) (a5 : Bytes)
    (h : Latched s) :
    Latched (keepPart s a1 a2 a3 a4 a5) := by
  unfold keepPart; simp (maxDischargeDepth := 30) [*]

@[simp] theorem deliverFrame_latched (s : State) (a1 : Bytes) (h : Latched s) : LatchedE (deliverFrame s a1) := by
  unfold deliverFrame; try simp only []
  split <;> simp (maxDischargeDepth := 30) [*]

@[simp] theorem issueColl_latched (s : State) (item : Bytes) (h : Latched s) : LatchedE (issueColl s item) := by
  unfold issueColl
  split
  · trivial
  · simp only []
    refine foldl_latchedE _ (fun a x h => bindE_latched h fun t h1 => deliverFrame_latched _ _ h1) _ _ ?_
    (repeat' split) <;> simp (maxDischargeDepth := 30) [*]

@[simp] theorem forwardFrame_latched (s : State) (a1 : Nat) (a2 : Bytes) (h : Latched s) :
    Latched (forwardFrame s a1 a2) := by
  unfold forwardFrame; simp (maxDischargeDepth := 30) [*]

@[simp] theorem takeFrame_latched (s : State) (port : Nat) (f : Bytes) (h : Latched s) :
    LatchedE (takeFrame s port f) := by
  unfold takeFrame; simp only []
  split
  · simp [h]
  · split
    · simp [h]
    · refine mapE_latched ?_ (fun t h1 => by simp [h1])
      split <;> simp [h]

@[simp] theorem execCollFrameRx_latched (a0 : Nat) (a1 : Bytes) (s : State) (h : Latched s) :
    LatchedR (execCollFrameRx a0 a1 s) := by
  unfold execCollFrameRx; simp (maxDischargeDepth := 30) [*]

@[simp] theorem execLkLinkChange_latched (a0 : Nat) (a1 : LinkTurn) (s : State) (h : Latched s) :
    LatchedR (execLkLinkChange a0 a1 s) := by
  unfold execLkLinkChange; simp (maxDischargeDepth := 30) [*]

@[simp] theorem execCollTimeout_latched (a0 : Nat) (s : State) (h : Latched s) : LatchedR (execCollTimeout a0 s) := by
  unfold execCollTimeout; try simp only []
  split <;> simp (maxDischargeDepth := 30) [*]

@[simp] theorem dropObject_latched (s : State) (a1 : Half) (a2 : Nat) (h : Latched s) :
    Latched (dropObject s a1 a2) := by
  unfold dropObject; simp (maxDischargeDepth := 30) [*]

@[simp] theorem takePiece_latched (s : State) (a1 : Msg) (h : Latched s) : Latched (takePiece s a1).1 := by
  unfold takePiece; try simp only []
  (repeat' split) <;> simp (maxDischargeDepth := 30) [*]

@[simp] theorem pieceRun_latched (s : State) (m : Msg) (whole : State → Bytes → Result)
    (h : Latched s) (hf : ∀ t bs, Latched t → LatchedR (whole t bs)) : LatchedR (pieceRun s m whole) := by
  have k := takePiece_latched s m h
  unfold pieceRun
  split
  · trivial
  · split <;> rename_i x <;> simp only [x] at k
    · simp [*]
    · simp [*]
    · exact hf _ _ k

@[simp] theorem pieceRun0_latched (s : State) (m : Msg) (whole : State → Bytes → Result)
    (h : Latched s) (hf : ∀ t bs, Latched t → LatchedR (whole t bs)) : LatchedR (pieceRun0 s m whole) := by
  unfold pieceRun0; split
  · simp [*]
  · exact pieceRun_latched s m whole h hf

@[simp] theorem countGenerated_latched (s : State) (a1 : Inst) (a2 : Nat) (h : Latched s) :
    Latched (countGenerated s a1 a2) := by
  unfold countGenerated; simp (maxDischargeDepth := 30) [*]

@[simp] theorem landCandidates_latched (s : State) (a1 : Inst) (a2 : Bytes) (a3 : Nat) (h : Latched s) :
    Latched (landCandidates s a1 a2 a3) := by
  unfold landCandidates; simp (maxDischargeDepth := 30) [*]

@[simp] theorem landNoStart_latched (s : State) (i : Inst) (d : Bytes) (h : Latched s) :
    Latched (landNoStart s i d) := by
  unfold landNoStart; simp only []
  exact countGenerated_latched _ _ _ (gatherFlags_latched _ _ _ _ (foldl_latched _ (fun s x h => by simp [h]) _ _ h))

@[simp] theorem execGenprim_latched (tile ctx : Nat) (s : State) (h : Latched s) :
    LatchedR (execGenprim tile ctx s) := by
  unfold execGenprim
  refine issueDesc_latched _ _ _ _ _ h ?_
  intro s i d k h
  simp only [genprimRun]
  split
  · trivial
  · split <;> simp [h]

@[simp] theorem readBatch_latched (s : State) (a1 : Batch) (h : Latched s) : Latched (readBatch s a1) := by
  unfold readBatch; simp (maxDischargeDepth := 30) [*]

@[simp] theorem takeBatchToStaging_latched (s : State) (a1 : Batch) (h : Latched s) :
    Latched (takeBatchToStaging s a1) := by
  unfold takeBatchToStaging; simp (maxDischargeDepth := 30) [*]

@[simp] theorem execWorldBatchTake_latched (s : State) (h : Latched s) : LatchedR (execWorldBatchTake s) := by
  unfold execWorldBatchTake; try simp only []
  split <;> simp (maxDischargeDepth := 30) [*]

@[simp] theorem publishAs_latched (s : State) (a1 : Nat) (a2 : Nat) (a3 : Bytes) (a4 : Built) (h : Latched s) :
    Latched (publishAs s a1 a2 a3 a4) := by
  unfold publishAs; simp (maxDischargeDepth := 30) [*]

@[simp] theorem unstage_latched (s : State) (a1 : Batch) (h : Latched s) : Latched (unstage s a1) := by
  unfold unstage; simp (maxDischargeDepth := 30) [*]

@[simp] theorem rejectBatch_latched (s : State) (a1 : Batch) (a2 : Nat) (h : Latched s) :
    Latched (rejectBatch s a1 a2) := by
  unfold rejectBatch; try simp only []
  split <;> simp (maxDischargeDepth := 30) [*]

@[simp] theorem publishFact_latched (s : State) (a1 : Nat) (a2 : Nat) (h : Latched s) :
    Latched (publishFact s a1 a2) := by
  unfold publishFact; simp (maxDischargeDepth := 30) [*]

@[simp] theorem writeSlots_latched (s : State) (a1 : FreeMap) (a2 : List (Nat × Nat)) (h : Latched s) :
    Latched (writeSlots s a1 a2) := by
  unfold writeSlots; try simp only []
  refine foldl_latched _ ?_ _ _ ?_; (intros; (repeat' split) <;> simp (maxDischargeDepth := 30) [*]); simp (maxDischargeDepth := 30) [*]

@[simp] theorem buildBatch_latched (s : State) (a1 : Batch) (h : Latched s) : Latched (buildBatch s a1) := by
  unfold buildBatch; try simp only []
  split <;> simp (maxDischargeDepth := 30) [*]

@[simp] theorem execBatchApply_latched (s : State) (h : Latched s) : LatchedR (execBatchApply s) := by
  unfold execBatchApply; try simp only []
  split <;> simp (maxDischargeDepth := 30) [*]

@[simp] theorem publishNow_latched (s : State) (a1 : Nat) (a2 : Built) (h : Latched s) :
    Latched (publishNow s a1 a2) := by
  unfold publishNow; try simp only []
  split <;> simp (maxDischargeDepth := 30) [*]

@[simp] theorem execEpochPublish_latched (s : State) (h : Latched s) : LatchedR (execEpochPublish s) := by
  unfold execEpochPublish; try simp only []
  split <;> simp (maxDischargeDepth := 30) [*]

@[simp] theorem hostBatch_latched (s : State) (a1 : Msg) (a2 : Bytes) (h : Latched s) :
    Latched (hostBatch s a1 a2) := by
  unfold hostBatch; simp (maxDischargeDepth := 30) [*]

@[simp] theorem execWorldDelta_latched (s : State) (h : Latched s) : LatchedR (execWorldDelta s) := by
  unfold execWorldDelta; try simp only []
  (repeat' split) <;> simp_all (maxDischargeDepth := 30)

@[simp] theorem execWorldBankRepair_latched (a0 : Nat) (a1 : Nat) (s : State) (h : Latched s) :
    LatchedR (execWorldBankRepair a0 a1 s) := by
  unfold execWorldBankRepair; simp (maxDischargeDepth := 30) [*]

@[simp] theorem blockFlow_latched (s : State) (a1 : Flow) (h : Latched s) : Latched (blockFlow s a1) := by
  unfold blockFlow; simp (maxDischargeDepth := 30) [*]

@[simp] theorem releaseToRing_latched (s : State) (a1 : FlowCfg) (a2 : Flow) (a3 : Word) (a4 : Bytes)
    (a5 : List FlowItem) (h : Latched s) :
    Latched (releaseToRing s a1 a2 a3 a4 a5) := by
  unfold releaseToRing; simp (maxDischargeDepth := 30) [*]

@[simp] theorem toPlanSink_latched (s : State) (a1 : Bytes) (h : Latched s) : LatchedE (toPlanSink s a1) := by
  unfold toPlanSink; simp (maxDischargeDepth := 30) [*]

@[simp] theorem toWorldSink_latched (s : State) (a1 : FlowItem) (h : Latched s) : LatchedE (toWorldSink s a1) := by
  unfold toWorldSink; simp (maxDischargeDepth := 30) [*]

@[simp] theorem toSink_latched (s : State) (a1 : Nat) (a2 : FlowItem) (h : Latched s) :
    LatchedE (toSink s a1 a2) := by
  unfold toSink; simp (maxDischargeDepth := 30) [*]

@[simp] theorem releaseItem_latched (s : State) (a1 : Nat) (a2 : Flow) (a3 : FlowItem) (a4 : List FlowItem)
    (h : Latched s) :
    LatchedE (releaseItem s a1 a2 a3 a4) := by
  unfold releaseItem; try simp only []
  (repeat' split) <;> simp (maxDischargeDepth := 30) [*]

@[simp] theorem execFlowRelease_latched (a0 : Nat) (s : State) (h : Latched s) : LatchedR (execFlowRelease a0 s) := by
  unfold execFlowRelease; try simp only []
  split <;> simp (maxDischargeDepth := 30) [*]

@[simp] theorem resetRing_latched (s : State) (a1 : FlowCfg) (h : Latched s) : Latched (resetRing s a1) := by
  unfold resetRing; try simp only []
  refine foldl_latched _ ?_ _ _ ?_; (intros; (repeat' split) <;> simp (maxDischargeDepth := 30) [*]); simp (maxDischargeDepth := 30) [*]

@[simp] theorem resetRings_latched (s : State) (h : Latched s) : Latched (resetRings s) := by
  unfold resetRings; try simp only []
  (repeat' split) <;> simp_all (maxDischargeDepth := 30)

@[simp] theorem execFlowAckPoll_latched (a0 : Nat) (s : State) (h : Latched s) : LatchedR (execFlowAckPoll a0 s) := by
  unfold execFlowAckPoll; try simp only []
  split <;> simp (maxDischargeDepth := 30) [*]

@[simp] theorem takeUpRings_latched (s : State) (h : Latched s) : Latched (takeUpRings s) := by
  unfold takeUpRings; try simp only []
  split <;> simp (maxDischargeDepth := 30) [*]

@[simp] theorem emptyFlow_latched (s : State) (a1 : Flow) (h : Latched s) : Latched (emptyFlow s a1) := by
  unfold emptyFlow; simp (maxDischargeDepth := 30) [*]

@[simp] theorem emptyFlows_latched (s : State) (h : Latched s) : Latched (emptyFlows s) := by
  unfold emptyFlows; try simp only []
  refine foldl_latched _ ?_ _ _ ?_; (intros; (repeat' split) <;> simp (maxDischargeDepth := 30) [*]); simp (maxDischargeDepth := 30) [*]

@[simp] theorem paramsInForce_latched (s : State) (h : Latched s) : Latched (paramsInForce s) := by
  unfold paramsInForce; simp (maxDischargeDepth := 30) [*]

@[simp] theorem weightsInForce_latched (s : State) (h : Latched s) : Latched (weightsInForce s) := by
  unfold weightsInForce; simp (maxDischargeDepth := 30) [*]

@[simp] theorem recheckLost_latched (s : State) (h : Latched s) : Latched (recheckLost s) := by
  unfold recheckLost; simp (maxDischargeDepth := 30) [*]

@[simp] theorem setStaged_latched (s : State) (a1 : Staged) (h : Latched s) : Latched (setStaged s a1) := by
  unfold setStaged; simp (maxDischargeDepth := 30) [*]

@[simp] theorem abandonLoad_latched (s : State) (h : Latched s) : Latched (abandonLoad s) := by
  unfold abandonLoad; simp (maxDischargeDepth := 30) [*]

@[simp] theorem beginLoad_latched (s : State) (h : Latched s) : Latched (beginLoad s) := by
  unfold beginLoad; try simp only []
  split <;> simp (maxDischargeDepth := 30) [*]

@[simp] theorem loadImagePiece_latched (s : State) (m : Msg) (h : Latched s) : LatchedR (loadImagePiece s m) := by
  have k := takePiece_latched s m h
  unfold loadImagePiece; simp only []
  split
  · simp [*]
  · split
    · trivial
    · split <;> rename_i x <;> simp only [x] at k
      · split <;> simp (maxDischargeDepth := 30) [*]
      · split <;> simp [*]
      · split <;> simp [*]

@[simp] theorem writeProfile_latched (s : State) (a1 : Nat × Bytes) (h : Latched s) :
    Latched (writeProfile s a1) := by
  unfold writeProfile; simp (maxDischargeDepth := 30) [*]

@[simp] theorem setProfile_latched (s : State) (a1 : Msg) (a2 : Nat) (a3 : Bytes) (h : Latched s) :
    Latched (setProfile s a1 a2 a3) := by
  unfold setProfile; simp (maxDischargeDepth := 30) [*]

@[simp] theorem execProfileSet_latched (s : State) (h : Latched s) : LatchedR (execProfileSet s) := by
  unfold execProfileSet; try simp only []
  (repeat' split) <;> simp_all (maxDischargeDepth := 30)

@[simp] theorem switchBanks_latched (s : State) (h : Latched s) : Latched (switchBanks s) := by
  unfold switchBanks; simp (maxDischargeDepth := 30) [*]

@[simp] theorem activateImage_latched (s : State) (a1 : Image) (h : Latched s) : Latched (activateImage s a1).1 := by
  unfold activateImage; try simp only []
  split <;> simp (maxDischargeDepth := 30) [*]

@[simp] theorem keepImage_latched (s : State) (a1 : Bytes) (a2 : Bool) (a3 : Msg) (h : Latched s) :
    Latched (keepImage s a1 a2 a3) := by
  unfold keepImage; simp (maxDischargeDepth := 30) [*]

@[simp] theorem execImageVerifyDone_latched (s : State) (h : Latched s) : LatchedR (execImageVerifyDone s) := by
  unfold execImageVerifyDone; try simp only []
  split <;> simp (maxDischargeDepth := 30) [*]

@[simp] theorem activateDue_latched (s : State) (h : Latched s) : Latched (activateDue s) := by
  unfold activateDue; try simp only []
  split <;> simp (maxDischargeDepth := 30) [*]

@[simp] theorem keepWeights_latched (s : State) (a1 : Msg) (a2 : Bytes) (h : Latched s) :
    Latched (keepWeights s a1 a2) := by
  unfold keepWeights; try simp only []
  split <;> simp (maxDischargeDepth := 30) [*]

@[simp] theorem execLoadTaskImage_latched (s : State) (h : Latched s) : LatchedR (execLoadTaskImage s) := by
  unfold execLoadTaskImage; try simp only []
  (repeat' split) <;> simp_all (maxDischargeDepth := 30)

@[simp] theorem profilesInForce_latched (s : State) (h : Latched s) : Latched (profilesInForce s) := by
  unfold profilesInForce; try simp only []
  refine foldl_latched _ ?_ _ _ ?_; (intros; (repeat' split) <;> simp (maxDischargeDepth := 30) [*]); simp (maxDischargeDepth := 30) [*]

@[simp] theorem execLoadWeights_latched (s : State) (h : Latched s) : LatchedR (execLoadWeights s) := by
  unfold execLoadWeights; try simp only []
  (repeat' split) <;> simp_all (maxDischargeDepth := 30)

@[simp] theorem setConfig_latched (s : State) (a1 : Msg) (h : Latched s) : Latched (setConfig s a1) := by
  unfold setConfig; simp (maxDischargeDepth := 30) [*]

@[simp] theorem execCycleConfig_latched (s : State) (h : Latched s) : LatchedR (execCycleConfig s) := by
  unfold execCycleConfig; try simp only []
  (repeat' split) <;> simp_all (maxDischargeDepth := 30)

@[simp] theorem scrambleTiles_latched (s : State) (a1 : Nat) (a2 : Nat) (h : Latched s) :
    Latched (scrambleTiles s a1 a2) := by
  unfold scrambleTiles; try simp only []
  refine foldl_latched _ ?_ _ _ ?_; (intros; (repeat' split) <;> simp (maxDischargeDepth := 30) [*]); simp (maxDischargeDepth := 30) [*]

@[simp] theorem applySetting_latched (s : State) (a1 : Nat) (a2 : Word) (h : Latched s) :
    Latched (applySetting s a1 a2) := by
  unfold applySetting; simp (maxDischargeDepth := 30) [*]

@[simp] theorem plainWrite_latched (s : State) (a1 : Nat) (a2 : Word) (h : Latched s) :
    LatchedE (plainWrite s a1 a2) := by
  unfold plainWrite; try simp only []
  split <;> simp (maxDischargeDepth := 30) [*]

@[simp] theorem applyWritten_latched (s : State) (h : Latched s) : Latched (applyWritten s) := by
  unfold applyWritten; try simp only []
  refine foldl_latched _ ?_ _ _ ?_; (intros; (repeat' split) <;> simp (maxDischargeDepth := 30) [*]); simp (maxDischargeDepth := 30) [*]

@[simp] theorem badAccess_latched (s : State) (h : Latched s) : Latched (badAccess s) := by
  unfold badAccess; simp (maxDischargeDepth := 30) [*]

@[simp] theorem execRegisterWrite_latched (a0 : Nat) (a1 : Word) (s : State) (h : Latched s) :
    LatchedR (execRegisterWrite a0 a1 s) := by
  unfold execRegisterWrite; simp (maxDischargeDepth := 30) [*]

@[simp] theorem entryEcc_latched (s : State) (a1 : CmdHeader) (h : Latched s) : Latched (entryEcc s a1) := by
  unfold entryEcc; try simp only []
  (repeat' split) <;> simp_all (maxDischargeDepth := 30)

@[simp] theorem routeRefuse_latched (s : State) (a1 : Msg) (a2 : Nat) (h : Latched s) :
    Latched (routeRefuse s a1 a2) := by
  unfold routeRefuse; simp (maxDischargeDepth := 30) [*]

@[simp] theorem takeEntry_latched (s : State) (a1 : CmdHeader) (h : Latched s) : Latched (takeEntry s a1) := by
  unfold takeEntry; simp (maxDischargeDepth := 30) [*]

@[simp] theorem routeEntry_latched (s : State) (a1 : CmdHeader) (h : Latched s) : Latched (routeEntry s a1) := by
  unfold routeEntry; try simp only []
  (repeat' split) <;> simp (maxDischargeDepth := 30) [*]

@[simp] theorem routeAll_latched (n : Nat) (s : State) (h : Latched s) : Latched (routeAll n s) := by
  induction n generalizing s with
  | zero => exact h
  | succ n ih => unfold routeAll; split <;> simp [ih, h]

@[simp] theorem routeRun_latched (s : State) (h : Latched s) : Latched (routeRun s) := by
  unfold routeRun; simp (maxDischargeDepth := 30) [*]

@[simp] theorem execCmdDoorbell_latched (a0 : Word) (s : State) (h : Latched s) :
    LatchedR (execCmdDoorbell a0 s) := by
  unfold execCmdDoorbell; simp (maxDischargeDepth := 30) [*]

@[simp] theorem execSafeRequest_latched (s : State) (h : Latched s) : LatchedR (execSafeRequest s) := by
  unfold execSafeRequest; try simp only []
  (repeat' split) <;> simp_all (maxDischargeDepth := 30)

@[simp] theorem clearRings_latched (s : State) (h : Latched s) : Latched (clearRings s) := by
  unfold clearRings; simp (maxDischargeDepth := 30) [*]

@[simp] theorem aoAnswer_latched (s : State) (a1 : Nat) (h : Latched s) : Latched (aoAnswer s a1) := by
  unfold aoAnswer; simp (maxDischargeDepth := 30) [*]

@[simp] theorem execAoResetArm_latched (a0 : Word) (s : State) (h : Latched s) : LatchedR (execAoResetArm a0 s) := by
  unfold execAoResetArm; simp (maxDischargeDepth := 30) [*]

@[simp] theorem execAoLogRead_latched (a0 : Nat) (a1 : Nat) (s : State) (h : Latched s) :
    LatchedR (execAoLogRead a0 a1 s) := by
  unfold execAoLogRead; simp (maxDischargeDepth := 30) [*]

@[simp] theorem loseHost_latched (s : State) (h : Latched s) : Latched (loseHost s) := by
  unfold loseHost; simp (maxDischargeDepth := 30) [*]

@[simp] theorem meetExpiry_latched (s : State) (h : Latched s) : Latched (meetExpiry s) := by
  unfold meetExpiry; simp (maxDischargeDepth := 30) [*]

@[simp] theorem logHost_latched (s : State) (a1 : Nat) (a2 : Bytes) (h : Latched s) : Latched (logHost s a1 a2) := by
  unfold logHost; simp (maxDischargeDepth := 30) [*]

@[simp] theorem restartTimer_latched (s : State) (h : Latched s) : Latched (restartTimer s) := by
  unfold restartTimer; simp (maxDischargeDepth := 30) [*]

@[simp] theorem helloCommon_latched (s : State) (a1 : Msg) (h : Latched s) : Latched (helloCommon s a1) := by
  unfold helloCommon; simp (maxDischargeDepth := 30) [*]

@[simp] theorem helloReattached_latched (s : State) (a1 : Msg) (h : Latched s) : Latched (helloReattached s a1) := by
  unfold helloReattached; simp (maxDischargeDepth := 30) [*]

@[simp] theorem execHelloReattach_latched (s : State) (h : Latched s) : LatchedR (execHelloReattach s) := by
  unfold execHelloReattach; try simp only []
  (repeat' split) <;> simp_all (maxDischargeDepth := 30)

@[simp] theorem queryRun_latched (s : State) (isIt : Msg → Bool) (f : Msg → State → State)
    (h : Latched s) (hf : ∀ m t, Latched t → Latched (f m t)) : LatchedR (queryRun s isIt f) := by
  unfold queryRun
  exact withFront_latched _ _ _ _ h fun m t h1 => by split <;> simp [hf m t h1]

@[simp] theorem execQueryWeightDir_latched (s : State) (h : Latched s) : LatchedR (execQueryWeightDir s) := by
  unfold execQueryWeightDir; try simp only []
  (repeat' split) <;> simp_all (maxDischargeDepth := 30)

@[simp] theorem execHeadWrite_latched (a0 : Nat) (a1 : Word) (s : State) (h : Latched s) :
    LatchedR (execHeadWrite a0 a1 s) := by
  unfold execHeadWrite; simp (maxDischargeDepth := 30) [*]

@[simp] theorem execAoSafeRequest_latched (s : State) (h : Latched s) : LatchedR (execAoSafeRequest s) := by
  unfold execAoSafeRequest; simp (maxDischargeDepth := 30) [*]

@[simp] theorem execHostLossExpiry_latched (s : State) (h : Latched s) : LatchedR (execHostLossExpiry s) := by
  unfold execHostLossExpiry; simp (maxDischargeDepth := 30) [*]

@[simp] theorem execMainbandDown_latched (s : State) (h : Latched s) : LatchedR (execMainbandDown s) := by
  unfold execMainbandDown; simp (maxDischargeDepth := 30) [*]

@[simp] theorem execQueryDevice_latched (s : State) (h : Latched s) : LatchedR (execQueryDevice s) := by
  unfold execQueryDevice; try simp only []
  (repeat' split) <;> simp_all (maxDischargeDepth := 30)

@[simp] theorem execSidebandLinkChange_latched (a0 : Bool) (s : State) (h : Latched s) :
    LatchedR (execSidebandLinkChange a0 s) := by
  unfold execSidebandLinkChange; simp (maxDischargeDepth := 30) [*]

@[simp] theorem replyMemPiece_latched (s : State) (a1 : Msg) (a2 : Nat) (a3 : Nat) (h : Latched s) :
    Latched (replyMemPiece s a1 a2 a3) := by
  unfold replyMemPiece; simp (maxDischargeDepth := 30) [*]

@[simp] theorem execQueryCkptRead_latched (s : State) (h : Latched s) : LatchedR (execQueryCkptRead s) := by
  unfold execQueryCkptRead; try simp only []
  (repeat' split) <;> simp_all (maxDischargeDepth := 30)

@[simp] theorem helloFresh_latched (s : State) (a1 : Msg) (h : Latched s) : Latched (helloFresh s a1) := by
  unfold helloFresh; simp (maxDischargeDepth := 30) [*]

@[simp] theorem execHello_latched (s : State) (h : Latched s) : LatchedR (execHello s) := by
  unfold execHello; try simp only []
  (repeat' split) <;> simp_all (maxDischargeDepth := 30)

@[simp] theorem execQueryFacts_latched (s : State) (h : Latched s) : LatchedR (execQueryFacts s) := by
  unfold execQueryFacts; try simp only []
  (repeat' split) <;> simp_all (maxDischargeDepth := 30)

@[simp] theorem execNtf_latched (a0 : Nat) (s : State) (h : Latched s) : LatchedR (execNtf a0 s) := by
  unfold execNtf; simp (maxDischargeDepth := 30) [*]

@[simp] theorem execHeartbeat_latched (s : State) (h : Latched s) : LatchedR (execHeartbeat s) := by
  unfold execHeartbeat; try simp only []
  (repeat' split) <;> simp_all (maxDischargeDepth := 30)

@[simp] theorem execReadCounters_latched (s : State) (h : Latched s) : LatchedR (execReadCounters s) := by
  unfold execReadCounters; try simp only []
  (repeat' split) <;> simp_all (maxDischargeDepth := 30)

@[simp] theorem execAoRead_latched (a0 : Nat) (s : State) (h : Latched s) : LatchedR (execAoRead a0 s) := by
  unfold execAoRead; simp (maxDischargeDepth := 30) [*]

@[simp] theorem execHostLossCfgWrite_latched (a0 : Word) (s : State) (h : Latched s) :
    LatchedR (execHostLossCfgWrite a0 s) := by
  unfold execHostLossCfgWrite; simp (maxDischargeDepth := 30) [*]

@[simp] theorem execMainbandUp_latched (a0 : Nat) (a1 : Bool) (s : State) (h : Latched s) :
    LatchedR (execMainbandUp a0 a1 s) := by
  unfold execMainbandUp; simp (maxDischargeDepth := 30) [*]

@[simp] theorem secPiece_latched (s : State) (a1 : Msg → Bool) (h : Latched s) : LatchedR (secPiece s a1) := by
  unfold secPiece; try simp only []
  (repeat' split) <;> simp_all (maxDischargeDepth := 30)

@[simp] theorem execLoadFirmware_latched (s : State) (h : Latched s) : LatchedR (execLoadFirmware s) := by
  unfold execLoadFirmware; simp (maxDischargeDepth := 30) [*]

@[simp] theorem mapProc_latched (s : State) (a1 : Nat) (a2 : Proc → Proc) (h : Latched s) :
    Latched (mapProc s a1 a2) := by
  unfold mapProc; simp (maxDischargeDepth := 30) [*]

@[simp] theorem runProc_latched (s : State) (a1 : Nat) (h : Latched s) : Latched (runProc s a1) := by
  unfold runProc; simp (maxDischargeDepth := 30) [*]

@[simp] theorem rejoinAll_latched (s : State) (h : Latched s) : Latched (rejoinAll s) := by
  unfold rejoinAll; try simp only []
  refine foldl_latched _ ?_ _ _ ?_; (intros; (repeat' split) <;> simp (maxDischargeDepth := 30) [*]); simp (maxDischargeDepth := 30) [*]

@[simp] theorem runFuses_latched (s : State) (a1 : Bytes) (a2 : Msg) (h : Latched s) :
    Latched (runFuses s a1 a2) := by
  unfold runFuses; try simp only []
  (repeat' split) <;> simp (maxDischargeDepth := 30) [*]

@[simp] theorem activateFw_latched (s : State) (a1 : FwImage) (h : Latched s) : Latched (activateFw s a1) := by
  unfold activateFw; simp (maxDischargeDepth := 30) [*]

@[simp] theorem blowRb_latched (s : State) (a1 : FwImage) (h : Latched s) : Latched (blowRb s a1) := by
  unfold blowRb; simp (maxDischargeDepth := 30) [*]

@[simp] theorem latigoListsDue_latched (s : State) (h : Latched s) : Latched (latigoListsDue s) := by
  unfold latigoListsDue; try simp only []
  split <;> simp (maxDischargeDepth := 30) [*]

@[simp] theorem switchCode_latched (s : State) (a1 : Nat) (h : Latched s) : Latched (switchCode s a1) := by
  unfold switchCode; try simp only []
  split <;> simp (maxDischargeDepth := 30) [*]

@[simp] theorem replyIf_latched (s : State) (a1 : Option Msg) (a2 : Nat) (h : Latched s) :
    Latched (replyIf s a1 a2) := by
  unfold replyIf; try simp only []
  split <;> simp (maxDischargeDepth := 30) [*]

@[simp] theorem execPlannedRestartDone_latched (a0 : Nat) (s : State) (h : Latched s) :
    LatchedR (execPlannedRestartDone a0 s) := by
  unfold execPlannedRestartDone; simp (maxDischargeDepth := 30) [*]

@[simp] theorem execFuseRequest_latched (s : State) (h : Latched s) : LatchedR (execFuseRequest s) := by
  unfold execFuseRequest; simp (maxDischargeDepth := 30) [*]

@[simp] theorem stageFw_latched (s : State) (a1 : FwImage) (h : Latched s) : Latched (stageFw s a1) := by
  unfold stageFw; simp (maxDischargeDepth := 30) [*]

@[simp] theorem setStage_latched (s : State) (a1 : Nat) (h : Latched s) : Latched (setStage s a1) := by
  unfold setStage; simp (maxDischargeDepth := 30) [*]

@[simp] theorem startProc_latched (s : State) (a1 : Nat) (h : Latched s) : Latched (startProc s a1) := by
  unfold startProc; simp (maxDischargeDepth := 30) [*]

@[simp] theorem endWaitRest_latched (s : State) (h : Latched s) : Latched (endWaitRest s) := by
  unfold endWaitRest; try simp only []
  refine foldl_latched _ ?_ _ _ ?_; (intros; (repeat' split) <;> simp (maxDischargeDepth := 30) [*]); simp (maxDischargeDepth := 30) [*]

@[simp] theorem takeBootImage_latched (s : State) (a1 : FwImage) (h : Latched s) : Latched (takeBootImage s a1) := by
  unfold takeBootImage; simp (maxDischargeDepth := 30) [*]

@[simp] theorem verifyFw_latched (s : State) (a1 : Bytes) (a2 : Nat) (a3 : Msg) (h : Latched s) :
    Latched (verifyFw s a1 a2 a3) := by
  unfold verifyFw; simp (maxDischargeDepth := 30) [*]

@[simp] theorem execFwVerifyDone_latched (s : State) (h : Latched s) : LatchedR (execFwVerifyDone s) := by
  unfold execFwVerifyDone; try simp only []
  split <;> simp (maxDischargeDepth := 30) [*]

@[simp] theorem abandonVerify_latched (s : State) (h : Latched s) : Latched (abandonVerify s) := by
  unfold abandonVerify; try simp only []
  (repeat' split) <;> simp (maxDischargeDepth := 30) [*]

@[simp] theorem answerQueue_latched (s : State) (a1 : Owner) (h : Latched s) : Latched (answerQueue s a1) := by
  unfold answerQueue; try simp only []
  refine foldl_latched _ ?_ _ _ ?_; (intros; (repeat' split) <;> simp (maxDischargeDepth := 30) [*]); simp (maxDischargeDepth := 30) [*]

@[simp] theorem dropBegun_latched (s : State) (h : Latched s) : Latched (dropBegun s) := by
  unfold dropBegun; simp (maxDischargeDepth := 30) [*]

@[simp] theorem dropPieces_latched (s : State) (a1 : Owner) (h : Latched s) : Latched (dropPieces s a1) := by
  unfold dropPieces; simp (maxDischargeDepth := 30) [*]

@[simp] theorem loseProc_latched (s : State) (a1 : Nat) (h : Latched s) : Latched (loseProc s a1) := by
  unfold loseProc; try simp only []
  (repeat' split) <;> simp (maxDischargeDepth := 30) [*]

@[simp] theorem reportRestart_latched (s : State) (a1 : Nat) (a2 : Nat) (h : Latched s) :
    Latched (reportRestart s a1 a2) := by
  unfold reportRestart; simp (maxDischargeDepth := 30) [*]

@[simp] theorem crashRestart_latched (s : State) (a1 : Nat) (a2 : Nat) (a3 : Option Msg) (h : Latched s) :
    Latched (crashRestart s a1 a2 a3) := by
  unfold crashRestart; simp (maxDischargeDepth := 30) [*]

@[simp] theorem crash_latched (s : State) (a1 : Nat) (a2 : Nat) (h : Latched s) : Latched (crash s a1 a2) := by
  unfold crash; try simp only []
  split <;> simp (maxDischargeDepth := 30) [*]

@[simp] theorem fwMemError_latched (s : State) (a1 : Nat) (h : Latched s) : Latched (fwMemError s a1) := by
  unfold fwMemError; simp (maxDischargeDepth := 30) [*]

@[simp] theorem execFwMemEcc_latched (a0 : Nat) (s : State) (h : Latched s) : LatchedR (execFwMemEcc a0 s) := by
  unfold execFwMemEcc; simp (maxDischargeDepth := 30) [*]

@[simp] theorem askRestart_latched (s : State) (a1 : Msg) (a2 : Nat) (h : Latched s) :
    Latched (askRestart s a1 a2) := by
  unfold askRestart; try simp only []
  split <;> simp (maxDischargeDepth := 30) [*]

@[simp] theorem execRestartProcessor_latched (s : State) (h : Latched s) : LatchedR (execRestartProcessor s) := by
  unfold execRestartProcessor; try simp only []
  (repeat' split) <;> simp_all (maxDischargeDepth := 30)

@[simp] theorem reloadFailed_latched (s : State) (a1 : Nat) (h : Latched s) : Latched (reloadFailed s a1) := by
  unfold reloadFailed; try simp only []
  (repeat' split) <;> simp (maxDischargeDepth := 30) [*]

@[simp] theorem execPlannedRestartBegin_latched (a0 : Nat) (s : State) (h : Latched s) :
    LatchedR (execPlannedRestartBegin a0 s) := by
  unfold execPlannedRestartBegin; simp (maxDischargeDepth := 30) [*]

@[simp] theorem execAttest_latched (s : State) (h : Latched s) : LatchedR (execAttest s) := by
  unfold execAttest; try simp only []
  (repeat' split) <;> simp_all (maxDischargeDepth := 30)

@[simp] theorem reloaded_latched (s : State) (a1 : Nat) (h : Latched s) : Latched (reloaded s a1) := by
  unfold reloaded; try simp only []
  (repeat' split) <;> simp (maxDischargeDepth := 30) [*]

@[simp] theorem execInternalFatalException_latched (a0 : Nat) (s : State) (h : Latched s) :
    LatchedR (execInternalFatalException a0 s) := by
  unfold execInternalFatalException; simp (maxDischargeDepth := 30) [*]

@[simp] theorem execFwReloadDone_latched (a0 : Nat) (a1 : Bool) (s : State) (h : Latched s) :
    LatchedR (execFwReloadDone a0 a1 s) := by
  unfold execFwReloadDone; simp (maxDischargeDepth := 30) [*]

@[simp] theorem execWatchdogExpiry_latched (a0 : Nat) (s : State) (h : Latched s) :
    LatchedR (execWatchdogExpiry a0 s) := by
  unfold execWatchdogExpiry; simp (maxDischargeDepth := 30) [*]

@[simp] theorem restoreTree_latched (s : State) (bs : Bytes) (l : List Bytes) (h : Latched s) :
    LatchedO (restoreTree s bs l) := by
  unfold restoreTree; (try simp only []); (repeat' split) <;> simp_all (maxDischargeDepth := 30)

@[simp] theorem restoreRest_latched (s : State) (a1 : Bytes) (a2 : List Bytes) (h : Latched s) :
    Latched (restoreRest s a1 a2) := by
  unfold restoreRest; try simp only []
  (repeat' split) <;> simp_all (maxDischargeDepth := 30)

@[simp] theorem restoreCkpt_latched (s : State) (h : Latched s) : Latched (restoreCkpt s).2 := by
  unfold restoreCkpt; simp only []
  split
  · simp [*]
  · split
    · simp [*]
    · split
      · simp [*]
      · rename_i l _ _ t e
        have k := restoreTree_latched s (ckptStored s) (treeSection (l.getD 5 [])) h
        rw [e] at k; simp [show Latched t from k]

@[simp] theorem setAck_latched (s : State) (a1 : Inst) (a2 : Nat) (a3 : Nat) (h : Latched s) :
    Latched (setAck s a1 a2 a3) := by
  unfold setAck; simp (maxDischargeDepth := 30) [*]

@[simp] theorem putHeader_latched (s : State) (a1 : Nat) (a2 : Bytes) (a3 : Nat) (a4 : Nat) (h : Latched s) :
    Latched (putHeader s a1 a2 a3 a4) := by
  unfold putHeader; simp (maxDischargeDepth := 30) [*]

@[simp] theorem closeRows_latched (s : State) (a1 : Inst) (a2 : Bytes) (a3 : SweepRun) (h : Latched s) :
    Latched (closeRows s a1 a2 a3).1 := by
  unfold closeRows; try simp only []
  refine foldl_latched _ ?_ _ _ ?_; (intros; (repeat' split) <;> simp (maxDischargeDepth := 30) [*]); simp (maxDischargeDepth := 30) [*]

@[simp] theorem putRecord_latched (s : State) (a1 : Nat) (a2 : Bytes) (a3 : Nat) (a4 : Nat) (a5 : Bytes)
    (h : Latched s) :
    Latched (putRecord s a1 a2 a3 a4 a5) := by
  unfold putRecord; simp (maxDischargeDepth := 30) [*]

@[simp] theorem countSweep_latched (s : State) (a1 : Inst) (a2 : CycleCounts → CycleCounts) (h : Latched s) :
    Latched (countSweep s a1 a2) := by
  unfold countSweep; simp (maxDischargeDepth := 30) [*]

@[simp] theorem takeCut_latched (s : State) (a1 : Inst) (a2 : Bytes) (a3 : SweepRun) (h : Latched s) :
    Latched (takeCut s a1 a2 a3).1 := by
  unfold takeCut; try simp only []
  (repeat' split) <;> simp_all (maxDischargeDepth := 30)

@[simp] theorem askLines_latched (s : State) (a1 : Nat) (a2 : List Nat) (h : Latched s) :
    Latched (askLines s a1 a2) := by
  unfold askLines; try simp only []
  refine foldl_latched _ ?_ _ _ ?_; (intros; (repeat' split) <;> simp (maxDischargeDepth := 30) [*]); simp (maxDischargeDepth := 30) [*]

@[simp] theorem takePair_latched (s : State) (a1 : Inst) (a2 : Bytes) (a3 : SweepRun) (a4 : Nat) (a5 : Nat)
    (a6 : List (Nat × Nat)) (h : Latched s) :
    Latched (takePair s a1 a2 a3 a4 a5 a6).1 := by
  unfold takePair; try simp only []
  split <;> simp (maxDischargeDepth := 30) [*]

@[simp] theorem fillLanes_latched (i : Inst) (d : Bytes) (n : Nat) (s : State) (w : SweepRun) (h : Latched s) :
    Latched (fillLanes i d n s w).1 := by
  induction n generalizing s w with
  | zero => exact h
  | succ n ih => unfold fillLanes; simp only []; (repeat' split) <;> simp [ih, h]

@[simp] theorem sweepGo_latched (s : State) (a1 : Inst) (a2 : Bytes) (a3 : SweepRun) (h : Latched s) :
    Latched (sweepGo s a1 a2 a3) := by
  unfold sweepGo; simp (maxDischargeDepth := 30) [*]

@[simp] theorem answerReport_latched (s : State) (a1 : Inst) (a2 : Bytes) (a3 : SweepRun) (h : Latched s) :
    Latched (answerReport s a1 a2 a3) := by
  unfold answerReport; simp (maxDischargeDepth := 30) [*]

@[simp] theorem countLine_latched (s : State) (a1 : Nat) (a2 : Nat) (h : Latched s) :
    Latched (countLine s a1 a2) := by
  unfold countLine; try simp only []
  refine foldl_latched _ ?_ _ _ ?_; (intros; (repeat' split) <;> simp (maxDischargeDepth := 30) [*]); simp (maxDischargeDepth := 30) [*]

@[simp] theorem lineLost_latched (s : State) (a1 : Nat) (a2 : Nat) (h : Latched s) : Latched (lineLost s a1 a2) := by
  unfold lineLost; simp (maxDischargeDepth := 30) [*]

@[simp] theorem lineFails_latched (s : State) (a1 : Nat) (a2 : Nat) (h : Latched s) :
    Latched (lineFails s a1 a2) := by
  unfold lineFails; simp (maxDischargeDepth := 30) [*]

@[simp] theorem execCacheFill_latched (a0 : Nat) (a1 : Nat) (a2 : Bool) (s : State) (h : Latched s) :
    LatchedR (execCacheFill a0 a1 a2 s) := by
  unfold execCacheFill; simp (maxDischargeDepth := 30) [*]

@[simp] theorem holdSample_latched (s : State) (a1 : Inst) (a2 : Nat) (a3 : Nat) (h : Latched s) :
    Latched (holdSample s a1 a2 a3) := by
  unfold holdSample; try simp only []
  split <;> simp (maxDischargeDepth := 30) [*]

@[simp] theorem startSweep_latched (s : State) (a1 : Inst) (a2 : Bytes) (a3 : Nat) (h : Latched s) :
    Latched (startSweep s a1 a2 a3) := by
  unfold startSweep; simp (maxDischargeDepth := 30) [*]

@[simp] theorem pairDone_latched (s : State) (a1 : Inst) (a2 : Bytes) (a3 : SweepRun) (a4 : Nat) (a5 : Nat)
    (a6 : List (Nat × Nat)) (h : Latched s) :
    Latched (pairDone s a1 a2 a3 a4 a5 a6) := by
  unfold pairDone; simp (maxDischargeDepth := 30) [*]

@[simp] theorem execSweepPairDone_latched (a0 : Nat) (a1 : Nat) (s : State) (h : Latched s) :
    LatchedR (execSweepPairDone a0 a1 s) := by
  unfold execSweepPairDone; try simp only []
  (repeat' split) <;> simp (maxDischargeDepth := 30) [*]

@[simp] theorem execSweep_latched (a0 : Nat) (a1 : Nat) (s : State) (h : Latched s) :
    LatchedR (execSweep a0 a1 s) := by
  unfold execSweep
  try split
  all_goals first
  | (simp (maxDischargeDepth := 30) [*]; done)
  | (refine issueDesc_latched _ _ _ _ _ h ?_
     intro s i d k h
     simp only [sweepRun]
     first
     | (simp (maxDischargeDepth := 30) [*]; done)
     | ((repeat' split) <;> simp (maxDischargeDepth := 30) [*]; done))

@[simp] theorem execSweepStartReport_latched (a0 : Nat) (a1 : Nat) (s : State) (h : Latched s) :
    LatchedR (execSweepStartReport a0 a1 s) := by
  unfold execSweepStartReport; try simp only []
  (repeat' split) <;> simp (maxDischargeDepth := 30) [*]

@[simp] theorem latigoMatch_latched (s : State) (a1 : Option Bytes × Bool) (h : Latched s) :
    Latched (latigoMatch s a1) := by
  unfold latigoMatch; simp (maxDischargeDepth := 30) [*]

@[simp] theorem completeLatigo_latched (s : State) (h : Latched s) : Latched (completeLatigo s) := by
  unfold completeLatigo; simp (maxDischargeDepth := 30) [*]

@[simp] theorem latigoBlind_latched (s : State) (a1 : Nat × Nat) (h : Latched s) : Latched (latigoBlind s a1) := by
  unfold latigoBlind; simp (maxDischargeDepth := 30) [*]

@[simp] theorem startCopy_latched (s : State) (t : Nat) (hs : Latched s) : Latched (startCopy s t) := by
  have k := spendTokens_latched s (1, t) 1 hs
  unfold startCopy; split
  · exact hs
  · split
    · split
      · rename_i e; rw [e] at k; simp [show Latched _ from k]
      · simp [hs]
    · simp [hs]

@[simp] theorem startCopies_latched (s : State) (h : Latched s) : Latched (startCopies s) := by
  unfold startCopies
  exact foldl_latched _ (fun s x h => startCopy_latched s x h) _ _ h

@[simp] theorem startLatigo_latched (s : State) (a1 : Nat) (a2 : Nat) (h : Latched s) :
    Latched (startLatigo s a1 a2) := by
  unfold startLatigo; try simp only []
  (repeat' split) <;> simp_all (maxDischargeDepth := 30)

@[simp] theorem replayStart_latched (s : State) (h : Latched s) : Latched (replayStart s) := by
  unfold replayStart; try simp only []
  split <;> simp (maxDischargeDepth := 30) [*]

@[simp] theorem execLatigoComplete_latched (s : State) (h : Latched s) : LatchedR (execLatigoComplete s) := by
  unfold execLatigoComplete; simp (maxDischargeDepth := 30) [*]

@[simp] theorem putF_latched (s : State) (a1 : Solve) (a2 : Nat) (a3 : Num) (h : Latched s) :
    Latched (putF s a1 a2 a3) := by
  unfold putF; simp (maxDischargeDepth := 30) [*]

@[simp] theorem accGroup_latched (s : State) (c : Solve) (g : Nat) (h : Latched s) : LatchedO (accGroup s c g) := by
  unfold accGroup; simp only []
  split
  · trivial
  · exact latchedO_some.2 (foldl_latched _ (fun s x h => by simp [h]) _ _ (foldl_latched _ (fun s x h => by split <;> simp [h]) _ _ h))

@[simp] theorem pointBack_latched (a0 : Solve) (a1 : SolveStep) (s : State) (h : Latched s) :
    Latched (pointBack a0 a1 s).1 := by
  unfold pointBack; try simp only []
  (repeat' split) <;> simp_all (maxDischargeDepth := 30)

theorem tryThen_latched {x : SolveTry} {f : State → SolveTry} (hx : Latched x.1) (hf : ∀ t, Latched t → Latched (f t).1) :
    Latched (tryThen x f).1 := by
  unfold tryThen; split
  · exact hf _ hx
  · exact hx

theorem tryAll_latched {α : Type} (f : State → α → SolveTry) (l : List α) (s : State) (h : Latched s)
    (hf : ∀ t a, Latched t → Latched (f t a).1) : Latched (tryAll f l s).1 :=
  foldl_latched2 _ (fun _ a h => tryThen_latched h fun t h => hf t a h) l (s, none) h

@[simp] theorem bwdStep_latched (c : Solve) (n : Panel) (s : State) (h : Latched s) : Latched (bwdStep c n s).1 := by
  unfold bwdStep
  refine tryAll_latched _ _ _ h ?_
  intro s x h; simp only []; split <;> simp [*]

@[simp] theorem diagStep_latched (a0 : Solve) (s : State) (h : Latched s) : Latched (diagStep a0 s) := by
  unfold diagStep; try simp only []
  (repeat' split) <;> simp_all (maxDischargeDepth := 30)

@[simp] theorem fwdStep_latched (a0 : Solve) (a1 : Panel) (s : State) (h : Latched s) :
    Latched (fwdStep a0 a1 s) := by
  unfold fwdStep; try simp only []
  refine foldl_latched _ ?_ _ _ ?_; (intros; (repeat' split) <;> simp (maxDischargeDepth := 30) [*]); simp (maxDischargeDepth := 30) [*]

@[simp] theorem trialStep_latched (a0 : Solve) (s : State) (h : Latched s) : Latched (trialStep a0 s) := by
  unfold trialStep; try simp only []
  refine foldl_latched _ ?_ _ _ ?_; (intros; (repeat' split) <;> simp (maxDischargeDepth := 30) [*]); simp (maxDischargeDepth := 30) [*]

@[simp] theorem substStep_latched (a0 : Solve) (a1 : SolveStep) (s : State) (h : Latched s) :
    Latched (substStep a0 a1 s).1 := by
  unfold substStep; try simp only []
  (repeat' split) <;> simp (maxDischargeDepth := 30) [*]

@[simp] theorem subFrame_latched (a0 : Solve) (s : State) (a2 : Nat) (a3 : Nat) (a4 : List (Num × Num × Num))
    (h : Latched s) :
    Latched (subFrame a0 s a2 a3 a4) := by
  unfold subFrame; try simp only []
  split <;> simp (maxDischargeDepth := 30) [*]

@[simp] theorem snUpdate_latched (c : Solve) (src tgt : Panel) (s : State) (h : Latched s) :
    Latched (snUpdate c src tgt s) := by
  unfold snUpdate; simp only []
  refine foldl_latched _ ?_ _ _ h
  intro s x h; split
  · exact h
  · refine foldl_latched _ ?_ _ _ h
    intro s x h; split <;> simp [h]

@[simp] theorem ldlColumn_latched (c : Solve) (addr : Nat → Nat → Nat) (h col0 : Nat) (s : State) (j : Nat)
    (hs : Latched s) :
    Latched (ldlColumn c addr h col0 s j).1 := by
  unfold ldlColumn; simp only []
  split
  · exact hs
  · split
    · exact hs
    · split
      · exact hs
      · exact foldl_latched _ (fun s x h => by simp [h]) _ _ hs

@[simp] theorem ldl_latched (c : Solve) (addr : Nat → Nat → Nat) (w h col0 : Nat) (s : State) (hs : Latched s) :
    Latched (ldl c addr w h col0 s).1 := by
  unfold ldl
  exact tryAll_latched _ _ _ hs fun s x h1 => ldlColumn_latched _ _ _ _ _ _ h1

@[simp] theorem elimPoint_latched (c : Solve) (st : SolveStep) (s : State) (h : Latched s) :
    Latched (elimPoint c st s).1 := by
  unfold elimPoint
  refine tryThen_latched (ldl_latched _ _ _ _ _ _ h) ?_
  intro s h; simp only []
  split
  · exact h
  · exact foldl_latched _ (fun s x h => by simp [h]) _ _ (foldl_latched _ (fun s x h => foldl_latched _ (fun s x h => by simp [h]) _ _ h) _ _ h)

@[simp] theorem factorStep_latched (a0 : Solve) (a1 : SolveStep) (s : State) (h : Latched s) :
    Latched (factorStep a0 a1 s).1 := by
  unfold factorStep; try simp only []
  (repeat' split) <;> simp (maxDischargeDepth := 30) [*]

@[simp] theorem loadDamped_latched (s : State) (a1 : Solve) (a2 : Num) (a3 : Bool) (h : Latched s) :
    Latched (loadDamped s a1 a2 a3).1 := by
  unfold loadDamped; try simp only []
  (repeat' split) <;> simp_all (maxDischargeDepth := 30)

@[simp] theorem zeroStep_latched (s : State) (a1 : Solve) (h : Latched s) : Latched (zeroStep s a1) := by
  unfold zeroStep; simp (maxDischargeDepth := 30) [*]

@[simp] theorem applyWrites_latched (s : State) (a1 : Nat) (a2 : List (Nat × Bytes)) (h : Latched s) :
    Latched (applyWrites s a1 a2) := by
  unfold applyWrites; try simp only []
  refine foldl_latched _ ?_ _ _ ?_; (intros; (repeat' split) <;> simp (maxDischargeDepth := 30) [*]); simp (maxDischargeDepth := 30) [*]

@[simp] theorem takeSolveCut_latched (s : State) (a1 : Inst) (a2 : Solve) (h : Latched s) :
    Latched (takeSolveCut s a1 a2) := by
  unfold takeSolveCut; simp (maxDischargeDepth := 30) [*]

@[simp] theorem concludeSolve_latched (s : State) (a1 : Inst) (a2 : Solve) (a3 : Nat) (a4 : Ctrl) (a5 : List
    (Nat × Bytes)) (h : Latched s) :
    Latched (concludeSolve s a1 a2 a3 a4 a5) := by
  unfold concludeSolve; try simp only []
  (repeat' split) <;> simp (maxDischargeDepth := 30) [*]

@[simp] theorem endSolve_latched (s : State) (a1 : Inst) (a2 : Solve) (a3 : Nat) (a4 : Nat) (a5 : Nat)
    (h : Latched s) :
    Latched (endSolve s a1 a2 a3 a4 a5) := by
  unfold endSolve; simp (maxDischargeDepth := 30) [*]

@[simp] theorem freeFlags_latched (s : State) (a1 : Inst) (h : Latched s) : Latched (freeFlags s a1) := by
  unfold freeFlags; simp (maxDischargeDepth := 30) [*]

@[simp] theorem runSubst_latched (s : State) (i : Inst) (c : Solve) (d : Bytes) (idx : Nat) (h : Latched s) :
    LatchedE (runSubst s i c d idx) := by
  have k := tryAll_latched (fun t st => substStep c st t) (stepsOf c 2 d) s h fun t a h => substStep_latched _ _ _ h
  unfold runSubst; simp only []; split <;> simp [k]

@[simp] theorem cutSolve_latched (s : State) (a1 : Inst) (h : Latched s) : Latched (cutSolve s a1) := by
  unfold cutSolve; try simp only []
  split <;> simp (maxDischargeDepth := 30) [*]

@[simp] theorem assembleSteps_latched (s : State) (c : Solve) (l : List SolveStep) (h : Latched s) :
    LatchedO (assembleSteps s c l) := by
  induction l generalizing s with
  | nil => exact h
  | cons x l ih =>
    unfold assembleSteps; split
    · exact ih _ (by simp [h])
    · have k := foldlM_latchedO (fun u k => accGroup u c (x.a + k)) (fun s y h1 => accGroup_latched _ _ _ h1) (List.range x.b) s h
      split
      · rename_i e; rw [e] at k; exact ih _ k
      · trivial

@[simp] theorem runAssemble_latched (s : State) (i : Inst) (c : Solve) (d : Bytes) (h : Latched s) :
    LatchedE (runAssemble s i c d) := by
  have k := assembleSteps_latched s c (stepsOf c 0 d) h
  unfold runAssemble; split
  · trivial
  · rename_i e; rw [e] at k; simp [show Latched _ from k]

@[simp] theorem refuseReport_latched (s : State) (a1 : Inst) (a2 : Solve) (h : Latched s) :
    Latched (refuseReport s a1 a2) := by
  unfold refuseReport; simp (maxDischargeDepth := 30) [*]

@[simp] theorem factorOne_latched (a0 : Solve) (a1 : Num) (a2 : SolveStep) (a3 : SolveWork) (s : State)
    (h : Latched s) :
    Latched (factorOne a0 a1 a2 a3 s).2.1 := by
  unfold factorOne; try simp only []
  split <;> simp (maxDischargeDepth := 30) [*]

@[simp] theorem factorSteps_latched (c : Solve) (mu : Num) (l : List SolveStep) (w : SolveWork) (s : State) (h : Latched s) :
    Latched (factorSteps c mu l w s).2.1 := by
  induction l generalizing s w with
  | nil => exact h
  | cons x l ih =>
    have k := factorOne_latched c mu x w s h
    unfold factorSteps; simp only []; split
    · exact ih _ _ k
    · exact k

@[simp] theorem finishFactor_latched (i : Inst) (c : Solve) (idx : Nat) (r : SolveWork × SolveTry) (h : Latched r.2.1) :
    Latched (finishFactor i c idx r) := by
  unfold finishFactor; simp only []; split <;> simp [h]

@[simp] theorem refactor_latched (a0 : Solve) (a1 : Num) (a2 : Bytes) (a3 : Nat) (a4 : SolveWork) (s : State)
    (h : Latched s) :
    Latched (refactor a0 a1 a2 a3 a4 s).2.1 := by
  unfold refactor; simp (maxDischargeDepth := 30) [*]

@[simp] theorem runFactor_latched (s : State) (i : Inst) (c : Solve) (d : Bytes) (idx : Nat) (h : Latched s) :
    LatchedE (runFactor s i c d idx) := by
  unfold runFactor; simp only []
  split
  · refine latchedE_ok.2 (finishFactor_latched _ _ _ _ ?_); split <;> simp [h]
  · exact latchedE_ok.2 (finishFactor_latched _ _ _ _ (factorSteps_latched _ _ _ _ _ h))

@[simp] theorem runUpdate_latched (s : State) (a1 : Inst) (a2 : Solve) (a3 : Nat) (h : Latched s) :
    LatchedE (runUpdate s a1 a2 a3) := by
  unfold runUpdate; simp (maxDischargeDepth := 30) [*]

@[simp] theorem solveWorks_latched (s : State) (a1 : Inst) (a2 : Solve) (a3 : Nat) (a4 : Bytes) (a5 : Nat)
    (h : Latched s) :
    LatchedE (solveWorks s a1 a2 a3 a4 a5) := by
  unfold solveWorks; simp (maxDischargeDepth := 30) [*]

@[simp] theorem solveDesc_latched (a0 : Nat) (s : State) (a2 : Inst) (a3 : Bytes) (a4 : Nat) (h : Latched s) :
    LatchedE (solveDesc a0 s a2 a3 a4) := by
  unfold solveDesc; simp (maxDischargeDepth := 30) [*]

@[simp] theorem execSolveAssemble_latched (a0 : Nat) (a1 : Nat) (s : State) (h : Latched s) :
    LatchedR (execSolveAssemble a0 a1 s) := by
  unfold execSolveAssemble
  try split
  all_goals first
  | (simp (maxDischargeDepth := 30) [*]; done)
  | (refine issueDesc_latched _ _ _ _ _ h ?_
     intro s i d k h
     simp only [solveRun]
     first
     | (simp (maxDischargeDepth := 30) [*]; done)
     | ((repeat' split) <;> simp (maxDischargeDepth := 30) [*]; done))

@[simp] theorem recordReport_latched (s : State) (a1 : Inst) (a2 : SolveWork) (a3 : Nat × Nat) (h : Latched s) :
    Latched (recordReport s a1 a2 a3) := by
  unfold recordReport; simp (maxDischargeDepth := 30) [*]

@[simp] theorem acceptReport_latched (s : State) (a1 : Inst) (a2 : Solve) (a3 : SolveRun) (h : Latched s) :
    Latched (acceptReport s a1 a2 a3) := by
  unfold acceptReport; simp (maxDischargeDepth := 30) [*]

@[simp] theorem answerSolve_latched (s : State) (a1 : Inst) (a2 : Solve) (a3 : SolveRun) (h : Latched s) :
    Latched (answerSolve s a1 a2 a3) := by
  unfold answerSolve; try simp only []
  (repeat' split) <;> simp (maxDischargeDepth := 30) [*]

@[simp] theorem execSolveReport_latched (a0 : Nat) (a1 : Nat) (s : State) (h : Latched s) :
    LatchedR (execSolveReport a0 a1 s) := by
  unfold execSolveReport; try simp only []
  (repeat' split) <;> simp (maxDischargeDepth := 30) [*]

@[simp] theorem execSolveSubst_latched (a0 : Nat) (a1 : Nat) (s : State) (h : Latched s) :
    LatchedR (execSolveSubst a0 a1 s) := by
  unfold execSolveSubst
  try split
  all_goals first
  | (simp (maxDischargeDepth := 30) [*]; done)
  | (refine issueDesc_latched _ _ _ _ _ h ?_
     intro s i d k h
     simp only [solveRun]
     first
     | (simp (maxDischargeDepth := 30) [*]; done)
     | ((repeat' split) <;> simp (maxDischargeDepth := 30) [*]; done))

@[simp] theorem execSolveUpdate_latched (a0 : Nat) (a1 : Nat) (s : State) (h : Latched s) :
    LatchedR (execSolveUpdate a0 a1 s) := by
  unfold execSolveUpdate
  try split
  all_goals first
  | (simp (maxDischargeDepth := 30) [*]; done)
  | (refine issueDesc_latched _ _ _ _ _ h ?_
     intro s i d k h
     simp only [solveRun]
     first
     | (simp (maxDischargeDepth := 30) [*]; done)
     | ((repeat' split) <;> simp (maxDischargeDepth := 30) [*]; done))

@[simp] theorem execSolveFactor_latched (a0 : Nat) (a1 : Nat) (s : State) (h : Latched s) :
    LatchedR (execSolveFactor a0 a1 s) := by
  unfold execSolveFactor
  try split
  all_goals first
  | (simp (maxDischargeDepth := 30) [*]; done)
  | (refine issueDesc_latched _ _ _ _ _ h ?_
     intro s i d k h
     simp only [solveRun]
     first
     | (simp (maxDischargeDepth := 30) [*]; done)
     | ((repeat' split) <;> simp (maxDischargeDepth := 30) [*]; done))

@[simp] theorem stopBecomesEffective_latched (s : State) (h : Latched s) : Latched (stopBecomesEffective s) := by
  unfold stopBecomesEffective; simp (maxDischargeDepth := 30) [*]

@[simp] theorem stopEnWrite_latched (s : State) (a1 : Word) (h : Latched s) : LatchedE (stopEnWrite s a1) := by
  unfold stopEnWrite; simp (maxDischargeDepth := 30) [*]

@[simp] theorem execStopEnWrite_latched (a0 : Word) (s : State) (h : Latched s) :
    LatchedR (execStopEnWrite a0 s) := by
  unfold execStopEnWrite; simp (maxDischargeDepth := 30) [*]

@[simp] theorem execFpToggle_latched (s : State) (h : Latched s) : LatchedR (execFpToggle s) := by
  unfold execFpToggle; simp (maxDischargeDepth := 30) [*]

@[simp] theorem execFpReadback_latched (a0 : Nat) (s : State) (h : Latched s) : LatchedR (execFpReadback a0 s) := by
  unfold execFpReadback; simp (maxDischargeDepth := 30) [*]

@[simp] theorem execStopInputActive_latched (s : State) (h : Latched s) : LatchedR (execStopInputActive s) := by
  unfold execStopInputActive; simp (maxDischargeDepth := 30) [*]

@[simp] theorem execStopInputInactive_latched (s : State) (h : Latched s) : LatchedR (execStopInputInactive s) := by
  unfold execStopInputInactive; simp (maxDischargeDepth := 30) [*]

@[simp] theorem deadlineRecord_latched (s : State) (h : Latched s) : Latched (deadlineRecord s) := by
  unfold deadlineRecord; simp (maxDischargeDepth := 30) [*]

@[simp] theorem stopLatigo_latched (s : State) (h : Latched s) : Latched (stopLatigo s) := by
  unfold stopLatigo; simp (maxDischargeDepth := 30) [*]

@[simp] theorem settleDeadline_latched (s : State) (h : Latched s) : Latched (settleDeadline s) := by
  unfold settleDeadline; simp (maxDischargeDepth := 30) [*]

@[simp] theorem settleIfDue_latched (s : State) (h : Latched s) : Latched (settleIfDue s) := by
  unfold settleIfDue; simp (maxDischargeDepth := 30) [*]

@[simp] theorem discardOutputs_latched (s : State) (a1 : List Inst) (h : Latched s) :
    Latched (discardOutputs s a1) := by
  unfold discardOutputs; simp (maxDischargeDepth := 30) [*]

@[simp] theorem cutInstance_latched (s : State) (a1 : Inst) (h : Latched s) : Latched (cutInstance s a1) := by
  unfold cutInstance; try simp only []
  (repeat' split) <;> simp (maxDischargeDepth := 30) [*]

@[simp] theorem leaveBatches_latched (s : State) (a1 : Nat) (a2 : Nat) (a3 : List Nat) (h : Latched s) :
    Latched (leaveBatches s a1 a2 a3) := by
  unfold leaveBatches; simp (maxDischargeDepth := 30) [*]

@[simp] theorem leaveCopy_latched (s : State) (a1 : Task) (a2 : Nat) (a3 : List Nat) (h : Latched s) :
    Latched (leaveCopy s a1 a2 a3) := by
  unfold leaveCopy; simp (maxDischargeDepth := 30) [*]

@[simp] theorem cutEntry_latched (s : State) (a1 : Ready) (h : Latched s) : Latched (cutEntry s a1) := by
  unfold cutEntry; simp (maxDischargeDepth := 30) [*]

@[simp] theorem cutLists_latched (s : State) (h : Latched s) : Latched (cutLists s) := by
  unfold cutLists; try simp only []
  refine foldl_latched _ ?_ _ _ ?_; (intros; (repeat' split) <;> simp (maxDischargeDepth := 30) [*]); simp (maxDischargeDepth := 30) [*]

@[simp] theorem leaveTask_latched (s : State) (a1 : Task) (h : Latched s) : Latched (leaveTask s a1) := by
  unfold leaveTask; simp (maxDischargeDepth := 30) [*]

@[simp] theorem cutPhases_latched (s : State) (h : Latched s) : Latched (cutPhases s) := by
  unfold cutPhases; try simp only []
  refine foldl_latched _ ?_ _ _ ?_; (intros; (repeat' split) <;> simp (maxDischargeDepth := 30) [*]); simp (maxDischargeDepth := 30) [*]

@[simp] theorem cutNow_latched (s : State) (h : Latched s) : Latched (cutNow s) := by
  unfold cutNow; try simp only []
  (repeat' split) <;> simp_all (maxDischargeDepth := 30)

@[simp] theorem execCut_latched (s : State) (h : Latched s) : LatchedR (execCut s) := by
  unfold execCut; simp (maxDischargeDepth := 30) [*]

@[simp] theorem abortAll_latched (s : State) (h : Latched s) : Latched (abortAll s) := by
  unfold abortAll; try simp only []
  (repeat' split) <;> simp_all (maxDischargeDepth := 30)

@[simp] theorem clearLists_latched (s : State) (h : Latched s) : Latched (clearLists s) := by
  unfold clearLists; try simp only []
  (repeat' split) <;> simp_all (maxDischargeDepth := 30)

@[simp] theorem lapseItem_latched (s : State) (h : Latched s) : Latched (lapseItem s) := by
  unfold lapseItem; try simp only []
  split <;> simp (maxDischargeDepth := 30) [*]

@[simp] theorem deadlineNow_latched (s : State) (h : Latched s) : Latched (deadlineNow s) := by
  unfold deadlineNow; simp (maxDischargeDepth := 30) [*]

@[simp] theorem execDeadline_latched (s : State) (h : Latched s) : LatchedR (execDeadline s) := by
  unfold execDeadline; simp (maxDischargeDepth := 30) [*]

@[simp] theorem beginCycle_latched (s : State) (a1 : Nat) (h : Latched s) : Latched (beginCycle s a1) := by
  unfold beginCycle; try simp only []
  split <;> simp (maxDischargeDepth := 30) [*]

@[simp] theorem startCycle_latched (s : State) (a1 : Nat) (h : Latched s) : Latched (startCycle s a1) := by
  unfold startCycle; simp (maxDischargeDepth := 30) [*]

@[simp] theorem execSyncTimeout_latched (s : State) (h : Latched s) : LatchedR (execSyncTimeout s) := by
  unfold execSyncTimeout; simp (maxDischargeDepth := 30) [*]

@[simp] theorem acceptEdge_latched (s : State) (h : Latched s) : Latched (acceptEdge s) := by
  unfold acceptEdge; simp only []; split <;> simp [h]

@[simp] theorem execCycleStart_latched (s : State) (h : Latched s) : LatchedR (execCycleStart s) := by
  unfold execCycleStart; try simp only []
  split <;> simp (maxDischargeDepth := 30) [*]

@[simp] theorem loseSync_latched (s : State) (h : Latched s) : Latched (loseSync s) := by
  unfold loseSync; simp (maxDischargeDepth := 30) [*]

@[simp] theorem ignoreEdge_latched (s : State) (h : Latched s) : Latched (ignoreEdge s) := by
  unfold ignoreEdge; simp (maxDischargeDepth := 30) [*]

@[simp] theorem execFpSyncEdge_latched (s : State) (h : Latched s) : LatchedR (execFpSyncEdge s) := by
  unfold execFpSyncEdge; simp (maxDischargeDepth := 30) [*]

@[simp] theorem execSyncLostClear_latched (s : State) (h : Latched s) : LatchedR (execSyncLostClear s) := by
  unfold execSyncLostClear; simp (maxDischargeDepth := 30) [*]

@[simp] theorem enterRun_latched (s : State) (a1 : DevState) (h : Latched s) : Latched (enterRun s a1) := by
  unfold enterRun; simp (maxDischargeDepth := 30) [*]

@[simp] theorem holdAllHost_latched (s : State) (h : Latched s) : Latched (holdAllHost s) := by
  unfold holdAllHost; simp (maxDischargeDepth := 30) [*]

@[simp] theorem startRun_latched (s : State) (a1 : Msg) (a2 : Bool) (h : Latched s) : Latched (startRun s a1 a2) := by
  unfold startRun; simp (maxDischargeDepth := 30) [*]

@[simp] theorem startStatus_latched (s : State) (h : Latched s) : Latched (startStatus s).1 := by
  unfold startStatus; try simp only []
  (repeat' split) <;> simp (maxDischargeDepth := 30) [*]

@[simp] theorem startCommand_latched (s : State) (a1 : Msg) (h : Latched s) : Latched (startCommand s a1) := by
  unfold startCommand; simp (maxDischargeDepth := 30) [*]

@[simp] theorem resumeCommand_latched (s : State) (a1 : Msg) (h : Latched s) : Latched (resumeCommand s a1) := by
  unfold resumeCommand; simp (maxDischargeDepth := 30) [*]

@[simp] theorem execResume_latched (s : State) (h : Latched s) : LatchedR (execResume s) := by
  unfold execResume; try simp only []
  (repeat' split) <;> simp_all (maxDischargeDepth := 30)

@[simp] theorem keepPackage_latched (s : State) (a1 : Replay) (a2 : Msg) (a3 : Nat) (a4 : Bytes) (h : Latched s) :
    Latched (keepPackage s a1 a2 a3 a4) := by
  unfold keepPackage; try simp only []
  split <;> simp (maxDischargeDepth := 30) [*]

@[simp] theorem pauseCommand_latched (s : State) (a1 : Msg) (h : Latched s) : Latched (pauseCommand s a1) := by
  unfold pauseCommand; simp (maxDischargeDepth := 30) [*]

@[simp] theorem execCkptPut_latched (s : State) (h : Latched s) : LatchedR (execCkptPut s) := by
  unfold execCkptPut; try simp only []
  (repeat' split) <;> simp_all (maxDischargeDepth := 30)

@[simp] theorem saveCommand_latched (s : State) (a1 : Msg) (h : Latched s) : Latched (saveCommand s a1) := by
  unfold saveCommand; simp (maxDischargeDepth := 30) [*]

@[simp] theorem replayPiece_latched (s : State) (a1 : Replay) (a2 : Msg) (h : Latched s) :
    LatchedR (replayPiece s a1 a2) := by
  unfold replayPiece; try simp only []
  (repeat' split) <;> simp_all (maxDischargeDepth := 30)

@[simp] theorem execSave_latched (s : State) (h : Latched s) : LatchedR (execSave s) := by
  unfold execSave; try simp only []
  (repeat' split) <;> simp_all (maxDischargeDepth := 30)

@[simp] theorem emptyQueues_latched (s : State) (h : Latched s) : Latched (emptyQueues s) := by
  unfold emptyQueues; simp (maxDischargeDepth := 30) [*]

@[simp] theorem replayCommand_latched (s : State) (a1 : Msg) (h : Latched s) : Latched (replayCommand s a1) := by
  unfold replayCommand; simp (maxDischargeDepth := 30) [*]

@[simp] theorem resumeCkptCommand_latched (s : State) (a1 : Msg) (h : Latched s) :
    Latched (resumeCkptCommand s a1) := by
  unfold resumeCkptCommand; simp (maxDischargeDepth := 30) [*]

@[simp] theorem execStart_latched (s : State) (h : Latched s) : LatchedR (execStart s) := by
  unfold execStart; try simp only []
  (repeat' split) <;> simp_all (maxDischargeDepth := 30)

@[simp] theorem execResumeCheckpoint_latched (s : State) (h : Latched s) : LatchedR (execResumeCheckpoint s) := by
  unfold execResumeCheckpoint; try simp only []
  (repeat' split) <;> simp_all (maxDischargeDepth := 30)

@[simp] theorem execPause_latched (s : State) (h : Latched s) : LatchedR (execPause s) := by
  unfold execPause; try simp only []
  (repeat' split) <;> simp_all (maxDischargeDepth := 30)

@[simp] theorem execReplay_latched (s : State) (h : Latched s) : LatchedR (execReplay s) := by
  unfold execReplay; try simp only []
  (repeat' split) <;> simp_all (maxDischargeDepth := 30)

@[simp] theorem execReplayData_latched (s : State) (h : Latched s) : LatchedR (execReplayData s) := by
  unfold execReplayData
  refine withFront_latched _ _ _ _ h fun m t h => ?_
  (repeat' split) <;> simp [*]

@[simp] theorem clearStitch_latched (s : State) (h : Latched s) : Latched (clearStitch s) := by
  unfold clearStitch; simp (maxDischargeDepth := 30) [*]

@[simp] theorem retainBanks_latched (s : State) (h : Latched s) : Latched (retainBanks s) := by
  unfold retainBanks; simp (maxDischargeDepth := 30) [*]

@[simp] theorem clearTokens_latched (s : State) (h : Latched s) : Latched (clearTokens s) := by
  unfold clearTokens; simp (maxDischargeDepth := 30) [*]

@[simp] theorem endHolds_latched (s : State) (h : Latched s) : Latched (endHolds s) := by
  unfold endHolds; simp (maxDischargeDepth := 30) [*]

@[simp] theorem keepFacts_latched (s : State) (a1 : Released) (h : Latched s) : Latched (keepFacts s a1) := by
  unfold keepFacts; simp (maxDischargeDepth := 30) [*]

@[simp] theorem keepIncumbent_latched (s : State) (a1 : Released) (h : Latched s) : Latched (keepIncumbent s a1) := by
  unfold keepIncumbent; simp (maxDischargeDepth := 30) [*]

@[simp] theorem settingsInForce_latched (s : State) (h : Latched s) : Latched (settingsInForce s) := by
  unfold settingsInForce; simp (maxDischargeDepth := 30) [*]

@[simp] theorem shiftCounts_latched (s : State) (h : Latched s) : Latched (shiftCounts s) := by
  unfold shiftCounts; simp (maxDischargeDepth := 30) [*]

@[simp] theorem loseTile_latched (s : State) (a1 : Nat) (h : Latched s) : Latched (loseTile s a1) := by
  unfold loseTile; simp (maxDischargeDepth := 30) [*]

@[simp] theorem substTile_latched (s : State) (a1 : Nat) (h : Latched s) : Latched (substTile s a1) := by
  unfold substTile; simp (maxDischargeDepth := 30) [*]

@[simp] theorem substitute_latched (s : State) (h : Latched s) : Latched (substitute s) := by
  unfold substitute; try simp only []
  refine foldl_latched _ ?_ _ _ ?_; (intros; (repeat' split) <;> simp (maxDischargeDepth := 30) [*]); simp (maxDischargeDepth := 30) [*]

@[simp] theorem answerMsg_latched (s : State) (a1 : Option Msg) (a2 : Nat) (h : Latched s) :
    Latched (answerMsg s a1 a2) := by
  unfold answerMsg; try simp only []
  split <;> simp (maxDischargeDepth := 30) [*]

@[simp] theorem endReplay_latched (s : State) (h : Latched s) : Latched (endReplay s) := by
  unfold endReplay; simp (maxDischargeDepth := 30) [*]

@[simp] theorem stopReplay_latched (s : State) (a1 : Msg) (h : Latched s) : Latched (stopReplay s a1) := by
  unfold stopReplay; simp (maxDischargeDepth := 30) [*]

@[simp] theorem stopCommand_latched (s : State) (a1 : Msg) (h : Latched s) : Latched (stopCommand s a1) := by
  unfold stopCommand; try simp only []
  split <;> simp (maxDischargeDepth := 30) [*]

@[simp] theorem execStop_latched (s : State) (h : Latched s) : LatchedR (execStop s) := by
  unfold execStop; try simp only []
  (repeat' split) <;> simp_all (maxDischargeDepth := 30)

@[simp] theorem startEarly_latched (s : State) (h : Latched s) : Latched (startEarly s) := by
  unfold startEarly; try simp only []
  split <;> simp (maxDischargeDepth := 30) [*]

@[simp] theorem placeBatches_latched (s : State) (a1 : ReplayPkg) (h : Latched s) : Latched (placeBatches s a1) := by
  unfold placeBatches; simp (maxDischargeDepth := 30) [*]

@[simp] theorem placeFrame_latched (a0 : Nat) (s : State) (a2 : Bytes) (h : Latched s) :
    Latched (placeFrame a0 s a2) := by
  unfold placeFrame; simp (maxDischargeDepth := 30) [*]

@[simp] theorem placeFrames_latched (s : State) (a1 : ReplayPkg) (h : Latched s) : Latched (placeFrames s a1) := by
  unfold placeFrames; try simp only []
  (repeat' split) <;> simp_all (maxDischargeDepth := 30)

@[simp] theorem startReplayed_latched (s : State) (a1 : ReplayPkg) (h : Latched s) :
    Latched (startReplayed s a1) := by
  unfold startReplayed; simp (maxDischargeDepth := 30) [*]

@[simp] theorem spareIn_latched (s : State) (a1 : Nat) (a2 : Nat) (h : Latched s) : Latched (spareIn s a1 a2) := by
  unfold spareIn; simp (maxDischargeDepth := 30) [*]

@[simp] theorem ckptReady_latched (s : State) (a1 : Replay) (h : Latched s) : Latched (ckptReady s a1) := by
  unfold ckptReady; simp (maxDischargeDepth := 30) [*]

@[simp] theorem replayOn_latched (s : State) (a1 : Replay) (a2 : Bytes) (h : Latched s) :
    Latched (replayOn s a1 a2) := by
  unfold replayOn; simp (maxDischargeDepth := 30) [*]

@[simp] theorem snapCounters_latched (s : State) (h : Latched s) : Latched (snapCounters s) := by
  unfold snapCounters; simp (maxDischargeDepth := 30) [*]

@[simp] theorem nextSeq_latched (s : State) (a1 : Released) (h : Latched s) : Latched (nextSeq s a1) := by
  unfold nextSeq; simp (maxDischargeDepth := 30) [*]

@[simp] theorem stopOrPause_latched (s : State) (h : Latched s) : Latched (stopOrPause s) := by
  unfold stopOrPause; simp (maxDischargeDepth := 30) [*]

@[simp] theorem abandonReplay_latched (s : State) (h : Latched s) : Latched (abandonReplay s) := by
  unfold abandonReplay; try simp only []
  (repeat' split) <;> simp_all (maxDischargeDepth := 30)

@[simp] theorem closeReplayed_latched (s : State) (h : Latched s) : Latched (closeReplayed s) := by
  have k : ∀ (c : State → Bool) (s1 : State), Latched s1 → Latched (if c s1 then factFails s1 else s1) := by
    intro c s1 h; split <;> simp [h]
  unfold closeReplayed; simp only []
  split
  · simp [h]
  · split
    · exact h
    · refine k (fun s1 => (forced s1 4 ++ forced s1 5).any (cutUnmet s1) || (worldQuiet s1 && !replayDone s1)) _ ?_
      (repeat' split) <;> simp [h]

@[simp] theorem execSpareIn_latched (a0 : Nat) (s : State) (h : Latched s) : LatchedR (execSpareIn a0 s) := by
  unfold execSpareIn; try simp only []
  split <;> simp (maxDischargeDepth := 30) [*]

@[simp] theorem execReplayCycleStart_latched (s : State) (h : Latched s) : LatchedR (execReplayCycleStart s) := by
  unfold execReplayCycleStart; try simp only []
  split <;> simp (maxDischargeDepth := 30) [*]

@[simp] theorem reportLate_latched (s : State) (a1 : Nat) (h : Latched s) : Latched (reportLate s a1) := by
  unfold reportLate; simp (maxDischargeDepth := 30) [*]

@[simp] theorem setSlices_latched (s : State) (a1 : Msg) (h : Latched s) : Latched (setSlices s a1) := by
  unfold setSlices; simp (maxDischargeDepth := 30) [*]

@[simp] theorem execSelftestConfig_latched (s : State) (h : Latched s) : LatchedR (execSelftestConfig s) := by
  unfold execSelftestConfig; try simp only []
  (repeat' split) <;> simp_all (maxDischargeDepth := 30)

@[simp] theorem startSlice_latched (s : State) (h : Latched s) : Latched (startSlice s) := by
  unfold startSlice; simp (maxDischargeDepth := 30) [*]

@[simp] theorem sliceCeases_latched (s : State) (a1 : Nat) (a2 : List Nat) (h : Latched s) :
    Latched (sliceCeases s a1 a2) := by
  unfold sliceCeases; simp (maxDischargeDepth := 30) [*]

@[simp] theorem sliceEnds_latched (s : State) (a1 : Nat) (a2 : Nat) (a3 : List Nat) (h : Latched s) :
    Latched (sliceEnds s a1 a2 a3) := by
  unfold sliceEnds; simp (maxDischargeDepth := 30) [*]

@[simp] theorem noteFail_latched (s : State) (a1 : Nat) (a2 : Nat) (h : Latched s) : Latched (noteFail s a1 a2) := by
  unfold noteFail; simp (maxDischargeDepth := 30) [*]

@[simp] theorem sliceFails_latched (s : State) (a1 : Nat) (a2 : Nat) (h : Latched s) :
    Latched (sliceFails s a1 a2) := by
  unfold sliceFails; simp (maxDischargeDepth := 30) [*]

@[simp] theorem endSlice_latched (s : State) (a1 : Nat) (a2 : Nat) (a3 : List Nat) (h : Latched s) :
    Latched (endSlice s a1 a2 a3) := by
  unfold endSlice; try simp only []
  refine foldl_latched _ ?_ _ _ ?_; (intros; (repeat' split) <;> simp (maxDischargeDepth := 30) [*]); simp (maxDischargeDepth := 30) [*]

@[simp] theorem execSliceDone_latched (a0 : List Nat) (s : State) (h : Latched s) :
    LatchedR (execSliceDone a0 s) := by
  unfold execSliceDone; try simp only []
  split <;> simp (maxDischargeDepth := 30) [*]

@[simp] theorem execSelftestLate_latched (a0 : Nat) (s : State) (h : Latched s) :
    LatchedR (execSelftestLate a0 s) := by
  unfold execSelftestLate; simp (maxDischargeDepth := 30) [*]

@[simp] theorem reportStarved_latched (s : State) (a1 : Nat) (a2 : Nat) (h : Latched s) :
    Latched (reportStarved s a1 a2) := by
  unfold reportStarved; simp (maxDischargeDepth := 30) [*]

@[simp] theorem execSelftestStarved_latched (a0 : Nat) (a1 : Nat) (s : State) (h : Latched s) :
    LatchedR (execSelftestStarved a0 a1 s) := by
  unfold execSelftestStarved; simp (maxDischargeDepth := 30) [*]

@[simp] theorem execSelftestSlice_latched (s : State) (h : Latched s) : LatchedR (execSelftestSlice s) := by
  unfold execSelftestSlice; simp (maxDischargeDepth := 30) [*]

@[simp] theorem takeHandshake_latched (s : State) (h : Latched s) : Latched (takeHandshake s) := by
  unfold takeHandshake; try simp only []
  split <;> simp (maxDischargeDepth := 30) [*]

@[simp] theorem tileUnitReads_latched (s : State) (a1 : Nat) (a2 : Bytes) (h : Latched s) :
    Latched (tileUnitReads s a1 a2) := by
  unfold tileUnitReads; simp (maxDischargeDepth := 30) [*]

@[simp] theorem drainTail_latched (s : State) (a1 : Staging) (h : Latched s) : Latched (drainTail s a1) := by
  unfold drainTail; simp (maxDischargeDepth := 30) [*]

@[simp] theorem offerLog_latched (s : State) (a1 : Staging) (h : Latched s) : Latched (offerLog s a1) := by
  unfold offerLog; simp (maxDischargeDepth := 30) [*]

@[simp] theorem drainEntry_latched (s : State) (e : Staging) (rest : List Staging) (h : Latched s) :
    Latched (drainEntry s e rest) := by
  have k : ∀ y : Safety, (refillStaging y).safe = y.safe := by
    intro y; unfold refillStaging; (repeat' split) <;> rfl
  unfold drainEntry; simp (maxDischargeDepth := 9) [h, k]

@[simp] theorem execLogRecord_latched (a0 : Nat) (a1 : Nat) (a2 : Nat) (a3 : Bytes) (s : State) (h : Latched s) :
    LatchedR (execLogRecord a0 a1 a2 a3 s) := by
  unfold execLogRecord; simp (maxDischargeDepth := 30) [*]

@[simp] theorem markBad_latched (s : State) (a1 : Nat) (h : Latched s) : Latched (markBad s a1) := by
  unfold markBad; simp (maxDischargeDepth := 30) [*]

@[simp] theorem markBurst_latched (s : State) (a1 : Nat) (h : Latched s) : Latched (markBurst s a1) := by
  unfold markBurst; try simp only []
  refine foldl_latched _ ?_ _ _ ?_; (intros; (repeat' split) <;> simp (maxDischargeDepth := 30) [*]); simp (maxDischargeDepth := 30) [*]

@[simp] theorem edcLimit_latched (s : State) (a1 : Bytes) (h : Latched s) : Latched (edcLimit s a1) := by
  unfold edcLimit; simp (maxDischargeDepth := 30) [*]

@[simp] theorem gddrReads_latched (s : State) (a1 : Nat) (a2 : Bytes) (h : Latched s) :
    Latched (gddrReads s a1 a2) := by
  unfold gddrReads; simp (maxDischargeDepth := 30) [*]

@[simp] theorem putDiffers_latched (s : State) (a1 : Nat) (a2 : Bytes) (h : Latched s) :
    Latched (putDiffers s a1 a2) := by
  unfold putDiffers; try simp only []
  (repeat' split) <;> simp (maxDischargeDepth := 30) [*]

@[simp] theorem faultMemory_latched (s : State) (a1 : Nat) (a2 : Nat) (a3 : Bytes) (h : Latched s) :
    Latched (faultMemory s a1 a2 a3) := by
  unfold faultMemory; simp (maxDischargeDepth := 30) [*]

@[simp] theorem execFaultEvent_latched (a0 : Nat) (a1 : Nat) (a2 : Bytes) (s : State) (h : Latched s) :
    LatchedR (execFaultEvent a0 a1 a2 s) := by
  unfold execFaultEvent; simp (maxDischargeDepth := 30) [*]

@[simp] theorem execFaultDrain_latched (s : State) (h : Latched s) : LatchedR (execFaultDrain s) := by
  unfold execFaultDrain; try simp only []
  split <;> simp (maxDischargeDepth := 30) [*]

@[simp] theorem mdioStart_latched (s : State) (a1 : Nat) (a2 : Nat) (a3 : Word) (h : Latched s) :
    LatchedE (mdioStart s a1 a2 a3) := by
  unfold mdioStart; simp (maxDischargeDepth := 30) [*]

@[simp] theorem mdioCommand_latched (s : State) (a1 : Nat) (a2 : Word) (a3 : Nat) (h : Latched s) :
    LatchedR (mdioCommand s a1 a2 a3) := by
  unfold mdioCommand; try simp only []
  split <;> simp (maxDischargeDepth := 30) [*]

@[simp] theorem phyCtrlWrite_latched (s : State) (a1 : Nat) (a2 : Word) (h : Latched s) :
    LatchedE (phyCtrlWrite s a1 a2) := by
  unfold phyCtrlWrite; simp (maxDischargeDepth := 30) [*]

@[simp] theorem execPhyResetWrite_latched (a0 : Nat) (a1 : Word) (s : State) (h : Latched s) :
    LatchedR (execPhyResetWrite a0 a1 s) := by
  unfold execPhyResetWrite; try simp only []
  split <;> simp (maxDischargeDepth := 30) [*]

@[simp] theorem execMdioC45Write_latched (a0 : Nat) (a1 : Word) (s : State) (h : Latched s) :
    LatchedR (execMdioC45Write a0 a1 s) := by
  unfold execMdioC45Write; simp (maxDischargeDepth := 30) [*]

@[simp] theorem execMdioC22Read_latched (a0 : Nat) (a1 : Word) (s : State) (h : Latched s) :
    LatchedR (execMdioC22Read a0 a1 s) := by
  unfold execMdioC22Read; simp (maxDischargeDepth := 30) [*]

@[simp] theorem execMdioC22Write_latched (a0 : Nat) (a1 : Word) (s : State) (h : Latched s) :
    LatchedR (execMdioC22Write a0 a1 s) := by
  unfold execMdioC22Write; simp (maxDischargeDepth := 30) [*]

@[simp] theorem execMdioC45Read_latched (a0 : Nat) (a1 : Word) (s : State) (h : Latched s) :
    LatchedR (execMdioC45Read a0 a1 s) := by
  unfold execMdioC45Read; simp (maxDischargeDepth := 30) [*]

@[simp] theorem execMdioDone_latched (a0 : Nat) (a1 : Option Half) (s : State) (h : Latched s) :
    LatchedR (execMdioDone a0 a1 s) := by
  unfold execMdioDone; try simp only []
  (repeat' split) <;> simp (maxDischargeDepth := 30) [*]

@[simp] theorem execPhyRstNRelease_latched (s : State) (h : Latched s) : LatchedR (execPhyRstNRelease s) := by
  unfold execPhyRstNRelease; simp (maxDischargeDepth := 30) [*]

@[simp] theorem execPhyIntFall_latched (a0 : Nat) (s : State) (h : Latched s) : LatchedR (execPhyIntFall a0 s) := by
  unfold execPhyIntFall; try simp only []
  split <;> simp (maxDischargeDepth := 30) [*]

@[simp] theorem discardFlit_latched (s : State) (a1 : Half) (a2 : Bool) (h : Latched s) :
    Latched (discardFlit s a1 a2) := by
  unfold discardFlit; simp (maxDischargeDepth := 30) [*]

@[simp] theorem takeAck_latched (s : State) (a1 : Bytes) (h : Latched s) : Latched (takeAck s a1) := by
  unfold takeAck; simp (maxDischargeDepth := 30) [*]

@[simp] theorem returnCredit_latched (s : State) (a1 : Nat) (a2 : Nat) (h : Latched s) :
    Latched (returnCredit s a1 a2) := by
  unfold returnCredit; simp (maxDischargeDepth := 30) [*]

@[simp] theorem stirrupRead_latched (a0 : Nat) (a1 : Nat) (a2 : Nat) (s : State) (h : Latched s) :
    Latched (stirrupRead a0 a1 a2 s) := by
  unfold stirrupRead; simp (maxDischargeDepth := 30) [*]

@[simp] theorem stirrupWra_latched (a0 : Nat) (a1 : Nat) (a2 : Bytes) (s : State) (h : Latched s) :
    Latched (stirrupWra a0 a1 a2 s) := by
  unfold stirrupWra; simp (maxDischargeDepth := 30) [*]

@[simp] theorem windowWrite_latched (a0 : Nat) (a1 : Word) (s : State) (h : Latched s) :
    LatchedR (windowWrite a0 a1 s) := by
  unfold windowWrite; try simp only []
  (repeat' split) <;> simp (maxDischargeDepth := 30) [*]

@[simp] theorem stirrupWrite_latched (a0 : Nat) (a1 : Bytes) (s : State) (h : Latched s) :
    LatchedR (stirrupWrite a0 a1 s) := by
  unfold stirrupWrite; simp (maxDischargeDepth := 30) [*]

@[simp] theorem transaction_latched (a0 : Bytes) (a1 : Bytes) (s : State) (h : Latched s) :
    LatchedR (transaction a0 a1 s) := by
  unfold transaction; simp (maxDischargeDepth := 30) [*]

@[simp] theorem transactions_latched (n : Nat) (bs : Bytes) (s : State) (h : Latched s) :
    LatchedR (transactions n bs s) := by
  induction n generalizing bs s with
  | zero => exact h
  | succ n ih =>
    unfold transactions; simp only []
    split
    · simp [*]
    · have k := transaction_latched (bs.take 16) (sliceOf bs 16 (transactionData bs)) s h
      split
      · rename_i e; rw [e] at k; exact ih _ _ k
      · exact k

@[simp] theorem execFlitReceive_latched (a0 : Bytes) (s : State) (h : Latched s) :
    LatchedR (execFlitReceive a0 s) := by
  unfold execFlitReceive; simp (maxDischargeDepth := 30) [*]

@[simp] theorem landFree_latched (s : State) (a1 : Inst) (a2 : Bytes) (a3 : Tref) (h : Latched s) :
    LatchedE (landFree s a1 a2 a3) := by
  unfold landFree; try simp only []
  refine foldl_latched _ ?_ _ _ ?_; (intros; (repeat' split) <;> simp (maxDischargeDepth := 30) [*]); simp (maxDischargeDepth := 30) [*]

@[simp] theorem landRows_latched (s : State) (i : Inst) (d : Bytes) (idx : Nat) (dst : Tref) (r : List (List Val) × Nat)
    (h : Latched s) : LatchedE (landRows s i d idx dst r) := by
  unfold landRows
  exact landFlags_latched _ _ _ (by simp [h])

@[simp] theorem execVectUn_latched (a0 : Nat) (a1 : Nat) (s : State) (h : Latched s) :
    LatchedR (execVectUn a0 a1 s) := by
  unfold execVectUn
  try split
  all_goals first
  | (simp (maxDischargeDepth := 30) [*]; done)
  | (refine issueDesc_latched _ _ _ _ _ h ?_
     intro s i d k h
     simp only [unRun]
     first
     | (simp (maxDischargeDepth := 30) [*]; done)
     | ((repeat' split) <;> simp (maxDischargeDepth := 30) [*]; done))

@[simp] theorem execVectCvt_latched (a0 : Nat) (a1 : Nat) (s : State) (h : Latched s) :
    LatchedR (execVectCvt a0 a1 s) := by
  unfold execVectCvt
  try split
  all_goals first
  | (simp (maxDischargeDepth := 30) [*]; done)
  | (refine issueDesc_latched _ _ _ _ _ h ?_
     intro s i d k h
     simp only [cvtRun]
     first
     | (simp (maxDischargeDepth := 30) [*]; done)
     | ((repeat' split) <;> simp (maxDischargeDepth := 30) [*]; done))

@[simp] theorem execReduce_latched (a0 : Nat) (a1 : Nat) (s : State) (h : Latched s) :
    LatchedR (execReduce a0 a1 s) := by
  unfold execReduce
  try split
  all_goals first
  | (simp (maxDischargeDepth := 30) [*]; done)
  | (refine issueDesc_latched _ _ _ _ _ h ?_
     intro s i d k h
     simp only [reduceRun]
     first
     | (simp (maxDischargeDepth := 30) [*]; done)
     | ((repeat' split) <;> simp (maxDischargeDepth := 30) [*]; done))

@[simp] theorem execVectBin_latched (a0 : Nat) (a1 : Nat) (s : State) (h : Latched s) :
    LatchedR (execVectBin a0 a1 s) := by
  unfold execVectBin
  try split
  all_goals first
  | (simp (maxDischargeDepth := 30) [*]; done)
  | (refine issueDesc_latched _ _ _ _ _ h ?_
     intro s i d k h
     simp only [binRun]
     first
     | (simp (maxDischargeDepth := 30) [*]; done)
     | ((repeat' split) <;> simp (maxDischargeDepth := 30) [*]; done))

@[simp] theorem execVectNorm_latched (a0 : Nat) (a1 : Nat) (s : State) (h : Latched s) :
    LatchedR (execVectNorm a0 a1 s) := by
  unfold execVectNorm
  try split
  all_goals first
  | (simp (maxDischargeDepth := 30) [*]; done)
  | (refine issueDesc_latched _ _ _ _ _ h ?_
     intro s i d k h
     simp only [normRun]
     first
     | (simp (maxDischargeDepth := 30) [*]; done)
     | ((repeat' split) <;> simp (maxDischargeDepth := 30) [*]; done))

@[simp] theorem notePtr_latched (s : State) (a1 : Inst) (h : Latched s) : Latched (notePtr s a1) := by
  unfold notePtr; simp (maxDischargeDepth := 30) [*]

@[simp] theorem setFull_latched (s : State) (a1 : Nat) (a2 : Nat) (a3 : Bool) (h : Latched s) :
    Latched (setFull s a1 a2 a3) := by
  unfold setFull; simp (maxDischargeDepth := 30) [*]

@[simp] theorem clearSlots_latched (s : State) (a1 : Nat) (a2 : Bytes) (a3 : Nat) (a4 : Nat) (h : Latched s) :
    Latched (clearSlots s a1 a2 a3 a4) := by
  unfold clearSlots; try simp only []
  refine foldl_latched _ ?_ _ _ ?_; (intros; (repeat' split) <;> simp (maxDischargeDepth := 30) [*]); simp (maxDischargeDepth := 30) [*]

@[simp] theorem writePart_latched (s : State) (a1 : Nat) (a2 : Nat) (a3 : Tref) (a4 : Nat → Rm) (a5 : Nat)
    (a6 : Nat) (a7 : List Val) (h : Latched s) :
    Latched (writePart s a1 a2 a3 a4 a5 a6 a7).1 := by
  unfold writePart; try simp only []
  split <;> simp (maxDischargeDepth := 30) [*]

@[simp] theorem mmRowOut_latched (s : State) (a1 : Inst) (a2 : Bytes) (a3 : Nat) (a4 : Bytes) (a5 : Nat)
    (a6 : List (List Val)) (a7 : Nat) (h : Latched s) :
    Latched (mmRowOut s a1 a2 a3 a4 a5 a6 a7).1 := by
  unfold mmRowOut; simp (maxDischargeDepth := 30) [*]

@[simp] theorem mmBlockOut_latched (s : State) (i : Inst) (d : Bytes) (idx panel lo n : Nat) (chunks : List Bytes) (h : Latched s) :
    Latched (mmBlockOut s i d idx panel lo n chunks) := by
  unfold mmBlockOut; simp only []
  have k := fun qp c0 cols => foldl_latched2 (fun (acc : Flagged State) k =>
    let w := mmRowOut acc.1 i d idx qp c0 cols (lo + k)
    (w.1, acc.2 ||| w.2)) (by intro s x h; simp [h]) (List.range n) (s, 0) h
  simp only [] at k
  split <;> simp [k]

@[simp] theorem mmCompute_latched (s : State) (a1 : Inst) (a2 : Bytes) (a3 : MmRun) (h : Latched s) :
    Latched (mmCompute s a1 a2 a3).1 := by
  unfold mmCompute; try simp only []
  split <;> simp (maxDischargeDepth := 30) [*]

@[simp] theorem putUser_latched (s : State) (a1 : Inst) (a2 : Inst) (h : Latched s) : Latched (putUser s a1 a2) := by
  unfold putUser; simp (maxDischargeDepth := 30) [*]

@[simp] theorem failUser_latched (s : State) (a1 : Inst) (h : Latched s) : Latched (failUser s a1) := by
  unfold failUser; simp (maxDischargeDepth := 30) [*]

@[simp] theorem mmAdvance_latched (i : Inst) (d : Bytes) (n : Nat) (s : State) (m : MmRun) (h : Latched s) :
    Latched (mmAdvance i d n s m).1 := by
  induction n generalizing s m with
  | zero => exact h
  | succ n ih =>
    unfold mmAdvance; simp only []
    split
    · exact h
    · split
      · split
        · refine ih _ _ ?_; split <;> simp [h]
        · exact h
      · exact ih _ _ (mmCompute_latched _ _ _ _ h)

@[simp] theorem mmRunOn_latched (s : State) (a1 : Nat) (a2 : Nat) (h : Latched s) : Latched (mmRunOn s a1 a2) := by
  unfold mmRunOn; try simp only []
  (repeat' split) <;> simp (maxDischargeDepth := 30) [*]

@[simp] theorem execMatmulConv_latched (a0 : Nat) (a1 : Nat) (s : State) (h : Latched s) :
    LatchedR (execMatmulConv a0 a1 s) := by
  unfold execMatmulConv
  try split
  all_goals first
  | (simp (maxDischargeDepth := 30) [*]; done)
  | (refine issueDesc_latched _ _ _ _ _ h ?_
     intro s i d k h
     simp only [matmulRun]
     first
     | (simp (maxDischargeDepth := 30) [*]; done)
     | ((repeat' split) <;> simp (maxDischargeDepth := 30) [*]; done))

@[simp] theorem giveChunk_latched (s : State) (a1 : Bytes) (a2 : Inst) (h : Latched s) :
    Latched (giveChunk s a1 a2) := by
  unfold giveChunk; try simp only []
  split <;> simp (maxDischargeDepth := 30) [*]

@[simp] theorem tileRuns_latched (s : State) (a1 : Nat) (h : Latched s) : Latched (tileRuns s a1) := by
  unfold tileRuns; simp (maxDischargeDepth := 30) [*]

@[simp] theorem writeChunk_latched (s : State) (a1 : WeightSet) (a2 : Nat) (a3 : List Inst) (h : Latched s) :
    Latched (writeChunk s a1 a2 a3) := by
  unfold writeChunk; try simp only []
  (repeat' split) <;> simp_all (maxDischargeDepth := 30)

@[simp] theorem execWeightChunkWrite_latched (a0 : Nat) (a1 : Nat) (s : State) (h : Latched s) :
    LatchedR (execWeightChunkWrite a0 a1 s) := by
  unfold execWeightChunkWrite; try simp only []
  (repeat' split) <;> simp (maxDischargeDepth := 30) [*]

@[simp] theorem execMatmul_latched (a0 : Nat) (a1 : Nat) (s : State) (h : Latched s) :
    LatchedR (execMatmul a0 a1 s) := by
  unfold execMatmul
  try split
  all_goals first
  | (simp (maxDischargeDepth := 30) [*]; done)
  | (refine issueDesc_latched _ _ _ _ _ h ?_
     intro s i d k h
     simp only [matmulRun]
     first
     | (simp (maxDischargeDepth := 30) [*]; done)
     | ((repeat' split) <;> simp (maxDischargeDepth := 30) [*]; done))

@[simp] theorem setTemp_latched (s : State) (a1 : Nat) (a2 : Half) (h : Latched s) : Latched (setTemp s a1 a2) := by
  unfold setTemp; simp (maxDischargeDepth := 30) [*]

@[simp] theorem edgeLinksDown_latched (s : State) (h : Latched s) : Latched (edgeLinksDown s) := by
  unfold edgeLinksDown; simp (maxDischargeDepth := 30) [*]

@[simp] theorem execRefclkLoss_latched (s : State) (h : Latched s) : LatchedR (execRefclkLoss s) := by
  unfold execRefclkLoss; simp (maxDischargeDepth := 30) [*]

@[simp] theorem spareFails_latched (s : State) (a1 : Nat) (h : Latched s) : Latched (spareFails s a1) := by
  unfold spareFails; simp (maxDischargeDepth := 30) [*]

@[simp] theorem tileFails_latched (s : State) (a1 : Nat) (a2 : Nat) (h : Latched s) :
    Latched (tileFails s a1 a2) := by
  unfold tileFails; simp (maxDischargeDepth := 30) [*]

@[simp] theorem slotFails_latched (s : State) (a1 : Nat × Nat) (h : Latched s) : Latched (slotFails s a1) := by
  unfold slotFails; simp (maxDischargeDepth := 30) [*]

@[simp] theorem execGddr6TrainingDone_latched (s : State) (h : Latched s) : LatchedR (execGddr6TrainingDone s) := by
  unfold execGddr6TrainingDone; simp (maxDischargeDepth := 30) [*]

@[simp] theorem withdrawRaises_latched (s : State) (h : Latched s) : Latched (withdrawRaises s) := by
  unfold withdrawRaises; simp (maxDischargeDepth := 30) [*]

@[simp] theorem bootRotation_latched (s : State) (h : Latched s) : Latched (bootRotation s) := by
  unfold bootRotation; simp (maxDischargeDepth := 30) [*]

@[simp] theorem slowIslands_latched (s : State) (h : Latched s) : Latched (slowIslands s) := by
  unfold slowIslands; simp (maxDischargeDepth := 30) [*]

@[simp] theorem tripNow_latched (s : State) (h : Latched s) : Latched (tripNow s) := by
  unfold tripNow; simp (maxDischargeDepth := 30) [*]

@[simp] theorem execThermalTrip_latched (a0 : Nat) (a1 : Half) (s : State) (h : Latched s) :
    LatchedR (execThermalTrip a0 a1 s) := by
  unfold execThermalTrip; simp (maxDischargeDepth := 30) [*]

@[simp] theorem execRomStageDone_latched (s : State) (h : Latched s) : LatchedR (execRomStageDone s) := by
  unfold execRomStageDone; simp (maxDischargeDepth := 30) [*]

@[simp] theorem execThermalTripEnd_latched (a0 : List Half) (s : State) (h : Latched s) :
    LatchedR (execThermalTripEnd a0 s) := by
  unfold execThermalTripEnd; simp (maxDischargeDepth := 30) [*]

@[simp] theorem spareBanksOff_latched (s : State) (h : Latched s) : Latched (spareBanksOff s) := by
  unfold spareBanksOff; simp (maxDischargeDepth := 30) [*]

@[simp] theorem execBootSelftestDone_latched (a0 : List (Nat × Nat)) (s : State) (h : Latched s) :
    LatchedR (execBootSelftestDone a0 s) := by
  unfold execBootSelftestDone; try simp only []
  (repeat' split) <;> simp_all (maxDischargeDepth := 30)

@[simp] theorem execRefclkReturn_latched (s : State) (h : Latched s) : LatchedR (execRefclkReturn s) := by
  unfold execRefclkReturn; simp (maxDischargeDepth := 30) [*]

@[simp] theorem execGddr6Retrain_latched (a0 : Nat) (s : State) (h : Latched s) :
    LatchedR (execGddr6Retrain a0 s) := by
  unfold execGddr6Retrain; simp (maxDischargeDepth := 30) [*]

@[simp] theorem scrubUe_latched (s : State) (a1 : Nat) (a2 : Nat) (a3 : Nat) (h : Latched s) :
    Latched (scrubUe s a1 a2 a3) := by
  unfold scrubUe; simp (maxDischargeDepth := 30) [*]

@[simp] theorem execPatrolScrub_latched (a0 : Nat) (a1 : Nat) (a2 : Nat) (a3 : Bool) (s : State) (h : Latched s) :
    LatchedR (execPatrolScrub a0 a1 a2 a3 s) := by
  unfold execPatrolScrub; simp (maxDischargeDepth := 30) [*]

@[simp] theorem endWake_latched (s : State) (a1 : Nat) (h : Latched s) : Latched (endWake s a1) := by
  unfold endWake; simp (maxDischargeDepth := 30) [*]

@[simp] theorem execBankWake_latched (a0 : Nat) (a1 : Nat) (s : State) (h : Latched s) :
    LatchedR (execBankWake a0 a1 s) := by
  unfold execBankWake; simp (maxDischargeDepth := 30) [*]

@[simp] theorem endRetrain_latched (s : State) (h : Latched s) : Latched (endRetrain s) := by
  unfold endRetrain; try simp only []
  split <;> simp (maxDischargeDepth := 30) [*]

@[simp] theorem settleAo_latched (s : State) (h : Latched s) : Latched (settleAo s) := by
  unfold settleAo; simp (maxDischargeDepth := 30) [*]

@[simp] theorem comparePins_latched (s : State) (h : Latched s) : Latched (comparePins s) := by
  unfold comparePins; simp (maxDischargeDepth := 30) [*]

@[simp] theorem shortPulse_latched (s : State) (h : Latched s) : Latched (shortPulse s) := by
  unfold shortPulse; split <;> simp (maxDischargeDepth := 30) [*]

@[simp] theorem samplePins_latched (s : State) (h : Latched s) : Latched (samplePins s) := by
  unfold samplePins; simp (maxDischargeDepth := 30) [*]

@[simp] theorem retryBursts_latched (s : State) (h : Latched s) : Latched (retryBursts s) := by
  unfold retryBursts; simp (maxDischargeDepth := 30) [*]

@[simp] theorem sampleTemps_latched (s : State) (h : Latched s) : Latched (sampleTemps s) := by
  unfold sampleTemps; simp (maxDischargeDepth := 30) [*]

@[simp] theorem upset_latched (s : State) (h : Latched s) : Latched (upset s) := by
  unfold upset; simp (maxDischargeDepth := 30) [*]

@[simp] theorem unbidden_latched (s : State) (h : Latched s) : Latched (unbidden s) := by
  unfold unbidden; simp (maxDischargeDepth := 30) [*]

@[simp] theorem tickAo_latched (s : State) (h : Latched s) : Latched (tickAo s) := by
  unfold tickAo; simp (maxDischargeDepth := 30) [*]

@[simp] theorem State.withFetchWord_latched (s : State) (a1 : Nat) (a2 : Nat) (h : Latched s) :
    Latched (State.withFetchWord s a1 a2) := by
  unfold State.withFetchWord; try simp only []
  split <;> simp (maxDischargeDepth := 30) [*]

end Sys2Proof.Machine
end

