-- ==== Sys2Proof/Laws/Mem.lean ====
section
/-! SUPPORT. The laws of canonical maps: a read after a write, and that every write keeps the form. -/

namespace Sys2Proof.Machine

variable {β : Type} [DecidableEq β] (d : Nat → β)

theorem mapWfFrom_mono {lo lo' : Nat} (h : lo' ≤ lo) {m : List (Nat × β)}
    (hm : mapWfFrom d lo m = true) : mapWfFrom d lo' m = true := by
  cases m with
  | nil => rfl
  | cons p t =>
    simp only [mapWfFrom, Bool.and_eq_true, decide_eq_true_eq] at hm ⊢
    exact ⟨⟨Nat.le_trans h hm.1.1, hm.1.2⟩, hm.2⟩

theorem mapGet_below {lo k : Nat} {m : List (Nat × β)} (hm : mapWfFrom d lo m = true) (hk : k < lo) :
    mapGet d m k = d k := by
  cases m with
  | nil => rfl
  | cons p t =>
    simp only [mapWfFrom, Bool.and_eq_true, decide_eq_true_eq] at hm
    simp [mapGet, Nat.lt_of_lt_of_le hk hm.1.1]

theorem mapWfFrom_mapSet {lo k : Nat} {v : β} {m : List (Nat × β)}
    (hm : mapWfFrom d lo m = true) (hk : lo ≤ k) : mapWfFrom d lo (mapSet d m k v) = true := by
  induction m generalizing lo with
  | nil => by_cases h : v = d k <;> simp [mapSet, mapWfFrom, h, hk]
  | cons p t ih =>
    simp only [mapWfFrom, Bool.and_eq_true, decide_eq_true_eq] at hm
    obtain ⟨⟨hlo, hne⟩, ht⟩ := hm
    unfold mapSet
    split
    · rename_i hlt
      split
      · simp [mapWfFrom, hlo, hne, ht]
      · rename_i hv
        simp [mapWfFrom, hk, hv, hne, ht]
        omega
    · rename_i hlt
      split
      · rename_i heq
        split
        · exact mapWfFrom_mono d (by omega) ht
        · rename_i hv
          subst heq
          simp [mapWfFrom, hk, hv, ht]
      · simp only [mapWfFrom, Bool.and_eq_true, decide_eq_true_eq]
        exact ⟨⟨hlo, hne⟩, ih ht (by omega)⟩

/-- A write keeps the canonical form. -/
theorem mapWf_mapSet {m : List (Nat × β)} (hm : mapWf d m = true) (k : Nat) (v : β) :
    mapWf d (mapSet d m k v) = true :=
  mapWfFrom_mapSet d hm (Nat.zero_le _)

theorem mapGet_mapSet_from {lo : Nat} {m : List (Nat × β)} (hm : mapWfFrom d lo m = true)
    (k j : Nat) (v : β) : mapGet d (mapSet d m k v) j = if j = k then v else mapGet d m j := by
  induction m generalizing lo with
  | nil =>
    by_cases h : v = d k
    · by_cases hj : j = k <;> simp [mapSet, mapGet, h, hj]
    · by_cases hj : j = k
      · subst hj; simp [mapSet, mapGet, h]
      · simp [mapSet, mapGet, h, hj]
  | cons p t ih =>
    obtain ⟨i, w⟩ := p
    simp only [mapWfFrom, Bool.and_eq_true, decide_eq_true_eq] at hm
    obtain ⟨⟨_, _⟩, ht⟩ := hm
    unfold mapSet
    by_cases hki : k < i
    · by_cases hv : v = d k
      · by_cases hj : j = k
        · subst hj; simp [hki, hv, mapGet]
        · simp [hki, hv, hj]
      · by_cases hj : j = k
        · subst hj; simp [hki, hv, mapGet]
        · simp only [hki, hv, if_true, if_false, mapGet, hj]
          by_cases hjk : j < k
          · have : j < i := by omega
            simp [hjk, this]
          · simp [hjk]
    · by_cases hke : k = i
      · subst hke
        by_cases hv : v = d k
        · by_cases hj : j = k
          · subst hj
            simp [hv, mapGet_below d ht (Nat.lt_succ_self _)]
          · simp only [Nat.lt_irrefl, if_false, if_true, hv, mapGet, hj]
            by_cases hjk : j < k
            · simp [hjk, mapGet_below d ht (show j < k + 1 by omega)]
            · simp [hjk]
        · by_cases hj : j = k
          · subst hj; simp [hv, mapGet]
          · simp [hv, mapGet, hj]
      · simp only [hki, hke, if_false, mapGet]
        by_cases hj : j = k
        · subst hj; simp [hki, hke, ih ht]
        · simp [ih ht, hj]

/-- A read after a write: the written key reads the value, every other key as before. -/
theorem mapGet_mapSet {m : List (Nat × β)} (hm : mapWf d m = true) (k j : Nat) (v : β) :
    mapGet d (mapSet d m k v) j = if j = k then v else mapGet d m j :=
  mapGet_mapSet_from d hm k j v

theorem mapWfFrom_filter {lo : Nat} {m : List (Nat × β)} (p : Nat × β → Bool)
    (hm : mapWfFrom d lo m = true) : mapWfFrom d lo (m.filter p) = true := by
  induction m generalizing lo with
  | nil => rfl
  | cons q t ih =>
    simp only [mapWfFrom, Bool.and_eq_true, decide_eq_true_eq] at hm
    rw [List.filter_cons]
    split
    · simp only [mapWfFrom, Bool.and_eq_true, decide_eq_true_eq]
      exact ⟨hm.1, ih hm.2⟩
    · exact mapWfFrom_mono d (by omega) (ih hm.2)

/-! ### Memory -/

theorem memSet_wf {m : Mem} (h : memWf m = true) (a : Nat) (v : Byte) : memWf (memSet m a v) = true :=
  mapWf_mapSet _ h a v

theorem memGet_memSet {m : Mem} (h : memWf m = true) (a b : Nat) (v : Byte) :
    memGet (memSet m a v) b = if b = a then v else memGet m b :=
  mapGet_mapSet _ h a b v

/-- A write of bytes keeps the canonical form. -/
theorem memWrite_wf {m : Mem} (h : memWf m = true) (a : Nat) (bs : Bytes) :
    memWf (memWrite m a bs) = true := by
  induction bs generalizing m a with
  | nil => exact h
  | cons b t ih => exact ih (memSet_wf h a b) (a + 1)

/-- A byte outside the written range reads as before. -/
theorem memGet_memWrite_outside {m : Mem} (h : memWf m = true) {a b : Nat} {bs : Bytes}
    (hb : b < a ∨ a + bs.length ≤ b) : memGet (memWrite m a bs) b = memGet m b := by
  induction bs generalizing m a with
  | nil => rfl
  | cons x t ih =>
    simp only [List.length_cons] at hb
    rw [memWrite, ih (memSet_wf h a x) (by omega), memGet_memSet h]
    have : b ≠ a := by omega
    simp [this]

/-- A byte inside the written range reads as written. -/
theorem memGet_memWrite_inside {m : Mem} (h : memWf m = true) {a i : Nat} {bs : Bytes}
    (hi : i < bs.length) : memGet (memWrite m a bs) (a + i) = bs[i] := by
  induction bs generalizing m a i with
  | nil => simp at hi
  | cons x t ih =>
    cases i with
    | zero =>
      rw [memWrite, Nat.add_zero, memGet_memWrite_outside (memSet_wf h a x) (by omega), memGet_memSet h]
      simp
    | succ j =>
      have := ih (m := memSet m a x) (memSet_wf h a x) (a := a + 1) (i := j) (by simpa using hi)
      rw [memWrite, show a + (j + 1) = a + 1 + j by omega, this]
      simp

/-- Reading a written range from its start gives the bytes written. -/
theorem memRead_memWrite {m : Mem} (h : memWf m = true) (a : Nat) (bs : Bytes) {n : Nat} (hn : n ≤ bs.length) :
    memRead (memWrite m a bs) a n = bs.take n := by
  have key : ∀ (M : Mem) (k n : Nat), k + n ≤ bs.length → (∀ i (hi : i < bs.length), memGet M (a + i) = bs[i]) →
      memRead M (a + k) n = (bs.drop k).take n := by
    intro M k n
    induction n generalizing k with
    | zero => intros; simp [memRead]
    | succ j ih =>
      intro hk hM
      rw [memRead, hM k (by omega), show a + k + 1 = a + (k + 1) by omega, ih (k + 1) (by omega) hM,
        List.drop_eq_getElem_cons (by omega : k < bs.length), List.take_succ_cons]
  simpa using key _ 0 n (by omega) fun i hi => memGet_memWrite_inside h hi

theorem memWriteMasked_wf {m : Mem} (h : memWf m = true) (a : Nat) (bs : Bytes) (ks : List Bool) :
    memWf (memWriteMasked m a bs ks) = true := by
  induction bs generalizing m a ks with
  | nil => exact h
  | cons b t ih =>
    cases ks with
    | nil => exact h
    | cons k r =>
      unfold memWriteMasked
      cases k
      · exact ih h _ _
      · exact ih (memSet_wf h a b) _ _

theorem memClear_wf {m : Mem} (h : memWf m = true) (a n : Nat) : memWf (memClear m a n) = true :=
  mapWfFrom_filter _ _ h

end Sys2Proof.Machine
end

