-- ==== Sys2Proof/Laws/Invariant.lean ====
section
/-! SUPPORT. The invariant `Inv` through every function of the machine: `f_inv` says that f keeps it, `f_outp` that f
leaves the field-port lines and the safe-state latch alone. -/

set_option linter.unusedSimpArgs false
set_option linter.unusedTactic false
set_option linter.unreachableTactic false
set_option linter.unnecessarySeqFocus false

namespace Sys2Proof.Machine

def InvR : Result → Prop
  | .next t => Inv t
  | _ => True
def InvE {ε : Type} : Except ε State → Prop
  | .ok t => Inv t
  | .error _ => True
def InvO : Option State → Prop
  | some t => Inv t
  | none => True

@[simp] theorem invR_next {t} : InvR (.next t) ↔ Inv t := Iff.rfl

@[simp] theorem invR_fault {r} : InvR (.fault r) := trivial

@[simp] theorem invR_refused {r} : InvR (.refused r) := trivial

@[simp] theorem invE_ok {ε t} : InvE (ε := ε) (.ok t) ↔ Inv t := Iff.rfl

@[simp] theorem invE_error {ε} {r : ε} : InvE (.error r) := trivial

@[simp] theorem invO_some {t} : InvO (some t) ↔ Inv t := Iff.rfl

@[simp] theorem invO_none : InvO none := trivial

@[simp] theorem inv_mk {a1 a2 mem regs a5 a6 a7 a8 a9 a10 a11 a12 a13 a14 a15 a16 a17 a18 a19 outp safety a22 a23 a24} : Inv (State.mk a1 a2 mem regs a5 a6 a7 a8 a9 a10 a11 a12 a13 a14 a15 a16 a17 a18 a19 outp safety a22 a23 a24) ↔
    memWf mem = true ∧ mapWf resetVal regs = true ∧ linesOf outp.toggling outp.validA outp.validB outp.degraded safety.safe = true :=
  ⟨fun h => ⟨h.mem, h.regs, h.lines⟩, fun h => ⟨h.1, h.2.1, h.2.2⟩⟩

@[simp] theorem Inv.mem' {s} (h : Inv s) : memWf s.mem = true := h.mem

@[simp] theorem Inv.regs' {s} (h : Inv s) : mapWf resetVal s.regs = true := h.regs

@[simp] theorem Inv.lines' {s} (h : Inv s) :
    linesOf s.outp.toggling s.outp.validA s.outp.validB s.outp.degraded s.safety.safe = true := h.lines

@[simp] theorem linesOf_static (l : Bool) : linesOf false false false true l = true := by cases l <;> rfl

@[simp] theorem Inv.flipped {s} (h : Inv s) (ht : s.outp.toggling = true) :
    linesOf s.outp.toggling (!s.outp.validA) (!s.outp.validB) s.outp.degraded s.safety.safe = true := by
  have k := h.lines
  revert k; rw [ht]
  cases s.outp.validA <;> cases s.outp.validB <;> cases s.outp.degraded <;> cases s.safety.safe <;> decide

@[simp] theorem Inv.cleared {s} (h : Inv s) :
    linesOf s.outp.toggling s.outp.validA s.outp.validB s.outp.degraded false = true := by
  have k := h.lines
  revert k
  cases s.outp.toggling <;> cases s.outp.validA <;> cases s.outp.validB <;> cases s.outp.degraded <;> cases s.safety.safe <;> decide

@[simp] theorem Inv.degrade {s} (h : Inv s) :
    linesOf s.outp.toggling s.outp.validA s.outp.validB true s.safety.safe = true := by
  have k := h.lines
  revert k
  cases s.outp.toggling <;> cases s.outp.validA <;> cases s.outp.validB <;> cases s.outp.degraded <;> cases s.safety.safe <;> decide

@[simp] theorem Inv.upgrade {s} (h : Inv s) (hs : s.safety.safe = false) :
    linesOf s.outp.toggling s.outp.validA s.outp.validB false s.safety.safe = true := by
  have k := h.lines
  revert k; rw [hs]
  cases s.outp.toggling <;> cases s.outp.validA <;> cases s.outp.validB <;> cases s.outp.degraded <;> decide

@[simp] theorem mapSet_regs {m} (h : mapWf resetVal m = true) (k : Nat) (v : Word) :
    mapWf resetVal (mapSet resetVal m k v) = true :=
  mapWf_mapSet _ h k v

@[simp] theorem memWrite_wf' {m : Mem} (h : memWf m = true) (a : Nat) (bs : Bytes) :
    memWf (memWrite m a bs) = true := memWrite_wf h a bs

@[simp] theorem memClear_wf' {m : Mem} (h : memWf m = true) (a n : Nat) :
    memWf (memClear m a n) = true := memClear_wf h a n

@[simp] theorem memWriteMasked_wf' {m : Mem} (h : memWf m = true) (a : Nat) (bs : Bytes) (ks) :
    memWf (memWriteMasked m a bs ks) = true := memWriteMasked_wf h a bs ks

@[simp] theorem memFilter_wf' {m : Mem} (h : memWf m = true) (p) : memWf (m.filter p) = true := mapWfFrom_filter _ p h

@[simp] theorem ringWrite_wf' {m : Mem} (h : memWf m = true) (a b c : Nat) (bs : Bytes) :
    memWf (ringWrite m a b c bs) = true := by
  unfold ringWrite; simp [h]

@[simp] theorem foldl_inv {β : Type} (f : State → β → State)
    (h : ∀ s x, Inv s → Inv (f s x)) (l : List β) (s : State) (hs : Inv s) : Inv (l.foldl f s) := by
  induction l generalizing s with
  | nil => exact hs
  | cons x l ih => exact ih _ (h s x hs)

theorem foldl_outp {β : Type} (f : State → β → State)
    (h : ∀ s x, (f s x).outp = s.outp ∧ (f s x).safety.safe = s.safety.safe) (l : List β) (s : State) :
    (l.foldl f s).outp = s.outp ∧ (l.foldl f s).safety.safe = s.safety.safe := by
  induction l generalizing s with
  | nil => exact ⟨rfl, rfl⟩
  | cons x l ih => exact ⟨(ih _).1.trans (h s x).1, (ih _).2.trans (h s x).2⟩

@[simp] theorem foldl_outp1 {β : Type} (f : State → β → State)
    (h : ∀ s x, (f s x).outp = s.outp ∧ (f s x).safety.safe = s.safety.safe) (l : List β) (s : State) :
    (l.foldl f s).outp = s.outp := (foldl_outp f h l s).1

@[simp] theorem foldl_outp2 {β : Type} (f : State → β → State)
    (h : ∀ s x, (f s x).outp = s.outp ∧ (f s x).safety.safe = s.safety.safe) (l : List β) (s : State) :
    (l.foldl f s).safety.safe = s.safety.safe := (foldl_outp f h l s).2

@[simp] theorem ite_outp (c : Prop) [Decidable c] (a b : State) :
    (if c then a else b).outp = if c then a.outp else b.outp := by split <;> rfl

@[simp] theorem ite_safety (c : Prop) [Decidable c] (a b : State) :
    (if c then a else b).safety = if c then a.safety else b.safety := by split <;> rfl

@[simp] theorem ite_safe (c : Prop) [Decidable c] (a b : Safety) :
    (if c then a else b).safe = if c then a.safe else b.safe := by split <;> rfl

theorem bindE_inv {ε} {a : Except ε State} {f : State → Except ε State} (h : InvE a)
    (hf : ∀ t, Inv t → InvE (f t)) : InvE (a.bind f) := by
  cases a with
  | ok t => exact hf t h
  | error e => trivial

theorem bindE_inv' {ε} {a : Except ε State} {f : State → Except ε State} (h : InvE a)
    (hf : ∀ t, Inv t → InvE (f t)) : InvE (a >>= f) := bindE_inv h hf

theorem mapE_inv {ε} {a : Except ε State} {f : State → State} (h : InvE a)
    (hf : ∀ t, Inv t → Inv (f t)) : InvE (a.map f) := by
  cases a with
  | ok t => exact hf t h
  | error e => trivial

theorem foldl_invE {ε β} (f : Except ε State → β → Except ε State)
    (h : ∀ a x, InvE a → InvE (f a x)) (l : List β) (a : Except ε State) (ha : InvE a) :
    InvE (l.foldl f a) := by
  induction l generalizing a with
  | nil => exact ha
  | cons x l ih => exact ih _ (h a x ha)

theorem foldlM_invE {ε β} (f : State → β → Except ε State)
    (h : ∀ s x, Inv s → InvE (f s x)) (l : List β) (s : State)
    (hp : Inv s) : InvE (l.foldlM f s) := by
  induction l generalizing s with
  | nil => exact hp
  | cons x l ih => exact bindE_inv' (h s x hp) fun t h1 => ih t h1

theorem foldlM_invO {β} (f : State → β → Option State)
    (h : ∀ s x, Inv s → InvO (f s x)) (l : List β) (s : State)
    (hp : Inv s) : InvO (l.foldlM f s) := by
  induction l generalizing s with
  | nil => exact hp
  | cons x l ih =>
    have := h s x hp
    simp only [List.foldlM_cons]
    cases hx : f s x with
    | none => trivial
    | some t => rw [hx] at this; exact ih t this

theorem foldl_inv2 {β γ : Type} (f : State × γ → β → State × γ)
    (h : ∀ s x, Inv s.1 → Inv (f s x).1) (l : List β) (s : State × γ) (hs : Inv s.1) :
    Inv (l.foldl f s).1 := by
  induction l generalizing s with
  | nil => exact hs
  | cons x l ih => exact ih _ (h s x hs)

@[simp] theorem onlyIf_inv {c} {s t : State} (h : Inv s) (h3 : Inv t) : InvR (onlyIf s c t) := by
  unfold onlyIf; split <;> simp (maxDischargeDepth := 30) [*]

@[simp] theorem ofAttempt_inv {a} (h : InvE a) : InvR (ofAttempt a) := by
  unfold ofAttempt; split <;> simp_all

@[simp] theorem ite_inv (c : Prop) [Decidable c] (a b : State) :
    Inv (if c then a else b) ↔ if c then Inv a else Inv b := by split <;> rfl

@[simp] theorem ite_invR (c : Prop) [Decidable c] (a b : Result) :
    InvR (if c then a else b) ↔ if c then InvR a else InvR b := by split <;> rfl

@[simp] theorem ite_invE {ε} (c : Prop) [Decidable c] (a b : Except ε State) :
    InvE (if c then a else b) ↔ if c then InvE a else InvE b := by split <;> rfl

@[simp] theorem ite_invO (c : Prop) [Decidable c] (a b : Option State) :
    InvO (if c then a else b) ↔ if c then InvO a else InvO b := by split <;> rfl

@[simp] theorem setReg_outp (s : State) (a1 : Nat) (a2 : Word) :
    (setReg s a1 a2).outp = s.outp ∧ (setReg s a1 a2).safety.safe = s.safety.safe := by
  unfold setReg; simp (maxDischargeDepth := 30) [*]

@[simp] theorem setReg_inv (s : State) (a1 : Nat) (a2 : Word) (h : Inv s) : Inv (setReg s a1 a2) := by
  unfold setReg; simp (maxDischargeDepth := 30) [*]

@[simp] theorem bumpReg_outp (s : State) (a1 : Nat) :
    (bumpReg s a1).outp = s.outp ∧ (bumpReg s a1).safety.safe = s.safety.safe := by
  unfold bumpReg; simp (maxDischargeDepth := 30) [*]

@[simp] theorem bumpReg_inv (s : State) (a1 : Nat) (h : Inv s) : Inv (bumpReg s a1) := by
  unfold bumpReg; simp (maxDischargeDepth := 30) [*]

@[simp] theorem addReg_outp (s : State) (a1 : Nat) (a2 : Nat) :
    (addReg s a1 a2).outp = s.outp ∧ (addReg s a1 a2).safety.safe = s.safety.safe := by
  unfold addReg; simp (maxDischargeDepth := 30) [*]

@[simp] theorem addReg_inv (s : State) (a1 : Nat) (a2 : Nat) (h : Inv s) : Inv (addReg s a1 a2) := by
  unfold addReg; simp (maxDischargeDepth := 30) [*]

@[simp] theorem ringSend_outp (s : State) (a1 : Nat) (a2 : Byte) (a3 : Nat) (a4 : Nat) (a5 : Bytes) :
    (ringSend s a1 a2 a3 a4 a5).outp = s.outp ∧ (ringSend s a1 a2 a3 a4 a5).safety.safe = s.safety.safe := by
  unfold ringSend; simp (maxDischargeDepth := 30) [*]

@[simp] theorem ringSend_inv (s : State) (a1 : Nat) (a2 : Byte) (a3 : Nat) (a4 : Nat) (a5 : Bytes) (h : Inv s) :
    Inv (ringSend s a1 a2 a3 a4 a5) := by
  unfold ringSend; simp (maxDischargeDepth := 30) [*]

@[simp] theorem replyInfo_outp (s : State) (a1 : Msg) (a2 : Nat) (a3 : Nat) (a4 : Bytes) :
    (replyInfo s a1 a2 a3 a4).outp = s.outp ∧ (replyInfo s a1 a2 a3 a4).safety.safe = s.safety.safe := by
  unfold replyInfo; simp (maxDischargeDepth := 30) [*]

@[simp] theorem replyInfo_inv (s : State) (a1 : Msg) (a2 : Nat) (a3 : Nat) (a4 : Bytes) (h : Inv s) :
    Inv (replyInfo s a1 a2 a3 a4) := by
  unfold replyInfo; simp (maxDischargeDepth := 30) [*]

@[simp] theorem reply_outp (s : State) (a1 : Msg) (a2 : Nat) :
    (reply s a1 a2).outp = s.outp ∧ (reply s a1 a2).safety.safe = s.safety.safe := by
  unfold reply; simp (maxDischargeDepth := 30) [*]

@[simp] theorem reply_inv (s : State) (a1 : Msg) (a2 : Nat) (h : Inv s) : Inv (reply s a1 a2) := by
  unfold reply; simp (maxDischargeDepth := 30) [*]

@[simp] theorem tailPush_outp (s : State) (a1 : Bytes) :
    (tailPush s a1).outp = s.outp ∧ (tailPush s a1).safety.safe = s.safety.safe := by
  unfold tailPush; simp (maxDischargeDepth := 30) [*]

@[simp] theorem tailPush_inv (s : State) (a1 : Bytes) (h : Inv s) : Inv (tailPush s a1) := by
  unfold tailPush; simp (maxDischargeDepth := 30) [*]

@[simp] theorem logTake_outp (s : State) (a1 : Nat) (a2 : Nat) (a3 : Nat) (a4 : Nat) (a5 : Bytes) (a6 : Bool) :
    (logTake s a1 a2 a3 a4 a5 a6).outp = s.outp ∧ (logTake s a1 a2 a3 a4 a5 a6).safety.safe = s.safety.safe := by
  unfold logTake; simp (maxDischargeDepth := 30) [*]

@[simp] theorem logTake_inv (s : State) (a1 : Nat) (a2 : Nat) (a3 : Nat) (a4 : Nat) (a5 : Bytes) (a6 : Bool)
    (h : Inv s) :
    Inv (logTake s a1 a2 a3 a4 a5 a6) := by
  unfold logTake; simp (maxDischargeDepth := 30) [*]

@[simp] theorem logNow_outp (s : State) (a1 : Nat) (a2 : Nat) (a3 : Bytes) :
    (logNow s a1 a2 a3).outp = s.outp ∧ (logNow s a1 a2 a3).safety.safe = s.safety.safe := by
  unfold logNow; simp (maxDischargeDepth := 30) [*]

@[simp] theorem logNow_inv (s : State) (a1 : Nat) (a2 : Nat) (a3 : Bytes) (h : Inv s) : Inv (logNow s a1 a2 a3) := by
  unfold logNow; simp (maxDischargeDepth := 30) [*]

@[simp] theorem sendEvent_outp (s : State) (a1 : Nat) (a2 : Bytes) :
    (sendEvent s a1 a2).outp = s.outp ∧ (sendEvent s a1 a2).safety.safe = s.safety.safe := by
  unfold sendEvent; simp (maxDischargeDepth := 30) [*]

@[simp] theorem sendEvent_inv (s : State) (a1 : Nat) (a2 : Bytes) (h : Inv s) : Inv (sendEvent s a1 a2) := by
  unfold sendEvent; try simp only []
  (repeat' split) <;> simp_all (maxDischargeDepth := 30)

@[simp] theorem tickFree_outp (s : State) :
    (tickFree s).outp = s.outp ∧ (tickFree s).safety.safe = s.safety.safe := by
  unfold tickFree; simp (maxDischargeDepth := 30) [*]

@[simp] theorem tickFree_inv (s : State) (h : Inv s) : Inv (tickFree s) := by
  unfold tickFree; simp (maxDischargeDepth := 30) [*]

@[simp] theorem sendOpenEvent_outp (s : State) (a1 : Nat) :
    (sendOpenEvent s a1).outp = s.outp ∧ (sendOpenEvent s a1).safety.safe = s.safety.safe := by
  unfold sendOpenEvent; simp (maxDischargeDepth := 30) [*]

@[simp] theorem sendOpenEvent_inv (s : State) (a1 : Nat) (h : Inv s) : Inv (sendOpenEvent s a1) := by
  unfold sendOpenEvent; simp (maxDischargeDepth := 30) [*]

@[simp] theorem replyBadArg_outp (s : State) (a1 : Msg) (a2 : Nat) :
    (replyBadArg s a1 a2).outp = s.outp ∧ (replyBadArg s a1 a2).safety.safe = s.safety.safe := by
  unfold replyBadArg; simp (maxDischargeDepth := 30) [*]

@[simp] theorem replyBadArg_inv (s : State) (a1 : Msg) (a2 : Nat) (h : Inv s) : Inv (replyBadArg s a1 a2) := by
  unfold replyBadArg; simp (maxDischargeDepth := 30) [*]

@[simp] theorem replyData_outp (s : State) (a1 : Msg) (a2 : Bytes) :
    (replyData s a1 a2).outp = s.outp ∧ (replyData s a1 a2).safety.safe = s.safety.safe := by
  unfold replyData; simp (maxDischargeDepth := 30) [*]

@[simp] theorem replyData_inv (s : State) (a1 : Msg) (a2 : Bytes) (h : Inv s) : Inv (replyData s a1 a2) := by
  unfold replyData; simp (maxDischargeDepth := 30) [*]

@[simp] theorem devWrite_outp (s : State) (a1 : Nat) (a2 : Bytes) :
    (devWrite s a1 a2).outp = s.outp ∧ (devWrite s a1 a2).safety.safe = s.safety.safe := by
  unfold devWrite; simp (maxDischargeDepth := 30) [*]

@[simp] theorem devWrite_inv (s : State) (a1 : Nat) (a2 : Bytes) (h : Inv s) : Inv (devWrite s a1 a2) := by
  unfold devWrite; simp (maxDischargeDepth := 30) [*]

@[simp] theorem devScramble_outp (s : State) (a1 : Nat) (a2 : Nat) :
    (devScramble s a1 a2).outp = s.outp ∧ (devScramble s a1 a2).safety.safe = s.safety.safe := by
  unfold devScramble; simp (maxDischargeDepth := 30) [*]

@[simp] theorem devScramble_inv (s : State) (a1 : Nat) (a2 : Nat) (h : Inv s) : Inv (devScramble s a1 a2) := by
  unfold devScramble; simp (maxDischargeDepth := 30) [*]

@[simp] theorem setOwnerQueue_outp (s : State) (a1 : Owner) (a2 : List Msg) :
    (setOwnerQueue s a1 a2).outp = s.outp ∧ (setOwnerQueue s a1 a2).safety.safe = s.safety.safe := by
  unfold setOwnerQueue; simp (maxDischargeDepth := 30) [*]

@[simp] theorem setOwnerQueue_inv (s : State) (a1 : Owner) (a2 : List Msg) (h : Inv s) :
    Inv (setOwnerQueue s a1 a2) := by
  unfold setOwnerQueue; simp (maxDischargeDepth := 30) [*]

@[simp] theorem sendTrans_outp (s : State) (a1 : Out) :
    (sendTrans s a1).outp = s.outp ∧ (sendTrans s a1).safety.safe = s.safety.safe := by
  unfold sendTrans; simp (maxDischargeDepth := 30) [*]

@[simp] theorem sendTrans_inv (s : State) (a1 : Out) (h : Inv s) : Inv (sendTrans s a1) := by
  unfold sendTrans; simp (maxDischargeDepth := 30) [*]

@[simp] theorem logIslandAs_outp (s : State) (a1 : Nat) (a2 : Nat) (a3 : Bytes) :
    (logIslandAs s a1 a2 a3).outp = s.outp ∧ (logIslandAs s a1 a2 a3).safety.safe = s.safety.safe := by
  unfold logIslandAs; simp (maxDischargeDepth := 30) [*]

@[simp] theorem logIslandAs_inv (s : State) (a1 : Nat) (a2 : Nat) (a3 : Bytes) (h : Inv s) :
    Inv (logIslandAs s a1 a2 a3) := by
  unfold logIslandAs; simp (maxDischargeDepth := 30) [*]

@[simp] theorem logIsland_outp (s : State) (a1 : Nat) (a2 : Bytes) :
    (logIsland s a1 a2).outp = s.outp ∧ (logIsland s a1 a2).safety.safe = s.safety.safe := by
  unfold logIsland; simp (maxDischargeDepth := 30) [*]

@[simp] theorem logIsland_inv (s : State) (a1 : Nat) (a2 : Bytes) (h : Inv s) : Inv (logIsland s a1 a2) := by
  unfold logIsland; simp (maxDischargeDepth := 30) [*]

@[simp] theorem stageFault_outp (s : State) (source code : Nat) (data : Bytes) :
    (stageFault s source code data).outp = s.outp ∧ (stageFault s source code data).safety.safe = s.safety.safe := by
  unfold stageFault; simp only []; (repeat' split) <;> simp

@[simp] theorem stageFault_inv (s : State) (source code : Nat) (data : Bytes) (h : Inv s) :
    Inv (stageFault s source code data) := by
  unfold stageFault; simp only []; (repeat' split) <;> simp [h]

@[simp] theorem withFront_inv (s : State) (o : Owner) (isIt : Msg → Bool) (f : Msg → State → Result)
    (h : Inv s) (hf : ∀ m t, Inv t → InvR (f m t)) : InvR (withFront s o isIt f) := by
  unfold withFront
  split
  · split
    · exact hf _ _ (by simp [h])
    · simp [*]
  · simp [*]

@[simp] theorem traceRec_outp (s : State) (a1 : Nat) (a2 : Nat) (a3 : Nat) (a4 : Nat) (a5 : Nat) :
    (traceRec s a1 a2 a3 a4 a5).outp = s.outp ∧ (traceRec s a1 a2 a3 a4 a5).safety.safe = s.safety.safe := by
  unfold traceRec; simp (maxDischargeDepth := 30) [*]

@[simp] theorem traceRec_inv (s : State) (a1 : Nat) (a2 : Nat) (a3 : Nat) (a4 : Nat) (a5 : Nat) (h : Inv s) :
    Inv (traceRec s a1 a2 a3 a4 a5) := by
  unfold traceRec; simp (maxDischargeDepth := 30) [*]

@[simp] theorem tileWrite_outp (s : State) (a1 : Nat) (a2 : Nat) (a3 : Bytes) :
    (tileWrite s a1 a2 a3).outp = s.outp ∧ (tileWrite s a1 a2 a3).safety.safe = s.safety.safe := by
  unfold tileWrite; simp (maxDischargeDepth := 30) [*]

@[simp] theorem tileWrite_inv (s : State) (a1 : Nat) (a2 : Nat) (a3 : Bytes) (h : Inv s) :
    Inv (tileWrite s a1 a2 a3) := by
  unfold tileWrite; simp (maxDischargeDepth := 30) [*]

@[simp] theorem eccReport_outp (s : State) (a1 : Nat) (a2 : Nat) (a3 : Nat) :
    (eccReport s a1 a2 a3).outp = s.outp ∧ (eccReport s a1 a2 a3).safety.safe = s.safety.safe := by
  unfold eccReport; simp (maxDischargeDepth := 30) [*]

@[simp] theorem eccReport_inv (s : State) (a1 : Nat) (a2 : Nat) (a3 : Nat) (h : Inv s) :
    Inv (eccReport s a1 a2 a3) := by
  unfold eccReport; simp (maxDischargeDepth := 30) [*]

@[simp] theorem replyPiece_outp (s : State) (a1 : Msg) (a2 : Nat) (a3 : Bytes) :
    (replyPiece s a1 a2 a3).outp = s.outp ∧ (replyPiece s a1 a2 a3).safety.safe = s.safety.safe := by
  unfold replyPiece; simp (maxDischargeDepth := 30) [*]

@[simp] theorem replyPiece_inv (s : State) (a1 : Msg) (a2 : Nat) (a3 : Bytes) (h : Inv s) :
    Inv (replyPiece s a1 a2 a3) := by
  unfold replyPiece; simp (maxDischargeDepth := 30) [*]

@[simp] theorem linesStatic_inv (s : State) (h : Inv s) : Inv (linesStatic s) := by unfold linesStatic; simp [h]

theorem linesStatic_latch (s : State) (b : Bool) (h : Inv s) :
    Inv (linesStatic { s with safety := { s.safety with safe := b } }) := by
  unfold linesStatic; simp [h]

@[simp] theorem ceaseCause_outp (s : State) (a1 : Nat) :
    (ceaseCause s a1).outp = s.outp ∧ (ceaseCause s a1).safety.safe = s.safety.safe := by
  unfold ceaseCause; simp (maxDischargeDepth := 30) [*]

@[simp] theorem ceaseCause_inv (s : State) (a1 : Nat) (h : Inv s) : Inv (ceaseCause s a1) := by
  unfold ceaseCause; simp (maxDischargeDepth := 30) [*]

@[simp] theorem unholdHost_outp (s : State) :
    (unholdHost s).outp = s.outp ∧ (unholdHost s).safety.safe = s.safety.safe := by
  unfold unholdHost; simp (maxDischargeDepth := 30) [*]

@[simp] theorem unholdHost_inv (s : State) (h : Inv s) : Inv (unholdHost s) := by
  unfold unholdHost; simp (maxDischargeDepth := 30) [*]

@[simp] theorem stopNow_inv (s : State) (h : Inv s) : Inv (stopNow s) := by
  unfold stopNow; simp (maxDischargeDepth := 30) [*]

@[simp] theorem earlyView_outp (s : State) (a1 : Nat) :
    (earlyView s a1).outp = s.outp ∧ (earlyView s a1).safety.safe = s.safety.safe := by
  unfold earlyView; simp (maxDischargeDepth := 30) [*]

@[simp] theorem earlyView_inv (s : State) (a1 : Nat) (h : Inv s) : Inv (earlyView s a1) := by
  unfold earlyView; simp (maxDischargeDepth := 30) [*]

@[simp] theorem releaseLines_inv (s : State) (st : Nat) (h : Inv s) (hs : s.safety.safe = true → st ≠ 0) :
    Inv (releaseLines s st) := by
  unfold releaseLines
  split
  · have hf : s.safety.safe = false := by
      cases e : s.safety.safe with
      | false => rfl
      | true => exact absurd ‹st = 0› (hs e)
    split
    · simp [h, hf]
      simpa [hf] using h.upgrade hf
    · simp [h, hf]; rfl
  · simp [h]

@[simp] theorem releaseLines_safe (s : State) (st : Nat) : (releaseLines s st).safety.safe = s.safety.safe := by
  unfold releaseLines; (repeat' split) <;> simp

@[simp] theorem vlHandOver_inv (s : State) (b : Bytes) (h : Inv s) : Inv (vlHandOver s b) := by
  unfold vlHandOver; simp only []; split <;> simp (maxDischargeDepth := 9) [h]

@[simp] theorem vlHandOver_safe (s : State) (b : Bytes) : (vlHandOver s b).safety.safe = s.safety.safe := by
  unfold vlHandOver; simp only []; split <;> simp

@[simp] theorem releaseRecord_inv (s : State) (r : Released) (h : Inv s) (hs : s.safety.safe = true → r.state ≠ 0) :
    Inv (releaseRecord s r) := by
  have k : Inv (if s.cyc.dev = .replay then s else releaseLines (vlHandOver s r.bytes) r.state) := by
    split
    · exact h
    · exact releaseLines_inv _ _ (vlHandOver_inv _ _ h) (by simpa using hs)
  unfold releaseRecord; simp only []
  generalize (if s.cyc.dev = .replay then s else releaseLines (vlHandOver s r.bytes) r.state) = t at k ⊢
  split <;> simp [k]

@[simp] theorem invalidRecord_state (s : State) : (invalidRecord s).state = 2 := rfl

@[simp] theorem releaseInvalid_inv (s : State) (h : Inv s) : Inv (releaseRecord s (invalidRecord s)) :=
  releaseRecord_inv s _ h fun _ => by simp

@[simp] theorem releaseRecord_safe (s : State) (r : Released) : (releaseRecord s r).safety.safe = s.safety.safe := by
  unfold releaseRecord; simp only []; (repeat' split) <;> simp

@[simp] theorem entryRecord_inv (s : State) (h : Inv s) : Inv (entryRecord s) := by
  unfold entryRecord; simp only []; (repeat' split) <;> simp [h]
  have k := (vlHandOver_inv s (earlyInvalid s).bytes h).lines
  rwa [vlHandOver_safe] at k

theorem releaseLines_low (s : State) (st : Nat) (h : s.outp.toggling = false) (ha : st ≠ 0) :
    (releaseLines s st).outp.toggling = false ∧ (releaseLines s st).outp.validA = s.outp.validA ∧
    (releaseLines s st).outp.validB = s.outp.validB ∧ (releaseLines s st).outp.degraded = true := by
  unfold releaseLines; simp [ha, h]

theorem vlHandOver_low (s : State) (b : Bytes) :
    (vlHandOver s b).outp.toggling = s.outp.toggling ∧ (vlHandOver s b).outp.validA = s.outp.validA ∧
    (vlHandOver s b).outp.validB = s.outp.validB ∧ (vlHandOver s b).outp.degraded = s.outp.degraded := by
  unfold vlHandOver; simp only []; split <;> simp

theorem releaseInvalid_low (s : State) (h : s.outp.toggling = false) (hd : s.outp.degraded = true) :
    (releaseRecord s (invalidRecord s)).outp.toggling = false ∧ (releaseRecord s (invalidRecord s)).outp.validA = s.outp.validA ∧
    (releaseRecord s (invalidRecord s)).outp.validB = s.outp.validB ∧ (releaseRecord s (invalidRecord s)).outp.degraded = true := by
  have k : ∀ t : State, t = (if s.cyc.dev = .replay then s else releaseLines (vlHandOver s (invalidRecord s).bytes) (invalidRecord s).state) →
      t.outp.toggling = false ∧ t.outp.validA = s.outp.validA ∧ t.outp.validB = s.outp.validB ∧ t.outp.degraded = true := by
    rintro t rfl
    split
    · exact ⟨h, rfl, rfl, hd⟩
    · have e := vlHandOver_low s (invalidRecord s).bytes
      have q := releaseLines_low (vlHandOver s (invalidRecord s).bytes) (invalidRecord s).state (by rw [e.1]; exact h) (by simp)
      rw [e.2.1, e.2.2.1] at q; exact q
  have k := k _ rfl
  unfold releaseRecord; simp only []
  generalize (if s.cyc.dev = .replay then s else releaseLines (vlHandOver s (invalidRecord s).bytes) (invalidRecord s).state) = t at k ⊢
  split <;> exact k

theorem entryRecord_low (s : State) (h : s.outp.toggling = false) (hd : s.outp.degraded = true) :
    (entryRecord s).outp.toggling = false ∧ (entryRecord s).outp.validA = s.outp.validA ∧
    (entryRecord s).outp.validB = s.outp.validB ∧ (entryRecord s).outp.degraded = true := by
  unfold entryRecord; simp only []
  split
  · exact ⟨h, rfl, rfl, hd⟩
  · split
    · exact releaseInvalid_low s h hd
    · exact ⟨h, rfl, rfl, hd⟩
  · split
    · exact releaseInvalid_low s h hd
    · split
      · exact ⟨h, rfl, rfl, hd⟩
      · have e := vlHandOver_low s (earlyInvalid s).bytes
        exact ⟨e.1.trans h, e.2.1, e.2.2.1, e.2.2.2.trans hd⟩

theorem enterSafe_fresh (s1 : State) (h : Inv s1) (h1 : s1.outp.toggling = false) (h2 : s1.outp.degraded = true)
    (h3 : s1.outp.validA = false) (h4 : s1.outp.validB = false) :
    Inv { entryRecord (sendOpenEvent s1 0x000C) with
      safety := { (entryRecord (sendOpenEvent s1 0x000C)).safety with safe := true } } := by
  have k := entryRecord_low (sendOpenEvent s1 0x000C) (by simp [h1]) (by simp [h2])
  have q := entryRecord_inv _ (sendOpenEvent_inv s1 0x000C h)
  simp only [inv_mk]
  refine ⟨q.mem, q.regs, ?_⟩
  rw [k.1, k.2.1, k.2.2.1, k.2.2.2]
  simp [h3, h4]

@[simp] theorem enterSafe_inv (s : State) (n : Nat) (h : Inv s) : Inv (enterSafe s n) := by
  unfold enterSafe; simp only []
  split
  · rename_i hs
    exact inv_mk.2 ⟨h.mem, h.regs, h.lines⟩
  · refine enterSafe_fresh _ ?_ rfl rfl rfl rfl
    unfold linesStatic; simp [h]

@[simp] theorem worldFullRaised_inv (s : State) (h : Inv s) : Inv (worldFullRaised s) := by
  unfold worldFullRaised; simp (maxDischargeDepth := 30) [*]

@[simp] theorem faultReact_inv (s : State) (a1 : Nat) (h : Inv s) : Inv (faultReact s a1) := by
  unfold faultReact; simp (maxDischargeDepth := 30) [*]

@[simp] theorem raiseFault_inv (s : State) (a1 : Nat) (a2 : Nat) (a3 : Bytes) (h : Inv s) :
    Inv (raiseFault s a1 a2 a3) := by
  unfold raiseFault; simp (maxDischargeDepth := 30) [*]

@[simp] theorem raiseOpenFault_inv (s : State) (a1 : Nat) (a2 : Nat) (h : Inv s) : Inv (raiseOpenFault s a1 a2) := by
  unfold raiseOpenFault; simp (maxDischargeDepth := 30) [*]

@[simp] theorem setSpare_outp (s : State) (a1 : Nat) (a2 : Spare → Spare) :
    (setSpare s a1 a2).outp = s.outp ∧ (setSpare s a1 a2).safety.safe = s.safety.safe := by
  unfold setSpare; simp (maxDischargeDepth := 30) [*]

@[simp] theorem setSpare_inv (s : State) (a1 : Nat) (a2 : Spare → Spare) (h : Inv s) : Inv (setSpare s a1 a2) := by
  unfold setSpare; simp (maxDischargeDepth := 30) [*]

@[simp] theorem pendSubst_outp (s : State) (a1 : Nat) :
    (pendSubst s a1).outp = s.outp ∧ (pendSubst s a1).safety.safe = s.safety.safe := by
  unfold pendSubst; simp (maxDischargeDepth := 30) [*]

@[simp] theorem pendSubst_inv (s : State) (a1 : Nat) (h : Inv s) : Inv (pendSubst s a1) := by
  unfold pendSubst; simp (maxDischargeDepth := 30) [*]

@[simp] theorem countUe_outp (s : State) (a1 : Nat) :
    (countUe s a1).outp = s.outp ∧ (countUe s a1).safety.safe = s.safety.safe := by
  unfold countUe; simp (maxDischargeDepth := 30) [*]

@[simp] theorem countUe_inv (s : State) (a1 : Nat) (h : Inv s) : Inv (countUe s a1) := by
  unfold countUe; simp (maxDischargeDepth := 30) [*]

@[simp] theorem tileWordLost_outp (s : State) (a1 : Nat) (a2 : Nat) :
    (tileWordLost s a1 a2).outp = s.outp ∧ (tileWordLost s a1 a2).safety.safe = s.safety.safe := by
  unfold tileWordLost; simp (maxDischargeDepth := 30) [*]

@[simp] theorem tileWordLost_inv (s : State) (a1 : Nat) (a2 : Nat) (h : Inv s) : Inv (tileWordLost s a1 a2) := by
  unfold tileWordLost; simp (maxDischargeDepth := 30) [*]

@[simp] theorem corrected_outp (s : State) (a1 : Nat) :
    (corrected s a1).outp = s.outp ∧ (corrected s a1).safety.safe = s.safety.safe := by
  unfold corrected; simp (maxDischargeDepth := 30) [*]

@[simp] theorem corrected_inv (s : State) (a1 : Nat) (h : Inv s) : Inv (corrected s a1) := by
  unfold corrected; simp (maxDischargeDepth := 30) [*]

@[simp] theorem tileStoreUe_inv (s : State) (a1 : Nat) (a2 : Nat) (h : Inv s) : Inv (tileStoreUe s a1 a2) := by
  unfold tileStoreUe; simp (maxDischargeDepth := 30) [*]

@[simp] theorem correctRead_outp (s : State) (a1 : Nat) (a2 : Nat) :
    (correctRead s a1 a2).outp = s.outp ∧ (correctRead s a1 a2).safety.safe = s.safety.safe := by
  unfold correctRead; simp (maxDischargeDepth := 30) [*]

@[simp] theorem correctRead_inv (s : State) (a1 : Nat) (a2 : Nat) (h : Inv s) : Inv (correctRead s a1 a2) := by
  unfold correctRead; try simp only []
  (repeat' split) <;> simp_all (maxDischargeDepth := 30)

@[simp] theorem bankUe_outp (s : State) (a1 : Nat) (a2 : Nat) :
    (bankUe s a1 a2).outp = s.outp ∧ (bankUe s a1 a2).safety.safe = s.safety.safe := by
  unfold bankUe; simp (maxDischargeDepth := 30) [*]

@[simp] theorem bankUe_inv (s : State) (a1 : Nat) (a2 : Nat) (h : Inv s) : Inv (bankUe s a1 a2) := by
  unfold bankUe; simp (maxDischargeDepth := 30) [*]

@[simp] theorem wakeBanks_outp (s : State) (a1 : Nat) (a2 : Nat) (a3 : Nat) :
    (wakeBanks s a1 a2 a3).outp = s.outp ∧ (wakeBanks s a1 a2 a3).safety.safe = s.safety.safe := by
  unfold wakeBanks; simp (maxDischargeDepth := 30) [*]

@[simp] theorem wakeBanks_inv (s : State) (a1 : Nat) (a2 : Nat) (a3 : Nat) (h : Inv s) :
    Inv (wakeBanks s a1 a2 a3) := by
  unfold wakeBanks; simp (maxDischargeDepth := 30) [*]

@[simp] theorem gddrUe_inv (s : State) (a1 : Nat) (h : Inv s) : Inv (gddrUe s a1) := by
  unfold gddrUe; simp (maxDischargeDepth := 30) [*]

@[simp] theorem mailboxUe_inv (s : State) (a1 : Nat) (h : Inv s) : Inv (mailboxUe s a1) := by
  unfold mailboxUe; simp (maxDischargeDepth := 30) [*]

@[simp] theorem devUe_inv (s : State) (a1 : Nat) (h : Inv s) : Inv (devUe s a1) := by
  unfold devUe; simp (maxDischargeDepth := 30) [*]

@[simp] theorem setBank_outp (s : State) (a1 : Nat) (a2 : Nat) :
    (setBank s a1 a2).outp = s.outp ∧ (setBank s a1 a2).safety.safe = s.safety.safe := by
  unfold setBank; simp (maxDischargeDepth := 30) [*]

@[simp] theorem setBank_inv (s : State) (a1 : Nat) (a2 : Nat) (h : Inv s) : Inv (setBank s a1 a2) := by
  unfold setBank; simp (maxDischargeDepth := 30) [*]

@[simp] theorem vlLink_inv (s : State) (b : Bool) (h : Inv s) : Inv (vlLink s b) := by
  unfold vlLink; simp only []; split <;> simp [h]

@[simp] theorem execVlLinkChange_inv (a0 : Bool) (s : State) (h : Inv s) : InvR (execVlLinkChange a0 s) := by
  unfold execVlLinkChange; simp (maxDischargeDepth := 30) [*]

@[simp] theorem heldReset_inv (s : State) (c : Byte) : Inv (heldReset s c) := by
  unfold heldReset; simp [State.reset]; decide

@[simp] theorem execVlRxFrame_inv (a0 : Bytes) (s : State) (h : Inv s) : InvR (execVlRxFrame a0 s) := by
  unfold execVlRxFrame; simp (maxDischargeDepth := 30) [*]

@[simp] theorem coldReset_inv (s : State) (c : Byte) (h : Inv s) : Inv (coldReset s c) := by
  unfold coldReset; simp only []; split <;> simp [h]

@[simp] theorem execVlFrameSend_inv (s : State) (h : Inv s) : InvR (execVlFrameSend s) := by
  unfold execVlFrameSend; simp only []; split
  · simp [h]
  · exact onlyIf_inv h (by simp [h])

@[simp] theorem drainWhere_outp (s : State) (a1 : Channel → RegSet → Bool) :
    (drainWhere s a1).outp = s.outp ∧ (drainWhere s a1).safety.safe = s.safety.safe := by
  unfold drainWhere; simp (maxDischargeDepth := 30) [*]

@[simp] theorem drainWhere_inv (s : State) (a1 : Channel → RegSet → Bool) (h : Inv s) : Inv (drainWhere s a1) := by
  unfold drainWhere; simp (maxDischargeDepth := 30) [*]

@[simp] theorem drainQueue_outp (s : State) (a1 : Nat) :
    (drainQueue s a1).outp = s.outp ∧ (drainQueue s a1).safety.safe = s.safety.safe := by
  unfold drainQueue; simp (maxDischargeDepth := 30) [*]

@[simp] theorem drainQueue_inv (s : State) (a1 : Nat) (h : Inv s) : Inv (drainQueue s a1) := by
  unfold drainQueue; simp (maxDischargeDepth := 30) [*]

@[simp] theorem frameFlagged_inv (s : State) (a1 : Nat) (a2 : Nat) (a3 : Nat) (a4 : Nat) (h : Inv s) :
    Inv (frameFlagged s a1 a2 a3 a4) := by
  unfold frameFlagged; try simp only []
  (repeat' split) <;> simp (maxDischargeDepth := 30) [*]

@[simp] theorem setQueue_outp (s : State) (a1 : Nat) (a2 : Queue → Queue) :
    (setQueue s a1 a2).outp = s.outp ∧ (setQueue s a1 a2).safety.safe = s.safety.safe := by
  unfold setQueue; simp (maxDischargeDepth := 30) [*]

@[simp] theorem setQueue_inv (s : State) (a1 : Nat) (a2 : Queue → Queue) (h : Inv s) : Inv (setQueue s a1 a2) := by
  unfold setQueue; simp (maxDischargeDepth := 30) [*]

@[simp] theorem acceptFrame_inv (s : State) (a1 : Nat) (a2 : RxFrame) (a3 : List RxFrame) (h : Inv s) :
    Inv (acceptFrame s a1 a2 a3) := by
  unfold acceptFrame; simp (maxDischargeDepth := 30) [*]

@[simp] theorem flushCpls_outp (l : List HeldWra) (s : State) :
    (flushCpls l s).outp = s.outp ∧ (flushCpls l s).safety.safe = s.safety.safe := by
  induction l generalizing s with
  | nil => exact ⟨rfl, rfl⟩
  | cons h t ih => unfold flushCpls; split <;> simp [ih]

@[simp] theorem flushCpls_inv (l : List HeldWra) (s : State) (hs : Inv s) : Inv (flushCpls l s) := by
  induction l generalizing s with
  | nil => unfold flushCpls; simp [hs]
  | cons h t ih =>
    unfold flushCpls; split
    · exact ih _ (sendTrans_inv _ _ (by simp [hs]))
    · simp [hs]

@[simp] theorem answerWra_outp (s : State) (a1 : HeldWra) :
    (answerWra s a1).outp = s.outp ∧ (answerWra s a1).safety.safe = s.safety.safe := by
  unfold answerWra; simp (maxDischargeDepth := 30) [*]

@[simp] theorem answerWra_inv (s : State) (a1 : HeldWra) (h : Inv s) : Inv (answerWra s a1) := by
  unfold answerWra; simp (maxDischargeDepth := 30) [*]

@[simp] theorem bufferFrame_outp (s : State) (a1 : Nat) (a2 : Option RxFrame) :
    (bufferFrame s a1 a2).outp = s.outp ∧ (bufferFrame s a1 a2).safety.safe = s.safety.safe := by
  unfold bufferFrame; try simp only []
  split <;> simp (maxDischargeDepth := 30) [*]

@[simp] theorem bufferFrame_inv (s : State) (a1 : Nat) (a2 : Option RxFrame) (h : Inv s) :
    Inv (bufferFrame s a1 a2) := by
  unfold bufferFrame; try simp only []
  split <;> simp (maxDischargeDepth := 30) [*]

@[simp] theorem closeBurst_outp (s : State) (a1 : Nat) (a2 : Bytes) (a3 : Bool) :
    (closeBurst s a1 a2 a3).1.outp = s.outp ∧ (closeBurst s a1 a2 a3).1.safety.safe = s.safety.safe := by
  unfold closeBurst; try simp only []
  (repeat' split) <;> simp (maxDischargeDepth := 30) [*]

@[simp] theorem closeBurst_inv (s : State) (a1 : Nat) (a2 : Bytes) (a3 : Bool) (h : Inv s) :
    Inv (closeBurst s a1 a2 a3).1 := by
  unfold closeBurst; try simp only []
  (repeat' split) <;> simp (maxDischargeDepth := 30) [*]

@[simp] theorem setBurst_outp (s : State) (a1 : Nat) (a2 : Bytes) (a3 : Bool) :
    (setBurst s a1 a2 a3).outp = s.outp ∧ (setBurst s a1 a2 a3).safety.safe = s.safety.safe := by
  unfold setBurst; simp (maxDischargeDepth := 30) [*]

@[simp] theorem setBurst_inv (s : State) (a1 : Nat) (a2 : Bytes) (a3 : Bool) (h : Inv s) :
    Inv (setBurst s a1 a2 a3) := by
  unfold setBurst; simp (maxDischargeDepth := 30) [*]

@[simp] theorem hostWra_outp (s : State) (a1 : Nat) (a2 : Nat) (a3 : Nat) (a4 : Bytes) :
    (hostWra s a1 a2 a3 a4).outp = s.outp ∧ (hostWra s a1 a2 a3 a4).safety.safe = s.safety.safe := by
  unfold hostWra; simp (maxDischargeDepth := 30) [*]

@[simp] theorem hostWra_inv (s : State) (a1 : Nat) (a2 : Nat) (a3 : Nat) (a4 : Bytes) (h : Inv s) :
    Inv (hostWra s a1 a2 a3 a4) := by
  unfold hostWra; simp (maxDischargeDepth := 30) [*]

@[simp] theorem undoWra_outp (s : State) (a1 : HeldWra) :
    (undoWra s a1).outp = s.outp ∧ (undoWra s a1).safety.safe = s.safety.safe := by
  unfold undoWra; try simp only []
  (repeat' split) <;> simp (maxDischargeDepth := 30) [*]

@[simp] theorem undoWra_inv (s : State) (a1 : HeldWra) (h : Inv s) : Inv (undoWra s a1) := by
  unfold undoWra; try simp only []
  (repeat' split) <;> simp (maxDischargeDepth := 30) [*]

@[simp] theorem releaseQueue_outp (s : State) (a1 : Nat) :
    (releaseQueue s a1).outp = s.outp ∧ (releaseQueue s a1).safety.safe = s.safety.safe := by
  unfold releaseQueue; simp (maxDischargeDepth := 30) [*]

@[simp] theorem releaseQueue_inv (s : State) (a1 : Nat) (h : Inv s) : Inv (releaseQueue s a1) := by
  unfold releaseQueue; simp (maxDischargeDepth := 30) [*]

@[simp] theorem noteRx_outp (s : State) (a1 : Nat) :
    (noteRx s a1).outp = s.outp ∧ (noteRx s a1).safety.safe = s.safety.safe := by
  unfold noteRx; simp (maxDischargeDepth := 30) [*]

@[simp] theorem noteRx_inv (s : State) (a1 : Nat) (h : Inv s) : Inv (noteRx s a1) := by
  unfold noteRx; simp (maxDischargeDepth := 30) [*]

@[simp] theorem execFrameReceived_inv (a0 : Nat) (a1 : Bytes) (a2 : Nat) (s : State) (h : Inv s) :
    InvR (execFrameReceived a0 a1 a2 s) := by
  unfold execFrameReceived; simp (maxDischargeDepth := 30) [*]

@[simp] theorem execGptpSyncTx_inv (a0 : Nat) (s : State) (h : Inv s) : InvR (execGptpSyncTx a0 s) := by
  unfold execGptpSyncTx; simp (maxDischargeDepth := 30) [*]

@[simp] theorem releaseHeldCpls_outp (s : State) (a1 : Nat) :
    (releaseHeldCpls s a1).outp = s.outp ∧ (releaseHeldCpls s a1).safety.safe = s.safety.safe := by
  unfold releaseHeldCpls; simp (maxDischargeDepth := 30) [*]

@[simp] theorem releaseHeldCpls_inv (s : State) (a1 : Nat) (h : Inv s) : Inv (releaseHeldCpls s a1) := by
  unfold releaseHeldCpls; simp (maxDischargeDepth := 30) [*]

@[simp] theorem execSensorLinkChange_inv (a0 : Nat) (a1 : Bool) (s : State) (h : Inv s) :
    InvR (execSensorLinkChange a0 a1 s) := by
  unfold execSensorLinkChange; simp (maxDischargeDepth := 30) [*]

@[simp] theorem dropTransactions_outp (s : State) :
    (dropTransactions s).outp = s.outp ∧ (dropTransactions s).safety.safe = s.safety.safe := by
  unfold dropTransactions
  exact foldl_outp _ (fun s x => undoWra_outp s x) _ _

@[simp] theorem dropTransactions_inv (s : State) (h : Inv s) : Inv (dropTransactions s) := by
  have k : Inv (s.host.wraHeld.reverse.foldl undoWra s) := foldl_inv _ (fun s x h => undoWra_inv _ _ h) _ _ h
  unfold dropTransactions
  exact inv_mk.2 ⟨k.mem, k.regs, k.lines⟩

@[simp] theorem execFrameAccept_inv (a0 : Nat) (s : State) (h : Inv s) : InvR (execFrameAccept a0 s) := by
  unfold execFrameAccept; try simp only []
  split <;> simp (maxDischargeDepth := 30) [*]

@[simp] theorem execHostQueueWra_inv (a0 : Nat) (a1 : Nat) (a2 : Nat) (a3 : Bytes) (s : State) (h : Inv s) :
    InvR (execHostQueueWra a0 a1 a2 a3 s) := by
  unfold execHostQueueWra; simp (maxDischargeDepth := 30) [*]

@[simp] theorem execGptpSyncTimeout_inv (s : State) (h : Inv s) : InvR (execGptpSyncTimeout s) := by
  unfold execGptpSyncTimeout; simp (maxDischargeDepth := 30) [*]

@[simp] theorem execGptpSyncRx_inv (a0 : Nat) (a1 : ℤ) (s : State) (h : Inv s) : InvR (execGptpSyncRx a0 a1 s) := by
  unfold execGptpSyncRx; simp (maxDischargeDepth := 30) [*]

@[simp] theorem execFrameHashDone_inv (a0 : Nat) (s : State) (h : Inv s) : InvR (execFrameHashDone a0 s) := by
  unfold execFrameHashDone; simp (maxDischargeDepth := 30) [*]

@[simp] theorem execQueueReadTimeout_inv (a0 : Nat) (s : State) (h : Inv s) : InvR (execQueueReadTimeout a0 s) := by
  unfold execQueueReadTimeout; simp (maxDischargeDepth := 30) [*]

@[simp] theorem setChan_outp (s : State) (a1 : Channel) :
    (setChan s a1).outp = s.outp ∧ (setChan s a1).safety.safe = s.safety.safe := by
  unfold setChan; simp (maxDischargeDepth := 30) [*]

@[simp] theorem setChan_inv (s : State) (a1 : Channel) (h : Inv s) : Inv (setChan s a1) := by
  unfold setChan; simp (maxDischargeDepth := 30) [*]

@[simp] theorem stopReading_outp (s : State) (a1 : Nat) (a2 : RegSet) :
    (stopReading s a1 a2).outp = s.outp ∧ (stopReading s a1 a2).safety.safe = s.safety.safe := by
  unfold stopReading; simp (maxDischargeDepth := 30) [*]

@[simp] theorem stopReading_inv (s : State) (a1 : Nat) (a2 : RegSet) (h : Inv s) : Inv (stopReading s a1 a2) := by
  unfold stopReading; simp (maxDischargeDepth := 30) [*]

@[simp] theorem endSet_outp (s : State) (a1 : Nat) (a2 : Nat) (a3 : Nat) :
    (endSet s a1 a2 a3).outp = s.outp ∧ (endSet s a1 a2 a3).safety.safe = s.safety.safe := by
  unfold endSet; try simp only []
  split <;> simp (maxDischargeDepth := 30) [*]

@[simp] theorem endSet_inv (s : State) (a1 : Nat) (a2 : Nat) (a3 : Nat) (h : Inv s) : Inv (endSet s a1 a2 a3) := by
  unfold endSet; try simp only []
  split <;> simp (maxDischargeDepth := 30) [*]

@[simp] theorem endWaiting_outp (s : State) (a1 : Nat) (a2 : Nat) :
    (endWaiting s a1 a2).outp = s.outp ∧ (endWaiting s a1 a2).safety.safe = s.safety.safe := by
  unfold endWaiting; simp (maxDischargeDepth := 30) [*]

@[simp] theorem endWaiting_inv (s : State) (a1 : Nat) (a2 : Nat) (h : Inv s) : Inv (endWaiting s a1 a2) := by
  unfold endWaiting; simp (maxDischargeDepth := 30) [*]

@[simp] theorem endBoth_outp (s : State) (a1 : Nat) (a2 : Nat) (a3 : Nat) :
    (endBoth s a1 a2 a3).outp = s.outp ∧ (endBoth s a1 a2 a3).safety.safe = s.safety.safe := by
  unfold endBoth; try simp only []
  split <;> simp (maxDischargeDepth := 30) [*]

@[simp] theorem endBoth_inv (s : State) (a1 : Nat) (a2 : Nat) (a3 : Nat) (h : Inv s) : Inv (endBoth s a1 a2 a3) := by
  unfold endBoth; try simp only []
  split <;> simp (maxDischargeDepth := 30) [*]

@[simp] theorem passWords_outp (s : State) (a1 : Nat) (a2 : Nat) :
    (passWords s a1 a2).outp = s.outp ∧ (passWords s a1 a2).safety.safe = s.safety.safe := by
  unfold passWords; simp (maxDischargeDepth := 30) [*]

@[simp] theorem passWords_inv (s : State) (a1 : Nat) (a2 : Nat) (h : Inv s) : Inv (passWords s a1 a2) := by
  unfold passWords; simp (maxDischargeDepth := 30) [*]

@[simp] theorem advanceRead_outp (s : State) (a1 : RegSet) (a2 : Nat) :
    (advanceRead s a1 a2).outp = s.outp ∧ (advanceRead s a1 a2).safety.safe = s.safety.safe := by
  unfold advanceRead; simp (maxDischargeDepth := 30) [*]

@[simp] theorem advanceRead_inv (s : State) (a1 : RegSet) (a2 : Nat) (h : Inv s) : Inv (advanceRead s a1 a2) := by
  unfold advanceRead; simp (maxDischargeDepth := 30) [*]

@[simp] theorem landWords_outp (s : State) (a1 : RegSet) (a2 : List (Bytes × Nat)) :
    (landWords s a1 a2).outp = s.outp ∧ (landWords s a1 a2).safety.safe = s.safety.safe := by
  unfold landWords; simp (maxDischargeDepth := 30) [*]

@[simp] theorem landWords_inv (s : State) (a1 : RegSet) (a2 : List (Bytes × Nat)) (h : Inv s) :
    Inv (landWords s a1 a2) := by
  unfold landWords; simp (maxDischargeDepth := 30) [*]

@[simp] theorem landSides_outp (s : State) (a1 : Nat) (a2 : List (Bytes × Nat)) :
    (landSides s a1 a2).outp = s.outp ∧ (landSides s a1 a2).safety.safe = s.safety.safe := by
  unfold landSides; try simp only []
  (repeat' split) <;> simp (maxDischargeDepth := 30) [*]

@[simp] theorem landSides_inv (s : State) (a1 : Nat) (a2 : List (Bytes × Nat)) (h : Inv s) :
    Inv (landSides s a1 a2) := by
  unfold landSides; try simp only []
  (repeat' split) <;> simp (maxDischargeDepth := 30) [*]

@[simp] theorem cutTransfer_outp (s : State) (a1 : Nat) (a2 : Nat) :
    (cutTransfer s a1 a2).outp = s.outp ∧ (cutTransfer s a1 a2).safety.safe = s.safety.safe := by
  unfold cutTransfer; try simp only []
  split <;> simp (maxDischargeDepth := 30) [*]

@[simp] theorem cutTransfer_inv (s : State) (a1 : Nat) (a2 : Nat) (h : Inv s) : Inv (cutTransfer s a1 a2) := by
  unfold cutTransfer; try simp only []
  split <;> simp (maxDischargeDepth := 30) [*]

@[simp] theorem disarm_outp (s : State) (a1 : Nat) :
    (disarm s a1).outp = s.outp ∧ (disarm s a1).safety.safe = s.safety.safe := by
  unfold disarm; try simp only []
  split <;> simp (maxDischargeDepth := 30) [*]

@[simp] theorem disarm_inv (s : State) (a1 : Nat) (h : Inv s) : Inv (disarm s a1) := by
  unfold disarm; try simp only []
  split <;> simp (maxDischargeDepth := 30) [*]

@[simp] theorem abortChannel_outp (a0 : Inst) (s : State) (a2 : Nat) :
    (abortChannel a0 s a2).outp = s.outp ∧ (abortChannel a0 s a2).safety.safe = s.safety.safe := by
  unfold abortChannel; try simp only []
  split <;> simp (maxDischargeDepth := 30) [*]

@[simp] theorem abortChannel_inv (a0 : Inst) (s : State) (a2 : Nat) (h : Inv s) : Inv (abortChannel a0 s a2) := by
  unfold abortChannel; try simp only []
  split <;> simp (maxDischargeDepth := 30) [*]

@[simp] theorem finishOk_inv (s : State) (a1 : Nat) (a2 : Nat) (h : Inv s) : InvE (finishOk s a1 a2) := by
  unfold finishOk; try simp only []
  split <;> simp (maxDischargeDepth := 30) [*]

@[simp] theorem abortSets_outp (s : State) (a1 : Inst) :
    (abortSets s a1).outp = s.outp ∧ (abortSets s a1).safety.safe = s.safety.safe := by
  unfold abortSets; simp (maxDischargeDepth := 30) [*]

@[simp] theorem abortSets_inv (s : State) (a1 : Inst) (h : Inv s) : Inv (abortSets s a1) := by
  unfold abortSets; try simp only []
  refine foldl_inv _ ?_ _ _ ?_; (intros; (repeat' split) <;> simp (maxDischargeDepth := 30) [*]); simp (maxDischargeDepth := 30) [*]

@[simp] theorem startQueue_outp (s : State) (a1 : Nat) (a2 : RegSet) :
    (startQueue s a1 a2).outp = s.outp ∧ (startQueue s a1 a2).safety.safe = s.safety.safe := by
  unfold startQueue; simp (maxDischargeDepth := 30) [*]

@[simp] theorem startQueue_inv (s : State) (a1 : Nat) (a2 : RegSet) (h : Inv s) : Inv (startQueue s a1 a2) := by
  unfold startQueue; simp (maxDischargeDepth := 30) [*]

@[simp] theorem addToken_outp (s : State) (a1 : Nat) (a2 : Nat) (a3 : Nat) :
    (addToken s a1 a2 a3).outp = s.outp ∧ (addToken s a1 a2 a3).safety.safe = s.safety.safe := by
  unfold addToken; simp (maxDischargeDepth := 30) [*]

@[simp] theorem addToken_inv (s : State) (a1 : Nat) (a2 : Nat) (a3 : Nat) (h : Inv s) :
    Inv (addToken s a1 a2 a3) := by
  unfold addToken; simp (maxDischargeDepth := 30) [*]

@[simp] theorem signalSet_outp (s : State) (a1 : RegSet) :
    (signalSet s a1).outp = s.outp ∧ (signalSet s a1).safety.safe = s.safety.safe := by
  unfold signalSet; simp (maxDischargeDepth := 30) [*]

@[simp] theorem signalSet_inv (s : State) (a1 : RegSet) (h : Inv s) : Inv (signalSet s a1) := by
  unfold signalSet; simp (maxDischargeDepth := 30) [*]

@[simp] theorem completeSide_inv (s : State) (a1 : Nat) (a2 : List (Bytes × Nat)) (a3 : Bool) (h : Inv s) :
    InvE (completeSide s a1 a2 a3) := by
  unfold completeSide; try simp only []
  split <;> simp (maxDischargeDepth := 30) [*]

@[simp] theorem noteTimeout_outp (s : State) (a1 : Nat) :
    (noteTimeout s a1).outp = s.outp ∧ (noteTimeout s a1).safety.safe = s.safety.safe := by
  unfold noteTimeout; simp (maxDischargeDepth := 30) [*]

@[simp] theorem noteTimeout_inv (s : State) (a1 : Nat) (h : Inv s) : Inv (noteTimeout s a1) := by
  unfold noteTimeout; simp (maxDischargeDepth := 30) [*]

@[simp] theorem noteTimeouts_outp (s : State) (a1 : Nat) (a2 : Option Nat) :
    (noteTimeouts s a1 a2).outp = s.outp ∧ (noteTimeouts s a1 a2).safety.safe = s.safety.safe := by
  unfold noteTimeouts; try simp only []
  split <;> simp (maxDischargeDepth := 30) [*]

@[simp] theorem noteTimeouts_inv (s : State) (a1 : Nat) (a2 : Option Nat) (h : Inv s) :
    Inv (noteTimeouts s a1 a2) := by
  unfold noteTimeouts; try simp only []
  split <;> simp (maxDischargeDepth := 30) [*]

@[simp] theorem correctSource_outp (s : State) (a1 : Channel) (a2 : RegSet) :
    (correctSource s a1 a2).outp = s.outp ∧ (correctSource s a1 a2).safety.safe = s.safety.safe := by
  unfold correctSource; simp (maxDischargeDepth := 30) [*]

@[simp] theorem correctSource_inv (s : State) (a1 : Channel) (a2 : RegSet) (h : Inv s) :
    Inv (correctSource s a1 a2) := by
  unfold correctSource; try simp only []
  (repeat' split) <;> simp_all (maxDischargeDepth := 30)

@[simp] theorem sourceFault_inv (s : State) (a1 : RegSet) (a2 : Nat) (h : Inv s) : Inv (sourceFault s a1 a2) := by
  unfold sourceFault; simp (maxDischargeDepth := 30) [*]

@[simp] theorem stopAtLine_inv (s : State) (a1 : Nat) (a2 : Nat) (h : Inv s) : Inv (stopAtLine s a1 a2) := by
  unfold stopAtLine; try simp only []
  split <;> simp (maxDischargeDepth := 30) [*]

@[simp] theorem completeTransfer_inv (s : State) (key : Nat) (h : Inv s) : InvE (completeTransfer s key) := by
  unfold completeTransfer; simp only []
  split
  · simp [h]
  · split
    · simp [h]
    · have k := fun c r n => advanceRead_inv _ r n (correctSource_inv s c r h)
      split
      · exact completeSide_inv _ _ _ _ (k _ _ _)
      · exact bindE_inv (completeSide_inv _ _ _ _ (k _ _ _)) fun t ht => by simp [ht]

@[simp] theorem failReadback_inv (s : State) (a1 : Nat) (h : Inv s) : Inv (failReadback s a1) := by
  unfold failReadback; try simp only []
  split <;> simp (maxDischargeDepth := 30) [*]

@[simp] theorem execDmaComplete_inv (engine channel : Nat) (readbackOk : Bool) (s : State) (h : Inv s) :
    InvR (execDmaComplete engine channel readbackOk s) := by
  unfold execDmaComplete; simp only []
  split
  · simp [*]
  · split
    · simp [*]
    · split
      · simp [*]
      · exact ofAttempt_inv (by simp [*])

@[simp] theorem wakeTransfer_outp (s : State) (a1 : Channel) (a2 : RegSet) :
    (wakeTransfer s a1 a2).outp = s.outp ∧ (wakeTransfer s a1 a2).safety.safe = s.safety.safe := by
  unfold wakeTransfer; simp (maxDischargeDepth := 30) [*]

@[simp] theorem wakeTransfer_inv (s : State) (a1 : Channel) (a2 : RegSet) (h : Inv s) :
    Inv (wakeTransfer s a1 a2) := by
  unfold wakeTransfer; simp (maxDischargeDepth := 30) [*]

@[simp] theorem execQueueReset_inv (a0 : Nat) (s : State) (h : Inv s) : InvR (execQueueReset a0 s) := by
  unfold execQueueReset; try simp only []
  split <;> simp (maxDischargeDepth := 30) [*]

@[simp] theorem idleDecision_outp (s : State) (a1 : Nat) :
    (idleDecision s a1).outp = s.outp ∧ (idleDecision s a1).safety.safe = s.safety.safe := by
  unfold idleDecision; simp (maxDischargeDepth := 30) [*]

@[simp] theorem idleDecision_inv (s : State) (a1 : Nat) (h : Inv s) : Inv (idleDecision s a1) := by
  unfold idleDecision; simp (maxDischargeDepth := 30) [*]

@[simp] theorem wakeStarted_outp (s : State) (a1 : Nat) :
    (wakeStarted s a1).outp = s.outp ∧ (wakeStarted s a1).safety.safe = s.safety.safe := by
  unfold wakeStarted; try simp only []
  split <;> simp (maxDischargeDepth := 30) [*]

@[simp] theorem wakeStarted_inv (s : State) (a1 : Nat) (h : Inv s) : Inv (wakeStarted s a1) := by
  unfold wakeStarted; try simp only []
  split <;> simp (maxDischargeDepth := 30) [*]

@[simp] theorem timeoutChain_invE (s : State) (key : Nat) (h : Inv s) : InvE (timeoutChain s key) := by
  unfold timeoutChain; simp only []
  split
  · simp [*]
  · exact mapE_inv (by simp [*]) (by intros; simp [*])

@[simp] theorem execDmaTimeout_inv (engine channel : Nat) (s : State) (h : Inv s) :
    InvR (execDmaTimeout engine channel s) := by
  unfold execDmaTimeout; simp only []
  split
  · simp [*]
  · split
    · exact ofAttempt_inv (mapE_inv (by simp [*]) (by intros; simp [*]))
    · simp [*]

@[simp] theorem execDmaErrEcc_inv (a0 : Nat) (a1 : Nat) (a2 : Nat) (s : State) (h : Inv s) :
    InvR (execDmaErrEcc a0 a1 a2 s) := by
  unfold execDmaErrEcc; simp (maxDischargeDepth := 30) [*]

@[simp] theorem startTransfer_outp (s : State) (a1 : Nat) :
    (startTransfer s a1).outp = s.outp ∧ (startTransfer s a1).safety.safe = s.safety.safe := by
  unfold startTransfer; try simp only []
  (repeat' split) <;> simp (maxDischargeDepth := 30) [*]

@[simp] theorem startTransfer_inv (s : State) (a1 : Nat) (h : Inv s) : Inv (startTransfer s a1) := by
  unfold startTransfer; try simp only []
  (repeat' split) <;> simp (maxDischargeDepth := 30) [*]

@[simp] theorem serviceDecision_outp (s : State) (a1 : Nat) (a2 : Nat) (a3 : Nat) :
    (serviceDecision s a1 a2 a3).outp = s.outp ∧ (serviceDecision s a1 a2 a3).safety.safe = s.safety.safe := by
  unfold serviceDecision; simp (maxDischargeDepth := 30) [*]

@[simp] theorem serviceDecision_inv (s : State) (a1 : Nat) (a2 : Nat) (a3 : Nat) (h : Inv s) :
    Inv (serviceDecision s a1 a2 a3) := by
  unfold serviceDecision; simp (maxDischargeDepth := 30) [*]

@[simp] theorem execDmaTransferStart_inv (a0 : Nat) (s : State) (h : Inv s) : InvR (execDmaTransferStart a0 s) := by
  unfold execDmaTransferStart; try simp only []
  split <;> simp (maxDischargeDepth := 30) [*]

@[simp] theorem writeShadow_outp (s : State) (a1 : Nat) (a2 : RegSet) (a3 : Bool) :
    (writeShadow s a1 a2 a3).outp = s.outp ∧ (writeShadow s a1 a2 a3).safety.safe = s.safety.safe := by
  unfold writeShadow; simp (maxDischargeDepth := 30) [*]

@[simp] theorem writeShadow_inv (s : State) (a1 : Nat) (a2 : RegSet) (a3 : Bool) (h : Inv s) :
    Inv (writeShadow s a1 a2 a3) := by
  unfold writeShadow; simp (maxDischargeDepth := 30) [*]

@[simp] theorem mapEpoch_outp (s : State) (a1 : Nat) (a2 : Epoch → Epoch) :
    (mapEpoch s a1 a2).outp = s.outp ∧ (mapEpoch s a1 a2).safety.safe = s.safety.safe := by
  unfold mapEpoch; simp (maxDischargeDepth := 30) [*]

@[simp] theorem mapEpoch_inv (s : State) (a1 : Nat) (a2 : Epoch → Epoch) (h : Inv s) : Inv (mapEpoch s a1 a2) := by
  unfold mapEpoch; simp (maxDischargeDepth := 30) [*]

@[simp] theorem reapEpochs_outp (s : State) :
    (reapEpochs s).outp = s.outp ∧ (reapEpochs s).safety.safe = s.safety.safe := by
  unfold reapEpochs; simp (maxDischargeDepth := 30) [*]

@[simp] theorem reapEpochs_inv (s : State) (h : Inv s) : Inv (reapEpochs s) := by
  unfold reapEpochs; simp (maxDischargeDepth := 30) [*]

@[simp] theorem dropHold_outp (s : State) (a1 : Nat) :
    (dropHold s a1).outp = s.outp ∧ (dropHold s a1).safety.safe = s.safety.safe := by
  unfold dropHold; simp (maxDischargeDepth := 30) [*]

@[simp] theorem dropHold_inv (s : State) (a1 : Nat) (h : Inv s) : Inv (dropHold s a1) := by
  unfold dropHold; simp (maxDischargeDepth := 30) [*]

@[simp] theorem holdEpoch_outp (s : State) (a1 : Nat) :
    (holdEpoch s a1).outp = s.outp ∧ (holdEpoch s a1).safety.safe = s.safety.safe := by
  unfold holdEpoch; simp (maxDischargeDepth := 30) [*]

@[simp] theorem holdEpoch_inv (s : State) (a1 : Nat) (h : Inv s) : Inv (holdEpoch s a1) := by
  unfold holdEpoch; simp (maxDischargeDepth := 30) [*]

@[simp] theorem mismatchRefuses_outp (s : State) :
    (mismatchRefuses s).outp = s.outp ∧ (mismatchRefuses s).safety.safe = s.safety.safe := by
  unfold mismatchRefuses; simp (maxDischargeDepth := 30) [*]

@[simp] theorem mismatchRefuses_inv (s : State) (h : Inv s) : Inv (mismatchRefuses s) := by
  unfold mismatchRefuses; simp (maxDischargeDepth := 30) [*]

@[simp] theorem latigoDue_inv (s : State) (h : Inv s) : Inv (latigoDue s) := by
  unfold latigoDue
  split
  · exact releaseRecord_inv s _ h fun _ => by show (1 : Nat) ≠ 0; decide
  · split <;> simp [h]

@[simp] theorem latigoIfDue_inv (s : State) (h : Inv s) : Inv (latigoIfDue s) := by
  unfold latigoIfDue; simp (maxDischargeDepth := 30) [*]

@[simp] theorem refuseItem_inv (s : State) (h : Inv s) : Inv (refuseItem s) := by
  unfold refuseItem; simp (maxDischargeDepth := 30) [*]

@[simp] theorem traceGrant_outp (s : State) (a1 : Bool) :
    (traceGrant s a1).outp = s.outp ∧ (traceGrant s a1).safety.safe = s.safety.safe := by
  unfold traceGrant; simp (maxDischargeDepth := 30) [*]

@[simp] theorem traceGrant_inv (s : State) (a1 : Bool) (h : Inv s) : Inv (traceGrant s a1) := by
  unfold traceGrant; simp (maxDischargeDepth := 30) [*]

@[simp] theorem judgeRelease_inv (s : State) (item : Bytes) (h : Inv s) : Inv (judgeRelease s item) := by
  unfold judgeRelease; simp only []
  split
  · simp [h]
  · split
    · exact refuseItem_inv _ (traceGrant_inv _ _ (by simp [h]))
    · rename_i hs
      have k : ∀ r, Inv (releaseRecord (traceGrant { s with safety := { s.safety with primaryOk := true } } true) r) :=
        fun r => releaseRecord_inv _ _ (traceGrant_inv _ _ (by simp [h])) (fun e => absurd (by simpa [traceGrant] using e) hs)
      have q := k (primaryRecord { s with safety := { s.safety with primaryOk := true } } item)
      exact inv_mk.2 ⟨q.mem, q.regs, q.lines⟩

@[simp] theorem markMiss_inv (s : State) (h : Inv s) : Inv (markMiss s) := by
  unfold markMiss; simp (maxDischargeDepth := 30) [*]

@[simp] theorem execReleaseRequest_inv (s : State) (h : Inv s) : InvR (execReleaseRequest s) := by
  unfold execReleaseRequest; try simp only []
  split <;> simp (maxDischargeDepth := 30) [*]

@[simp] theorem takePlanItem_inv (s : State) (a1 : Bytes) (h : Inv s) : Inv (takePlanItem s a1) := by
  unfold takePlanItem; simp (maxDischargeDepth := 30) [*]

@[simp] theorem judgeIfWaiting_inv (s : State) (h : Inv s) : Inv (judgeIfWaiting s) := by
  unfold judgeIfWaiting; try simp only []
  split <;> simp (maxDischargeDepth := 30) [*]

@[simp] theorem afterLatigo_inv (s : State) (h : Inv s) : Inv (afterLatigo s) := by
  unfold afterLatigo; simp (maxDischargeDepth := 30) [*]

@[simp] theorem addFact_outp (s : State) (a1 : Fact) :
    (addFact s a1).outp = s.outp ∧ (addFact s a1).safety.safe = s.safety.safe := by
  unfold addFact; simp (maxDischargeDepth := 30) [*]

@[simp] theorem addFact_inv (s : State) (a1 : Fact) (h : Inv s) : Inv (addFact s a1) := by
  unfold addFact; simp (maxDischargeDepth := 30) [*]

@[simp] theorem scrambleOutputs_outp (s : State) (a1 : Inst) :
    (scrambleOutputs s a1).outp = s.outp ∧ (scrambleOutputs s a1).safety.safe = s.safety.safe := by
  unfold scrambleOutputs; simp (maxDischargeDepth := 30) [*]

@[simp] theorem scrambleOutputs_inv (s : State) (a1 : Inst) (h : Inv s) : Inv (scrambleOutputs s a1) := by
  unfold scrambleOutputs; try simp only []
  refine foldl_inv _ ?_ _ _ ?_; (intros; (repeat' split) <;> simp (maxDischargeDepth := 30) [*]); simp (maxDischargeDepth := 30) [*]

@[simp] theorem endLatigo_outp (s : State) :
    (endLatigo s).outp = s.outp ∧ (endLatigo s).safety.safe = s.safety.safe := by
  unfold endLatigo; simp (maxDischargeDepth := 30) [*]

@[simp] theorem endLatigo_inv (s : State) (h : Inv s) : Inv (endLatigo s) := by
  unfold endLatigo; simp (maxDischargeDepth := 30) [*]

@[simp] theorem dropSweepHolds_outp (s : State) (a1 : Inst) :
    (dropSweepHolds s a1).outp = s.outp ∧ (dropSweepHolds s a1).safety.safe = s.safety.safe := by
  unfold dropSweepHolds; simp (maxDischargeDepth := 30) [*]

@[simp] theorem dropSweepHolds_inv (s : State) (a1 : Inst) (h : Inv s) : Inv (dropSweepHolds s a1) := by
  unfold dropSweepHolds; try simp only []
  refine foldl_inv _ ?_ _ _ ?_; (intros; (repeat' split) <;> simp (maxDischargeDepth := 30) [*]); simp (maxDischargeDepth := 30) [*]

@[simp] theorem setInst_outp (s : State) (a1 : Inst) :
    (setInst s a1).outp = s.outp ∧ (setInst s a1).safety.safe = s.safety.safe := by
  unfold setInst; simp (maxDischargeDepth := 30) [*]

@[simp] theorem setInst_inv (s : State) (a1 : Inst) (h : Inv s) : Inv (setInst s a1) := by
  unfold setInst; simp (maxDischargeDepth := 30) [*]

@[simp] theorem dropStream_outp (s : State) (a1 : Inst) :
    (dropStream s a1).outp = s.outp ∧ (dropStream s a1).safety.safe = s.safety.safe := by
  unfold dropStream; simp (maxDischargeDepth := 30) [*]

@[simp] theorem dropStream_inv (s : State) (a1 : Inst) (h : Inv s) : Inv (dropStream s a1) := by
  unfold dropStream; simp (maxDischargeDepth := 30) [*]

@[simp] theorem endStream_outp (s : State) (a1 : Inst) (a2 : Nat) :
    (endStream s a1 a2).outp = s.outp ∧ (endStream s a1 a2).safety.safe = s.safety.safe := by
  unfold endStream; simp (maxDischargeDepth := 30) [*]

@[simp] theorem endStream_inv (s : State) (a1 : Inst) (a2 : Nat) (h : Inv s) : Inv (endStream s a1 a2) := by
  unfold endStream; simp (maxDischargeDepth := 30) [*]

@[simp] theorem finishInst_outp (s : State) (a1 : Inst) (a2 : Nat) :
    (finishInst s a1 a2).outp = s.outp ∧ (finishInst s a1 a2).safety.safe = s.safety.safe := by
  unfold finishInst; simp (maxDischargeDepth := 30) [*]

@[simp] theorem finishInst_inv (s : State) (a1 : Inst) (a2 : Nat) (h : Inv s) : Inv (finishInst s a1 a2) := by
  unfold finishInst; simp (maxDischargeDepth := 30) [*]

@[simp] theorem abortInst_outp (s : State) (a1 : Inst) (a2 : Nat) :
    (abortInst s a1 a2).outp = s.outp ∧ (abortInst s a1 a2).safety.safe = s.safety.safe := by
  unfold abortInst; simp (maxDischargeDepth := 30) [*]

@[simp] theorem abortInst_inv (s : State) (a1 : Inst) (a2 : Nat) (h : Inv s) : Inv (abortInst s a1 a2) := by
  unfold abortInst; simp (maxDischargeDepth := 30) [*]

@[simp] theorem abortAt_outp (s : State) (a1 : Nat) (a2 : Nat) (a3 : Nat) :
    (abortAt s a1 a2 a3).outp = s.outp ∧ (abortAt s a1 a2 a3).safety.safe = s.safety.safe := by
  unfold abortAt; try simp only []
  split <;> simp (maxDischargeDepth := 30) [*]

@[simp] theorem abortAt_inv (s : State) (a1 : Nat) (a2 : Nat) (a3 : Nat) (h : Inv s) : Inv (abortAt s a1 a2 a3) := by
  unfold abortAt; try simp only []
  split <;> simp (maxDischargeDepth := 30) [*]

@[simp] theorem quarantineCore_outp (s : State) (a1 : Nat) :
    (quarantineCore s a1).outp = s.outp ∧ (quarantineCore s a1).safety.safe = s.safety.safe := by
  unfold quarantineCore; simp (maxDischargeDepth := 30) [*]

@[simp] theorem quarantineCore_inv (s : State) (a1 : Nat) (h : Inv s) : Inv (quarantineCore s a1) := by
  unfold quarantineCore; simp (maxDischargeDepth := 30) [*]

@[simp] theorem countCore_inv (s : State) (tiles : List Nat) (h : Inv s) : Inv (countCore s tiles) := by
  unfold countCore; simp only []
  split
  · exact enterSafe_inv _ _ (foldl_inv _ (fun s x h => quarantineCore_inv _ _ h) _ _ (by simp [h]))
  · simp [h]

@[simp] theorem latigoFails_inv (s : State) (a1 : Nat) (h : Inv s) : Inv (latigoFails s a1) := by
  unfold latigoFails; simp (maxDischargeDepth := 30) [*]

@[simp] theorem latigoIncomplete_inv (s : State) (h : Inv s) : Inv (latigoIncomplete s) := by
  unfold latigoIncomplete; simp (maxDischargeDepth := 30) [*]

@[simp] theorem latigoHit_inv (s : State) (h : Inv s) : Inv (latigoHit s) := by
  unfold latigoHit; simp (maxDischargeDepth := 30) [*]

@[simp] theorem quarantineTile_inv (s : State) (a1 : Nat) (h : Inv s) : Inv (quarantineTile s a1) := by
  unfold quarantineTile; simp (maxDischargeDepth := 30) [*]

@[simp] theorem countOutcome_inv (s : State) (tiles : List Nat) (h : Inv s) : Inv (countOutcome s tiles) := by
  unfold countOutcome; simp [h]

@[simp] theorem stitchFails_inv (s : State) (a1 : Nat) (a2 : SigRec) (a3 : SigRec) (h : Inv s) :
    Inv (stitchFails s a1 a2 a3) := by
  unfold stitchFails; simp (maxDischargeDepth := 30) [*]

@[simp] theorem resolveEntry_inv (s : State) (a1 : StitchEntry) (a2 : SigRec) (a3 : SigRec) (h : Inv s) :
    Inv (resolveEntry s a1 a2 a3) := by
  unfold resolveEntry; try simp only []
  split <;> simp (maxDischargeDepth := 30) [*]

@[simp] theorem takeSignature_inv (s : State) (a1 : SigRec) (h : Inv s) : Inv (takeSignature s a1) := by
  unfold takeSignature; try simp only []
  (repeat' split) <;> simp (maxDischargeDepth := 30) [*]

@[simp] theorem execSignatureRecord_inv (a0 : Nat) (s : State) (h : Inv s) : InvR (execSignatureRecord a0 s) := by
  unfold execSignatureRecord; try simp only []
  (repeat' split) <;> simp (maxDischargeDepth := 30) [*]

@[simp] theorem reinOverrun_inv (s : State) (a1 : Nat) (a2 : Nat) (a3 : Nat) (h : Inv s) :
    Inv (reinOverrun s a1 a2 a3) := by
  unfold reinOverrun; simp (maxDischargeDepth := 30) [*]

@[simp] theorem latigoOverrun_inv (s : State) (a1 : Nat) (a2 : Nat) (h : Inv s) : Inv (latigoOverrun s a1 a2) := by
  unfold latigoOverrun; simp (maxDischargeDepth := 30) [*]

@[simp] theorem execReinExpiry_inv (a0 : Nat) (a1 : Nat) (s : State) (h : Inv s) : InvR (execReinExpiry a0 a1 s) := by
  unfold execReinExpiry; try simp only []
  split <;> simp (maxDischargeDepth := 30) [*]

@[simp] theorem execInstanceComplete_inv (a0 : Nat) (a1 : Nat) (s : State) (h : Inv s) :
    InvR (execInstanceComplete a0 a1 s) := by
  unfold execInstanceComplete; try simp only []
  split <;> simp (maxDischargeDepth := 30) [*]

@[simp] theorem endPhaseHolds_outp (s : State) :
    (endPhaseHolds s).outp = s.outp ∧ (endPhaseHolds s).safety.safe = s.safety.safe := by
  unfold endPhaseHolds; simp (maxDischargeDepth := 30) [*]

@[simp] theorem endPhaseHolds_inv (s : State) (h : Inv s) : Inv (endPhaseHolds s) := by
  unfold endPhaseHolds; try simp only []
  (repeat' split) <;> simp_all (maxDischargeDepth := 30)

@[simp] theorem holdForPhase_outp (s : State) (a1 : Nat) :
    (holdForPhase s a1).outp = s.outp ∧ (holdForPhase s a1).safety.safe = s.safety.safe := by
  unfold holdForPhase; simp (maxDischargeDepth := 30) [*]

@[simp] theorem holdForPhase_inv (s : State) (a1 : Nat) (h : Inv s) : Inv (holdForPhase s a1) := by
  unfold holdForPhase; simp (maxDischargeDepth := 30) [*]

@[simp] theorem placePhase_outp (s : State) (a1 : Nat) :
    (placePhase s a1).outp = s.outp ∧ (placePhase s a1).safety.safe = s.safety.safe := by
  unfold placePhase; simp (maxDischargeDepth := 30) [*]

@[simp] theorem placePhase_inv (s : State) (a1 : Nat) (h : Inv s) : Inv (placePhase s a1) := by
  unfold placePhase; simp (maxDischargeDepth := 30) [*]

@[simp] theorem releaseHeld_outp (s : State) :
    (releaseHeld s).outp = s.outp ∧ (releaseHeld s).safety.safe = s.safety.safe := by
  unfold releaseHeld; simp (maxDischargeDepth := 30) [*]

@[simp] theorem releaseHeld_inv (s : State) (h : Inv s) : Inv (releaseHeld s) := by
  unfold releaseHeld; simp (maxDischargeDepth := 30) [*]

@[simp] theorem releasePhase_outp (s : State) (a1 : Nat) :
    (releasePhase s a1).outp = s.outp ∧ (releasePhase s a1).safety.safe = s.safety.safe := by
  unfold releasePhase; simp (maxDischargeDepth := 30) [*]

@[simp] theorem releasePhase_inv (s : State) (a1 : Nat) (h : Inv s) : Inv (releasePhase s a1) := by
  unfold releasePhase; simp (maxDischargeDepth := 30) [*]

@[simp] theorem factFails_outp (s : State) :
    (factFails s).outp = s.outp ∧ (factFails s).safety.safe = s.safety.safe := by
  unfold factFails; try simp only []
  split <;> simp (maxDischargeDepth := 30) [*]

@[simp] theorem factFails_inv (s : State) (h : Inv s) : Inv (factFails s) := by
  unfold factFails; try simp only []
  split <;> simp (maxDischargeDepth := 30) [*]

@[simp] theorem execPhaseRelease_inv (a0 : Nat) (s : State) (h : Inv s) : InvR (execPhaseRelease a0 s) := by
  unfold execPhaseRelease; simp (maxDischargeDepth := 30) [*]

@[simp] theorem debit_outp (s : State) (a1 : Nat) (a2 : ℤ × Nat) :
    (debit s a1 a2).outp = s.outp ∧ (debit s a1 a2).safety.safe = s.safety.safe := by
  unfold debit; simp (maxDischargeDepth := 30) [*]

@[simp] theorem debit_inv (s : State) (a1 : Nat) (a2 : ℤ × Nat) (h : Inv s) : Inv (debit s a1 a2) := by
  unfold debit; simp (maxDischargeDepth := 30) [*]

@[simp] theorem noteStarved_outp (s : State) (a1 : Nat) :
    (noteStarved s a1).outp = s.outp ∧ (noteStarved s a1).safety.safe = s.safety.safe := by
  unfold noteStarved; simp (maxDischargeDepth := 30) [*]

@[simp] theorem noteStarved_inv (s : State) (a1 : Nat) (h : Inv s) : Inv (noteStarved s a1) := by
  unfold noteStarved; simp (maxDischargeDepth := 30) [*]

@[simp] theorem spendTokens_inv (s : State) (w : Nat × Nat) (n : Nat) (h : Inv s) : InvO (spendTokens s w n) := by
  unfold spendTokens; simp [*]

@[simp] theorem holdFact_outp (s : State) (a1 : Ready) (a2 : Nat) (a3 : Nat) :
    (holdFact s a1 a2 a3).outp = s.outp ∧ (holdFact s a1 a2 a3).safety.safe = s.safety.safe := by
  unfold holdFact; simp (maxDischargeDepth := 30) [*]

@[simp] theorem holdFact_inv (s : State) (a1 : Ready) (a2 : Nat) (a3 : Nat) (h : Inv s) :
    Inv (holdFact s a1 a2 a3) := by
  unfold holdFact; simp (maxDischargeDepth := 30) [*]

@[simp] theorem openStitch_outp (s : State) (a1 : Task) (a2 : Nat) :
    (openStitch s a1 a2).outp = s.outp ∧ (openStitch s a1 a2).safety.safe = s.safety.safe := by
  unfold openStitch; simp (maxDischargeDepth := 30) [*]

@[simp] theorem openStitch_inv (s : State) (a1 : Task) (a2 : Nat) (h : Inv s) : Inv (openStitch s a1 a2) := by
  unfold openStitch; simp (maxDischargeDepth := 30) [*]

@[simp] theorem takeBatch_outp (s : State) (a1 : Ready) (a2 : Nat) (a3 : Nat) (a4 : Bool) :
    (takeBatch s a1 a2 a3 a4).outp = s.outp ∧ (takeBatch s a1 a2 a3 a4).safety.safe = s.safety.safe := by
  unfold takeBatch; simp (maxDischargeDepth := 30) [*]

@[simp] theorem takeBatch_inv (s : State) (a1 : Ready) (a2 : Nat) (a3 : Nat) (a4 : Bool) (h : Inv s) :
    Inv (takeBatch s a1 a2 a3 a4) := by
  unfold takeBatch; simp (maxDischargeDepth := 30) [*]

@[simp] theorem takeHold_outp (s : State) (a1 : Ready) (a2 : Nat) (a3 : Nat) :
    (takeHold s a1 a2 a3).outp = s.outp ∧ (takeHold s a1 a2 a3).safety.safe = s.safety.safe := by
  unfold takeHold; simp (maxDischargeDepth := 30) [*]

@[simp] theorem takeHold_inv (s : State) (a1 : Ready) (a2 : Nat) (a3 : Nat) (h : Inv s) :
    Inv (takeHold s a1 a2 a3) := by
  unfold takeHold; simp (maxDischargeDepth := 30) [*]

@[simp] theorem wakeUsed_outp (s : State) (a1 : Nat) :
    (wakeUsed s a1).outp = s.outp ∧ (wakeUsed s a1).safety.safe = s.safety.safe := by
  unfold wakeUsed; simp (maxDischargeDepth := 30) [*]

@[simp] theorem wakeUsed_inv (s : State) (a1 : Nat) (h : Inv s) : Inv (wakeUsed s a1) := by
  unfold wakeUsed; simp (maxDischargeDepth := 30) [*]

@[simp] theorem startInst_outp (s : State) (a1 : Ready) (a2 : Nat) (a3 : Nat) (a4 : Nat) (a5 : Nat) (a6 : Nat)
    (a7 : Bool) :
    (startInst s a1 a2 a3 a4 a5 a6 a7).outp = s.outp ∧ (startInst s a1 a2 a3 a4 a5 a6 a7).safety.safe = s.safety.safe := by
  unfold startInst; simp (maxDischargeDepth := 30) [*]

@[simp] theorem startInst_inv (s : State) (a1 : Ready) (a2 : Nat) (a3 : Nat) (a4 : Nat) (a5 : Nat) (a6 : Nat)
    (a7 : Bool) (h : Inv s) :
    Inv (startInst s a1 a2 a3 a4 a5 a6 a7) := by
  unfold startInst; simp (maxDischargeDepth := 30) [*]

@[simp] theorem streamRead_inv (s : State) (a1 : Nat) (a2 : Nat) (a3 : Task) (h : Inv s) :
    Inv (streamRead s a1 a2 a3) := by
  unfold streamRead; simp (maxDischargeDepth := 30) [*]

@[simp] theorem waitTokens_outp (s : State) (a1 : Nat × Nat) (a2 : Nat) :
    (waitTokens s a1 a2).outp = s.outp ∧ (waitTokens s a1 a2).safety.safe = s.safety.safe := by
  unfold waitTokens; simp (maxDischargeDepth := 30) [*]

@[simp] theorem waitTokens_inv (s : State) (a1 : Nat × Nat) (a2 : Nat) (h : Inv s) : Inv (waitTokens s a1 a2) := by
  unfold waitTokens; simp (maxDischargeDepth := 30) [*]

@[simp] theorem tryStart_inv (s : State) (e : Ready) (tile ctx b : Nat) (own : Bool) (h : Inv s) :
    InvR (tryStart s e tile ctx b own) := by
  unfold tryStart; simp only []
  split
  · simp [*]
  · split
    · split <;> simp [*]
    · split
      · simp [*]
      · split
        · simp [*]
        · rename_i e1
          split
          · split at e1
            · have k := spendTokens_inv s (waiterOf s tile e.task.safe) 1 h
              rw [e1] at k
              split <;> simp (maxDischargeDepth := 30) [k.1]
              all_goals simp (maxDischargeDepth := 30) [show Inv _ from k]
            · cases e1
              split <;> simp (maxDischargeDepth := 30) [*]
          · trivial

@[simp] theorem replayLate_outp (s : State) (a1 : Nat) :
    (replayLate s a1).outp = s.outp ∧ (replayLate s a1).safety.safe = s.safety.safe := by
  unfold replayLate; simp (maxDischargeDepth := 30) [*]

@[simp] theorem replayLate_inv (s : State) (a1 : Nat) (h : Inv s) : Inv (replayLate s a1) := by
  unfold replayLate; simp (maxDischargeDepth := 30) [*]

@[simp] theorem noteThief_outp (s : State) (a1 : Nat) (a2 : Ready) :
    (noteThief s a1 a2).outp = s.outp ∧ (noteThief s a1 a2).safety.safe = s.safety.safe := by
  unfold noteThief; simp (maxDischargeDepth := 30) [*]

@[simp] theorem noteThief_inv (s : State) (a1 : Nat) (a2 : Ready) (h : Inv s) : Inv (noteThief s a1 a2) := by
  unfold noteThief; simp (maxDischargeDepth := 30) [*]

@[simp] theorem noteTested_outp (s : State) (a1 : Nat) :
    (noteTested s a1).outp = s.outp ∧ (noteTested s a1).safety.safe = s.safety.safe := by
  unfold noteTested; simp (maxDischargeDepth := 30) [*]

@[simp] theorem noteTested_inv (s : State) (a1 : Nat) (h : Inv s) : Inv (noteTested s a1) := by
  unfold noteTested; simp (maxDischargeDepth := 30) [*]

@[simp] theorem wakeCopy_outp (s : State) (a1 : Inst) :
    (wakeCopy s a1).outp = s.outp ∧ (wakeCopy s a1).safety.safe = s.safety.safe := by
  unfold wakeCopy; simp (maxDischargeDepth := 30) [*]

@[simp] theorem wakeCopy_inv (s : State) (a1 : Inst) (h : Inv s) : Inv (wakeCopy s a1) := by
  unfold wakeCopy; try simp only []
  refine foldl_inv _ ?_ _ _ ?_; (intros; (repeat' split) <;> simp (maxDischargeDepth := 30) [*]); simp (maxDischargeDepth := 30) [*]

@[simp] theorem copyList_outp (s : State) (a1 : Inst) :
    (copyList s a1).outp = s.outp ∧ (copyList s a1).safety.safe = s.safety.safe := by
  unfold copyList; simp (maxDischargeDepth := 30) [*]

@[simp] theorem copyList_inv (s : State) (a1 : Inst) (h : Inv s) : Inv (copyList s a1) := by
  unfold copyList; try simp only []
  (repeat' split) <;> simp_all (maxDischargeDepth := 30)

@[simp] theorem applyAbort_outp (s : State) (a1 : Ready) (a2 : Nat) (a3 : Nat) (a4 : Fact) :
    (applyAbort s a1 a2 a3 a4).outp = s.outp ∧ (applyAbort s a1 a2 a3 a4).safety.safe = s.safety.safe := by
  unfold applyAbort; simp (maxDischargeDepth := 30) [*]

@[simp] theorem applyAbort_inv (s : State) (a1 : Ready) (a2 : Nat) (a3 : Nat) (a4 : Fact) (h : Inv s) :
    Inv (applyAbort s a1 a2 a3 a4) := by
  unfold applyAbort; simp (maxDischargeDepth := 30) [*]

@[simp] theorem execDispatch_inv (a0 : Nat) (a1 : Nat) (s : State) (h : Inv s) : InvR (execDispatch a0 a1 s) := by
  unfold execDispatch; try simp only []
  (repeat' split) <;> simp (maxDischargeDepth := 30) [*]

@[simp] theorem execSteal_inv (a0 : Nat) (a1 : Nat) (s : State) (h : Inv s) : InvR (execSteal a0 a1 s) := by
  unfold execSteal; try simp only []
  (repeat' split) <;> simp (maxDischargeDepth := 30) [*]

@[simp] theorem execListCopyDone_inv (a0 : Nat) (a1 : Nat) (s : State) (h : Inv s) :
    InvR (execListCopyDone a0 a1 s) := by
  unfold execListCopyDone; try simp only []
  (repeat' split) <;> simp (maxDischargeDepth := 30) [*]

@[simp] theorem track_outp (s : State) (a1 : Completion) :
    (track s a1).outp = s.outp ∧ (track s a1).safety.safe = s.safety.safe := by
  unfold track; simp (maxDischargeDepth := 30) [*]

@[simp] theorem track_inv (s : State) (a1 : Completion) (h : Inv s) : Inv (track s a1) := by
  unfold track; simp (maxDischargeDepth := 30) [*]

@[simp] theorem execCompletionRecord_inv (a0 : Nat) (s : State) (h : Inv s) : InvR (execCompletionRecord a0 s) := by
  unfold execCompletionRecord; try simp only []
  (repeat' split) <;> simp (maxDischargeDepth := 30) [*]

@[simp] theorem setOpp_outp (s : State) (a1 : Nat) (a2 : Nat) :
    (setOpp s a1 a2).outp = s.outp ∧ (setOpp s a1 a2).safety.safe = s.safety.safe := by
  unfold setOpp; simp (maxDischargeDepth := 30) [*]

@[simp] theorem setOpp_inv (s : State) (a1 : Nat) (a2 : Nat) (h : Inv s) : Inv (setOpp s a1 a2) := by
  unfold setOpp; simp (maxDischargeDepth := 30) [*]

@[simp] theorem retainCluster_outp (s : State) (a1 : Nat) :
    (retainCluster s a1).outp = s.outp ∧ (retainCluster s a1).safety.safe = s.safety.safe := by
  unfold retainCluster; simp (maxDischargeDepth := 30) [*]

@[simp] theorem retainCluster_inv (s : State) (a1 : Nat) (h : Inv s) : Inv (retainCluster s a1) := by
  unfold retainCluster; try simp only []
  refine foldl_inv _ ?_ _ _ ?_; (intros; (repeat' split) <;> simp (maxDischargeDepth := 30) [*]); simp (maxDischargeDepth := 30) [*]

@[simp] theorem execIslandGate_inv (a0 : Nat) (s : State) (h : Inv s) : InvR (execIslandGate a0 s) := by
  unfold execIslandGate; simp (maxDischargeDepth := 30) [*]

@[simp] theorem execTileIdle_inv (a0 : Nat) (s : State) (h : Inv s) : InvR (execTileIdle a0 s) := by
  unfold execTileIdle; simp (maxDischargeDepth := 30) [*]

@[simp] theorem pmcResumes_outp (s : State) :
    (pmcResumes s).outp = s.outp ∧ (pmcResumes s).safety.safe = s.safety.safe := by
  unfold pmcResumes; simp (maxDischargeDepth := 30) [*]

@[simp] theorem pmcResumes_inv (s : State) (h : Inv s) : Inv (pmcResumes s) := by
  unfold pmcResumes; simp (maxDischargeDepth := 30) [*]

@[simp] theorem execOppSwitch_inv (cluster opp : Nat) (s : State) (h : Inv s) :
    InvR (execOppSwitch cluster opp s) := by
  have k := spendTokens_inv s (4, 16 + cluster) 4 h
  unfold execOppSwitch; simp only []
  (repeat' split) <;> simp_all

@[simp] theorem execIslandWake_inv (cluster : Nat) (s : State) (h : Inv s) : InvR (execIslandWake cluster s) := by
  have k := spendTokens_inv s (4, cluster) 1 h
  unfold execIslandWake
  (repeat' split) <;> simp_all

@[simp] theorem windowValues_outp (s : State) :
    (windowValues s).outp = s.outp ∧ (windowValues s).safety.safe = s.safety.safe := by
  unfold windowValues; try simp only []
  split <;> simp (maxDischargeDepth := 30) [*]

@[simp] theorem windowValues_inv (s : State) (h : Inv s) : Inv (windowValues s) := by
  unfold windowValues; try simp only []
  split <;> simp (maxDischargeDepth := 30) [*]

@[simp] theorem windowStart_outp (s : State) :
    (windowStart s).outp = s.outp ∧ (windowStart s).safety.safe = s.safety.safe := by
  unfold windowStart; simp (maxDischargeDepth := 30) [*]

@[simp] theorem windowStart_inv (s : State) (h : Inv s) : Inv (windowStart s) := by
  unfold windowStart; simp (maxDischargeDepth := 30) [*]

@[simp] theorem execWakeToken_inv (s : State) (h : Inv s) : InvR (execWakeToken s) := by
  unfold execWakeToken; try simp only []
  split <;> simp (maxDischargeDepth := 30) [*]

@[simp] theorem execLedgerWindowStart_inv (s : State) (h : Inv s) : InvR (execLedgerWindowStart s) := by
  unfold execLedgerWindowStart; simp (maxDischargeDepth := 30) [*]

@[simp] theorem execAvsbusSetpointChange_inv (a0 : Nat) (s : State) (h : Inv s) :
    InvR (execAvsbusSetpointChange a0 s) := by
  unfold execAvsbusSetpointChange; simp (maxDischargeDepth := 30) [*]

@[simp] theorem writeRow_outp (s : State) (a1 : Nat) (a2 : Nat) (a3 : Tref) (a4 : Nat → Rm) (a5 : Nat)
    (a6 : List Val) :
    (writeRow s a1 a2 a3 a4 a5 a6).1.outp = s.outp ∧ (writeRow s a1 a2 a3 a4 a5 a6).1.safety.safe = s.safety.safe := by
  unfold writeRow; try simp only []
  split <;> simp (maxDischargeDepth := 30) [*]

@[simp] theorem writeRow_inv (s : State) (a1 : Nat) (a2 : Nat) (a3 : Tref) (a4 : Nat → Rm) (a5 : Nat)
    (a6 : List Val) (h : Inv s) :
    Inv (writeRow s a1 a2 a3 a4 a5 a6).1 := by
  unfold writeRow; try simp only []
  split <;> simp (maxDischargeDepth := 30) [*]

@[simp] theorem writeTensor_inv (s : State) (tile f : Nat) (t : Tref) (rm : Nat → Rm) (rows : List (List Val)) (h : Inv s) :
    Inv (writeTensor s tile f t rm rows).1 := by
  unfold writeTensor
  exact foldl_inv2 _ (fun s x h => by simp [h]) _ _ h

theorem correctReads_inv (b : Nat) (s : State) (l : List (Nat × Nat)) (h : Inv s) :
    Inv (l.foldl (fun t r => correctRead t (b + r.1) r.2) s) :=
  foldl_inv _ (fun s x h => correctRead_inv s (b + x.1) x.2 h) l s h

@[simp] theorem correctAccess_inv (s : State) (tile : Nat) (a : Access) (h : Inv s) :
    Inv (correctAccess s tile a) := by
  rw [correctAccess]
  exact correctReads_inv _ _ _ h

@[simp] theorem noteIssue_outp (s : State) (a1 : Inst) (a2 : Bytes) (a3 : Bool) (a4 : List (Nat × Nat)) :
    (noteIssue s a1 a2 a3 a4).outp = s.outp ∧ (noteIssue s a1 a2 a3 a4).safety.safe = s.safety.safe := by
  unfold noteIssue; simp (maxDischargeDepth := 30) [*]

@[simp] theorem noteIssue_inv (s : State) (a1 : Inst) (a2 : Bytes) (a3 : Bool) (a4 : List (Nat × Nat)) (h : Inv s) :
    Inv (noteIssue s a1 a2 a3 a4) := by
  unfold noteIssue; simp (maxDischargeDepth := 30) [*]

@[simp] theorem readerAborts_inv (s : State) (a1 : Nat) (a2 : Nat) (a3 : Nat) (h : Inv s) :
    Inv (readerAborts s a1 a2 a3) := by
  unfold readerAborts; simp (maxDischargeDepth := 30) [*]

@[simp] theorem wakeAccess_outp (s : State) (a1 : Nat) (a2 : Access) :
    (wakeAccess s a1 a2).outp = s.outp ∧ (wakeAccess s a1 a2).safety.safe = s.safety.safe := by
  unfold wakeAccess; simp (maxDischargeDepth := 30) [*]

@[simp] theorem wakeAccess_inv (s : State) (a1 : Nat) (a2 : Access) (h : Inv s) : Inv (wakeAccess s a1 a2) := by
  unfold wakeAccess; try simp only []
  refine foldl_inv _ ?_ _ _ ?_; (intros; (repeat' split) <;> simp (maxDischargeDepth := 30) [*]); simp (maxDischargeDepth := 30) [*]

@[simp] theorem issueDesc_inv (s : State) (tile ctx op : Nat) (r : DescRun)
    (h : Inv s) (hf : ∀ s i d k, Inv s → InvE (r.run s i d k)) : InvR (issueDesc s tile ctx op r) := by
  unfold issueDesc; (try simp only [])
  (repeat' split) <;> simp (maxDischargeDepth := 30) [*]

@[simp] theorem gatherFlags_outp (s : State) (a1 : Nat) (a2 : Nat) (a3 : Nat) :
    (gatherFlags s a1 a2 a3).outp = s.outp ∧ (gatherFlags s a1 a2 a3).safety.safe = s.safety.safe := by
  unfold gatherFlags; try simp only []
  split <;> simp (maxDischargeDepth := 30) [*]

@[simp] theorem gatherFlags_inv (s : State) (a1 : Nat) (a2 : Nat) (a3 : Nat) (h : Inv s) :
    Inv (gatherFlags s a1 a2 a3) := by
  unfold gatherFlags; try simp only []
  split <;> simp (maxDischargeDepth := 30) [*]

@[simp] theorem landFlags_inv (i : Inst) (w : Flagged State) (more : Nat) (h : Inv w.1) :
    InvE (landFlags i w more) := by
  unfold landFlags; simp [*]

@[simp] theorem acceptReq_inv (s : State) (a1 : Inst) (a2 : Bytes) (a3 : Nat) (h : Inv s) :
    InvE (acceptReq s a1 a2 a3) := by
  unfold acceptReq; simp (maxDischargeDepth := 30) [*]

@[simp] theorem writeRows_outp (s : State) (a1 : Nat) (a2 : Tref) (a3 : List Bytes) :
    (writeRows s a1 a2 a3).outp = s.outp ∧ (writeRows s a1 a2 a3).safety.safe = s.safety.safe := by
  unfold writeRows; simp (maxDischargeDepth := 30) [*]

@[simp] theorem writeRows_inv (s : State) (a1 : Nat) (a2 : Tref) (a3 : List Bytes) (h : Inv s) :
    Inv (writeRows s a1 a2 a3) := by
  unfold writeRows; try simp only []
  refine foldl_inv _ ?_ _ _ ?_; (intros; (repeat' split) <;> simp (maxDischargeDepth := 30) [*]); simp (maxDischargeDepth := 30) [*]

@[simp] theorem landFetch_outp (s : State) (a1 : Inst) (a2 : Bytes) :
    (landFetch s a1 a2).outp = s.outp ∧ (landFetch s a1 a2).safety.safe = s.safety.safe := by
  unfold landFetch; simp (maxDischargeDepth := 30) [*]

@[simp] theorem landFetch_inv (s : State) (a1 : Inst) (a2 : Bytes) (h : Inv s) : Inv (landFetch s a1 a2) := by
  unfold landFetch; simp (maxDischargeDepth := 30) [*]

@[simp] theorem execDmareq_inv (a0 : Nat) (a1 : Nat) (s : State) (h : Inv s) : InvR (execDmareq a0 a1 s) := by
  unfold execDmareq
  try split
  all_goals first
  | (simp (maxDischargeDepth := 30) [*]; done)
  | (refine issueDesc_inv _ _ _ _ _ h ?_
     intro s i d k h
     simp only [dmareqRun]
     first
     | (simp (maxDischargeDepth := 30) [*]; done)
     | ((repeat' split) <;> simp (maxDischargeDepth := 30) [*]; done))

@[simp] theorem execFence_inv (a0 : Nat) (a1 : Nat) (s : State) (h : Inv s) : InvR (execFence a0 a1 s) := by
  unfold execFence
  try split
  all_goals first
  | (simp (maxDischargeDepth := 30) [*]; done)
  | (refine issueDesc_inv _ _ _ _ _ h ?_
     intro s i d k h
     simp only [fenceRun]
     first
     | (simp (maxDischargeDepth := 30) [*]; done)
     | ((repeat' split) <;> simp (maxDischargeDepth := 30) [*]; done))

@[simp] theorem fetchFault_inv (s : State) (a1 : Inst) (a2 : Bytes) (a3 : Nat) (h : Inv s) :
    Inv (fetchFault s a1 a2 a3) := by
  unfold fetchFault; simp (maxDischargeDepth := 30) [*]

@[simp] theorem execMovePut_inv (tile ctx : Nat) (s : State) (h : Inv s) : InvR (execMovePut tile ctx s) := by
  unfold execMovePut
  refine issueDesc_inv _ _ _ _ _ h ?_
  intro s i d k h
  simp only [putRun]
  split
  · trivial
  · exact invE_ok.2 (foldl_inv _ (fun s x h => by split <;> simp [h]) _ _ h)

@[simp] theorem correctFetch_outp (s : State) (a1 : List (Nat × Nat)) :
    (correctFetch s a1).outp = s.outp ∧ (correctFetch s a1).safety.safe = s.safety.safe := by
  unfold correctFetch; simp (maxDischargeDepth := 30) [*]

@[simp] theorem correctFetch_inv (s : State) (a1 : List (Nat × Nat)) (h : Inv s) : Inv (correctFetch s a1) := by
  unfold correctFetch; try simp only []
  refine foldl_inv _ ?_ _ _ ?_; (intros; (repeat' split) <;> simp (maxDischargeDepth := 30) [*]); simp (maxDischargeDepth := 30) [*]

@[simp] theorem execMoveFetch_inv (a0 : Nat) (a1 : Nat) (s : State) (h : Inv s) : InvR (execMoveFetch a0 a1 s) := by
  unfold execMoveFetch
  try split
  all_goals first
  | (simp (maxDischargeDepth := 30) [*]; done)
  | (refine issueDesc_inv _ _ _ _ _ h ?_
     intro s i d k h
     simp only [fetchRun]
     first
     | (simp (maxDischargeDepth := 30) [*]; done)
     | ((repeat' split) <;> simp (maxDischargeDepth := 30) [*]; done))

@[simp] theorem execNop_inv (a0 : Nat) (a1 : Nat) (s : State) (h : Inv s) : InvR (execNop a0 a1 s) := by
  unfold execNop
  try split
  all_goals first
  | (simp (maxDischargeDepth := 30) [*]; done)
  | (refine issueDesc_inv _ _ _ _ _ h ?_
     intro s i d k h
     simp only [nopRun]
     first
     | (simp (maxDischargeDepth := 30) [*]; done)
     | ((repeat' split) <;> simp (maxDischargeDepth := 30) [*]; done))

@[simp] theorem execMoveFill_inv (a0 : Nat) (a1 : Nat) (s : State) (h : Inv s) : InvR (execMoveFill a0 a1 s) := by
  unfold execMoveFill
  try split
  all_goals first
  | (simp (maxDischargeDepth := 30) [*]; done)
  | (refine issueDesc_inv _ _ _ _ _ h ?_
     intro s i d k h
     simp only [fillRun]
     first
     | (simp (maxDischargeDepth := 30) [*]; done)
     | ((repeat' split) <;> simp (maxDischargeDepth := 30) [*]; done))

@[simp] theorem execMoveCopy_inv (a0 : Nat) (a1 : Nat) (s : State) (h : Inv s) : InvR (execMoveCopy a0 a1 s) := by
  unfold execMoveCopy
  try split
  all_goals first
  | (simp (maxDischargeDepth := 30) [*]; done)
  | (refine issueDesc_inv _ _ _ _ _ h ?_
     intro s i d k h
     simp only [copyRun]
     first
     | (simp (maxDischargeDepth := 30) [*]; done)
     | ((repeat' split) <;> simp (maxDischargeDepth := 30) [*]; done))

@[simp] theorem retire_outp (s : State) (a1 : Nat) (a2 : Nat) (a3 : Nat) :
    (retire s a1 a2 a3).outp = s.outp ∧ (retire s a1 a2 a3).safety.safe = s.safety.safe := by
  unfold retire; try simp only []
  split <;> simp (maxDischargeDepth := 30) [*]

@[simp] theorem retire_inv (s : State) (a1 : Nat) (a2 : Nat) (a3 : Nat) (h : Inv s) : Inv (retire s a1 a2 a3) := by
  unfold retire; try simp only []
  split <;> simp (maxDischargeDepth := 30) [*]

@[simp] theorem putTimeout_inv (s : State) (i : Inst) (d : Bytes) (k : Nat) (h : Inv s) :
    Inv (putTimeout s i d k) := by
  unfold putTimeout; simp only []
  exact retire_inv _ _ _ _ (sendOpenEvent_inv _ _ (foldl_inv _ (fun s x h => by split <;> simp [h]) _ _ h))

@[simp] theorem putMismatch_outp (s : State) (a1 : Inst) (a2 : Bytes) (a3 : Nat) :
    (putMismatch s a1 a2 a3).outp = s.outp ∧ (putMismatch s a1 a2 a3).safety.safe = s.safety.safe := by
  unfold putMismatch; try simp only []
  (repeat' split) <;> simp (maxDischargeDepth := 30) [*]

@[simp] theorem putMismatch_inv (s : State) (a1 : Inst) (a2 : Bytes) (a3 : Nat) (h : Inv s) :
    Inv (putMismatch s a1 a2 a3) := by
  unfold putMismatch; try simp only []
  (repeat' split) <;> simp (maxDischargeDepth := 30) [*]

@[simp] theorem takeToken_outp (s : State) (a1 : Nat) (a2 : Nat) (a3 : Nat) :
    (takeToken s a1 a2 a3).outp = s.outp ∧ (takeToken s a1 a2 a3).safety.safe = s.safety.safe := by
  unfold takeToken; simp (maxDischargeDepth := 30) [*]

@[simp] theorem takeToken_inv (s : State) (a1 : Nat) (a2 : Nat) (a3 : Nat) (h : Inv s) :
    Inv (takeToken s a1 a2 a3) := by
  unfold takeToken; simp (maxDischargeDepth := 30) [*]

@[simp] theorem setFlow_outp (s : State) (a1 : Flow) :
    (setFlow s a1).outp = s.outp ∧ (setFlow s a1).safety.safe = s.safety.safe := by
  unfold setFlow; simp (maxDischargeDepth := 30) [*]

@[simp] theorem setFlow_inv (s : State) (a1 : Flow) (h : Inv s) : Inv (setFlow s a1) := by
  unfold setFlow; simp (maxDischargeDepth := 30) [*]

@[simp] theorem flowDup_outp (s : State) : (flowDup s).outp = s.outp ∧ (flowDup s).safety.safe = s.safety.safe := by
  unfold flowDup; simp (maxDischargeDepth := 30) [*]

@[simp] theorem flowDup_inv (s : State) (h : Inv s) : Inv (flowDup s) := by
  unfold flowDup; simp (maxDischargeDepth := 30) [*]

@[simp] theorem offerItem_inv (s : State) (i : Inst) (f seq : Nat) (item : Bytes) (h : Inv s) :
    InvO (offerItem s i f seq item) := by
  unfold offerItem; (try simp only []); (repeat' split) <;> simp [*]

@[simp] theorem servedEmit_outp (s : State) (a1 : Inst) (a2 : Nat) :
    (servedEmit s a1 a2).outp = s.outp ∧ (servedEmit s a1 a2).safety.safe = s.safety.safe := by
  unfold servedEmit; simp (maxDischargeDepth := 30) [*]

@[simp] theorem servedEmit_inv (s : State) (a1 : Inst) (a2 : Nat) (h : Inv s) : Inv (servedEmit s a1 a2) := by
  unfold servedEmit; simp (maxDischargeDepth := 30) [*]

theorem retryStalled_inv (s : State) (i : Inst) (d : Bytes) (k : Nat) (h : Inv s) (a : Attempt)
    (ha : retryStalled s i d k = some a) : InvE a := by
  unfold retryStalled at ha; simp only [] at ha
  split at ha
  · cases ha; simp [*]
  · split at ha
    · split at ha
      · cases ha
      · have e := offerItem_inv (setInst s { i with stalled := i.stalled.filter (· ≠ k) }) { i with stalled := i.stalled.filter (· ≠ k) }
          (fieldAt d 0x10 2) (fieldAt d 0x14 4) (emitItem s i d) (by simp [h])
        rw [Option.map_eq_some_iff] at ha
        obtain ⟨t, h1, rfl⟩ := ha
        rw [h1] at e; simp [show Inv _ from e]
    · split at ha
      · cases ha; simp [*]
      · cases ha

@[simp] theorem execDescriptorComplete_inv (tile ctx index : Nat) (s : State) (h : Inv s) :
    InvR (execDescriptorComplete tile ctx index s) := by
  unfold execDescriptorComplete
  split
  · simp [*]
  · split
    · simp [*]
    · split
      · simp [*]
      · rename_i e
        exact ofAttempt_inv (mapE_inv (retryStalled_inv _ _ _ _ h _ e) (by intro t h1; simp [h1]))

@[simp] theorem sendSignal_outp (s : State) (a1 : Inst) (a2 : Bytes) (a3 : Nat) :
    (sendSignal s a1 a2 a3).outp = s.outp ∧ (sendSignal s a1 a2 a3).safety.safe = s.safety.safe := by
  unfold sendSignal; simp (maxDischargeDepth := 30) [*]

@[simp] theorem sendSignal_inv (s : State) (a1 : Inst) (a2 : Bytes) (a3 : Nat) (h : Inv s) :
    Inv (sendSignal s a1 a2 a3) := by
  unfold sendSignal; simp (maxDischargeDepth := 30) [*]

@[simp] theorem execWait_inv (a0 : Nat) (a1 : Nat) (s : State) (h : Inv s) : InvR (execWait a0 a1 s) := by
  unfold execWait
  try split
  all_goals first
  | (simp (maxDischargeDepth := 30) [*]; done)
  | (refine issueDesc_inv _ _ _ _ _ h ?_
     intro s i d k h
     simp only [waitRun]
     first
     | (simp (maxDischargeDepth := 30) [*]; done)
     | ((repeat' split) <;> simp (maxDischargeDepth := 30) [*]; done))

@[simp] theorem execTokenIncrement_inv (a0 : Nat) (a1 : Nat) (a2 : Nat) (s : State) (h : Inv s) :
    InvR (execTokenIncrement a0 a1 a2 s) := by
  unfold execTokenIncrement; try simp only []
  split <;> simp (maxDischargeDepth := 30) [*]

@[simp] theorem execSignal_inv (a0 : Nat) (a1 : Nat) (s : State) (h : Inv s) : InvR (execSignal a0 a1 s) := by
  unfold execSignal
  try split
  all_goals first
  | (simp (maxDischargeDepth := 30) [*]; done)
  | (refine issueDesc_inv _ _ _ _ _ h ?_
     intro s i d k h
     simp only [signalRun]
     first
     | (simp (maxDischargeDepth := 30) [*]; done)
     | ((repeat' split) <;> simp (maxDischargeDepth := 30) [*]; done))

@[simp] theorem execPutTimeout_inv (a0 : Nat) (a1 : Nat) (s : State) (h : Inv s) : InvR (execPutTimeout a0 a1 s) := by
  unfold execPutTimeout; try simp only []
  (repeat' split) <;> simp (maxDischargeDepth := 30) [*]

@[simp] theorem execEmit_inv (tile ctx : Nat) (s : State) (h : Inv s) : InvR (execEmit tile ctx s) := by
  unfold execEmit
  refine issueDesc_inv _ _ _ _ _ h ?_
  intro s i d k h
  simp only [emitRun]
  have k := offerItem_inv s i (fieldAt d 0x10 2) (fieldAt d 0x14 4) (emitItem s i d) h
  split
  · rename_i e; rw [e] at k; exact k
  · simp [*]

@[simp] theorem landLists_inv (s : State) (a1 : Inst) (a2 : Bytes) (a3 : List Bytes) (a4 : Nat) (h : Inv s) :
    InvE (landLists s a1 a2 a3 a4) := by
  unfold landLists; simp (maxDischargeDepth := 30) [*]

@[simp] theorem execTopk_inv (a0 : Nat) (a1 : Nat) (s : State) (h : Inv s) : InvR (execTopk a0 a1 s) := by
  unfold execTopk
  try split
  all_goals first
  | (simp (maxDischargeDepth := 30) [*]; done)
  | (refine issueDesc_inv _ _ _ _ _ h ?_
     intro s i d k h
     simp only [topkRun]
     first
     | (simp (maxDischargeDepth := 30) [*]; done)
     | ((repeat' split) <;> simp (maxDischargeDepth := 30) [*]; done))

@[simp] theorem execKnn_inv (a0 : Nat) (a1 : Nat) (s : State) (h : Inv s) : InvR (execKnn a0 a1 s) := by
  unfold execKnn
  try split
  all_goals first
  | (simp (maxDischargeDepth := 30) [*]; done)
  | (refine issueDesc_inv _ _ _ _ _ h ?_
     intro s i d k h
     simp only [knnRun]
     first
     | (simp (maxDischargeDepth := 30) [*]; done)
     | ((repeat' split) <;> simp (maxDischargeDepth := 30) [*]; done))

@[simp] theorem execTopkMerge_inv (a0 : Nat) (a1 : Nat) (s : State) (h : Inv s) : InvR (execTopkMerge a0 a1 s) := by
  unfold execTopkMerge
  try split
  all_goals first
  | (simp (maxDischargeDepth := 30) [*]; done)
  | (refine issueDesc_inv _ _ _ _ _ h ?_
     intro s i d k h
     simp only [mergeRun]
     first
     | (simp (maxDischargeDepth := 30) [*]; done)
     | ((repeat' split) <;> simp (maxDischargeDepth := 30) [*]; done))

@[simp] theorem fillMissing_outp (s : State) (a1 : Coll) :
    (fillMissing s a1).outp = s.outp ∧ (fillMissing s a1).safety.safe = s.safety.safe := by
  unfold fillMissing; simp (maxDischargeDepth := 30) [*]

@[simp] theorem fillMissing_inv (s : State) (a1 : Coll) (h : Inv s) : Inv (fillMissing s a1) := by
  unfold fillMissing; try simp only []
  (repeat' split) <;> simp_all (maxDischargeDepth := 30)

@[simp] theorem setColl_outp (s : State) (a1 : Coll) :
    (setColl s a1).outp = s.outp ∧ (setColl s a1).safety.safe = s.safety.safe := by
  unfold setColl; simp (maxDischargeDepth := 30) [*]

@[simp] theorem setColl_inv (s : State) (a1 : Coll) (h : Inv s) : Inv (setColl s a1) := by
  unfold setColl; simp (maxDischargeDepth := 30) [*]

@[simp] theorem completeColl_outp (s : State) (a1 : Coll) (a2 : Nat) (a3 : Nat) :
    (completeColl s a1 a2 a3).outp = s.outp ∧ (completeColl s a1 a2 a3).safety.safe = s.safety.safe := by
  unfold completeColl; simp (maxDischargeDepth := 30) [*]

@[simp] theorem completeColl_inv (s : State) (a1 : Coll) (a2 : Nat) (a3 : Nat) (h : Inv s) :
    Inv (completeColl s a1 a2 a3) := by
  unfold completeColl; simp (maxDischargeDepth := 30) [*]

@[simp] theorem collSettled_outp (s : State) (a1 : Batch) (a2 : Nat) (a3 : Nat) :
    (collSettled s a1 a2 a3).outp = s.outp ∧ (collSettled s a1 a2 a3).safety.safe = s.safety.safe := by
  unfold collSettled; try simp only []
  (repeat' split) <;> simp (maxDischargeDepth := 30) [*]

@[simp] theorem collSettled_inv (s : State) (a1 : Batch) (a2 : Nat) (a3 : Nat) (h : Inv s) :
    Inv (collSettled s a1 a2 a3) := by
  unfold collSettled; try simp only []
  (repeat' split) <;> simp (maxDischargeDepth := 30) [*]

@[simp] theorem updateReach_outp (s : State) :
    (updateReach s).outp = s.outp ∧ (updateReach s).safety.safe = s.safety.safe := by
  unfold updateReach; simp (maxDischargeDepth := 30) [*]

@[simp] theorem updateReach_inv (s : State) (h : Inv s) : Inv (updateReach s) := by
  unfold updateReach; simp (maxDischargeDepth := 30) [*]

@[simp] theorem submitColl_outp (s : State) (a1 : Coll) (a2 : Nat) :
    (submitColl s a1 a2).outp = s.outp ∧ (submitColl s a1 a2).safety.safe = s.safety.safe := by
  unfold submitColl; simp (maxDischargeDepth := 30) [*]

@[simp] theorem submitColl_inv (s : State) (a1 : Coll) (a2 : Nat) (h : Inv s) : Inv (submitColl s a1 a2) := by
  unfold submitColl; simp (maxDischargeDepth := 30) [*]

@[simp] theorem advanceColl_outp (s : State) (a1 : Coll) :
    (advanceColl s a1).outp = s.outp ∧ (advanceColl s a1).safety.safe = s.safety.safe := by
  unfold advanceColl; simp (maxDischargeDepth := 30) [*]

@[simp] theorem advanceColl_inv (s : State) (a1 : Coll) (h : Inv s) : Inv (advanceColl s a1) := by
  unfold advanceColl; simp (maxDischargeDepth := 30) [*]

@[simp] theorem sendLink_outp (s : State) (a1 : Nat) (a2 : State → Bytes) :
    (sendLink s a1 a2).outp = s.outp ∧ (sendLink s a1 a2).safety.safe = s.safety.safe := by
  unfold sendLink; simp (maxDischargeDepth := 30) [*]

@[simp] theorem sendLink_inv (s : State) (a1 : Nat) (a2 : State → Bytes) (h : Inv s) : Inv (sendLink s a1 a2) := by
  unfold sendLink; simp (maxDischargeDepth := 30) [*]

@[simp] theorem broadcastColl_outp (s : State) (a1 : Coll) (a2 : Nat) (a3 : Bytes) :
    (broadcastColl s a1 a2 a3).outp = s.outp ∧ (broadcastColl s a1 a2 a3).safety.safe = s.safety.safe := by
  unfold broadcastColl; simp (maxDischargeDepth := 30) [*]

@[simp] theorem broadcastColl_inv (s : State) (a1 : Coll) (a2 : Nat) (a3 : Bytes) (h : Inv s) :
    Inv (broadcastColl s a1 a2 a3) := by
  unfold broadcastColl; try simp only []
  (repeat' split) <;> simp_all (maxDischargeDepth := 30)

@[simp] theorem keepPart_outp (s : State) (a1 : Coll) (a2 : Nat) (a3 : Nat) (a4 : Nat) (a5 : Bytes) :
    (keepPart s a1 a2 a3 a4 a5).outp = s.outp ∧ (keepPart s a1 a2 a3 a4 a5).safety.safe = s.safety.safe := by
  unfold keepPart; simp (maxDischargeDepth := 30) [*]

@[simp] theorem keepPart_inv (s : State) (a1 : Coll) (a2 : Nat) (a3 : Nat) (a4 : Nat) (a5 : Bytes) (h : Inv s) :
    Inv (keepPart s a1 a2 a3 a4 a5) := by
  unfold keepPart; simp (maxDischargeDepth := 30) [*]

@[simp] theorem deliverFrame_inv (s : State) (a1 : Bytes) (h : Inv s) : InvE (deliverFrame s a1) := by
  unfold deliverFrame; try simp only []
  split <;> simp (maxDischargeDepth := 30) [*]

@[simp] theorem issueColl_inv (s : State) (item : Bytes) (h : Inv s) : InvE (issueColl s item) := by
  unfold issueColl
  split
  · trivial
  · simp only []
    refine foldl_invE _ (fun a x h => bindE_inv h fun t h1 => deliverFrame_inv _ _ h1) _ _ ?_
    (repeat' split) <;> simp (maxDischargeDepth := 30) [*]

@[simp] theorem forwardFrame_outp (s : State) (a1 : Nat) (a2 : Bytes) :
    (forwardFrame s a1 a2).outp = s.outp ∧ (forwardFrame s a1 a2).safety.safe = s.safety.safe := by
  unfold forwardFrame; simp (maxDischargeDepth := 30) [*]

@[simp] theorem forwardFrame_inv (s : State) (a1 : Nat) (a2 : Bytes) (h : Inv s) : Inv (forwardFrame s a1 a2) := by
  unfold forwardFrame; simp (maxDischargeDepth := 30) [*]

@[simp] theorem takeFrame_inv (s : State) (port : Nat) (f : Bytes) (h : Inv s) : InvE (takeFrame s port f) := by
  unfold takeFrame; simp only []
  split
  · simp [h]
  · split
    · simp [h]
    · refine mapE_inv ?_ (fun t h1 => by simp [h1])
      split <;> simp [h]

@[simp] theorem execCollFrameRx_inv (a0 : Nat) (a1 : Bytes) (s : State) (h : Inv s) :
    InvR (execCollFrameRx a0 a1 s) := by
  unfold execCollFrameRx; simp (maxDischargeDepth := 30) [*]

@[simp] theorem execLkLinkChange_inv (a0 : Nat) (a1 : LinkTurn) (s : State) (h : Inv s) :
    InvR (execLkLinkChange a0 a1 s) := by
  unfold execLkLinkChange; simp (maxDischargeDepth := 30) [*]

@[simp] theorem execCollTimeout_inv (a0 : Nat) (s : State) (h : Inv s) : InvR (execCollTimeout a0 s) := by
  unfold execCollTimeout; try simp only []
  split <;> simp (maxDischargeDepth := 30) [*]

@[simp] theorem dropObject_outp (s : State) (a1 : Half) (a2 : Nat) :
    (dropObject s a1 a2).outp = s.outp ∧ (dropObject s a1 a2).safety.safe = s.safety.safe := by
  unfold dropObject; simp (maxDischargeDepth := 30) [*]

@[simp] theorem dropObject_inv (s : State) (a1 : Half) (a2 : Nat) (h : Inv s) : Inv (dropObject s a1 a2) := by
  unfold dropObject; simp (maxDischargeDepth := 30) [*]

@[simp] theorem takePiece_outp (s : State) (a1 : Msg) :
    (takePiece s a1).1.outp = s.outp ∧ (takePiece s a1).1.safety.safe = s.safety.safe := by
  unfold takePiece; try simp only []
  (repeat' split) <;> simp (maxDischargeDepth := 30) [*]

@[simp] theorem takePiece_inv (s : State) (a1 : Msg) (h : Inv s) : Inv (takePiece s a1).1 := by
  unfold takePiece; try simp only []
  (repeat' split) <;> simp (maxDischargeDepth := 30) [*]

@[simp] theorem pieceRun_inv (s : State) (m : Msg) (whole : State → Bytes → Result)
    (h : Inv s) (hf : ∀ t bs, Inv t → InvR (whole t bs)) : InvR (pieceRun s m whole) := by
  have k := takePiece_inv s m h
  unfold pieceRun
  split
  · trivial
  · split <;> rename_i x <;> simp only [x] at k
    · simp [*]
    · simp [*]
    · exact hf _ _ k

@[simp] theorem pieceRun0_inv (s : State) (m : Msg) (whole : State → Bytes → Result)
    (h : Inv s) (hf : ∀ t bs, Inv t → InvR (whole t bs)) : InvR (pieceRun0 s m whole) := by
  unfold pieceRun0; split
  · simp [*]
  · exact pieceRun_inv s m whole h hf

@[simp] theorem countGenerated_outp (s : State) (a1 : Inst) (a2 : Nat) :
    (countGenerated s a1 a2).outp = s.outp ∧ (countGenerated s a1 a2).safety.safe = s.safety.safe := by
  unfold countGenerated; simp (maxDischargeDepth := 30) [*]

@[simp] theorem countGenerated_inv (s : State) (a1 : Inst) (a2 : Nat) (h : Inv s) : Inv (countGenerated s a1 a2) := by
  unfold countGenerated; simp (maxDischargeDepth := 30) [*]

@[simp] theorem landCandidates_outp (s : State) (a1 : Inst) (a2 : Bytes) (a3 : Nat) :
    (landCandidates s a1 a2 a3).outp = s.outp ∧ (landCandidates s a1 a2 a3).safety.safe = s.safety.safe := by
  unfold landCandidates; simp (maxDischargeDepth := 30) [*]

@[simp] theorem landCandidates_inv (s : State) (a1 : Inst) (a2 : Bytes) (a3 : Nat) (h : Inv s) :
    Inv (landCandidates s a1 a2 a3) := by
  unfold landCandidates; simp (maxDischargeDepth := 30) [*]

@[simp] theorem landNoStart_inv (s : State) (i : Inst) (d : Bytes) (h : Inv s) : Inv (landNoStart s i d) := by
  unfold landNoStart; simp only []
  exact countGenerated_inv _ _ _ (gatherFlags_inv _ _ _ _ (foldl_inv _ (fun s x h => by simp [h]) _ _ h))

@[simp] theorem execGenprim_inv (tile ctx : Nat) (s : State) (h : Inv s) : InvR (execGenprim tile ctx s) := by
  unfold execGenprim
  refine issueDesc_inv _ _ _ _ _ h ?_
  intro s i d k h
  simp only [genprimRun]
  split
  · trivial
  · split <;> simp [h]

@[simp] theorem readBatch_inv (s : State) (a1 : Batch) (h : Inv s) : Inv (readBatch s a1) := by
  unfold readBatch; simp (maxDischargeDepth := 30) [*]

@[simp] theorem takeBatchToStaging_inv (s : State) (a1 : Batch) (h : Inv s) : Inv (takeBatchToStaging s a1) := by
  unfold takeBatchToStaging; simp (maxDischargeDepth := 30) [*]

@[simp] theorem execWorldBatchTake_inv (s : State) (h : Inv s) : InvR (execWorldBatchTake s) := by
  unfold execWorldBatchTake; try simp only []
  split <;> simp (maxDischargeDepth := 30) [*]

@[simp] theorem publishAs_outp (s : State) (a1 : Nat) (a2 : Nat) (a3 : Bytes) (a4 : Built) :
    (publishAs s a1 a2 a3 a4).outp = s.outp ∧ (publishAs s a1 a2 a3 a4).safety.safe = s.safety.safe := by
  unfold publishAs; simp (maxDischargeDepth := 30) [*]

@[simp] theorem publishAs_inv (s : State) (a1 : Nat) (a2 : Nat) (a3 : Bytes) (a4 : Built) (h : Inv s) :
    Inv (publishAs s a1 a2 a3 a4) := by
  unfold publishAs; simp (maxDischargeDepth := 30) [*]

@[simp] theorem unstage_outp (s : State) (a1 : Batch) :
    (unstage s a1).outp = s.outp ∧ (unstage s a1).safety.safe = s.safety.safe := by
  unfold unstage; simp (maxDischargeDepth := 30) [*]

@[simp] theorem unstage_inv (s : State) (a1 : Batch) (h : Inv s) : Inv (unstage s a1) := by
  unfold unstage; simp (maxDischargeDepth := 30) [*]

@[simp] theorem rejectBatch_inv (s : State) (a1 : Batch) (a2 : Nat) (h : Inv s) : Inv (rejectBatch s a1 a2) := by
  unfold rejectBatch; try simp only []
  split <;> simp (maxDischargeDepth := 30) [*]

@[simp] theorem publishFact_outp (s : State) (a1 : Nat) (a2 : Nat) :
    (publishFact s a1 a2).outp = s.outp ∧ (publishFact s a1 a2).safety.safe = s.safety.safe := by
  unfold publishFact; simp (maxDischargeDepth := 30) [*]

@[simp] theorem publishFact_inv (s : State) (a1 : Nat) (a2 : Nat) (h : Inv s) : Inv (publishFact s a1 a2) := by
  unfold publishFact; simp (maxDischargeDepth := 30) [*]

@[simp] theorem writeSlots_outp (s : State) (a1 : FreeMap) (a2 : List (Nat × Nat)) :
    (writeSlots s a1 a2).outp = s.outp ∧ (writeSlots s a1 a2).safety.safe = s.safety.safe := by
  unfold writeSlots; simp (maxDischargeDepth := 30) [*]

@[simp] theorem writeSlots_inv (s : State) (a1 : FreeMap) (a2 : List (Nat × Nat)) (h : Inv s) :
    Inv (writeSlots s a1 a2) := by
  unfold writeSlots; try simp only []
  (repeat' split) <;> simp_all (maxDischargeDepth := 30)

@[simp] theorem buildBatch_inv (s : State) (a1 : Batch) (h : Inv s) : Inv (buildBatch s a1) := by
  unfold buildBatch; try simp only []
  split <;> simp (maxDischargeDepth := 30) [*]

@[simp] theorem execBatchApply_inv (s : State) (h : Inv s) : InvR (execBatchApply s) := by
  unfold execBatchApply; try simp only []
  split <;> simp (maxDischargeDepth := 30) [*]

@[simp] theorem publishNow_outp (s : State) (a1 : Nat) (a2 : Built) :
    (publishNow s a1 a2).outp = s.outp ∧ (publishNow s a1 a2).safety.safe = s.safety.safe := by
  unfold publishNow; try simp only []
  split <;> simp (maxDischargeDepth := 30) [*]

@[simp] theorem publishNow_inv (s : State) (a1 : Nat) (a2 : Built) (h : Inv s) : Inv (publishNow s a1 a2) := by
  unfold publishNow; try simp only []
  split <;> simp (maxDischargeDepth := 30) [*]

@[simp] theorem execEpochPublish_inv (s : State) (h : Inv s) : InvR (execEpochPublish s) := by
  unfold execEpochPublish; try simp only []
  split <;> simp (maxDischargeDepth := 30) [*]

@[simp] theorem hostBatch_outp (s : State) (a1 : Msg) (a2 : Bytes) :
    (hostBatch s a1 a2).outp = s.outp ∧ (hostBatch s a1 a2).safety.safe = s.safety.safe := by
  unfold hostBatch; simp (maxDischargeDepth := 30) [*]

@[simp] theorem hostBatch_inv (s : State) (a1 : Msg) (a2 : Bytes) (h : Inv s) : Inv (hostBatch s a1 a2) := by
  unfold hostBatch; simp (maxDischargeDepth := 30) [*]

@[simp] theorem execWorldDelta_inv (s : State) (h : Inv s) : InvR (execWorldDelta s) := by
  unfold execWorldDelta; try simp only []
  (repeat' split) <;> simp_all (maxDischargeDepth := 30)

@[simp] theorem execWorldBankRepair_inv (a0 : Nat) (a1 : Nat) (s : State) (h : Inv s) :
    InvR (execWorldBankRepair a0 a1 s) := by
  unfold execWorldBankRepair; simp (maxDischargeDepth := 30) [*]

@[simp] theorem blockFlow_outp (s : State) (a1 : Flow) :
    (blockFlow s a1).outp = s.outp ∧ (blockFlow s a1).safety.safe = s.safety.safe := by
  unfold blockFlow; simp (maxDischargeDepth := 30) [*]

@[simp] theorem blockFlow_inv (s : State) (a1 : Flow) (h : Inv s) : Inv (blockFlow s a1) := by
  unfold blockFlow; simp (maxDischargeDepth := 30) [*]

@[simp] theorem releaseToRing_outp (s : State) (a1 : FlowCfg) (a2 : Flow) (a3 : Word) (a4 : Bytes)
    (a5 : List FlowItem) :
    (releaseToRing s a1 a2 a3 a4 a5).outp = s.outp ∧ (releaseToRing s a1 a2 a3 a4 a5).safety.safe = s.safety.safe := by
  unfold releaseToRing; simp (maxDischargeDepth := 30) [*]

@[simp] theorem releaseToRing_inv (s : State) (a1 : FlowCfg) (a2 : Flow) (a3 : Word) (a4 : Bytes)
    (a5 : List FlowItem) (h : Inv s) :
    Inv (releaseToRing s a1 a2 a3 a4 a5) := by
  unfold releaseToRing; simp (maxDischargeDepth := 30) [*]

@[simp] theorem toPlanSink_inv (s : State) (a1 : Bytes) (h : Inv s) : InvE (toPlanSink s a1) := by
  unfold toPlanSink; simp (maxDischargeDepth := 30) [*]

@[simp] theorem toWorldSink_inv (s : State) (a1 : FlowItem) (h : Inv s) : InvE (toWorldSink s a1) := by
  unfold toWorldSink; simp (maxDischargeDepth := 30) [*]

@[simp] theorem toSink_inv (s : State) (a1 : Nat) (a2 : FlowItem) (h : Inv s) : InvE (toSink s a1 a2) := by
  unfold toSink; simp (maxDischargeDepth := 30) [*]

@[simp] theorem releaseItem_inv (s : State) (a1 : Nat) (a2 : Flow) (a3 : FlowItem) (a4 : List FlowItem) (h : Inv s) :
    InvE (releaseItem s a1 a2 a3 a4) := by
  unfold releaseItem; try simp only []
  (repeat' split) <;> simp (maxDischargeDepth := 30) [*]

@[simp] theorem execFlowRelease_inv (a0 : Nat) (s : State) (h : Inv s) : InvR (execFlowRelease a0 s) := by
  unfold execFlowRelease; try simp only []
  split <;> simp (maxDischargeDepth := 30) [*]

@[simp] theorem resetRing_outp (s : State) (a1 : FlowCfg) :
    (resetRing s a1).outp = s.outp ∧ (resetRing s a1).safety.safe = s.safety.safe := by
  unfold resetRing; simp (maxDischargeDepth := 30) [*]

@[simp] theorem resetRing_inv (s : State) (a1 : FlowCfg) (h : Inv s) : Inv (resetRing s a1) := by
  unfold resetRing; try simp only []
  refine foldl_inv _ ?_ _ _ ?_; (intros; (repeat' split) <;> simp (maxDischargeDepth := 30) [*]); simp (maxDischargeDepth := 30) [*]

@[simp] theorem resetRings_outp (s : State) :
    (resetRings s).outp = s.outp ∧ (resetRings s).safety.safe = s.safety.safe := by
  unfold resetRings; try simp only []
  split <;> simp (maxDischargeDepth := 30) [*]

@[simp] theorem resetRings_inv (s : State) (h : Inv s) : Inv (resetRings s) := by
  unfold resetRings; try simp only []
  (repeat' split) <;> simp_all (maxDischargeDepth := 30)

@[simp] theorem execFlowAckPoll_inv (a0 : Nat) (s : State) (h : Inv s) : InvR (execFlowAckPoll a0 s) := by
  unfold execFlowAckPoll; try simp only []
  split <;> simp (maxDischargeDepth := 30) [*]

@[simp] theorem takeUpRings_outp (s : State) :
    (takeUpRings s).outp = s.outp ∧ (takeUpRings s).safety.safe = s.safety.safe := by
  unfold takeUpRings; try simp only []
  split <;> simp (maxDischargeDepth := 30) [*]

@[simp] theorem takeUpRings_inv (s : State) (h : Inv s) : Inv (takeUpRings s) := by
  unfold takeUpRings; try simp only []
  split <;> simp (maxDischargeDepth := 30) [*]

@[simp] theorem emptyFlow_outp (s : State) (a1 : Flow) :
    (emptyFlow s a1).outp = s.outp ∧ (emptyFlow s a1).safety.safe = s.safety.safe := by
  unfold emptyFlow; simp (maxDischargeDepth := 30) [*]

@[simp] theorem emptyFlow_inv (s : State) (a1 : Flow) (h : Inv s) : Inv (emptyFlow s a1) := by
  unfold emptyFlow; simp (maxDischargeDepth := 30) [*]

@[simp] theorem emptyFlows_outp (s : State) :
    (emptyFlows s).outp = s.outp ∧ (emptyFlows s).safety.safe = s.safety.safe := by
  unfold emptyFlows; simp (maxDischargeDepth := 30) [*]

@[simp] theorem emptyFlows_inv (s : State) (h : Inv s) : Inv (emptyFlows s) := by
  unfold emptyFlows; try simp only []
  refine foldl_inv _ ?_ _ _ ?_; (intros; (repeat' split) <;> simp (maxDischargeDepth := 30) [*]); simp (maxDischargeDepth := 30) [*]

@[simp] theorem paramsInForce_outp (s : State) :
    (paramsInForce s).outp = s.outp ∧ (paramsInForce s).safety.safe = s.safety.safe := by
  unfold paramsInForce; simp (maxDischargeDepth := 30) [*]

@[simp] theorem paramsInForce_inv (s : State) (h : Inv s) : Inv (paramsInForce s) := by
  unfold paramsInForce; simp (maxDischargeDepth := 30) [*]

@[simp] theorem weightsInForce_outp (s : State) :
    (weightsInForce s).outp = s.outp ∧ (weightsInForce s).safety.safe = s.safety.safe := by
  unfold weightsInForce; simp (maxDischargeDepth := 30) [*]

@[simp] theorem weightsInForce_inv (s : State) (h : Inv s) : Inv (weightsInForce s) := by
  unfold weightsInForce; simp (maxDischargeDepth := 30) [*]

@[simp] theorem recheckLost_outp (s : State) :
    (recheckLost s).outp = s.outp ∧ (recheckLost s).safety.safe = s.safety.safe := by
  unfold recheckLost; simp (maxDischargeDepth := 30) [*]

@[simp] theorem recheckLost_inv (s : State) (h : Inv s) : Inv (recheckLost s) := by
  unfold recheckLost; simp (maxDischargeDepth := 30) [*]

@[simp] theorem setStaged_outp (s : State) (a1 : Staged) :
    (setStaged s a1).outp = s.outp ∧ (setStaged s a1).safety.safe = s.safety.safe := by
  unfold setStaged; simp (maxDischargeDepth := 30) [*]

@[simp] theorem setStaged_inv (s : State) (a1 : Staged) (h : Inv s) : Inv (setStaged s a1) := by
  unfold setStaged; simp (maxDischargeDepth := 30) [*]

@[simp] theorem abandonLoad_outp (s : State) :
    (abandonLoad s).outp = s.outp ∧ (abandonLoad s).safety.safe = s.safety.safe := by
  unfold abandonLoad; simp (maxDischargeDepth := 30) [*]

@[simp] theorem abandonLoad_inv (s : State) (h : Inv s) : Inv (abandonLoad s) := by
  unfold abandonLoad; simp (maxDischargeDepth := 30) [*]

@[simp] theorem beginLoad_outp (s : State) :
    (beginLoad s).outp = s.outp ∧ (beginLoad s).safety.safe = s.safety.safe := by
  unfold beginLoad; try simp only []
  split <;> simp (maxDischargeDepth := 30) [*]

@[simp] theorem beginLoad_inv (s : State) (h : Inv s) : Inv (beginLoad s) := by
  unfold beginLoad; try simp only []
  split <;> simp (maxDischargeDepth := 30) [*]

@[simp] theorem loadImagePiece_inv (s : State) (m : Msg) (h : Inv s) : InvR (loadImagePiece s m) := by
  have k := takePiece_inv s m h
  unfold loadImagePiece; simp only []
  split
  · simp [*]
  · split
    · trivial
    · split <;> rename_i x <;> simp only [x] at k
      · split <;> simp (maxDischargeDepth := 30) [*]
      · split <;> simp [*]
      · split <;> simp [*]

@[simp] theorem writeProfile_outp (s : State) (a1 : Nat × Bytes) :
    (writeProfile s a1).outp = s.outp ∧ (writeProfile s a1).safety.safe = s.safety.safe := by
  unfold writeProfile; simp (maxDischargeDepth := 30) [*]

@[simp] theorem writeProfile_inv (s : State) (a1 : Nat × Bytes) (h : Inv s) : Inv (writeProfile s a1) := by
  unfold writeProfile; simp (maxDischargeDepth := 30) [*]

@[simp] theorem setProfile_outp (s : State) (a1 : Msg) (a2 : Nat) (a3 : Bytes) :
    (setProfile s a1 a2 a3).outp = s.outp ∧ (setProfile s a1 a2 a3).safety.safe = s.safety.safe := by
  unfold setProfile; simp (maxDischargeDepth := 30) [*]

@[simp] theorem setProfile_inv (s : State) (a1 : Msg) (a2 : Nat) (a3 : Bytes) (h : Inv s) :
    Inv (setProfile s a1 a2 a3) := by
  unfold setProfile; simp (maxDischargeDepth := 30) [*]

@[simp] theorem execProfileSet_inv (s : State) (h : Inv s) : InvR (execProfileSet s) := by
  unfold execProfileSet; try simp only []
  (repeat' split) <;> simp_all (maxDischargeDepth := 30)

@[simp] theorem switchBanks_outp (s : State) :
    (switchBanks s).outp = s.outp ∧ (switchBanks s).safety.safe = s.safety.safe := by
  unfold switchBanks; simp (maxDischargeDepth := 30) [*]

@[simp] theorem switchBanks_inv (s : State) (h : Inv s) : Inv (switchBanks s) := by
  unfold switchBanks; simp (maxDischargeDepth := 30) [*]

@[simp] theorem activateImage_outp (s : State) (a1 : Image) :
    (activateImage s a1).1.outp = s.outp ∧ (activateImage s a1).1.safety.safe = s.safety.safe := by
  unfold activateImage; try simp only []
  split <;> simp (maxDischargeDepth := 30) [*]

@[simp] theorem activateImage_inv (s : State) (a1 : Image) (h : Inv s) : Inv (activateImage s a1).1 := by
  unfold activateImage; try simp only []
  split <;> simp (maxDischargeDepth := 30) [*]

@[simp] theorem keepImage_outp (s : State) (a1 : Bytes) (a2 : Bool) (a3 : Msg) :
    (keepImage s a1 a2 a3).outp = s.outp ∧ (keepImage s a1 a2 a3).safety.safe = s.safety.safe := by
  unfold keepImage; simp (maxDischargeDepth := 30) [*]

@[simp] theorem keepImage_inv (s : State) (a1 : Bytes) (a2 : Bool) (a3 : Msg) (h : Inv s) :
    Inv (keepImage s a1 a2 a3) := by
  unfold keepImage; simp (maxDischargeDepth := 30) [*]

@[simp] theorem execImageVerifyDone_inv (s : State) (h : Inv s) : InvR (execImageVerifyDone s) := by
  unfold execImageVerifyDone; try simp only []
  split <;> simp (maxDischargeDepth := 30) [*]

@[simp] theorem activateDue_outp (s : State) :
    (activateDue s).outp = s.outp ∧ (activateDue s).safety.safe = s.safety.safe := by
  unfold activateDue; try simp only []
  split <;> simp (maxDischargeDepth := 30) [*]

@[simp] theorem activateDue_inv (s : State) (h : Inv s) : Inv (activateDue s) := by
  unfold activateDue; try simp only []
  split <;> simp (maxDischargeDepth := 30) [*]

@[simp] theorem keepWeights_outp (s : State) (a1 : Msg) (a2 : Bytes) :
    (keepWeights s a1 a2).outp = s.outp ∧ (keepWeights s a1 a2).safety.safe = s.safety.safe := by
  unfold keepWeights; try simp only []
  split <;> simp (maxDischargeDepth := 30) [*]

@[simp] theorem keepWeights_inv (s : State) (a1 : Msg) (a2 : Bytes) (h : Inv s) : Inv (keepWeights s a1 a2) := by
  unfold keepWeights; try simp only []
  split <;> simp (maxDischargeDepth := 30) [*]

@[simp] theorem execLoadTaskImage_inv (s : State) (h : Inv s) : InvR (execLoadTaskImage s) := by
  unfold execLoadTaskImage; try simp only []
  (repeat' split) <;> simp_all (maxDischargeDepth := 30)

@[simp] theorem profilesInForce_outp (s : State) :
    (profilesInForce s).outp = s.outp ∧ (profilesInForce s).safety.safe = s.safety.safe := by
  unfold profilesInForce; simp (maxDischargeDepth := 30) [*]

@[simp] theorem profilesInForce_inv (s : State) (h : Inv s) : Inv (profilesInForce s) := by
  unfold profilesInForce; try simp only []
  refine foldl_inv _ ?_ _ _ ?_; (intros; (repeat' split) <;> simp (maxDischargeDepth := 30) [*]); simp (maxDischargeDepth := 30) [*]

@[simp] theorem execLoadWeights_inv (s : State) (h : Inv s) : InvR (execLoadWeights s) := by
  unfold execLoadWeights; try simp only []
  (repeat' split) <;> simp_all (maxDischargeDepth := 30)

@[simp] theorem setConfig_outp (s : State) (a1 : Msg) :
    (setConfig s a1).outp = s.outp ∧ (setConfig s a1).safety.safe = s.safety.safe := by
  unfold setConfig; simp (maxDischargeDepth := 30) [*]

@[simp] theorem setConfig_inv (s : State) (a1 : Msg) (h : Inv s) : Inv (setConfig s a1) := by
  unfold setConfig; simp (maxDischargeDepth := 30) [*]

@[simp] theorem execCycleConfig_inv (s : State) (h : Inv s) : InvR (execCycleConfig s) := by
  unfold execCycleConfig; try simp only []
  (repeat' split) <;> simp_all (maxDischargeDepth := 30)

@[simp] theorem scrambleTiles_outp (s : State) (a1 : Nat) (a2 : Nat) :
    (scrambleTiles s a1 a2).outp = s.outp ∧ (scrambleTiles s a1 a2).safety.safe = s.safety.safe := by
  unfold scrambleTiles; simp (maxDischargeDepth := 30) [*]

@[simp] theorem scrambleTiles_inv (s : State) (a1 : Nat) (a2 : Nat) (h : Inv s) : Inv (scrambleTiles s a1 a2) := by
  unfold scrambleTiles; try simp only []
  refine foldl_inv _ ?_ _ _ ?_; (intros; (repeat' split) <;> simp (maxDischargeDepth := 30) [*]); simp (maxDischargeDepth := 30) [*]

@[simp] theorem applySetting_outp (s : State) (a1 : Nat) (a2 : Word) :
    (applySetting s a1 a2).outp = s.outp ∧ (applySetting s a1 a2).safety.safe = s.safety.safe := by
  unfold applySetting; simp (maxDischargeDepth := 30) [*]

@[simp] theorem applySetting_inv (s : State) (a1 : Nat) (a2 : Word) (h : Inv s) : Inv (applySetting s a1 a2) := by
  unfold applySetting; simp (maxDischargeDepth := 30) [*]

@[simp] theorem plainWrite_inv (s : State) (a1 : Nat) (a2 : Word) (h : Inv s) : InvE (plainWrite s a1 a2) := by
  unfold plainWrite; try simp only []
  split <;> simp (maxDischargeDepth := 30) [*]

@[simp] theorem applyWritten_outp (s : State) :
    (applyWritten s).outp = s.outp ∧ (applyWritten s).safety.safe = s.safety.safe := by
  unfold applyWritten; simp (maxDischargeDepth := 30) [*]

@[simp] theorem applyWritten_inv (s : State) (h : Inv s) : Inv (applyWritten s) := by
  unfold applyWritten; try simp only []
  refine foldl_inv _ ?_ _ _ ?_; (intros; (repeat' split) <;> simp (maxDischargeDepth := 30) [*]); simp (maxDischargeDepth := 30) [*]

@[simp] theorem badAccess_outp (s : State) :
    (badAccess s).outp = s.outp ∧ (badAccess s).safety.safe = s.safety.safe := by
  unfold badAccess; simp (maxDischargeDepth := 30) [*]

@[simp] theorem badAccess_inv (s : State) (h : Inv s) : Inv (badAccess s) := by
  unfold badAccess; simp (maxDischargeDepth := 30) [*]

@[simp] theorem execRegisterWrite_inv (a0 : Nat) (a1 : Word) (s : State) (h : Inv s) :
    InvR (execRegisterWrite a0 a1 s) := by
  unfold execRegisterWrite; simp (maxDischargeDepth := 30) [*]

@[simp] theorem entryEcc_inv (s : State) (a1 : CmdHeader) (h : Inv s) : Inv (entryEcc s a1) := by
  unfold entryEcc; try simp only []
  (repeat' split) <;> simp_all (maxDischargeDepth := 30)

@[simp] theorem routeRefuse_inv (s : State) (a1 : Msg) (a2 : Nat) (h : Inv s) : Inv (routeRefuse s a1 a2) := by
  unfold routeRefuse; simp (maxDischargeDepth := 30) [*]

@[simp] theorem takeEntry_outp (s : State) (a1 : CmdHeader) :
    (takeEntry s a1).outp = s.outp ∧ (takeEntry s a1).safety.safe = s.safety.safe := by
  unfold takeEntry; simp (maxDischargeDepth := 30) [*]

@[simp] theorem takeEntry_inv (s : State) (a1 : CmdHeader) (h : Inv s) : Inv (takeEntry s a1) := by
  unfold takeEntry; simp (maxDischargeDepth := 30) [*]

@[simp] theorem routeEntry_inv (s : State) (a1 : CmdHeader) (h : Inv s) : Inv (routeEntry s a1) := by
  unfold routeEntry; try simp only []
  (repeat' split) <;> simp (maxDischargeDepth := 30) [*]

@[simp] theorem routeAll_inv (n : Nat) (s : State) (h : Inv s) : Inv (routeAll n s) := by
  induction n generalizing s with
  | zero => exact h
  | succ n ih => unfold routeAll; split <;> simp [ih, h]

@[simp] theorem routeRun_inv (s : State) (h : Inv s) : Inv (routeRun s) := by
  unfold routeRun; simp (maxDischargeDepth := 30) [*]

@[simp] theorem execCmdDoorbell_inv (a0 : Word) (s : State) (h : Inv s) : InvR (execCmdDoorbell a0 s) := by
  unfold execCmdDoorbell; simp (maxDischargeDepth := 30) [*]

@[simp] theorem execSafeRequest_inv (s : State) (h : Inv s) : InvR (execSafeRequest s) := by
  unfold execSafeRequest; try simp only []
  (repeat' split) <;> simp_all (maxDischargeDepth := 30)

@[simp] theorem clearRings_outp (s : State) :
    (clearRings s).outp = s.outp ∧ (clearRings s).safety.safe = s.safety.safe := by
  unfold clearRings; simp (maxDischargeDepth := 30) [*]

@[simp] theorem clearRings_inv (s : State) (h : Inv s) : Inv (clearRings s) := by
  unfold clearRings; simp (maxDischargeDepth := 30) [*]

@[simp] theorem aoAnswer_outp (s : State) (a1 : Nat) :
    (aoAnswer s a1).outp = s.outp ∧ (aoAnswer s a1).safety.safe = s.safety.safe := by
  unfold aoAnswer; simp (maxDischargeDepth := 30) [*]

@[simp] theorem aoAnswer_inv (s : State) (a1 : Nat) (h : Inv s) : Inv (aoAnswer s a1) := by
  unfold aoAnswer; simp (maxDischargeDepth := 30) [*]

@[simp] theorem execAoResetArm_inv (a0 : Word) (s : State) (h : Inv s) : InvR (execAoResetArm a0 s) := by
  unfold execAoResetArm; simp (maxDischargeDepth := 30) [*]

@[simp] theorem execAoLogRead_inv (a0 : Nat) (a1 : Nat) (s : State) (h : Inv s) : InvR (execAoLogRead a0 a1 s) := by
  unfold execAoLogRead; simp (maxDischargeDepth := 30) [*]

@[simp] theorem loseHost_inv (s : State) (h : Inv s) : Inv (loseHost s) := by
  unfold loseHost; simp (maxDischargeDepth := 30) [*]

@[simp] theorem meetExpiry_inv (s : State) (h : Inv s) : Inv (meetExpiry s) := by
  unfold meetExpiry; simp (maxDischargeDepth := 30) [*]

@[simp] theorem logHost_outp (s : State) (a1 : Nat) (a2 : Bytes) :
    (logHost s a1 a2).outp = s.outp ∧ (logHost s a1 a2).safety.safe = s.safety.safe := by
  unfold logHost; simp (maxDischargeDepth := 30) [*]

@[simp] theorem logHost_inv (s : State) (a1 : Nat) (a2 : Bytes) (h : Inv s) : Inv (logHost s a1 a2) := by
  unfold logHost; simp (maxDischargeDepth := 30) [*]

@[simp] theorem restartTimer_outp (s : State) :
    (restartTimer s).outp = s.outp ∧ (restartTimer s).safety.safe = s.safety.safe := by
  unfold restartTimer; simp (maxDischargeDepth := 30) [*]

@[simp] theorem restartTimer_inv (s : State) (h : Inv s) : Inv (restartTimer s) := by
  unfold restartTimer; simp (maxDischargeDepth := 30) [*]

@[simp] theorem helloCommon_outp (s : State) (a1 : Msg) :
    (helloCommon s a1).outp = s.outp ∧ (helloCommon s a1).safety.safe = s.safety.safe := by
  unfold helloCommon; simp (maxDischargeDepth := 30) [*]

@[simp] theorem helloCommon_inv (s : State) (a1 : Msg) (h : Inv s) : Inv (helloCommon s a1) := by
  unfold helloCommon; simp (maxDischargeDepth := 30) [*]

@[simp] theorem helloReattached_outp (s : State) (a1 : Msg) :
    (helloReattached s a1).outp = s.outp ∧ (helloReattached s a1).safety.safe = s.safety.safe := by
  unfold helloReattached; simp (maxDischargeDepth := 30) [*]

@[simp] theorem helloReattached_inv (s : State) (a1 : Msg) (h : Inv s) : Inv (helloReattached s a1) := by
  unfold helloReattached; simp (maxDischargeDepth := 30) [*]

@[simp] theorem execHelloReattach_inv (s : State) (h : Inv s) : InvR (execHelloReattach s) := by
  unfold execHelloReattach; try simp only []
  (repeat' split) <;> simp_all (maxDischargeDepth := 30)

@[simp] theorem queryRun_inv (s : State) (isIt : Msg → Bool) (f : Msg → State → State)
    (h : Inv s) (hf : ∀ m t, Inv t → Inv (f m t)) : InvR (queryRun s isIt f) := by
  unfold queryRun
  exact withFront_inv _ _ _ _ h fun m t h1 => by split <;> simp [hf m t h1]

@[simp] theorem execQueryWeightDir_inv (s : State) (h : Inv s) : InvR (execQueryWeightDir s) := by
  unfold execQueryWeightDir; try simp only []
  (repeat' split) <;> simp_all (maxDischargeDepth := 30)

@[simp] theorem execHeadWrite_inv (a0 : Nat) (a1 : Word) (s : State) (h : Inv s) : InvR (execHeadWrite a0 a1 s) := by
  unfold execHeadWrite; simp (maxDischargeDepth := 30) [*]

@[simp] theorem execAoSafeRequest_inv (s : State) (h : Inv s) : InvR (execAoSafeRequest s) := by
  unfold execAoSafeRequest; simp (maxDischargeDepth := 30) [*]

@[simp] theorem execHostLossExpiry_inv (s : State) (h : Inv s) : InvR (execHostLossExpiry s) := by
  unfold execHostLossExpiry; simp (maxDischargeDepth := 30) [*]

@[simp] theorem execMainbandDown_inv (s : State) (h : Inv s) : InvR (execMainbandDown s) := by
  unfold execMainbandDown; simp (maxDischargeDepth := 30) [*]

@[simp] theorem execQueryDevice_inv (s : State) (h : Inv s) : InvR (execQueryDevice s) := by
  unfold execQueryDevice; try simp only []
  (repeat' split) <;> simp_all (maxDischargeDepth := 30)

@[simp] theorem execSidebandLinkChange_inv (a0 : Bool) (s : State) (h : Inv s) :
    InvR (execSidebandLinkChange a0 s) := by
  unfold execSidebandLinkChange; simp (maxDischargeDepth := 30) [*]

@[simp] theorem replyMemPiece_outp (s : State) (a1 : Msg) (a2 : Nat) (a3 : Nat) :
    (replyMemPiece s a1 a2 a3).outp = s.outp ∧ (replyMemPiece s a1 a2 a3).safety.safe = s.safety.safe := by
  unfold replyMemPiece; simp (maxDischargeDepth := 30) [*]

@[simp] theorem replyMemPiece_inv (s : State) (a1 : Msg) (a2 : Nat) (a3 : Nat) (h : Inv s) :
    Inv (replyMemPiece s a1 a2 a3) := by
  unfold replyMemPiece; simp (maxDischargeDepth := 30) [*]

@[simp] theorem execQueryCkptRead_inv (s : State) (h : Inv s) : InvR (execQueryCkptRead s) := by
  unfold execQueryCkptRead; try simp only []
  (repeat' split) <;> simp_all (maxDischargeDepth := 30)

@[simp] theorem helloFresh_outp (s : State) (a1 : Msg) :
    (helloFresh s a1).outp = s.outp ∧ (helloFresh s a1).safety.safe = s.safety.safe := by
  unfold helloFresh; simp (maxDischargeDepth := 30) [*]

@[simp] theorem helloFresh_inv (s : State) (a1 : Msg) (h : Inv s) : Inv (helloFresh s a1) := by
  unfold helloFresh; simp (maxDischargeDepth := 30) [*]

@[simp] theorem execHello_inv (s : State) (h : Inv s) : InvR (execHello s) := by
  unfold execHello; try simp only []
  (repeat' split) <;> simp_all (maxDischargeDepth := 30)

@[simp] theorem execQueryFacts_inv (s : State) (h : Inv s) : InvR (execQueryFacts s) := by
  unfold execQueryFacts; try simp only []
  (repeat' split) <;> simp_all (maxDischargeDepth := 30)

@[simp] theorem execNtf_inv (a0 : Nat) (s : State) (h : Inv s) : InvR (execNtf a0 s) := by
  unfold execNtf; simp (maxDischargeDepth := 30) [*]

@[simp] theorem clearSafe_inv (s : State) (h : Inv s) : Inv (clearSafe s) := by unfold clearSafe; simp [h]

@[simp] theorem safeClearRun_inv (s : State) (a1 : Msg) (h : Inv s) : Inv (safeClearRun s a1) := by
  unfold safeClearRun; simp (maxDischargeDepth := 30) [*]

@[simp] theorem execSafeClear_inv (s : State) (h : Inv s) : InvR (execSafeClear s) := by
  unfold execSafeClear; try simp only []
  (repeat' split) <;> simp_all (maxDischargeDepth := 30)

@[simp] theorem execAoResetGo_inv (a0 : Word) (s : State) (h : Inv s) : InvR (execAoResetGo a0 s) := by
  unfold execAoResetGo; simp (maxDischargeDepth := 30) [*]

@[simp] theorem execHeartbeat_inv (s : State) (h : Inv s) : InvR (execHeartbeat s) := by
  unfold execHeartbeat; try simp only []
  (repeat' split) <;> simp_all (maxDischargeDepth := 30)

@[simp] theorem execReadCounters_inv (s : State) (h : Inv s) : InvR (execReadCounters s) := by
  unfold execReadCounters; try simp only []
  (repeat' split) <;> simp_all (maxDischargeDepth := 30)

@[simp] theorem execAoRead_inv (a0 : Nat) (s : State) (h : Inv s) : InvR (execAoRead a0 s) := by
  unfold execAoRead; simp (maxDischargeDepth := 30) [*]

@[simp] theorem execHostLossCfgWrite_inv (a0 : Word) (s : State) (h : Inv s) : InvR (execHostLossCfgWrite a0 s) := by
  unfold execHostLossCfgWrite; simp (maxDischargeDepth := 30) [*]

@[simp] theorem execMainbandUp_inv (a0 : Nat) (a1 : Bool) (s : State) (h : Inv s) :
    InvR (execMainbandUp a0 a1 s) := by
  unfold execMainbandUp; simp (maxDischargeDepth := 30) [*]

@[simp] theorem secPiece_inv (s : State) (a1 : Msg → Bool) (h : Inv s) : InvR (secPiece s a1) := by
  unfold secPiece; try simp only []
  (repeat' split) <;> simp_all (maxDischargeDepth := 30)

@[simp] theorem execLoadFirmware_inv (s : State) (h : Inv s) : InvR (execLoadFirmware s) := by
  unfold execLoadFirmware; simp (maxDischargeDepth := 30) [*]

@[simp] theorem mapProc_outp (s : State) (a1 : Nat) (a2 : Proc → Proc) :
    (mapProc s a1 a2).outp = s.outp ∧ (mapProc s a1 a2).safety.safe = s.safety.safe := by
  unfold mapProc; simp (maxDischargeDepth := 30) [*]

@[simp] theorem mapProc_inv (s : State) (a1 : Nat) (a2 : Proc → Proc) (h : Inv s) : Inv (mapProc s a1 a2) := by
  unfold mapProc; simp (maxDischargeDepth := 30) [*]

@[simp] theorem runProc_outp (s : State) (a1 : Nat) :
    (runProc s a1).outp = s.outp ∧ (runProc s a1).safety.safe = s.safety.safe := by
  unfold runProc; simp (maxDischargeDepth := 30) [*]

@[simp] theorem runProc_inv (s : State) (a1 : Nat) (h : Inv s) : Inv (runProc s a1) := by
  unfold runProc; simp (maxDischargeDepth := 30) [*]

@[simp] theorem rejoinAll_outp (s : State) :
    (rejoinAll s).outp = s.outp ∧ (rejoinAll s).safety.safe = s.safety.safe := by
  unfold rejoinAll; simp (maxDischargeDepth := 30) [*]

@[simp] theorem rejoinAll_inv (s : State) (h : Inv s) : Inv (rejoinAll s) := by
  unfold rejoinAll; try simp only []
  refine foldl_inv _ ?_ _ _ ?_; (intros; (repeat' split) <;> simp (maxDischargeDepth := 30) [*]); simp (maxDischargeDepth := 30) [*]

@[simp] theorem runFuses_outp (s : State) (a1 : Bytes) (a2 : Msg) :
    (runFuses s a1 a2).outp = s.outp ∧ (runFuses s a1 a2).safety.safe = s.safety.safe := by
  unfold runFuses; try simp only []
  (repeat' split) <;> simp (maxDischargeDepth := 30) [*]

@[simp] theorem runFuses_inv (s : State) (a1 : Bytes) (a2 : Msg) (h : Inv s) : Inv (runFuses s a1 a2) := by
  unfold runFuses; try simp only []
  (repeat' split) <;> simp (maxDischargeDepth := 30) [*]

@[simp] theorem activateFw_outp (s : State) (a1 : FwImage) :
    (activateFw s a1).outp = s.outp ∧ (activateFw s a1).safety.safe = s.safety.safe := by
  unfold activateFw; simp (maxDischargeDepth := 30) [*]

@[simp] theorem activateFw_inv (s : State) (a1 : FwImage) (h : Inv s) : Inv (activateFw s a1) := by
  unfold activateFw; simp (maxDischargeDepth := 30) [*]

@[simp] theorem blowRb_outp (s : State) (a1 : FwImage) :
    (blowRb s a1).outp = s.outp ∧ (blowRb s a1).safety.safe = s.safety.safe := by
  unfold blowRb; simp (maxDischargeDepth := 30) [*]

@[simp] theorem blowRb_inv (s : State) (a1 : FwImage) (h : Inv s) : Inv (blowRb s a1) := by
  unfold blowRb; simp (maxDischargeDepth := 30) [*]

@[simp] theorem latigoListsDue_outp (s : State) :
    (latigoListsDue s).outp = s.outp ∧ (latigoListsDue s).safety.safe = s.safety.safe := by
  unfold latigoListsDue; try simp only []
  split <;> simp (maxDischargeDepth := 30) [*]

@[simp] theorem latigoListsDue_inv (s : State) (h : Inv s) : Inv (latigoListsDue s) := by
  unfold latigoListsDue; try simp only []
  split <;> simp (maxDischargeDepth := 30) [*]

@[simp] theorem switchCode_outp (s : State) (a1 : Nat) :
    (switchCode s a1).outp = s.outp ∧ (switchCode s a1).safety.safe = s.safety.safe := by
  unfold switchCode; try simp only []
  split <;> simp (maxDischargeDepth := 30) [*]

@[simp] theorem switchCode_inv (s : State) (a1 : Nat) (h : Inv s) : Inv (switchCode s a1) := by
  unfold switchCode; try simp only []
  split <;> simp (maxDischargeDepth := 30) [*]

@[simp] theorem replyIf_outp (s : State) (a1 : Option Msg) (a2 : Nat) :
    (replyIf s a1 a2).outp = s.outp ∧ (replyIf s a1 a2).safety.safe = s.safety.safe := by
  unfold replyIf; try simp only []
  split <;> simp (maxDischargeDepth := 30) [*]

@[simp] theorem replyIf_inv (s : State) (a1 : Option Msg) (a2 : Nat) (h : Inv s) : Inv (replyIf s a1 a2) := by
  unfold replyIf; try simp only []
  split <;> simp (maxDischargeDepth := 30) [*]

@[simp] theorem execPlannedRestartDone_inv (a0 : Nat) (s : State) (h : Inv s) :
    InvR (execPlannedRestartDone a0 s) := by
  unfold execPlannedRestartDone; simp (maxDischargeDepth := 30) [*]

@[simp] theorem execFuseRequest_inv (s : State) (h : Inv s) : InvR (execFuseRequest s) := by
  unfold execFuseRequest; simp (maxDischargeDepth := 30) [*]

@[simp] theorem stageFw_outp (s : State) (a1 : FwImage) :
    (stageFw s a1).outp = s.outp ∧ (stageFw s a1).safety.safe = s.safety.safe := by
  unfold stageFw; simp (maxDischargeDepth := 30) [*]

@[simp] theorem stageFw_inv (s : State) (a1 : FwImage) (h : Inv s) : Inv (stageFw s a1) := by
  unfold stageFw; simp (maxDischargeDepth := 30) [*]

@[simp] theorem setStage_outp (s : State) (a1 : Nat) :
    (setStage s a1).outp = s.outp ∧ (setStage s a1).safety.safe = s.safety.safe := by
  unfold setStage; simp (maxDischargeDepth := 30) [*]

@[simp] theorem setStage_inv (s : State) (a1 : Nat) (h : Inv s) : Inv (setStage s a1) := by
  unfold setStage; simp (maxDischargeDepth := 30) [*]

@[simp] theorem startProc_outp (s : State) (a1 : Nat) :
    (startProc s a1).outp = s.outp ∧ (startProc s a1).safety.safe = s.safety.safe := by
  unfold startProc; simp (maxDischargeDepth := 30) [*]

@[simp] theorem startProc_inv (s : State) (a1 : Nat) (h : Inv s) : Inv (startProc s a1) := by
  unfold startProc; simp (maxDischargeDepth := 30) [*]

@[simp] theorem endWaitRest_outp (s : State) :
    (endWaitRest s).outp = s.outp ∧ (endWaitRest s).safety.safe = s.safety.safe := by
  unfold endWaitRest; simp (maxDischargeDepth := 30) [*]

@[simp] theorem endWaitRest_inv (s : State) (h : Inv s) : Inv (endWaitRest s) := by
  unfold endWaitRest; try simp only []
  (repeat' split) <;> simp_all (maxDischargeDepth := 30)

@[simp] theorem takeBootImage_outp (s : State) (a1 : FwImage) :
    (takeBootImage s a1).outp = s.outp ∧ (takeBootImage s a1).safety.safe = s.safety.safe := by
  unfold takeBootImage; simp (maxDischargeDepth := 30) [*]

@[simp] theorem takeBootImage_inv (s : State) (a1 : FwImage) (h : Inv s) : Inv (takeBootImage s a1) := by
  unfold takeBootImage; simp (maxDischargeDepth := 30) [*]

@[simp] theorem verifyFw_outp (s : State) (a1 : Bytes) (a2 : Nat) (a3 : Msg) :
    (verifyFw s a1 a2 a3).outp = s.outp ∧ (verifyFw s a1 a2 a3).safety.safe = s.safety.safe := by
  unfold verifyFw; simp (maxDischargeDepth := 30) [*]

@[simp] theorem verifyFw_inv (s : State) (a1 : Bytes) (a2 : Nat) (a3 : Msg) (h : Inv s) :
    Inv (verifyFw s a1 a2 a3) := by
  unfold verifyFw; simp (maxDischargeDepth := 30) [*]

@[simp] theorem execFwVerifyDone_inv (s : State) (h : Inv s) : InvR (execFwVerifyDone s) := by
  unfold execFwVerifyDone; try simp only []
  split <;> simp (maxDischargeDepth := 30) [*]

@[simp] theorem abandonVerify_outp (s : State) :
    (abandonVerify s).outp = s.outp ∧ (abandonVerify s).safety.safe = s.safety.safe := by
  unfold abandonVerify; try simp only []
  (repeat' split) <;> simp (maxDischargeDepth := 30) [*]

@[simp] theorem abandonVerify_inv (s : State) (h : Inv s) : Inv (abandonVerify s) := by
  unfold abandonVerify; try simp only []
  (repeat' split) <;> simp (maxDischargeDepth := 30) [*]

@[simp] theorem answerQueue_outp (s : State) (a1 : Owner) :
    (answerQueue s a1).outp = s.outp ∧ (answerQueue s a1).safety.safe = s.safety.safe := by
  unfold answerQueue; simp (maxDischargeDepth := 30) [*]

@[simp] theorem answerQueue_inv (s : State) (a1 : Owner) (h : Inv s) : Inv (answerQueue s a1) := by
  unfold answerQueue; try simp only []
  (repeat' split) <;> simp_all (maxDischargeDepth := 30)

@[simp] theorem dropBegun_inv (s : State) (h : Inv s) : Inv (dropBegun s) := by
  unfold dropBegun; try simp only []
  split <;> simp (maxDischargeDepth := 30) [*]

@[simp] theorem dropPieces_outp (s : State) (a1 : Owner) :
    (dropPieces s a1).outp = s.outp ∧ (dropPieces s a1).safety.safe = s.safety.safe := by
  unfold dropPieces; simp (maxDischargeDepth := 30) [*]

@[simp] theorem dropPieces_inv (s : State) (a1 : Owner) (h : Inv s) : Inv (dropPieces s a1) := by
  unfold dropPieces; simp (maxDischargeDepth := 30) [*]

@[simp] theorem loseProc_inv (s : State) (a1 : Nat) (h : Inv s) : Inv (loseProc s a1) := by
  unfold loseProc; try simp only []
  (repeat' split) <;> simp (maxDischargeDepth := 30) [*]

@[simp] theorem reportRestart_outp (s : State) (a1 : Nat) (a2 : Nat) :
    (reportRestart s a1 a2).outp = s.outp ∧ (reportRestart s a1 a2).safety.safe = s.safety.safe := by
  unfold reportRestart; simp (maxDischargeDepth := 30) [*]

@[simp] theorem reportRestart_inv (s : State) (a1 : Nat) (a2 : Nat) (h : Inv s) : Inv (reportRestart s a1 a2) := by
  unfold reportRestart; simp (maxDischargeDepth := 30) [*]

@[simp] theorem crashRestart_inv (s : State) (a1 : Nat) (a2 : Nat) (a3 : Option Msg) (h : Inv s) :
    Inv (crashRestart s a1 a2 a3) := by
  unfold crashRestart; simp (maxDischargeDepth := 30) [*]

@[simp] theorem crash_inv (s : State) (a1 : Nat) (a2 : Nat) (h : Inv s) : Inv (crash s a1 a2) := by
  unfold crash; try simp only []
  split <;> simp (maxDischargeDepth := 30) [*]

@[simp] theorem fwMemError_inv (s : State) (a1 : Nat) (h : Inv s) : Inv (fwMemError s a1) := by
  unfold fwMemError; simp (maxDischargeDepth := 30) [*]

@[simp] theorem execFwMemEcc_inv (a0 : Nat) (s : State) (h : Inv s) : InvR (execFwMemEcc a0 s) := by
  unfold execFwMemEcc; simp (maxDischargeDepth := 30) [*]

@[simp] theorem askRestart_inv (s : State) (a1 : Msg) (a2 : Nat) (h : Inv s) : Inv (askRestart s a1 a2) := by
  unfold askRestart; try simp only []
  split <;> simp (maxDischargeDepth := 30) [*]

@[simp] theorem execRestartProcessor_inv (s : State) (h : Inv s) : InvR (execRestartProcessor s) := by
  unfold execRestartProcessor; try simp only []
  (repeat' split) <;> simp_all (maxDischargeDepth := 30)

@[simp] theorem reloadFailed_inv (s : State) (a1 : Nat) (h : Inv s) : Inv (reloadFailed s a1) := by
  unfold reloadFailed; try simp only []
  (repeat' split) <;> simp (maxDischargeDepth := 30) [*]

@[simp] theorem execPlannedRestartBegin_inv (a0 : Nat) (s : State) (h : Inv s) :
    InvR (execPlannedRestartBegin a0 s) := by
  unfold execPlannedRestartBegin; simp (maxDischargeDepth := 30) [*]

@[simp] theorem execAttest_inv (s : State) (h : Inv s) : InvR (execAttest s) := by
  unfold execAttest; try simp only []
  (repeat' split) <;> simp_all (maxDischargeDepth := 30)

@[simp] theorem reloaded_outp (s : State) (a1 : Nat) :
    (reloaded s a1).outp = s.outp ∧ (reloaded s a1).safety.safe = s.safety.safe := by
  unfold reloaded; try simp only []
  (repeat' split) <;> simp (maxDischargeDepth := 30) [*]

@[simp] theorem reloaded_inv (s : State) (a1 : Nat) (h : Inv s) : Inv (reloaded s a1) := by
  unfold reloaded; try simp only []
  (repeat' split) <;> simp (maxDischargeDepth := 30) [*]

@[simp] theorem execInternalFatalException_inv (a0 : Nat) (s : State) (h : Inv s) :
    InvR (execInternalFatalException a0 s) := by
  unfold execInternalFatalException; simp (maxDischargeDepth := 30) [*]

@[simp] theorem execFwReloadDone_inv (a0 : Nat) (a1 : Bool) (s : State) (h : Inv s) :
    InvR (execFwReloadDone a0 a1 s) := by
  unfold execFwReloadDone; simp (maxDischargeDepth := 30) [*]

@[simp] theorem execWatchdogExpiry_inv (a0 : Nat) (s : State) (h : Inv s) : InvR (execWatchdogExpiry a0 s) := by
  unfold execWatchdogExpiry; simp (maxDischargeDepth := 30) [*]

@[simp] theorem restoreTree_inv (s : State) (bs : Bytes) (l : List Bytes) (h : Inv s) :
    InvO (restoreTree s bs l) := by
  unfold restoreTree; (try simp only []); (repeat' split) <;> simp_all (maxDischargeDepth := 30)

@[simp] theorem restoreRest_outp (s : State) (a1 : Bytes) (a2 : List Bytes) :
    (restoreRest s a1 a2).outp = s.outp ∧ (restoreRest s a1 a2).safety.safe = s.safety.safe := by
  unfold restoreRest; simp (maxDischargeDepth := 30) [*]

@[simp] theorem restoreRest_inv (s : State) (a1 : Bytes) (a2 : List Bytes) (h : Inv s) :
    Inv (restoreRest s a1 a2) := by
  unfold restoreRest; try simp only []
  (repeat' split) <;> simp_all (maxDischargeDepth := 30)

@[simp] theorem restoreCkpt_inv (s : State) (h : Inv s) : Inv (restoreCkpt s).2 := by
  unfold restoreCkpt; simp only []
  split
  · simp [*]
  · split
    · simp [*]
    · split
      · simp [*]
      · rename_i l _ _ t e
        have k := restoreTree_inv s (ckptStored s) (treeSection (l.getD 5 [])) h
        rw [e] at k; simp [show Inv t from k]

@[simp] theorem setAck_outp (s : State) (a1 : Inst) (a2 : Nat) (a3 : Nat) :
    (setAck s a1 a2 a3).outp = s.outp ∧ (setAck s a1 a2 a3).safety.safe = s.safety.safe := by
  unfold setAck; simp (maxDischargeDepth := 30) [*]

@[simp] theorem setAck_inv (s : State) (a1 : Inst) (a2 : Nat) (a3 : Nat) (h : Inv s) : Inv (setAck s a1 a2 a3) := by
  unfold setAck; simp (maxDischargeDepth := 30) [*]

@[simp] theorem putHeader_outp (s : State) (a1 : Nat) (a2 : Bytes) (a3 : Nat) (a4 : Nat) :
    (putHeader s a1 a2 a3 a4).outp = s.outp ∧ (putHeader s a1 a2 a3 a4).safety.safe = s.safety.safe := by
  unfold putHeader; simp (maxDischargeDepth := 30) [*]

@[simp] theorem putHeader_inv (s : State) (a1 : Nat) (a2 : Bytes) (a3 : Nat) (a4 : Nat) (h : Inv s) :
    Inv (putHeader s a1 a2 a3 a4) := by
  unfold putHeader; simp (maxDischargeDepth := 30) [*]

@[simp] theorem closeRows_outp (s : State) (a1 : Inst) (a2 : Bytes) (a3 : SweepRun) :
    (closeRows s a1 a2 a3).1.outp = s.outp ∧ (closeRows s a1 a2 a3).1.safety.safe = s.safety.safe := by
  unfold closeRows; simp (maxDischargeDepth := 30) [*]

@[simp] theorem closeRows_inv (s : State) (a1 : Inst) (a2 : Bytes) (a3 : SweepRun) (h : Inv s) :
    Inv (closeRows s a1 a2 a3).1 := by
  unfold closeRows; try simp only []
  refine foldl_inv _ ?_ _ _ ?_; (intros; (repeat' split) <;> simp (maxDischargeDepth := 30) [*]); simp (maxDischargeDepth := 30) [*]

@[simp] theorem putRecord_outp (s : State) (a1 : Nat) (a2 : Bytes) (a3 : Nat) (a4 : Nat) (a5 : Bytes) :
    (putRecord s a1 a2 a3 a4 a5).outp = s.outp ∧ (putRecord s a1 a2 a3 a4 a5).safety.safe = s.safety.safe := by
  unfold putRecord; simp (maxDischargeDepth := 30) [*]

@[simp] theorem putRecord_inv (s : State) (a1 : Nat) (a2 : Bytes) (a3 : Nat) (a4 : Nat) (a5 : Bytes) (h : Inv s) :
    Inv (putRecord s a1 a2 a3 a4 a5) := by
  unfold putRecord; simp (maxDischargeDepth := 30) [*]

@[simp] theorem countSweep_outp (s : State) (a1 : Inst) (a2 : CycleCounts → CycleCounts) :
    (countSweep s a1 a2).outp = s.outp ∧ (countSweep s a1 a2).safety.safe = s.safety.safe := by
  unfold countSweep; simp (maxDischargeDepth := 30) [*]

@[simp] theorem countSweep_inv (s : State) (a1 : Inst) (a2 : CycleCounts → CycleCounts) (h : Inv s) :
    Inv (countSweep s a1 a2) := by
  unfold countSweep; simp (maxDischargeDepth := 30) [*]

@[simp] theorem takeCut_outp (s : State) (a1 : Inst) (a2 : Bytes) (a3 : SweepRun) :
    (takeCut s a1 a2 a3).1.outp = s.outp ∧ (takeCut s a1 a2 a3).1.safety.safe = s.safety.safe := by
  unfold takeCut; simp (maxDischargeDepth := 30) [*]

@[simp] theorem takeCut_inv (s : State) (a1 : Inst) (a2 : Bytes) (a3 : SweepRun) (h : Inv s) :
    Inv (takeCut s a1 a2 a3).1 := by
  unfold takeCut; try simp only []
  (repeat' split) <;> simp_all (maxDischargeDepth := 30)

@[simp] theorem askLines_outp (s : State) (a1 : Nat) (a2 : List Nat) :
    (askLines s a1 a2).outp = s.outp ∧ (askLines s a1 a2).safety.safe = s.safety.safe := by
  unfold askLines; simp (maxDischargeDepth := 30) [*]

@[simp] theorem askLines_inv (s : State) (a1 : Nat) (a2 : List Nat) (h : Inv s) : Inv (askLines s a1 a2) := by
  unfold askLines; try simp only []
  (repeat' split) <;> simp_all (maxDischargeDepth := 30)

@[simp] theorem takePair_outp (s : State) (a1 : Inst) (a2 : Bytes) (a3 : SweepRun) (a4 : Nat) (a5 : Nat)
    (a6 : List (Nat × Nat)) :
    (takePair s a1 a2 a3 a4 a5 a6).1.outp = s.outp ∧ (takePair s a1 a2 a3 a4 a5 a6).1.safety.safe = s.safety.safe := by
  unfold takePair; try simp only []
  split <;> simp (maxDischargeDepth := 30) [*]

@[simp] theorem takePair_inv (s : State) (a1 : Inst) (a2 : Bytes) (a3 : SweepRun) (a4 : Nat) (a5 : Nat)
    (a6 : List (Nat × Nat)) (h : Inv s) :
    Inv (takePair s a1 a2 a3 a4 a5 a6).1 := by
  unfold takePair; try simp only []
  split <;> simp (maxDischargeDepth := 30) [*]

@[simp] theorem fillLanes_inv (i : Inst) (d : Bytes) (n : Nat) (s : State) (w : SweepRun) (h : Inv s) :
    Inv (fillLanes i d n s w).1 := by
  induction n generalizing s w with
  | zero => exact h
  | succ n ih => unfold fillLanes; simp only []; (repeat' split) <;> simp [ih, h]

@[simp] theorem sweepGo_inv (s : State) (a1 : Inst) (a2 : Bytes) (a3 : SweepRun) (h : Inv s) :
    Inv (sweepGo s a1 a2 a3) := by
  unfold sweepGo; simp (maxDischargeDepth := 30) [*]

@[simp] theorem answerReport_inv (s : State) (a1 : Inst) (a2 : Bytes) (a3 : SweepRun) (h : Inv s) :
    Inv (answerReport s a1 a2 a3) := by
  unfold answerReport; simp (maxDischargeDepth := 30) [*]

@[simp] theorem countLine_inv (s : State) (a1 : Nat) (a2 : Nat) (h : Inv s) : Inv (countLine s a1 a2) := by
  unfold countLine; try simp only []
  refine foldl_inv _ ?_ _ _ ?_; (intros; (repeat' split) <;> simp (maxDischargeDepth := 30) [*]); simp (maxDischargeDepth := 30) [*]

@[simp] theorem lineLost_inv (s : State) (a1 : Nat) (a2 : Nat) (h : Inv s) : Inv (lineLost s a1 a2) := by
  unfold lineLost; simp (maxDischargeDepth := 30) [*]

@[simp] theorem lineFails_inv (s : State) (a1 : Nat) (a2 : Nat) (h : Inv s) : Inv (lineFails s a1 a2) := by
  unfold lineFails; simp (maxDischargeDepth := 30) [*]

@[simp] theorem execCacheFill_inv (a0 : Nat) (a1 : Nat) (a2 : Bool) (s : State) (h : Inv s) :
    InvR (execCacheFill a0 a1 a2 s) := by
  unfold execCacheFill; simp (maxDischargeDepth := 30) [*]

@[simp] theorem holdSample_outp (s : State) (a1 : Inst) (a2 : Nat) (a3 : Nat) :
    (holdSample s a1 a2 a3).outp = s.outp ∧ (holdSample s a1 a2 a3).safety.safe = s.safety.safe := by
  unfold holdSample; try simp only []
  split <;> simp (maxDischargeDepth := 30) [*]

@[simp] theorem holdSample_inv (s : State) (a1 : Inst) (a2 : Nat) (a3 : Nat) (h : Inv s) :
    Inv (holdSample s a1 a2 a3) := by
  unfold holdSample; try simp only []
  split <;> simp (maxDischargeDepth := 30) [*]

@[simp] theorem startSweep_inv (s : State) (a1 : Inst) (a2 : Bytes) (a3 : Nat) (h : Inv s) :
    Inv (startSweep s a1 a2 a3) := by
  unfold startSweep; simp (maxDischargeDepth := 30) [*]

@[simp] theorem pairDone_inv (s : State) (a1 : Inst) (a2 : Bytes) (a3 : SweepRun) (a4 : Nat) (a5 : Nat)
    (a6 : List (Nat × Nat)) (h : Inv s) :
    Inv (pairDone s a1 a2 a3 a4 a5 a6) := by
  unfold pairDone; simp (maxDischargeDepth := 30) [*]

@[simp] theorem execSweepPairDone_inv (a0 : Nat) (a1 : Nat) (s : State) (h : Inv s) :
    InvR (execSweepPairDone a0 a1 s) := by
  unfold execSweepPairDone; try simp only []
  (repeat' split) <;> simp (maxDischargeDepth := 30) [*]

@[simp] theorem execSweep_inv (a0 : Nat) (a1 : Nat) (s : State) (h : Inv s) : InvR (execSweep a0 a1 s) := by
  unfold execSweep
  try split
  all_goals first
  | (simp (maxDischargeDepth := 30) [*]; done)
  | (refine issueDesc_inv _ _ _ _ _ h ?_
     intro s i d k h
     simp only [sweepRun]
     first
     | (simp (maxDischargeDepth := 30) [*]; done)
     | ((repeat' split) <;> simp (maxDischargeDepth := 30) [*]; done))

@[simp] theorem execSweepStartReport_inv (a0 : Nat) (a1 : Nat) (s : State) (h : Inv s) :
    InvR (execSweepStartReport a0 a1 s) := by
  unfold execSweepStartReport; try simp only []
  (repeat' split) <;> simp (maxDischargeDepth := 30) [*]

@[simp] theorem latigoMatch_outp (s : State) (a1 : Option Bytes × Bool) :
    (latigoMatch s a1).outp = s.outp ∧ (latigoMatch s a1).safety.safe = s.safety.safe := by
  unfold latigoMatch; simp (maxDischargeDepth := 30) [*]

@[simp] theorem latigoMatch_inv (s : State) (a1 : Option Bytes × Bool) (h : Inv s) : Inv (latigoMatch s a1) := by
  unfold latigoMatch; simp (maxDischargeDepth := 30) [*]

@[simp] theorem completeLatigo_inv (s : State) (h : Inv s) : Inv (completeLatigo s) := by
  unfold completeLatigo; simp (maxDischargeDepth := 30) [*]

@[simp] theorem latigoBlind_inv (s : State) (a1 : Nat × Nat) (h : Inv s) : Inv (latigoBlind s a1) := by
  unfold latigoBlind; simp (maxDischargeDepth := 30) [*]

@[simp] theorem startCopy_outp (s : State) (t : Nat) :
    (startCopy s t).outp = s.outp ∧ (startCopy s t).safety.safe = s.safety.safe := by
  have k : ∀ u, spendTokens s (1, t) 1 = some u → u.outp = s.outp ∧ u.safety.safe = s.safety.safe := by
    intro u e; unfold spendTokens at e; simp only [] at e
    (repeat' split at e) <;> simp_all <;> (subst e; simp)
  unfold startCopy; split
  · exact ⟨rfl, rfl⟩
  · split
    · split
      · rename_i u e; exact k u e
      · simp
    · exact ⟨rfl, rfl⟩

@[simp] theorem startCopy_inv (s : State) (t : Nat) (hs : Inv s) : Inv (startCopy s t) := by
  have k := spendTokens_inv s (1, t) 1 hs
  unfold startCopy; split
  · exact hs
  · split
    · split
      · rename_i e; rw [e] at k; simp [show Inv _ from k]
      · simp [hs]
    · simp [hs]

@[simp] theorem startCopies_outp (s : State) :
    (startCopies s).outp = s.outp ∧ (startCopies s).safety.safe = s.safety.safe := by
  unfold startCopies
  exact foldl_outp _ (fun s x => startCopy_outp s x) _ _

@[simp] theorem startCopies_inv (s : State) (h : Inv s) : Inv (startCopies s) := by
  unfold startCopies
  exact foldl_inv _ (fun s x h => startCopy_inv s x h) _ _ h

@[simp] theorem startLatigo_inv (s : State) (a1 : Nat) (a2 : Nat) (h : Inv s) : Inv (startLatigo s a1 a2) := by
  unfold startLatigo; try simp only []
  (repeat' split) <;> simp_all (maxDischargeDepth := 30)

@[simp] theorem replayStart_inv (s : State) (h : Inv s) : Inv (replayStart s) := by
  unfold replayStart; try simp only []
  split <;> simp (maxDischargeDepth := 30) [*]

@[simp] theorem execLatigoComplete_inv (s : State) (h : Inv s) : InvR (execLatigoComplete s) := by
  unfold execLatigoComplete; simp (maxDischargeDepth := 30) [*]

@[simp] theorem putF_outp (s : State) (a1 : Solve) (a2 : Nat) (a3 : Num) :
    (putF s a1 a2 a3).outp = s.outp ∧ (putF s a1 a2 a3).safety.safe = s.safety.safe := by
  unfold putF; simp (maxDischargeDepth := 30) [*]

@[simp] theorem putF_inv (s : State) (a1 : Solve) (a2 : Nat) (a3 : Num) (h : Inv s) : Inv (putF s a1 a2 a3) := by
  unfold putF; simp (maxDischargeDepth := 30) [*]

@[simp] theorem accGroup_inv (s : State) (c : Solve) (g : Nat) (h : Inv s) : InvO (accGroup s c g) := by
  unfold accGroup; simp only []
  split
  · trivial
  · exact invO_some.2 (foldl_inv _ (fun s x h => by simp [h]) _ _ (foldl_inv _ (fun s x h => by split <;> simp [h]) _ _ h))

@[simp] theorem pointBack_inv (a0 : Solve) (a1 : SolveStep) (s : State) (h : Inv s) : Inv (pointBack a0 a1 s).1 := by
  unfold pointBack; try simp only []
  (repeat' split) <;> simp_all (maxDischargeDepth := 30)

theorem tryThen_inv {x : SolveTry} {f : State → SolveTry} (hx : Inv x.1) (hf : ∀ t, Inv t → Inv (f t).1) :
    Inv (tryThen x f).1 := by
  unfold tryThen; split
  · exact hf _ hx
  · exact hx

theorem tryAll_inv {α : Type} (f : State → α → SolveTry) (l : List α) (s : State) (h : Inv s)
    (hf : ∀ t a, Inv t → Inv (f t a).1) : Inv (tryAll f l s).1 :=
  foldl_inv2 _ (fun _ a h => tryThen_inv h fun t h => hf t a h) l (s, none) h

@[simp] theorem bwdStep_inv (c : Solve) (n : Panel) (s : State) (h : Inv s) : Inv (bwdStep c n s).1 := by
  unfold bwdStep
  refine tryAll_inv _ _ _ h ?_
  intro s x h; simp only []; split <;> simp [*]

@[simp] theorem diagStep_outp (a0 : Solve) (s : State) :
    (diagStep a0 s).outp = s.outp ∧ (diagStep a0 s).safety.safe = s.safety.safe := by
  unfold diagStep; simp (maxDischargeDepth := 30) [*]

@[simp] theorem diagStep_inv (a0 : Solve) (s : State) (h : Inv s) : Inv (diagStep a0 s) := by
  unfold diagStep; try simp only []
  (repeat' split) <;> simp_all (maxDischargeDepth := 30)

@[simp] theorem fwdStep_outp (a0 : Solve) (a1 : Panel) (s : State) :
    (fwdStep a0 a1 s).outp = s.outp ∧ (fwdStep a0 a1 s).safety.safe = s.safety.safe := by
  unfold fwdStep; simp (maxDischargeDepth := 30) [*]

@[simp] theorem fwdStep_inv (a0 : Solve) (a1 : Panel) (s : State) (h : Inv s) : Inv (fwdStep a0 a1 s) := by
  unfold fwdStep; try simp only []
  refine foldl_inv _ ?_ _ _ ?_; (intros; (repeat' split) <;> simp (maxDischargeDepth := 30) [*]); simp (maxDischargeDepth := 30) [*]

@[simp] theorem trialStep_outp (a0 : Solve) (s : State) :
    (trialStep a0 s).outp = s.outp ∧ (trialStep a0 s).safety.safe = s.safety.safe := by
  unfold trialStep; simp (maxDischargeDepth := 30) [*]

@[simp] theorem trialStep_inv (a0 : Solve) (s : State) (h : Inv s) : Inv (trialStep a0 s) := by
  unfold trialStep; try simp only []
  refine foldl_inv _ ?_ _ _ ?_; (intros; (repeat' split) <;> simp (maxDischargeDepth := 30) [*]); simp (maxDischargeDepth := 30) [*]

@[simp] theorem substStep_inv (a0 : Solve) (a1 : SolveStep) (s : State) (h : Inv s) : Inv (substStep a0 a1 s).1 := by
  unfold substStep; try simp only []
  (repeat' split) <;> simp (maxDischargeDepth := 30) [*]

@[simp] theorem subFrame_outp (a0 : Solve) (s : State) (a2 : Nat) (a3 : Nat) (a4 : List (Num × Num × Num)) :
    (subFrame a0 s a2 a3 a4).outp = s.outp ∧ (subFrame a0 s a2 a3 a4).safety.safe = s.safety.safe := by
  unfold subFrame; try simp only []
  split <;> simp (maxDischargeDepth := 30) [*]

@[simp] theorem subFrame_inv (a0 : Solve) (s : State) (a2 : Nat) (a3 : Nat) (a4 : List (Num × Num × Num))
    (h : Inv s) :
    Inv (subFrame a0 s a2 a3 a4) := by
  unfold subFrame; try simp only []
  split <;> simp (maxDischargeDepth := 30) [*]

@[simp] theorem snUpdate_inv (c : Solve) (src tgt : Panel) (s : State) (h : Inv s) : Inv (snUpdate c src tgt s) := by
  unfold snUpdate; simp only []
  refine foldl_inv _ ?_ _ _ h
  intro s x h; split
  · exact h
  · refine foldl_inv _ ?_ _ _ h
    intro s x h; split <;> simp [h]

@[simp] theorem ldlColumn_inv (c : Solve) (addr : Nat → Nat → Nat) (h col0 : Nat) (s : State) (j : Nat) (hs : Inv s) :
    Inv (ldlColumn c addr h col0 s j).1 := by
  unfold ldlColumn; simp only []
  split
  · exact hs
  · split
    · exact hs
    · split
      · exact hs
      · exact foldl_inv _ (fun s x h => by simp [h]) _ _ hs

@[simp] theorem ldl_inv (c : Solve) (addr : Nat → Nat → Nat) (w h col0 : Nat) (s : State) (hs : Inv s) :
    Inv (ldl c addr w h col0 s).1 := by
  unfold ldl
  exact tryAll_inv _ _ _ hs fun s x h1 => ldlColumn_inv _ _ _ _ _ _ h1

@[simp] theorem elimPoint_inv (c : Solve) (st : SolveStep) (s : State) (h : Inv s) : Inv (elimPoint c st s).1 := by
  unfold elimPoint
  refine tryThen_inv (ldl_inv _ _ _ _ _ _ h) ?_
  intro s h; simp only []
  split
  · exact h
  · exact foldl_inv _ (fun s x h => by simp [h]) _ _ (foldl_inv _ (fun s x h => foldl_inv _ (fun s x h => by simp [h]) _ _ h) _ _ h)

@[simp] theorem factorStep_inv (a0 : Solve) (a1 : SolveStep) (s : State) (h : Inv s) :
    Inv (factorStep a0 a1 s).1 := by
  unfold factorStep; try simp only []
  (repeat' split) <;> simp (maxDischargeDepth := 30) [*]

@[simp] theorem loadDamped_outp (s : State) (a1 : Solve) (a2 : Num) (a3 : Bool) :
    (loadDamped s a1 a2 a3).1.outp = s.outp ∧ (loadDamped s a1 a2 a3).1.safety.safe = s.safety.safe := by
  unfold loadDamped; simp (maxDischargeDepth := 30) [*]

@[simp] theorem loadDamped_inv (s : State) (a1 : Solve) (a2 : Num) (a3 : Bool) (h : Inv s) :
    Inv (loadDamped s a1 a2 a3).1 := by
  unfold loadDamped; try simp only []
  (repeat' split) <;> simp_all (maxDischargeDepth := 30)

@[simp] theorem zeroStep_outp (s : State) (a1 : Solve) :
    (zeroStep s a1).outp = s.outp ∧ (zeroStep s a1).safety.safe = s.safety.safe := by
  unfold zeroStep; simp (maxDischargeDepth := 30) [*]

@[simp] theorem zeroStep_inv (s : State) (a1 : Solve) (h : Inv s) : Inv (zeroStep s a1) := by
  unfold zeroStep; simp (maxDischargeDepth := 30) [*]

@[simp] theorem applyWrites_outp (s : State) (a1 : Nat) (a2 : List (Nat × Bytes)) :
    (applyWrites s a1 a2).outp = s.outp ∧ (applyWrites s a1 a2).safety.safe = s.safety.safe := by
  unfold applyWrites; simp (maxDischargeDepth := 30) [*]

@[simp] theorem applyWrites_inv (s : State) (a1 : Nat) (a2 : List (Nat × Bytes)) (h : Inv s) :
    Inv (applyWrites s a1 a2) := by
  unfold applyWrites; try simp only []
  refine foldl_inv _ ?_ _ _ ?_; (intros; (repeat' split) <;> simp (maxDischargeDepth := 30) [*]); simp (maxDischargeDepth := 30) [*]

@[simp] theorem takeSolveCut_outp (s : State) (a1 : Inst) (a2 : Solve) :
    (takeSolveCut s a1 a2).outp = s.outp ∧ (takeSolveCut s a1 a2).safety.safe = s.safety.safe := by
  unfold takeSolveCut; simp (maxDischargeDepth := 30) [*]

@[simp] theorem takeSolveCut_inv (s : State) (a1 : Inst) (a2 : Solve) (h : Inv s) : Inv (takeSolveCut s a1 a2) := by
  unfold takeSolveCut; simp (maxDischargeDepth := 30) [*]

@[simp] theorem concludeSolve_outp (s : State) (a1 : Inst) (a2 : Solve) (a3 : Nat) (a4 : Ctrl) (a5 : List
    (Nat × Bytes)) :
    (concludeSolve s a1 a2 a3 a4 a5).outp = s.outp ∧ (concludeSolve s a1 a2 a3 a4 a5).safety.safe = s.safety.safe := by
  unfold concludeSolve; try simp only []
  (repeat' split) <;> simp (maxDischargeDepth := 30) [*]

@[simp] theorem concludeSolve_inv (s : State) (a1 : Inst) (a2 : Solve) (a3 : Nat) (a4 : Ctrl) (a5 : List
    (Nat × Bytes)) (h : Inv s) :
    Inv (concludeSolve s a1 a2 a3 a4 a5) := by
  unfold concludeSolve; try simp only []
  (repeat' split) <;> simp (maxDischargeDepth := 30) [*]

@[simp] theorem endSolve_outp (s : State) (a1 : Inst) (a2 : Solve) (a3 : Nat) (a4 : Nat) (a5 : Nat) :
    (endSolve s a1 a2 a3 a4 a5).outp = s.outp ∧ (endSolve s a1 a2 a3 a4 a5).safety.safe = s.safety.safe := by
  unfold endSolve; simp (maxDischargeDepth := 30) [*]

@[simp] theorem endSolve_inv (s : State) (a1 : Inst) (a2 : Solve) (a3 : Nat) (a4 : Nat) (a5 : Nat) (h : Inv s) :
    Inv (endSolve s a1 a2 a3 a4 a5) := by
  unfold endSolve; simp (maxDischargeDepth := 30) [*]

@[simp] theorem freeFlags_outp (s : State) (a1 : Inst) :
    (freeFlags s a1).outp = s.outp ∧ (freeFlags s a1).safety.safe = s.safety.safe := by
  unfold freeFlags; simp (maxDischargeDepth := 30) [*]

@[simp] theorem freeFlags_inv (s : State) (a1 : Inst) (h : Inv s) : Inv (freeFlags s a1) := by
  unfold freeFlags; simp (maxDischargeDepth := 30) [*]

@[simp] theorem runSubst_inv (s : State) (i : Inst) (c : Solve) (d : Bytes) (idx : Nat) (h : Inv s) :
    InvE (runSubst s i c d idx) := by
  have k := tryAll_inv (fun t st => substStep c st t) (stepsOf c 2 d) s h fun t a h => substStep_inv _ _ _ h
  unfold runSubst; simp only []; split <;> simp [k]

@[simp] theorem cutSolve_outp (s : State) (a1 : Inst) :
    (cutSolve s a1).outp = s.outp ∧ (cutSolve s a1).safety.safe = s.safety.safe := by
  unfold cutSolve; try simp only []
  split <;> simp (maxDischargeDepth := 30) [*]

@[simp] theorem cutSolve_inv (s : State) (a1 : Inst) (h : Inv s) : Inv (cutSolve s a1) := by
  unfold cutSolve; try simp only []
  split <;> simp (maxDischargeDepth := 30) [*]

@[simp] theorem assembleSteps_inv (s : State) (c : Solve) (l : List SolveStep) (h : Inv s) :
    InvO (assembleSteps s c l) := by
  induction l generalizing s with
  | nil => exact h
  | cons x l ih =>
    unfold assembleSteps; split
    · exact ih _ (by simp [h])
    · have k := foldlM_invO (fun u k => accGroup u c (x.a + k)) (fun s y h1 => accGroup_inv _ _ _ h1) (List.range x.b) s h
      split
      · rename_i e; rw [e] at k; exact ih _ k
      · trivial

@[simp] theorem runAssemble_inv (s : State) (i : Inst) (c : Solve) (d : Bytes) (h : Inv s) :
    InvE (runAssemble s i c d) := by
  have k := assembleSteps_inv s c (stepsOf c 0 d) h
  unfold runAssemble; split
  · trivial
  · rename_i e; rw [e] at k; simp [show Inv _ from k]

@[simp] theorem refuseReport_outp (s : State) (a1 : Inst) (a2 : Solve) :
    (refuseReport s a1 a2).outp = s.outp ∧ (refuseReport s a1 a2).safety.safe = s.safety.safe := by
  unfold refuseReport; simp (maxDischargeDepth := 30) [*]

@[simp] theorem refuseReport_inv (s : State) (a1 : Inst) (a2 : Solve) (h : Inv s) : Inv (refuseReport s a1 a2) := by
  unfold refuseReport; simp (maxDischargeDepth := 30) [*]

@[simp] theorem factorOne_inv (a0 : Solve) (a1 : Num) (a2 : SolveStep) (a3 : SolveWork) (s : State) (h : Inv s) :
    Inv (factorOne a0 a1 a2 a3 s).2.1 := by
  unfold factorOne; try simp only []
  split <;> simp (maxDischargeDepth := 30) [*]

@[simp] theorem factorSteps_inv (c : Solve) (mu : Num) (l : List SolveStep) (w : SolveWork) (s : State) (h : Inv s) :
    Inv (factorSteps c mu l w s).2.1 := by
  induction l generalizing s w with
  | nil => exact h
  | cons x l ih =>
    have k := factorOne_inv c mu x w s h
    unfold factorSteps; simp only []; split
    · exact ih _ _ k
    · exact k

@[simp] theorem finishFactor_inv (i : Inst) (c : Solve) (idx : Nat) (r : SolveWork × SolveTry) (h : Inv r.2.1) :
    Inv (finishFactor i c idx r) := by
  unfold finishFactor; simp only []; split <;> simp [h]

@[simp] theorem refactor_inv (a0 : Solve) (a1 : Num) (a2 : Bytes) (a3 : Nat) (a4 : SolveWork) (s : State)
    (h : Inv s) :
    Inv (refactor a0 a1 a2 a3 a4 s).2.1 := by
  unfold refactor; simp (maxDischargeDepth := 30) [*]

@[simp] theorem runFactor_inv (s : State) (i : Inst) (c : Solve) (d : Bytes) (idx : Nat) (h : Inv s) :
    InvE (runFactor s i c d idx) := by
  unfold runFactor; simp only []
  split
  · refine invE_ok.2 (finishFactor_inv _ _ _ _ ?_); split <;> simp [h]
  · exact invE_ok.2 (finishFactor_inv _ _ _ _ (factorSteps_inv _ _ _ _ _ h))

@[simp] theorem runUpdate_inv (s : State) (a1 : Inst) (a2 : Solve) (a3 : Nat) (h : Inv s) :
    InvE (runUpdate s a1 a2 a3) := by
  unfold runUpdate; simp (maxDischargeDepth := 30) [*]

@[simp] theorem solveWorks_inv (s : State) (a1 : Inst) (a2 : Solve) (a3 : Nat) (a4 : Bytes) (a5 : Nat) (h : Inv s) :
    InvE (solveWorks s a1 a2 a3 a4 a5) := by
  unfold solveWorks; simp (maxDischargeDepth := 30) [*]

@[simp] theorem solveDesc_inv (a0 : Nat) (s : State) (a2 : Inst) (a3 : Bytes) (a4 : Nat) (h : Inv s) :
    InvE (solveDesc a0 s a2 a3 a4) := by
  unfold solveDesc; simp (maxDischargeDepth := 30) [*]

@[simp] theorem execSolveAssemble_inv (a0 : Nat) (a1 : Nat) (s : State) (h : Inv s) :
    InvR (execSolveAssemble a0 a1 s) := by
  unfold execSolveAssemble
  try split
  all_goals first
  | (simp (maxDischargeDepth := 30) [*]; done)
  | (refine issueDesc_inv _ _ _ _ _ h ?_
     intro s i d k h
     simp only [solveRun]
     first
     | (simp (maxDischargeDepth := 30) [*]; done)
     | ((repeat' split) <;> simp (maxDischargeDepth := 30) [*]; done))

@[simp] theorem recordReport_outp (s : State) (a1 : Inst) (a2 : SolveWork) (a3 : Nat × Nat) :
    (recordReport s a1 a2 a3).outp = s.outp ∧ (recordReport s a1 a2 a3).safety.safe = s.safety.safe := by
  unfold recordReport; simp (maxDischargeDepth := 30) [*]

@[simp] theorem recordReport_inv (s : State) (a1 : Inst) (a2 : SolveWork) (a3 : Nat × Nat) (h : Inv s) :
    Inv (recordReport s a1 a2 a3) := by
  unfold recordReport; simp (maxDischargeDepth := 30) [*]

@[simp] theorem acceptReport_outp (s : State) (a1 : Inst) (a2 : Solve) (a3 : SolveRun) :
    (acceptReport s a1 a2 a3).outp = s.outp ∧ (acceptReport s a1 a2 a3).safety.safe = s.safety.safe := by
  unfold acceptReport; simp (maxDischargeDepth := 30) [*]

@[simp] theorem acceptReport_inv (s : State) (a1 : Inst) (a2 : Solve) (a3 : SolveRun) (h : Inv s) :
    Inv (acceptReport s a1 a2 a3) := by
  unfold acceptReport; simp (maxDischargeDepth := 30) [*]

@[simp] theorem answerSolve_outp (s : State) (a1 : Inst) (a2 : Solve) (a3 : SolveRun) :
    (answerSolve s a1 a2 a3).outp = s.outp ∧ (answerSolve s a1 a2 a3).safety.safe = s.safety.safe := by
  unfold answerSolve; try simp only []
  (repeat' split) <;> simp (maxDischargeDepth := 30) [*]

@[simp] theorem answerSolve_inv (s : State) (a1 : Inst) (a2 : Solve) (a3 : SolveRun) (h : Inv s) :
    Inv (answerSolve s a1 a2 a3) := by
  unfold answerSolve; try simp only []
  (repeat' split) <;> simp (maxDischargeDepth := 30) [*]

@[simp] theorem execSolveReport_inv (a0 : Nat) (a1 : Nat) (s : State) (h : Inv s) :
    InvR (execSolveReport a0 a1 s) := by
  unfold execSolveReport; try simp only []
  (repeat' split) <;> simp (maxDischargeDepth := 30) [*]

@[simp] theorem execSolveSubst_inv (a0 : Nat) (a1 : Nat) (s : State) (h : Inv s) : InvR (execSolveSubst a0 a1 s) := by
  unfold execSolveSubst
  try split
  all_goals first
  | (simp (maxDischargeDepth := 30) [*]; done)
  | (refine issueDesc_inv _ _ _ _ _ h ?_
     intro s i d k h
     simp only [solveRun]
     first
     | (simp (maxDischargeDepth := 30) [*]; done)
     | ((repeat' split) <;> simp (maxDischargeDepth := 30) [*]; done))

@[simp] theorem execSolveUpdate_inv (a0 : Nat) (a1 : Nat) (s : State) (h : Inv s) :
    InvR (execSolveUpdate a0 a1 s) := by
  unfold execSolveUpdate
  try split
  all_goals first
  | (simp (maxDischargeDepth := 30) [*]; done)
  | (refine issueDesc_inv _ _ _ _ _ h ?_
     intro s i d k h
     simp only [solveRun]
     first
     | (simp (maxDischargeDepth := 30) [*]; done)
     | ((repeat' split) <;> simp (maxDischargeDepth := 30) [*]; done))

@[simp] theorem execSolveFactor_inv (a0 : Nat) (a1 : Nat) (s : State) (h : Inv s) :
    InvR (execSolveFactor a0 a1 s) := by
  unfold execSolveFactor
  try split
  all_goals first
  | (simp (maxDischargeDepth := 30) [*]; done)
  | (refine issueDesc_inv _ _ _ _ _ h ?_
     intro s i d k h
     simp only [solveRun]
     first
     | (simp (maxDischargeDepth := 30) [*]; done)
     | ((repeat' split) <;> simp (maxDischargeDepth := 30) [*]; done))

@[simp] theorem stopBecomesEffective_inv (s : State) (h : Inv s) : Inv (stopBecomesEffective s) := by
  unfold stopBecomesEffective; simp (maxDischargeDepth := 30) [*]

@[simp] theorem stopEnWrite_inv (s : State) (a1 : Word) (h : Inv s) : InvE (stopEnWrite s a1) := by
  unfold stopEnWrite; simp (maxDischargeDepth := 30) [*]

@[simp] theorem execStopEnWrite_inv (a0 : Word) (s : State) (h : Inv s) : InvR (execStopEnWrite a0 s) := by
  unfold execStopEnWrite; simp (maxDischargeDepth := 30) [*]

@[simp] theorem execFpToggle_inv (s : State) (h : Inv s) : InvR (execFpToggle s) := by
  unfold execFpToggle
  by_cases ht : s.outp.toggling = true
  · exact onlyIf_inv h (by simp [h, h.flipped ht])
  · simp only [Bool.not_eq_true] at ht
    rw [ht]; unfold onlyIf; simp [h]

@[simp] theorem execFpReadback_inv (a0 : Nat) (s : State) (h : Inv s) : InvR (execFpReadback a0 s) := by
  unfold execFpReadback; simp (maxDischargeDepth := 30) [*]

@[simp] theorem execStopInputActive_inv (s : State) (h : Inv s) : InvR (execStopInputActive s) := by
  unfold execStopInputActive; simp (maxDischargeDepth := 30) [*]

@[simp] theorem execStopInputInactive_inv (s : State) (h : Inv s) : InvR (execStopInputInactive s) := by
  unfold execStopInputInactive; simp (maxDischargeDepth := 30) [*]

@[simp] theorem deadlineRecord_inv (s : State) (h : Inv s) : Inv (deadlineRecord s) := by
  unfold deadlineRecord; simp (maxDischargeDepth := 30) [*]

@[simp] theorem stopLatigo_outp (s : State) :
    (stopLatigo s).outp = s.outp ∧ (stopLatigo s).safety.safe = s.safety.safe := by
  unfold stopLatigo; simp (maxDischargeDepth := 30) [*]

@[simp] theorem stopLatigo_inv (s : State) (h : Inv s) : Inv (stopLatigo s) := by
  unfold stopLatigo; simp (maxDischargeDepth := 30) [*]

@[simp] theorem settleDeadline_inv (s : State) (h : Inv s) : Inv (settleDeadline s) := by
  unfold settleDeadline; simp (maxDischargeDepth := 30) [*]

@[simp] theorem settleIfDue_inv (s : State) (h : Inv s) : Inv (settleIfDue s) := by
  unfold settleIfDue; simp (maxDischargeDepth := 30) [*]

@[simp] theorem discardOutputs_outp (s : State) (a1 : List Inst) :
    (discardOutputs s a1).outp = s.outp ∧ (discardOutputs s a1).safety.safe = s.safety.safe := by
  unfold discardOutputs; simp (maxDischargeDepth := 30) [*]

@[simp] theorem discardOutputs_inv (s : State) (a1 : List Inst) (h : Inv s) : Inv (discardOutputs s a1) := by
  unfold discardOutputs; simp (maxDischargeDepth := 30) [*]

@[simp] theorem cutInstance_inv (s : State) (a1 : Inst) (h : Inv s) : Inv (cutInstance s a1) := by
  unfold cutInstance; try simp only []
  (repeat' split) <;> simp (maxDischargeDepth := 30) [*]

@[simp] theorem leaveBatches_outp (s : State) (a1 : Nat) (a2 : Nat) (a3 : List Nat) :
    (leaveBatches s a1 a2 a3).outp = s.outp ∧ (leaveBatches s a1 a2 a3).safety.safe = s.safety.safe := by
  unfold leaveBatches; simp (maxDischargeDepth := 30) [*]

@[simp] theorem leaveBatches_inv (s : State) (a1 : Nat) (a2 : Nat) (a3 : List Nat) (h : Inv s) :
    Inv (leaveBatches s a1 a2 a3) := by
  unfold leaveBatches; simp (maxDischargeDepth := 30) [*]

@[simp] theorem leaveCopy_outp (s : State) (a1 : Task) (a2 : Nat) (a3 : List Nat) :
    (leaveCopy s a1 a2 a3).outp = s.outp ∧ (leaveCopy s a1 a2 a3).safety.safe = s.safety.safe := by
  unfold leaveCopy; simp (maxDischargeDepth := 30) [*]

@[simp] theorem leaveCopy_inv (s : State) (a1 : Task) (a2 : Nat) (a3 : List Nat) (h : Inv s) :
    Inv (leaveCopy s a1 a2 a3) := by
  unfold leaveCopy; simp (maxDischargeDepth := 30) [*]

@[simp] theorem cutEntry_outp (s : State) (a1 : Ready) :
    (cutEntry s a1).outp = s.outp ∧ (cutEntry s a1).safety.safe = s.safety.safe := by
  unfold cutEntry; simp (maxDischargeDepth := 30) [*]

@[simp] theorem cutEntry_inv (s : State) (a1 : Ready) (h : Inv s) : Inv (cutEntry s a1) := by
  unfold cutEntry; simp (maxDischargeDepth := 30) [*]

@[simp] theorem cutLists_outp (s : State) :
    (cutLists s).outp = s.outp ∧ (cutLists s).safety.safe = s.safety.safe := by
  unfold cutLists; simp (maxDischargeDepth := 30) [*]

@[simp] theorem cutLists_inv (s : State) (h : Inv s) : Inv (cutLists s) := by
  unfold cutLists; try simp only []
  (repeat' split) <;> simp_all (maxDischargeDepth := 30)

@[simp] theorem leaveTask_outp (s : State) (a1 : Task) :
    (leaveTask s a1).outp = s.outp ∧ (leaveTask s a1).safety.safe = s.safety.safe := by
  unfold leaveTask; simp (maxDischargeDepth := 30) [*]

@[simp] theorem leaveTask_inv (s : State) (a1 : Task) (h : Inv s) : Inv (leaveTask s a1) := by
  unfold leaveTask; simp (maxDischargeDepth := 30) [*]

@[simp] theorem cutPhases_outp (s : State) :
    (cutPhases s).outp = s.outp ∧ (cutPhases s).safety.safe = s.safety.safe := by
  unfold cutPhases; simp (maxDischargeDepth := 30) [*]

@[simp] theorem cutPhases_inv (s : State) (h : Inv s) : Inv (cutPhases s) := by
  unfold cutPhases; try simp only []
  (repeat' split) <;> simp_all (maxDischargeDepth := 30)

@[simp] theorem cutNow_inv (s : State) (h : Inv s) : Inv (cutNow s) := by
  unfold cutNow; try simp only []
  (repeat' split) <;> simp_all (maxDischargeDepth := 30)

@[simp] theorem execCut_inv (s : State) (h : Inv s) : InvR (execCut s) := by
  unfold execCut; simp (maxDischargeDepth := 30) [*]

@[simp] theorem abortAll_outp (s : State) :
    (abortAll s).outp = s.outp ∧ (abortAll s).safety.safe = s.safety.safe := by
  unfold abortAll; simp (maxDischargeDepth := 30) [*]

@[simp] theorem abortAll_inv (s : State) (h : Inv s) : Inv (abortAll s) := by
  unfold abortAll; try simp only []
  (repeat' split) <;> simp_all (maxDischargeDepth := 30)

@[simp] theorem clearLists_outp (s : State) :
    (clearLists s).outp = s.outp ∧ (clearLists s).safety.safe = s.safety.safe := by
  unfold clearLists; simp (maxDischargeDepth := 30) [*]

@[simp] theorem clearLists_inv (s : State) (h : Inv s) : Inv (clearLists s) := by
  unfold clearLists; try simp only []
  (repeat' split) <;> simp_all (maxDischargeDepth := 30)

@[simp] theorem lapseItem_outp (s : State) :
    (lapseItem s).outp = s.outp ∧ (lapseItem s).safety.safe = s.safety.safe := by
  unfold lapseItem; try simp only []
  split <;> simp (maxDischargeDepth := 30) [*]

@[simp] theorem lapseItem_inv (s : State) (h : Inv s) : Inv (lapseItem s) := by
  unfold lapseItem; try simp only []
  split <;> simp (maxDischargeDepth := 30) [*]

@[simp] theorem deadlineNow_inv (s : State) (h : Inv s) : Inv (deadlineNow s) := by
  unfold deadlineNow; simp (maxDischargeDepth := 30) [*]

@[simp] theorem execDeadline_inv (s : State) (h : Inv s) : InvR (execDeadline s) := by
  unfold execDeadline; simp (maxDischargeDepth := 30) [*]

@[simp] theorem beginCycle_outp (s : State) (a1 : Nat) :
    (beginCycle s a1).outp = s.outp ∧ (beginCycle s a1).safety.safe = s.safety.safe := by
  unfold beginCycle; try simp only []
  split <;> simp (maxDischargeDepth := 30) [*]

@[simp] theorem beginCycle_inv (s : State) (a1 : Nat) (h : Inv s) : Inv (beginCycle s a1) := by
  unfold beginCycle; try simp only []
  split <;> simp (maxDischargeDepth := 30) [*]

@[simp] theorem startCycle_outp (s : State) (a1 : Nat) :
    (startCycle s a1).outp = s.outp ∧ (startCycle s a1).safety.safe = s.safety.safe := by
  unfold startCycle; simp (maxDischargeDepth := 30) [*]

@[simp] theorem startCycle_inv (s : State) (a1 : Nat) (h : Inv s) : Inv (startCycle s a1) := by
  unfold startCycle; simp (maxDischargeDepth := 30) [*]

@[simp] theorem execSyncTimeout_inv (s : State) (h : Inv s) : InvR (execSyncTimeout s) := by
  unfold execSyncTimeout; simp (maxDischargeDepth := 30) [*]

@[simp] theorem acceptEdge_inv (s : State) (h : Inv s) : Inv (acceptEdge s) := by
  unfold acceptEdge; simp only []; split <;> simp [h]

@[simp] theorem execCycleStart_inv (s : State) (h : Inv s) : InvR (execCycleStart s) := by
  unfold execCycleStart; try simp only []
  split <;> simp (maxDischargeDepth := 30) [*]

@[simp] theorem loseSync_inv (s : State) (h : Inv s) : Inv (loseSync s) := by
  unfold loseSync; simp (maxDischargeDepth := 30) [*]

@[simp] theorem ignoreEdge_inv (s : State) (h : Inv s) : Inv (ignoreEdge s) := by
  unfold ignoreEdge; simp (maxDischargeDepth := 30) [*]

@[simp] theorem execFpSyncEdge_inv (s : State) (h : Inv s) : InvR (execFpSyncEdge s) := by
  unfold execFpSyncEdge; simp (maxDischargeDepth := 30) [*]

@[simp] theorem execSyncLostClear_inv (s : State) (h : Inv s) : InvR (execSyncLostClear s) := by
  unfold execSyncLostClear; simp (maxDischargeDepth := 30) [*]

@[simp] theorem enterRun_outp (s : State) (a1 : DevState) :
    (enterRun s a1).outp = s.outp ∧ (enterRun s a1).safety.safe = s.safety.safe := by
  unfold enterRun; simp (maxDischargeDepth := 30) [*]

@[simp] theorem enterRun_inv (s : State) (a1 : DevState) (h : Inv s) : Inv (enterRun s a1) := by
  unfold enterRun; simp (maxDischargeDepth := 30) [*]

@[simp] theorem holdAllHost_outp (s : State) :
    (holdAllHost s).outp = s.outp ∧ (holdAllHost s).safety.safe = s.safety.safe := by
  unfold holdAllHost; simp (maxDischargeDepth := 30) [*]

@[simp] theorem holdAllHost_inv (s : State) (h : Inv s) : Inv (holdAllHost s) := by
  unfold holdAllHost; simp (maxDischargeDepth := 30) [*]

@[simp] theorem startRun_outp (s : State) (a1 : Msg) (a2 : Bool) :
    (startRun s a1 a2).outp = s.outp ∧ (startRun s a1 a2).safety.safe = s.safety.safe := by
  unfold startRun; simp (maxDischargeDepth := 30) [*]

@[simp] theorem startRun_inv (s : State) (a1 : Msg) (a2 : Bool) (h : Inv s) : Inv (startRun s a1 a2) := by
  unfold startRun; simp (maxDischargeDepth := 30) [*]

@[simp] theorem startStatus_outp (s : State) :
    (startStatus s).1.outp = s.outp ∧ (startStatus s).1.safety.safe = s.safety.safe := by
  unfold startStatus; try simp only []
  (repeat' split) <;> simp (maxDischargeDepth := 30) [*]

@[simp] theorem startStatus_inv (s : State) (h : Inv s) : Inv (startStatus s).1 := by
  unfold startStatus; try simp only []
  (repeat' split) <;> simp (maxDischargeDepth := 30) [*]

@[simp] theorem startCommand_outp (s : State) (a1 : Msg) :
    (startCommand s a1).outp = s.outp ∧ (startCommand s a1).safety.safe = s.safety.safe := by
  unfold startCommand; simp (maxDischargeDepth := 30) [*]

@[simp] theorem startCommand_inv (s : State) (a1 : Msg) (h : Inv s) : Inv (startCommand s a1) := by
  unfold startCommand; simp (maxDischargeDepth := 30) [*]

@[simp] theorem resumeCommand_outp (s : State) (a1 : Msg) :
    (resumeCommand s a1).outp = s.outp ∧ (resumeCommand s a1).safety.safe = s.safety.safe := by
  unfold resumeCommand; simp (maxDischargeDepth := 30) [*]

@[simp] theorem resumeCommand_inv (s : State) (a1 : Msg) (h : Inv s) : Inv (resumeCommand s a1) := by
  unfold resumeCommand; simp (maxDischargeDepth := 30) [*]

@[simp] theorem execResume_inv (s : State) (h : Inv s) : InvR (execResume s) := by
  unfold execResume; try simp only []
  (repeat' split) <;> simp_all (maxDischargeDepth := 30)

@[simp] theorem keepPackage_outp (s : State) (a1 : Replay) (a2 : Msg) (a3 : Nat) (a4 : Bytes) :
    (keepPackage s a1 a2 a3 a4).outp = s.outp ∧ (keepPackage s a1 a2 a3 a4).safety.safe = s.safety.safe := by
  unfold keepPackage; try simp only []
  split <;> simp (maxDischargeDepth := 30) [*]

@[simp] theorem keepPackage_inv (s : State) (a1 : Replay) (a2 : Msg) (a3 : Nat) (a4 : Bytes) (h : Inv s) :
    Inv (keepPackage s a1 a2 a3 a4) := by
  unfold keepPackage; try simp only []
  split <;> simp (maxDischargeDepth := 30) [*]

@[simp] theorem pauseCommand_outp (s : State) (a1 : Msg) :
    (pauseCommand s a1).outp = s.outp ∧ (pauseCommand s a1).safety.safe = s.safety.safe := by
  unfold pauseCommand; simp (maxDischargeDepth := 30) [*]

@[simp] theorem pauseCommand_inv (s : State) (a1 : Msg) (h : Inv s) : Inv (pauseCommand s a1) := by
  unfold pauseCommand; simp (maxDischargeDepth := 30) [*]

@[simp] theorem execCkptPut_inv (s : State) (h : Inv s) : InvR (execCkptPut s) := by
  unfold execCkptPut; try simp only []
  (repeat' split) <;> simp_all (maxDischargeDepth := 30)

@[simp] theorem saveCommand_outp (s : State) (a1 : Msg) :
    (saveCommand s a1).outp = s.outp ∧ (saveCommand s a1).safety.safe = s.safety.safe := by
  unfold saveCommand; simp (maxDischargeDepth := 30) [*]

@[simp] theorem saveCommand_inv (s : State) (a1 : Msg) (h : Inv s) : Inv (saveCommand s a1) := by
  unfold saveCommand; simp (maxDischargeDepth := 30) [*]

@[simp] theorem replayPiece_inv (s : State) (a1 : Replay) (a2 : Msg) (h : Inv s) : InvR (replayPiece s a1 a2) := by
  unfold replayPiece; try simp only []
  (repeat' split) <;> simp_all (maxDischargeDepth := 30)

@[simp] theorem execSave_inv (s : State) (h : Inv s) : InvR (execSave s) := by
  unfold execSave; try simp only []
  (repeat' split) <;> simp_all (maxDischargeDepth := 30)

@[simp] theorem emptyQueues_outp (s : State) :
    (emptyQueues s).outp = s.outp ∧ (emptyQueues s).safety.safe = s.safety.safe := by
  unfold emptyQueues; simp (maxDischargeDepth := 30) [*]

@[simp] theorem emptyQueues_inv (s : State) (h : Inv s) : Inv (emptyQueues s) := by
  unfold emptyQueues; simp (maxDischargeDepth := 30) [*]

@[simp] theorem replayCommand_inv (s : State) (a1 : Msg) (h : Inv s) : Inv (replayCommand s a1) := by
  unfold replayCommand; simp (maxDischargeDepth := 30) [*]

@[simp] theorem resumeCkptCommand_inv (s : State) (a1 : Msg) (h : Inv s) : Inv (resumeCkptCommand s a1) := by
  unfold resumeCkptCommand; simp (maxDischargeDepth := 30) [*]

@[simp] theorem execStart_inv (s : State) (h : Inv s) : InvR (execStart s) := by
  unfold execStart; try simp only []
  (repeat' split) <;> simp_all (maxDischargeDepth := 30)

@[simp] theorem execResumeCheckpoint_inv (s : State) (h : Inv s) : InvR (execResumeCheckpoint s) := by
  unfold execResumeCheckpoint; try simp only []
  (repeat' split) <;> simp_all (maxDischargeDepth := 30)

@[simp] theorem execPause_inv (s : State) (h : Inv s) : InvR (execPause s) := by
  unfold execPause; try simp only []
  (repeat' split) <;> simp_all (maxDischargeDepth := 30)

@[simp] theorem execReplay_inv (s : State) (h : Inv s) : InvR (execReplay s) := by
  unfold execReplay; try simp only []
  (repeat' split) <;> simp_all (maxDischargeDepth := 30)

@[simp] theorem execReplayData_inv (s : State) (h : Inv s) : InvR (execReplayData s) := by
  unfold execReplayData
  refine withFront_inv _ _ _ _ h fun m t h => ?_
  (repeat' split) <;> simp [*]

@[simp] theorem clearIfDue_inv (s : State) (h : Inv s) : Inv (clearIfDue s) := by
  unfold clearIfDue; simp (maxDischargeDepth := 30) [*]

@[simp] theorem clearStitch_outp (s : State) :
    (clearStitch s).outp = s.outp ∧ (clearStitch s).safety.safe = s.safety.safe := by
  unfold clearStitch; simp (maxDischargeDepth := 30) [*]

@[simp] theorem clearStitch_inv (s : State) (h : Inv s) : Inv (clearStitch s) := by
  unfold clearStitch; simp (maxDischargeDepth := 30) [*]

@[simp] theorem retainBanks_outp (s : State) :
    (retainBanks s).outp = s.outp ∧ (retainBanks s).safety.safe = s.safety.safe := by
  unfold retainBanks; simp (maxDischargeDepth := 30) [*]

@[simp] theorem retainBanks_inv (s : State) (h : Inv s) : Inv (retainBanks s) := by
  unfold retainBanks; simp (maxDischargeDepth := 30) [*]

@[simp] theorem clearTokens_outp (s : State) :
    (clearTokens s).outp = s.outp ∧ (clearTokens s).safety.safe = s.safety.safe := by
  unfold clearTokens; simp (maxDischargeDepth := 30) [*]

@[simp] theorem clearTokens_inv (s : State) (h : Inv s) : Inv (clearTokens s) := by
  unfold clearTokens; simp (maxDischargeDepth := 30) [*]

@[simp] theorem endHolds_outp (s : State) :
    (endHolds s).outp = s.outp ∧ (endHolds s).safety.safe = s.safety.safe := by
  unfold endHolds; simp (maxDischargeDepth := 30) [*]

@[simp] theorem endHolds_inv (s : State) (h : Inv s) : Inv (endHolds s) := by
  unfold endHolds; simp (maxDischargeDepth := 30) [*]

@[simp] theorem keepFacts_outp (s : State) (a1 : Released) :
    (keepFacts s a1).outp = s.outp ∧ (keepFacts s a1).safety.safe = s.safety.safe := by
  unfold keepFacts; simp (maxDischargeDepth := 30) [*]

@[simp] theorem keepFacts_inv (s : State) (a1 : Released) (h : Inv s) : Inv (keepFacts s a1) := by
  unfold keepFacts; simp (maxDischargeDepth := 30) [*]

@[simp] theorem keepIncumbent_outp (s : State) (a1 : Released) :
    (keepIncumbent s a1).outp = s.outp ∧ (keepIncumbent s a1).safety.safe = s.safety.safe := by
  unfold keepIncumbent; simp (maxDischargeDepth := 30) [*]

@[simp] theorem keepIncumbent_inv (s : State) (a1 : Released) (h : Inv s) : Inv (keepIncumbent s a1) := by
  unfold keepIncumbent; simp (maxDischargeDepth := 30) [*]

@[simp] theorem settingsInForce_outp (s : State) :
    (settingsInForce s).outp = s.outp ∧ (settingsInForce s).safety.safe = s.safety.safe := by
  unfold settingsInForce; simp (maxDischargeDepth := 30) [*]

@[simp] theorem settingsInForce_inv (s : State) (h : Inv s) : Inv (settingsInForce s) := by
  unfold settingsInForce; simp (maxDischargeDepth := 30) [*]

@[simp] theorem shiftCounts_outp (s : State) :
    (shiftCounts s).outp = s.outp ∧ (shiftCounts s).safety.safe = s.safety.safe := by
  unfold shiftCounts; simp (maxDischargeDepth := 30) [*]

@[simp] theorem shiftCounts_inv (s : State) (h : Inv s) : Inv (shiftCounts s) := by
  unfold shiftCounts; simp (maxDischargeDepth := 30) [*]

@[simp] theorem loseTile_inv (s : State) (a1 : Nat) (h : Inv s) : Inv (loseTile s a1) := by
  unfold loseTile; simp (maxDischargeDepth := 30) [*]

@[simp] theorem substTile_inv (s : State) (a1 : Nat) (h : Inv s) : Inv (substTile s a1) := by
  unfold substTile; simp (maxDischargeDepth := 30) [*]

@[simp] theorem substitute_inv (s : State) (h : Inv s) : Inv (substitute s) := by
  unfold substitute; try simp only []
  refine foldl_inv _ ?_ _ _ ?_; (intros; (repeat' split) <;> simp (maxDischargeDepth := 30) [*]); simp (maxDischargeDepth := 30) [*]

@[simp] theorem endCycle_inv (s : State) (a1 : Released) (h : Inv s) : Inv (endCycle s a1) := by
  unfold endCycle; simp (maxDischargeDepth := 30) [*]

@[simp] theorem answerMsg_outp (s : State) (a1 : Option Msg) (a2 : Nat) :
    (answerMsg s a1 a2).outp = s.outp ∧ (answerMsg s a1 a2).safety.safe = s.safety.safe := by
  unfold answerMsg; try simp only []
  split <;> simp (maxDischargeDepth := 30) [*]

@[simp] theorem answerMsg_inv (s : State) (a1 : Option Msg) (a2 : Nat) (h : Inv s) : Inv (answerMsg s a1 a2) := by
  unfold answerMsg; try simp only []
  split <;> simp (maxDischargeDepth := 30) [*]

@[simp] theorem endReplay_inv (s : State) (h : Inv s) : Inv (endReplay s) := by
  unfold endReplay; simp (maxDischargeDepth := 30) [*]

@[simp] theorem stopReplay_inv (s : State) (a1 : Msg) (h : Inv s) : Inv (stopReplay s a1) := by
  unfold stopReplay; simp (maxDischargeDepth := 30) [*]

@[simp] theorem stopCommand_inv (s : State) (a1 : Msg) (h : Inv s) : Inv (stopCommand s a1) := by
  unfold stopCommand; try simp only []
  split <;> simp (maxDischargeDepth := 30) [*]

@[simp] theorem execStop_inv (s : State) (h : Inv s) : InvR (execStop s) := by
  unfold execStop; try simp only []
  (repeat' split) <;> simp_all (maxDischargeDepth := 30)

@[simp] theorem startEarly_outp (s : State) :
    (startEarly s).outp = s.outp ∧ (startEarly s).safety.safe = s.safety.safe := by
  unfold startEarly; try simp only []
  split <;> simp (maxDischargeDepth := 30) [*]

@[simp] theorem startEarly_inv (s : State) (h : Inv s) : Inv (startEarly s) := by
  unfold startEarly; try simp only []
  split <;> simp (maxDischargeDepth := 30) [*]

@[simp] theorem placeBatches_outp (s : State) (a1 : ReplayPkg) :
    (placeBatches s a1).outp = s.outp ∧ (placeBatches s a1).safety.safe = s.safety.safe := by
  unfold placeBatches; simp (maxDischargeDepth := 30) [*]

@[simp] theorem placeBatches_inv (s : State) (a1 : ReplayPkg) (h : Inv s) : Inv (placeBatches s a1) := by
  unfold placeBatches; simp (maxDischargeDepth := 30) [*]

@[simp] theorem placeFrame_outp (a0 : Nat) (s : State) (a2 : Bytes) :
    (placeFrame a0 s a2).outp = s.outp ∧ (placeFrame a0 s a2).safety.safe = s.safety.safe := by
  unfold placeFrame; simp (maxDischargeDepth := 30) [*]

@[simp] theorem placeFrame_inv (a0 : Nat) (s : State) (a2 : Bytes) (h : Inv s) : Inv (placeFrame a0 s a2) := by
  unfold placeFrame; simp (maxDischargeDepth := 30) [*]

@[simp] theorem placeFrames_outp (s : State) (a1 : ReplayPkg) :
    (placeFrames s a1).outp = s.outp ∧ (placeFrames s a1).safety.safe = s.safety.safe := by
  unfold placeFrames; simp (maxDischargeDepth := 30) [*]

@[simp] theorem placeFrames_inv (s : State) (a1 : ReplayPkg) (h : Inv s) : Inv (placeFrames s a1) := by
  unfold placeFrames; try simp only []
  (repeat' split) <;> simp_all (maxDischargeDepth := 30)

@[simp] theorem startReplayed_outp (s : State) (a1 : ReplayPkg) :
    (startReplayed s a1).outp = s.outp ∧ (startReplayed s a1).safety.safe = s.safety.safe := by
  unfold startReplayed; simp (maxDischargeDepth := 30) [*]

@[simp] theorem startReplayed_inv (s : State) (a1 : ReplayPkg) (h : Inv s) : Inv (startReplayed s a1) := by
  unfold startReplayed; simp (maxDischargeDepth := 30) [*]

@[simp] theorem spareIn_outp (s : State) (a1 : Nat) (a2 : Nat) :
    (spareIn s a1 a2).outp = s.outp ∧ (spareIn s a1 a2).safety.safe = s.safety.safe := by
  unfold spareIn; simp (maxDischargeDepth := 30) [*]

@[simp] theorem spareIn_inv (s : State) (a1 : Nat) (a2 : Nat) (h : Inv s) : Inv (spareIn s a1 a2) := by
  unfold spareIn; simp (maxDischargeDepth := 30) [*]

@[simp] theorem ckptReady_outp (s : State) (a1 : Replay) :
    (ckptReady s a1).outp = s.outp ∧ (ckptReady s a1).safety.safe = s.safety.safe := by
  unfold ckptReady; simp (maxDischargeDepth := 30) [*]

@[simp] theorem ckptReady_inv (s : State) (a1 : Replay) (h : Inv s) : Inv (ckptReady s a1) := by
  unfold ckptReady; simp (maxDischargeDepth := 30) [*]

@[simp] theorem replayOn_inv (s : State) (a1 : Replay) (a2 : Bytes) (h : Inv s) : Inv (replayOn s a1 a2) := by
  unfold replayOn; simp (maxDischargeDepth := 30) [*]

@[simp] theorem snapCounters_outp (s : State) :
    (snapCounters s).outp = s.outp ∧ (snapCounters s).safety.safe = s.safety.safe := by
  unfold snapCounters; simp (maxDischargeDepth := 30) [*]

@[simp] theorem snapCounters_inv (s : State) (h : Inv s) : Inv (snapCounters s) := by
  unfold snapCounters; simp (maxDischargeDepth := 30) [*]

@[simp] theorem nextSeq_outp (s : State) (a1 : Released) :
    (nextSeq s a1).outp = s.outp ∧ (nextSeq s a1).safety.safe = s.safety.safe := by
  unfold nextSeq; simp (maxDischargeDepth := 30) [*]

@[simp] theorem nextSeq_inv (s : State) (a1 : Released) (h : Inv s) : Inv (nextSeq s a1) := by
  unfold nextSeq; simp (maxDischargeDepth := 30) [*]

@[simp] theorem stopOrPause_inv (s : State) (h : Inv s) : Inv (stopOrPause s) := by
  unfold stopOrPause; simp (maxDischargeDepth := 30) [*]

@[simp] theorem passBoundary_inv (s : State) (a1 : Released) (h : Inv s) : Inv (passBoundary s a1) := by
  unfold passBoundary; try simp only []
  split <;> simp (maxDischargeDepth := 30) [*]

@[simp] theorem abandonReplay_inv (s : State) (h : Inv s) : Inv (abandonReplay s) := by
  unfold abandonReplay; try simp only []
  (repeat' split) <;> simp_all (maxDischargeDepth := 30)

@[simp] theorem closeReplayed_inv (s : State) (h : Inv s) : Inv (closeReplayed s) := by
  have k : ∀ (c : State → Bool) (s1 : State), Inv s1 → Inv (if c s1 then factFails s1 else s1) := by
    intro c s1 h; split <;> simp [h]
  unfold closeReplayed; simp only []
  split
  · simp [h]
  · split
    · exact h
    · refine k (fun s1 => (forced s1 4 ++ forced s1 5).any (cutUnmet s1) || (worldQuiet s1 && !replayDone s1)) _ ?_
      (repeat' split) <;> simp [h]

@[simp] theorem execBoundary_inv (s : State) (h : Inv s) : InvR (execBoundary s) := by
  unfold execBoundary; try simp only []
  (repeat' split) <;> simp (maxDischargeDepth := 30) [*]

@[simp] theorem execSpareIn_inv (a0 : Nat) (s : State) (h : Inv s) : InvR (execSpareIn a0 s) := by
  unfold execSpareIn; try simp only []
  split <;> simp (maxDischargeDepth := 30) [*]

@[simp] theorem execReplayCycleStart_inv (s : State) (h : Inv s) : InvR (execReplayCycleStart s) := by
  unfold execReplayCycleStart; try simp only []
  split <;> simp (maxDischargeDepth := 30) [*]

@[simp] theorem reportLate_outp (s : State) (a1 : Nat) :
    (reportLate s a1).outp = s.outp ∧ (reportLate s a1).safety.safe = s.safety.safe := by
  unfold reportLate; simp (maxDischargeDepth := 30) [*]

@[simp] theorem reportLate_inv (s : State) (a1 : Nat) (h : Inv s) : Inv (reportLate s a1) := by
  unfold reportLate; simp (maxDischargeDepth := 30) [*]

@[simp] theorem setSlices_outp (s : State) (a1 : Msg) :
    (setSlices s a1).outp = s.outp ∧ (setSlices s a1).safety.safe = s.safety.safe := by
  unfold setSlices; simp (maxDischargeDepth := 30) [*]

@[simp] theorem setSlices_inv (s : State) (a1 : Msg) (h : Inv s) : Inv (setSlices s a1) := by
  unfold setSlices; simp (maxDischargeDepth := 30) [*]

@[simp] theorem execSelftestConfig_inv (s : State) (h : Inv s) : InvR (execSelftestConfig s) := by
  unfold execSelftestConfig; try simp only []
  (repeat' split) <;> simp_all (maxDischargeDepth := 30)

@[simp] theorem startSlice_outp (s : State) :
    (startSlice s).outp = s.outp ∧ (startSlice s).safety.safe = s.safety.safe := by
  unfold startSlice; simp (maxDischargeDepth := 30) [*]

@[simp] theorem startSlice_inv (s : State) (h : Inv s) : Inv (startSlice s) := by
  unfold startSlice; simp (maxDischargeDepth := 30) [*]

@[simp] theorem sliceCeases_inv (s : State) (a1 : Nat) (a2 : List Nat) (h : Inv s) : Inv (sliceCeases s a1 a2) := by
  unfold sliceCeases; simp (maxDischargeDepth := 30) [*]

@[simp] theorem sliceEnds_outp (s : State) (a1 : Nat) (a2 : Nat) (a3 : List Nat) :
    (sliceEnds s a1 a2 a3).outp = s.outp ∧ (sliceEnds s a1 a2 a3).safety.safe = s.safety.safe := by
  unfold sliceEnds; simp (maxDischargeDepth := 30) [*]

@[simp] theorem sliceEnds_inv (s : State) (a1 : Nat) (a2 : Nat) (a3 : List Nat) (h : Inv s) :
    Inv (sliceEnds s a1 a2 a3) := by
  unfold sliceEnds; simp (maxDischargeDepth := 30) [*]

@[simp] theorem noteFail_outp (s : State) (a1 : Nat) (a2 : Nat) :
    (noteFail s a1 a2).outp = s.outp ∧ (noteFail s a1 a2).safety.safe = s.safety.safe := by
  unfold noteFail; simp (maxDischargeDepth := 30) [*]

@[simp] theorem noteFail_inv (s : State) (a1 : Nat) (a2 : Nat) (h : Inv s) : Inv (noteFail s a1 a2) := by
  unfold noteFail; simp (maxDischargeDepth := 30) [*]

@[simp] theorem sliceFails_inv (s : State) (a1 : Nat) (a2 : Nat) (h : Inv s) : Inv (sliceFails s a1 a2) := by
  unfold sliceFails; simp (maxDischargeDepth := 30) [*]

@[simp] theorem endSlice_inv (s : State) (a1 : Nat) (a2 : Nat) (a3 : List Nat) (h : Inv s) :
    Inv (endSlice s a1 a2 a3) := by
  unfold endSlice; try simp only []
  refine foldl_inv _ ?_ _ _ ?_; (intros; (repeat' split) <;> simp (maxDischargeDepth := 30) [*]); simp (maxDischargeDepth := 30) [*]

@[simp] theorem execSliceDone_inv (a0 : List Nat) (s : State) (h : Inv s) : InvR (execSliceDone a0 s) := by
  unfold execSliceDone; try simp only []
  split <;> simp (maxDischargeDepth := 30) [*]

@[simp] theorem execSelftestLate_inv (a0 : Nat) (s : State) (h : Inv s) : InvR (execSelftestLate a0 s) := by
  unfold execSelftestLate; simp (maxDischargeDepth := 30) [*]

@[simp] theorem reportStarved_inv (s : State) (a1 : Nat) (a2 : Nat) (h : Inv s) : Inv (reportStarved s a1 a2) := by
  unfold reportStarved; simp (maxDischargeDepth := 30) [*]

@[simp] theorem execSelftestStarved_inv (a0 : Nat) (a1 : Nat) (s : State) (h : Inv s) :
    InvR (execSelftestStarved a0 a1 s) := by
  unfold execSelftestStarved; simp (maxDischargeDepth := 30) [*]

@[simp] theorem execSelftestSlice_inv (s : State) (h : Inv s) : InvR (execSelftestSlice s) := by
  unfold execSelftestSlice; simp (maxDischargeDepth := 30) [*]

@[simp] theorem takeHandshake_outp (s : State) :
    (takeHandshake s).outp = s.outp ∧ (takeHandshake s).safety.safe = s.safety.safe := by
  unfold takeHandshake; try simp only []
  split <;> simp (maxDischargeDepth := 30) [*]

@[simp] theorem takeHandshake_inv (s : State) (h : Inv s) : Inv (takeHandshake s) := by
  unfold takeHandshake; try simp only []
  split <;> simp (maxDischargeDepth := 30) [*]

@[simp] theorem tileUnitReads_outp (s : State) (a1 : Nat) (a2 : Bytes) :
    (tileUnitReads s a1 a2).outp = s.outp ∧ (tileUnitReads s a1 a2).safety.safe = s.safety.safe := by
  unfold tileUnitReads; simp (maxDischargeDepth := 30) [*]

@[simp] theorem tileUnitReads_inv (s : State) (a1 : Nat) (a2 : Bytes) (h : Inv s) : Inv (tileUnitReads s a1 a2) := by
  unfold tileUnitReads; simp (maxDischargeDepth := 30) [*]

@[simp] theorem drainTail_outp (s : State) (a1 : Staging) :
    (drainTail s a1).outp = s.outp ∧ (drainTail s a1).safety.safe = s.safety.safe := by
  unfold drainTail; simp (maxDischargeDepth := 30) [*]

@[simp] theorem drainTail_inv (s : State) (a1 : Staging) (h : Inv s) : Inv (drainTail s a1) := by
  unfold drainTail; simp (maxDischargeDepth := 30) [*]

@[simp] theorem offerLog_outp (s : State) (a1 : Staging) :
    (offerLog s a1).outp = s.outp ∧ (offerLog s a1).safety.safe = s.safety.safe := by
  unfold offerLog; simp (maxDischargeDepth := 30) [*]

@[simp] theorem offerLog_inv (s : State) (a1 : Staging) (h : Inv s) : Inv (offerLog s a1) := by
  unfold offerLog; simp (maxDischargeDepth := 30) [*]

@[simp] theorem drainEntry_inv (s : State) (e : Staging) (rest : List Staging) (h : Inv s) :
    Inv (drainEntry s e rest) := by
  have k : ∀ y : Safety, (refillStaging y).safe = y.safe := by
    intro y; unfold refillStaging; (repeat' split) <;> rfl
  unfold drainEntry; simp (maxDischargeDepth := 9) [h, k]

@[simp] theorem execLogRecord_inv (a0 : Nat) (a1 : Nat) (a2 : Nat) (a3 : Bytes) (s : State) (h : Inv s) :
    InvR (execLogRecord a0 a1 a2 a3 s) := by
  unfold execLogRecord; simp (maxDischargeDepth := 30) [*]

@[simp] theorem markBad_outp (s : State) (a1 : Nat) :
    (markBad s a1).outp = s.outp ∧ (markBad s a1).safety.safe = s.safety.safe := by
  unfold markBad; simp (maxDischargeDepth := 30) [*]

@[simp] theorem markBad_inv (s : State) (a1 : Nat) (h : Inv s) : Inv (markBad s a1) := by
  unfold markBad; simp (maxDischargeDepth := 30) [*]

@[simp] theorem markBurst_outp (s : State) (a1 : Nat) :
    (markBurst s a1).outp = s.outp ∧ (markBurst s a1).safety.safe = s.safety.safe := by
  unfold markBurst; simp (maxDischargeDepth := 30) [*]

@[simp] theorem markBurst_inv (s : State) (a1 : Nat) (h : Inv s) : Inv (markBurst s a1) := by
  unfold markBurst; try simp only []
  refine foldl_inv _ ?_ _ _ ?_; (intros; (repeat' split) <;> simp (maxDischargeDepth := 30) [*]); simp (maxDischargeDepth := 30) [*]

@[simp] theorem edcLimit_outp (s : State) (a1 : Bytes) :
    (edcLimit s a1).outp = s.outp ∧ (edcLimit s a1).safety.safe = s.safety.safe := by
  unfold edcLimit; simp (maxDischargeDepth := 30) [*]

@[simp] theorem edcLimit_inv (s : State) (a1 : Bytes) (h : Inv s) : Inv (edcLimit s a1) := by
  unfold edcLimit; simp (maxDischargeDepth := 30) [*]

@[simp] theorem gddrReads_outp (s : State) (a1 : Nat) (a2 : Bytes) :
    (gddrReads s a1 a2).outp = s.outp ∧ (gddrReads s a1 a2).safety.safe = s.safety.safe := by
  unfold gddrReads; simp (maxDischargeDepth := 30) [*]

@[simp] theorem gddrReads_inv (s : State) (a1 : Nat) (a2 : Bytes) (h : Inv s) : Inv (gddrReads s a1 a2) := by
  unfold gddrReads; simp (maxDischargeDepth := 30) [*]

@[simp] theorem putDiffers_outp (s : State) (a1 : Nat) (a2 : Bytes) :
    (putDiffers s a1 a2).outp = s.outp ∧ (putDiffers s a1 a2).safety.safe = s.safety.safe := by
  unfold putDiffers; try simp only []
  (repeat' split) <;> simp (maxDischargeDepth := 30) [*]

@[simp] theorem putDiffers_inv (s : State) (a1 : Nat) (a2 : Bytes) (h : Inv s) : Inv (putDiffers s a1 a2) := by
  unfold putDiffers; try simp only []
  (repeat' split) <;> simp (maxDischargeDepth := 30) [*]

@[simp] theorem faultMemory_inv (s : State) (a1 : Nat) (a2 : Nat) (a3 : Bytes) (h : Inv s) :
    Inv (faultMemory s a1 a2 a3) := by
  unfold faultMemory; simp (maxDischargeDepth := 30) [*]

@[simp] theorem execFaultEvent_inv (a0 : Nat) (a1 : Nat) (a2 : Bytes) (s : State) (h : Inv s) :
    InvR (execFaultEvent a0 a1 a2 s) := by
  unfold execFaultEvent; simp (maxDischargeDepth := 30) [*]

@[simp] theorem execFaultDrain_inv (s : State) (h : Inv s) : InvR (execFaultDrain s) := by
  unfold execFaultDrain; try simp only []
  split <;> simp (maxDischargeDepth := 30) [*]

@[simp] theorem mdioStart_inv (s : State) (a1 : Nat) (a2 : Nat) (a3 : Word) (h : Inv s) :
    InvE (mdioStart s a1 a2 a3) := by
  unfold mdioStart; simp (maxDischargeDepth := 30) [*]

@[simp] theorem mdioCommand_inv (s : State) (a1 : Nat) (a2 : Word) (a3 : Nat) (h : Inv s) :
    InvR (mdioCommand s a1 a2 a3) := by
  unfold mdioCommand; try simp only []
  split <;> simp (maxDischargeDepth := 30) [*]

@[simp] theorem phyCtrlWrite_inv (s : State) (a1 : Nat) (a2 : Word) (h : Inv s) : InvE (phyCtrlWrite s a1 a2) := by
  unfold phyCtrlWrite; simp (maxDischargeDepth := 30) [*]

@[simp] theorem execPhyResetWrite_inv (a0 : Nat) (a1 : Word) (s : State) (h : Inv s) :
    InvR (execPhyResetWrite a0 a1 s) := by
  unfold execPhyResetWrite; try simp only []
  split <;> simp (maxDischargeDepth := 30) [*]

@[simp] theorem execMdioC45Write_inv (a0 : Nat) (a1 : Word) (s : State) (h : Inv s) :
    InvR (execMdioC45Write a0 a1 s) := by
  unfold execMdioC45Write; simp (maxDischargeDepth := 30) [*]

@[simp] theorem execMdioC22Read_inv (a0 : Nat) (a1 : Word) (s : State) (h : Inv s) :
    InvR (execMdioC22Read a0 a1 s) := by
  unfold execMdioC22Read; simp (maxDischargeDepth := 30) [*]

@[simp] theorem execMdioC22Write_inv (a0 : Nat) (a1 : Word) (s : State) (h : Inv s) :
    InvR (execMdioC22Write a0 a1 s) := by
  unfold execMdioC22Write; simp (maxDischargeDepth := 30) [*]

@[simp] theorem execMdioC45Read_inv (a0 : Nat) (a1 : Word) (s : State) (h : Inv s) :
    InvR (execMdioC45Read a0 a1 s) := by
  unfold execMdioC45Read; simp (maxDischargeDepth := 30) [*]

@[simp] theorem execMdioDone_inv (a0 : Nat) (a1 : Option Half) (s : State) (h : Inv s) :
    InvR (execMdioDone a0 a1 s) := by
  unfold execMdioDone; try simp only []
  (repeat' split) <;> simp (maxDischargeDepth := 30) [*]

@[simp] theorem execPhyRstNRelease_inv (s : State) (h : Inv s) : InvR (execPhyRstNRelease s) := by
  unfold execPhyRstNRelease; simp (maxDischargeDepth := 30) [*]

@[simp] theorem execPhyIntFall_inv (a0 : Nat) (s : State) (h : Inv s) : InvR (execPhyIntFall a0 s) := by
  unfold execPhyIntFall; try simp only []
  split <;> simp (maxDischargeDepth := 30) [*]

@[simp] theorem discardFlit_outp (s : State) (a1 : Half) (a2 : Bool) :
    (discardFlit s a1 a2).outp = s.outp ∧ (discardFlit s a1 a2).safety.safe = s.safety.safe := by
  unfold discardFlit; simp (maxDischargeDepth := 30) [*]

@[simp] theorem discardFlit_inv (s : State) (a1 : Half) (a2 : Bool) (h : Inv s) : Inv (discardFlit s a1 a2) := by
  unfold discardFlit; simp (maxDischargeDepth := 30) [*]

@[simp] theorem takeAck_outp (s : State) (a1 : Bytes) :
    (takeAck s a1).outp = s.outp ∧ (takeAck s a1).safety.safe = s.safety.safe := by
  unfold takeAck; simp (maxDischargeDepth := 30) [*]

@[simp] theorem takeAck_inv (s : State) (a1 : Bytes) (h : Inv s) : Inv (takeAck s a1) := by
  unfold takeAck; simp (maxDischargeDepth := 30) [*]

@[simp] theorem returnCredit_outp (s : State) (a1 : Nat) (a2 : Nat) :
    (returnCredit s a1 a2).outp = s.outp ∧ (returnCredit s a1 a2).safety.safe = s.safety.safe := by
  unfold returnCredit; simp (maxDischargeDepth := 30) [*]

@[simp] theorem returnCredit_inv (s : State) (a1 : Nat) (a2 : Nat) (h : Inv s) : Inv (returnCredit s a1 a2) := by
  unfold returnCredit; simp (maxDischargeDepth := 30) [*]

@[simp] theorem stirrupRead_inv (a0 : Nat) (a1 : Nat) (a2 : Nat) (s : State) (h : Inv s) :
    Inv (stirrupRead a0 a1 a2 s) := by
  unfold stirrupRead; simp (maxDischargeDepth := 30) [*]

@[simp] theorem stirrupWra_outp (a0 : Nat) (a1 : Nat) (a2 : Bytes) (s : State) :
    (stirrupWra a0 a1 a2 s).outp = s.outp ∧ (stirrupWra a0 a1 a2 s).safety.safe = s.safety.safe := by
  unfold stirrupWra; simp (maxDischargeDepth := 30) [*]

@[simp] theorem stirrupWra_inv (a0 : Nat) (a1 : Nat) (a2 : Bytes) (s : State) (h : Inv s) :
    Inv (stirrupWra a0 a1 a2 s) := by
  unfold stirrupWra; simp (maxDischargeDepth := 30) [*]

@[simp] theorem windowWrite_inv (a0 : Nat) (a1 : Word) (s : State) (h : Inv s) : InvR (windowWrite a0 a1 s) := by
  unfold windowWrite; try simp only []
  (repeat' split) <;> simp (maxDischargeDepth := 30) [*]

@[simp] theorem stirrupWrite_inv (a0 : Nat) (a1 : Bytes) (s : State) (h : Inv s) : InvR (stirrupWrite a0 a1 s) := by
  unfold stirrupWrite; simp (maxDischargeDepth := 30) [*]

@[simp] theorem transaction_inv (a0 : Bytes) (a1 : Bytes) (s : State) (h : Inv s) : InvR (transaction a0 a1 s) := by
  unfold transaction; simp (maxDischargeDepth := 30) [*]

@[simp] theorem transactions_inv (n : Nat) (bs : Bytes) (s : State) (h : Inv s) : InvR (transactions n bs s) := by
  induction n generalizing bs s with
  | zero => exact h
  | succ n ih =>
    unfold transactions; simp only []
    split
    · simp [*]
    · have k := transaction_inv (bs.take 16) (sliceOf bs 16 (transactionData bs)) s h
      split
      · rename_i e; rw [e] at k; exact ih _ _ k
      · exact k

@[simp] theorem execFlitReceive_inv (a0 : Bytes) (s : State) (h : Inv s) : InvR (execFlitReceive a0 s) := by
  unfold execFlitReceive; simp (maxDischargeDepth := 30) [*]

@[simp] theorem landFree_inv (s : State) (a1 : Inst) (a2 : Bytes) (a3 : Tref) (h : Inv s) :
    InvE (landFree s a1 a2 a3) := by
  unfold landFree; try simp only []
  refine foldl_inv _ ?_ _ _ ?_; (intros; (repeat' split) <;> simp (maxDischargeDepth := 30) [*]); simp (maxDischargeDepth := 30) [*]

@[simp] theorem landRows_inv (s : State) (i : Inst) (d : Bytes) (idx : Nat) (dst : Tref) (r : List (List Val) × Nat)
    (h : Inv s) : InvE (landRows s i d idx dst r) := by
  unfold landRows
  exact landFlags_inv _ _ _ (by simp [h])

@[simp] theorem execVectUn_inv (a0 : Nat) (a1 : Nat) (s : State) (h : Inv s) : InvR (execVectUn a0 a1 s) := by
  unfold execVectUn
  try split
  all_goals first
  | (simp (maxDischargeDepth := 30) [*]; done)
  | (refine issueDesc_inv _ _ _ _ _ h ?_
     intro s i d k h
     simp only [unRun]
     first
     | (simp (maxDischargeDepth := 30) [*]; done)
     | ((repeat' split) <;> simp (maxDischargeDepth := 30) [*]; done))

@[simp] theorem execVectCvt_inv (a0 : Nat) (a1 : Nat) (s : State) (h : Inv s) : InvR (execVectCvt a0 a1 s) := by
  unfold execVectCvt
  try split
  all_goals first
  | (simp (maxDischargeDepth := 30) [*]; done)
  | (refine issueDesc_inv _ _ _ _ _ h ?_
     intro s i d k h
     simp only [cvtRun]
     first
     | (simp (maxDischargeDepth := 30) [*]; done)
     | ((repeat' split) <;> simp (maxDischargeDepth := 30) [*]; done))

@[simp] theorem execReduce_inv (a0 : Nat) (a1 : Nat) (s : State) (h : Inv s) : InvR (execReduce a0 a1 s) := by
  unfold execReduce
  try split
  all_goals first
  | (simp (maxDischargeDepth := 30) [*]; done)
  | (refine issueDesc_inv _ _ _ _ _ h ?_
     intro s i d k h
     simp only [reduceRun]
     first
     | (simp (maxDischargeDepth := 30) [*]; done)
     | ((repeat' split) <;> simp (maxDischargeDepth := 30) [*]; done))

@[simp] theorem execVectBin_inv (a0 : Nat) (a1 : Nat) (s : State) (h : Inv s) : InvR (execVectBin a0 a1 s) := by
  unfold execVectBin
  try split
  all_goals first
  | (simp (maxDischargeDepth := 30) [*]; done)
  | (refine issueDesc_inv _ _ _ _ _ h ?_
     intro s i d k h
     simp only [binRun]
     first
     | (simp (maxDischargeDepth := 30) [*]; done)
     | ((repeat' split) <;> simp (maxDischargeDepth := 30) [*]; done))

@[simp] theorem execVectNorm_inv (a0 : Nat) (a1 : Nat) (s : State) (h : Inv s) : InvR (execVectNorm a0 a1 s) := by
  unfold execVectNorm
  try split
  all_goals first
  | (simp (maxDischargeDepth := 30) [*]; done)
  | (refine issueDesc_inv _ _ _ _ _ h ?_
     intro s i d k h
     simp only [normRun]
     first
     | (simp (maxDischargeDepth := 30) [*]; done)
     | ((repeat' split) <;> simp (maxDischargeDepth := 30) [*]; done))

@[simp] theorem notePtr_outp (s : State) (a1 : Inst) :
    (notePtr s a1).outp = s.outp ∧ (notePtr s a1).safety.safe = s.safety.safe := by
  unfold notePtr; simp (maxDischargeDepth := 30) [*]

@[simp] theorem notePtr_inv (s : State) (a1 : Inst) (h : Inv s) : Inv (notePtr s a1) := by
  unfold notePtr; simp (maxDischargeDepth := 30) [*]

@[simp] theorem setFull_outp (s : State) (a1 : Nat) (a2 : Nat) (a3 : Bool) :
    (setFull s a1 a2 a3).outp = s.outp ∧ (setFull s a1 a2 a3).safety.safe = s.safety.safe := by
  unfold setFull; simp (maxDischargeDepth := 30) [*]

@[simp] theorem setFull_inv (s : State) (a1 : Nat) (a2 : Nat) (a3 : Bool) (h : Inv s) : Inv (setFull s a1 a2 a3) := by
  unfold setFull; simp (maxDischargeDepth := 30) [*]

@[simp] theorem clearSlots_outp (s : State) (a1 : Nat) (a2 : Bytes) (a3 : Nat) (a4 : Nat) :
    (clearSlots s a1 a2 a3 a4).outp = s.outp ∧ (clearSlots s a1 a2 a3 a4).safety.safe = s.safety.safe := by
  unfold clearSlots; simp (maxDischargeDepth := 30) [*]

@[simp] theorem clearSlots_inv (s : State) (a1 : Nat) (a2 : Bytes) (a3 : Nat) (a4 : Nat) (h : Inv s) :
    Inv (clearSlots s a1 a2 a3 a4) := by
  unfold clearSlots; try simp only []
  refine foldl_inv _ ?_ _ _ ?_; (intros; (repeat' split) <;> simp (maxDischargeDepth := 30) [*]); simp (maxDischargeDepth := 30) [*]

@[simp] theorem writePart_outp (s : State) (a1 : Nat) (a2 : Nat) (a3 : Tref) (a4 : Nat → Rm) (a5 : Nat)
    (a6 : Nat) (a7 : List Val) :
    (writePart s a1 a2 a3 a4 a5 a6 a7).1.outp = s.outp ∧ (writePart s a1 a2 a3 a4 a5 a6 a7).1.safety.safe = s.safety.safe := by
  unfold writePart; try simp only []
  split <;> simp (maxDischargeDepth := 30) [*]

@[simp] theorem writePart_inv (s : State) (a1 : Nat) (a2 : Nat) (a3 : Tref) (a4 : Nat → Rm) (a5 : Nat)
    (a6 : Nat) (a7 : List Val) (h : Inv s) :
    Inv (writePart s a1 a2 a3 a4 a5 a6 a7).1 := by
  unfold writePart; try simp only []
  split <;> simp (maxDischargeDepth := 30) [*]

@[simp] theorem mmRowOut_outp (s : State) (a1 : Inst) (a2 : Bytes) (a3 : Nat) (a4 : Bytes) (a5 : Nat)
    (a6 : List (List Val)) (a7 : Nat) :
    (mmRowOut s a1 a2 a3 a4 a5 a6 a7).1.outp = s.outp ∧ (mmRowOut s a1 a2 a3 a4 a5 a6 a7).1.safety.safe = s.safety.safe := by
  unfold mmRowOut; simp (maxDischargeDepth := 30) [*]

@[simp] theorem mmRowOut_inv (s : State) (a1 : Inst) (a2 : Bytes) (a3 : Nat) (a4 : Bytes) (a5 : Nat)
    (a6 : List (List Val)) (a7 : Nat) (h : Inv s) :
    Inv (mmRowOut s a1 a2 a3 a4 a5 a6 a7).1 := by
  unfold mmRowOut; simp (maxDischargeDepth := 30) [*]

@[simp] theorem mmBlockOut_inv (s : State) (i : Inst) (d : Bytes) (idx panel lo n : Nat) (chunks : List Bytes) (h : Inv s) :
    Inv (mmBlockOut s i d idx panel lo n chunks) := by
  unfold mmBlockOut; simp only []
  have k := fun qp c0 cols => foldl_inv2 (fun (acc : Flagged State) k =>
    let w := mmRowOut acc.1 i d idx qp c0 cols (lo + k)
    (w.1, acc.2 ||| w.2)) (by intro s x h; simp [h]) (List.range n) (s, 0) h
  simp only [] at k
  split <;> simp [k]

@[simp] theorem mmCompute_inv (s : State) (a1 : Inst) (a2 : Bytes) (a3 : MmRun) (h : Inv s) :
    Inv (mmCompute s a1 a2 a3).1 := by
  unfold mmCompute; try simp only []
  split <;> simp (maxDischargeDepth := 30) [*]

@[simp] theorem putUser_outp (s : State) (a1 : Inst) (a2 : Inst) :
    (putUser s a1 a2).outp = s.outp ∧ (putUser s a1 a2).safety.safe = s.safety.safe := by
  unfold putUser; simp (maxDischargeDepth := 30) [*]

@[simp] theorem putUser_inv (s : State) (a1 : Inst) (a2 : Inst) (h : Inv s) : Inv (putUser s a1 a2) := by
  unfold putUser; simp (maxDischargeDepth := 30) [*]

@[simp] theorem failUser_outp (s : State) (a1 : Inst) :
    (failUser s a1).outp = s.outp ∧ (failUser s a1).safety.safe = s.safety.safe := by
  unfold failUser; simp (maxDischargeDepth := 30) [*]

@[simp] theorem failUser_inv (s : State) (a1 : Inst) (h : Inv s) : Inv (failUser s a1) := by
  unfold failUser; simp (maxDischargeDepth := 30) [*]

@[simp] theorem mmAdvance_inv (i : Inst) (d : Bytes) (n : Nat) (s : State) (m : MmRun) (h : Inv s) :
    Inv (mmAdvance i d n s m).1 := by
  induction n generalizing s m with
  | zero => exact h
  | succ n ih =>
    unfold mmAdvance; simp only []
    split
    · exact h
    · split
      · split
        · refine ih _ _ ?_; split <;> simp [h]
        · exact h
      · exact ih _ _ (mmCompute_inv _ _ _ _ h)

@[simp] theorem mmRunOn_inv (s : State) (a1 : Nat) (a2 : Nat) (h : Inv s) : Inv (mmRunOn s a1 a2) := by
  unfold mmRunOn; try simp only []
  (repeat' split) <;> simp (maxDischargeDepth := 30) [*]

@[simp] theorem execMatmulConv_inv (a0 : Nat) (a1 : Nat) (s : State) (h : Inv s) : InvR (execMatmulConv a0 a1 s) := by
  unfold execMatmulConv
  try split
  all_goals first
  | (simp (maxDischargeDepth := 30) [*]; done)
  | (refine issueDesc_inv _ _ _ _ _ h ?_
     intro s i d k h
     simp only [matmulRun]
     first
     | (simp (maxDischargeDepth := 30) [*]; done)
     | ((repeat' split) <;> simp (maxDischargeDepth := 30) [*]; done))

@[simp] theorem giveChunk_outp (s : State) (a1 : Bytes) (a2 : Inst) :
    (giveChunk s a1 a2).outp = s.outp ∧ (giveChunk s a1 a2).safety.safe = s.safety.safe := by
  unfold giveChunk; try simp only []
  split <;> simp (maxDischargeDepth := 30) [*]

@[simp] theorem giveChunk_inv (s : State) (a1 : Bytes) (a2 : Inst) (h : Inv s) : Inv (giveChunk s a1 a2) := by
  unfold giveChunk; try simp only []
  split <;> simp (maxDischargeDepth := 30) [*]

@[simp] theorem tileRuns_inv (s : State) (a1 : Nat) (h : Inv s) : Inv (tileRuns s a1) := by
  unfold tileRuns; simp (maxDischargeDepth := 30) [*]

@[simp] theorem writeChunk_inv (s : State) (a1 : WeightSet) (a2 : Nat) (a3 : List Inst) (h : Inv s) :
    Inv (writeChunk s a1 a2 a3) := by
  unfold writeChunk; try simp only []
  (repeat' split) <;> simp_all (maxDischargeDepth := 30)

@[simp] theorem execWeightChunkWrite_inv (a0 : Nat) (a1 : Nat) (s : State) (h : Inv s) :
    InvR (execWeightChunkWrite a0 a1 s) := by
  unfold execWeightChunkWrite; try simp only []
  (repeat' split) <;> simp (maxDischargeDepth := 30) [*]

@[simp] theorem execMatmul_inv (a0 : Nat) (a1 : Nat) (s : State) (h : Inv s) : InvR (execMatmul a0 a1 s) := by
  unfold execMatmul
  try split
  all_goals first
  | (simp (maxDischargeDepth := 30) [*]; done)
  | (refine issueDesc_inv _ _ _ _ _ h ?_
     intro s i d k h
     simp only [matmulRun]
     first
     | (simp (maxDischargeDepth := 30) [*]; done)
     | ((repeat' split) <;> simp (maxDischargeDepth := 30) [*]; done))

@[simp] theorem released_inv (s : State) : Inv (released s) := by
  unfold released; simp [State.reset]; decide

@[simp] theorem execResetRelease_inv (s : State) (h : Inv s) : InvR (execResetRelease s) := by
  unfold execResetRelease; simp (maxDischargeDepth := 30) [*]

@[simp] theorem setTemp_outp (s : State) (a1 : Nat) (a2 : Half) :
    (setTemp s a1 a2).outp = s.outp ∧ (setTemp s a1 a2).safety.safe = s.safety.safe := by
  unfold setTemp; simp (maxDischargeDepth := 30) [*]

@[simp] theorem setTemp_inv (s : State) (a1 : Nat) (a2 : Half) (h : Inv s) : Inv (setTemp s a1 a2) := by
  unfold setTemp; simp (maxDischargeDepth := 30) [*]

@[simp] theorem edgeLinksDown_inv (s : State) (h : Inv s) : Inv (edgeLinksDown s) := by
  unfold edgeLinksDown; simp (maxDischargeDepth := 30) [*]

@[simp] theorem execRefclkLoss_inv (s : State) (h : Inv s) : InvR (execRefclkLoss s) := by
  unfold execRefclkLoss; simp (maxDischargeDepth := 30) [*]

@[simp] theorem spareFails_inv (s : State) (a1 : Nat) (h : Inv s) : Inv (spareFails s a1) := by
  unfold spareFails; simp (maxDischargeDepth := 30) [*]

@[simp] theorem tileFails_inv (s : State) (a1 : Nat) (a2 : Nat) (h : Inv s) : Inv (tileFails s a1 a2) := by
  unfold tileFails; simp (maxDischargeDepth := 30) [*]

@[simp] theorem slotFails_inv (s : State) (a1 : Nat × Nat) (h : Inv s) : Inv (slotFails s a1) := by
  unfold slotFails; simp (maxDischargeDepth := 30) [*]

@[simp] theorem execGddr6TrainingDone_inv (s : State) (h : Inv s) : InvR (execGddr6TrainingDone s) := by
  unfold execGddr6TrainingDone; simp (maxDischargeDepth := 30) [*]

@[simp] theorem execRailOutOfWindow_inv (a0 : Nat × Nat) (s : State) (h : Inv s) : InvR (execRailOutOfWindow a0 s) := by
  unfold execRailOutOfWindow; simp (maxDischargeDepth := 30) [*]

@[simp] theorem execResetPin_inv (s : State) (h : Inv s) : InvR (execResetPin s) := by
  unfold execResetPin; simp (maxDischargeDepth := 30) [*]

@[simp] theorem withdrawRaises_outp (s : State) :
    (withdrawRaises s).outp = s.outp ∧ (withdrawRaises s).safety.safe = s.safety.safe := by
  unfold withdrawRaises; simp (maxDischargeDepth := 30) [*]

@[simp] theorem withdrawRaises_inv (s : State) (h : Inv s) : Inv (withdrawRaises s) := by
  unfold withdrawRaises; simp (maxDischargeDepth := 30) [*]

@[simp] theorem bootRotation_outp (s : State) :
    (bootRotation s).outp = s.outp ∧ (bootRotation s).safety.safe = s.safety.safe := by
  unfold bootRotation; simp (maxDischargeDepth := 30) [*]

@[simp] theorem bootRotation_inv (s : State) (h : Inv s) : Inv (bootRotation s) := by
  unfold bootRotation; simp (maxDischargeDepth := 30) [*]

@[simp] theorem execCriticalTemp_inv (a0 : Nat) (a1 : Half) (s : State) (h : Inv s) :
    InvR (execCriticalTemp a0 a1 s) := by
  unfold execCriticalTemp; simp (maxDischargeDepth := 30) [*]

@[simp] theorem slowIslands_outp (s : State) :
    (slowIslands s).outp = s.outp ∧ (slowIslands s).safety.safe = s.safety.safe := by
  unfold slowIslands; simp (maxDischargeDepth := 30) [*]

@[simp] theorem slowIslands_inv (s : State) (h : Inv s) : Inv (slowIslands s) := by
  unfold slowIslands; simp (maxDischargeDepth := 30) [*]

@[simp] theorem tripNow_inv (s : State) (h : Inv s) : Inv (tripNow s) := by
  unfold tripNow; simp (maxDischargeDepth := 30) [*]

@[simp] theorem execThermalTrip_inv (a0 : Nat) (a1 : Half) (s : State) (h : Inv s) :
    InvR (execThermalTrip a0 a1 s) := by
  unfold execThermalTrip; simp (maxDischargeDepth := 30) [*]

@[simp] theorem execRomStageDone_inv (s : State) (h : Inv s) : InvR (execRomStageDone s) := by
  unfold execRomStageDone; simp (maxDischargeDepth := 30) [*]

@[simp] theorem execPowerOnReset_inv (s : State) (h : Inv s) : InvR (execPowerOnReset s) := by
  unfold execPowerOnReset; simp (maxDischargeDepth := 30) [*]

@[simp] theorem execThermalTripEnd_inv (a0 : List Half) (s : State) (h : Inv s) : InvR (execThermalTripEnd a0 s) := by
  unfold execThermalTripEnd; simp (maxDischargeDepth := 30) [*]

@[simp] theorem spareBanksOff_outp (s : State) :
    (spareBanksOff s).outp = s.outp ∧ (spareBanksOff s).safety.safe = s.safety.safe := by
  unfold spareBanksOff; simp (maxDischargeDepth := 30) [*]

@[simp] theorem spareBanksOff_inv (s : State) (h : Inv s) : Inv (spareBanksOff s) := by
  unfold spareBanksOff; simp (maxDischargeDepth := 30) [*]

@[simp] theorem execBootSelftestDone_inv (a0 : List (Nat × Nat)) (s : State) (h : Inv s) :
    InvR (execBootSelftestDone a0 s) := by
  unfold execBootSelftestDone; try simp only []
  (repeat' split) <;> simp_all (maxDischargeDepth := 30)

@[simp] theorem execRefclkReturn_inv (s : State) (h : Inv s) : InvR (execRefclkReturn s) := by
  unfold execRefclkReturn; simp (maxDischargeDepth := 30) [*]

@[simp] theorem execGddr6Retrain_inv (a0 : Nat) (s : State) (h : Inv s) : InvR (execGddr6Retrain a0 s) := by
  unfold execGddr6Retrain; simp (maxDischargeDepth := 30) [*]

@[simp] theorem scrubUe_inv (s : State) (a1 : Nat) (a2 : Nat) (a3 : Nat) (h : Inv s) : Inv (scrubUe s a1 a2 a3) := by
  unfold scrubUe; simp (maxDischargeDepth := 30) [*]

@[simp] theorem execPatrolScrub_inv (a0 : Nat) (a1 : Nat) (a2 : Nat) (a3 : Bool) (s : State) (h : Inv s) :
    InvR (execPatrolScrub a0 a1 a2 a3 s) := by
  unfold execPatrolScrub; simp (maxDischargeDepth := 30) [*]

@[simp] theorem endWake_outp (s : State) (a1 : Nat) :
    (endWake s a1).outp = s.outp ∧ (endWake s a1).safety.safe = s.safety.safe := by
  unfold endWake; simp (maxDischargeDepth := 30) [*]

@[simp] theorem endWake_inv (s : State) (a1 : Nat) (h : Inv s) : Inv (endWake s a1) := by
  unfold endWake; simp (maxDischargeDepth := 30) [*]

@[simp] theorem execBankWake_inv (a0 : Nat) (a1 : Nat) (s : State) (h : Inv s) : InvR (execBankWake a0 a1 s) := by
  unfold execBankWake; simp (maxDischargeDepth := 30) [*]

@[simp] theorem endRetrain_outp (s : State) :
    (endRetrain s).outp = s.outp ∧ (endRetrain s).safety.safe = s.safety.safe := by
  unfold endRetrain; try simp only []
  split <;> simp (maxDischargeDepth := 30) [*]

@[simp] theorem endRetrain_inv (s : State) (h : Inv s) : Inv (endRetrain s) := by
  unfold endRetrain; try simp only []
  split <;> simp (maxDischargeDepth := 30) [*]

@[simp] theorem settleAo_inv (s : State) (h : Inv s) : Inv (settleAo s) := by
  unfold settleAo; simp (maxDischargeDepth := 30) [*]

@[simp] theorem comparePins_inv (s : State) (h : Inv s) : Inv (comparePins s) := by
  unfold comparePins; simp (maxDischargeDepth := 30) [*]

@[simp] theorem shortPulse_inv (s : State) (h : Inv s) : Inv (shortPulse s) := by
  unfold shortPulse; split <;> simp (maxDischargeDepth := 30) [*]

@[simp] theorem samplePins_inv (s : State) (h : Inv s) : Inv (samplePins s) := by
  unfold samplePins; simp (maxDischargeDepth := 30) [*]

@[simp] theorem retryBursts_outp (s : State) :
    (retryBursts s).outp = s.outp ∧ (retryBursts s).safety.safe = s.safety.safe := by
  unfold retryBursts; simp (maxDischargeDepth := 30) [*]

@[simp] theorem retryBursts_inv (s : State) (h : Inv s) : Inv (retryBursts s) := by
  unfold retryBursts; simp (maxDischargeDepth := 30) [*]

@[simp] theorem sampleTemps_outp (s : State) :
    (sampleTemps s).outp = s.outp ∧ (sampleTemps s).safety.safe = s.safety.safe := by
  unfold sampleTemps; simp (maxDischargeDepth := 30) [*]

@[simp] theorem sampleTemps_inv (s : State) (h : Inv s) : Inv (sampleTemps s) := by
  unfold sampleTemps; simp (maxDischargeDepth := 30) [*]

@[simp] theorem upset_outp (s : State) : (upset s).outp = s.outp ∧ (upset s).safety.safe = s.safety.safe := by
  unfold upset; simp (maxDischargeDepth := 30) [*]

@[simp] theorem upset_inv (s : State) (h : Inv s) : Inv (upset s) := by
  unfold upset; simp (maxDischargeDepth := 30) [*]

@[simp] theorem unbidden_inv (s : State) (h : Inv s) : Inv (unbidden s) := by
  unfold unbidden; simp (maxDischargeDepth := 30) [*]

@[simp] theorem tickAo_inv (s : State) (h : Inv s) : Inv (tickAo s) := by
  unfold tickAo; simp (maxDischargeDepth := 30) [*]

@[simp] theorem State.withFetchWord_outp (s : State) (a1 : Nat) (a2 : Nat) :
    (State.withFetchWord s a1 a2).outp = s.outp ∧ (State.withFetchWord s a1 a2).safety.safe = s.safety.safe := by
  unfold State.withFetchWord; try simp only []
  split <;> simp (maxDischargeDepth := 30) [*]

@[simp] theorem State.withFetchWord_inv (s : State) (a1 : Nat) (a2 : Nat) (h : Inv s) :
    Inv (State.withFetchWord s a1 a2) := by
  unfold State.withFetchWord; try simp only []
  split <;> simp (maxDischargeDepth := 30) [*]

end Sys2Proof.Machine
end

