-- ==== Sys2Proof/Laws/Kept.lean ====
section
/-! SUPPORT. What every function of the machine leaves alone: the queue of waiting commands, and the fuses, which
only ever blow (R466). One lemma per function, in the order they call one another: `f_kept` says that f keeps
the queue and the fuses (or, where it blows fuses, that they grow). -/

set_option linter.unusedSimpArgs false
set_option linter.unusedTactic false
set_option linter.unreachableTactic false
set_option linter.unnecessarySeqFocus false

namespace Sys2Proof.Machine

@[simp] theorem Grown.rfl' (q : Fuses) :
    Grown q q := ⟨rfl, rfl, rfl, id, id, fun _ => id, fun _ => id, rfl, fun _ => Nat.le_refl _⟩

theorem Grown.trans {q r t : Fuses} (h : Grown q r) (k : Grown r t) : Grown q t :=
  ⟨k.part.trans h.part, k.factory.trans h.factory, k.trim.trans h.trim, fun x => k.lock (h.lock x), fun x => k.sign (h.sign x),
   fun i x => k.valid i (h.valid i x), fun i x => k.revoked i (h.revoked i x), k.kkey.trans h.kkey,
   fun i => Nat.le_trans (h.rb i) (k.rb i)⟩
/-- A result keeps the queue p and the fuses q: its next state, if any, has them. -/
def Keeps (p : List Instr) (q : Fuses) : Result → Prop
  | .next t => t.pending = p ∧ Grown q t.fuses
  | _ => True
def KeepsE {ε : Type} (p : List Instr) (q : Fuses) : Except ε State → Prop
  | .ok t => t.pending = p ∧ Grown q t.fuses
  | .error _ => True
def KeepsO (p : List Instr) (q : Fuses) : Option State → Prop
  | some t => t.pending = p ∧ t.fuses = q
  | none => True

@[simp] theorem keeps_next {p q t} : Keeps p q (.next t) ↔ t.pending = p ∧ Grown q t.fuses := Iff.rfl

@[simp] theorem keeps_fault {p q r} : Keeps p q (.fault r) := trivial

@[simp] theorem keeps_refused {p q r} : Keeps p q (.refused r) := trivial

@[simp] theorem keepsE_ok {ε p q t} : KeepsE (ε := ε) p q (.ok t) ↔ t.pending = p ∧ Grown q t.fuses := Iff.rfl

@[simp] theorem keepsE_error {ε p q} {r : ε} : KeepsE p q (.error r) := trivial

@[simp] theorem keepsO_some {p q t} : KeepsO p q (some t) ↔ t.pending = p ∧ t.fuses = q := Iff.rfl

@[simp] theorem keepsO_none {p q} : KeepsO p q none := trivial

theorem foldl_kept {β : Type} (f : State → β → State)
    (h : ∀ s x, (f s x).pending = s.pending ∧ (f s x).fuses = s.fuses) (l : List β) (s : State) :
    (l.foldl f s).pending = s.pending ∧ (l.foldl f s).fuses = s.fuses := by
  induction l generalizing s with
  | nil => exact ⟨rfl, rfl⟩
  | cons x l ih => exact ⟨(ih _).1.trans (h s x).1, (ih _).2.trans (h s x).2⟩

@[simp] theorem onlyIf_kept {p q c} {s t : State} (h : s.pending = p) (h2 : Grown q s.fuses)
    (h3 : t.pending = p) (h4 : Grown q t.fuses) : Keeps p q (onlyIf s c t) := by
  unfold onlyIf; split <;> simp [*]

@[simp] theorem bindE_kept {ε} {p q} {a : Except ε State} {f : State → Except ε State} (h : KeepsE p q a)
    (hf : ∀ t, t.pending = p → Grown q t.fuses → KeepsE p q (f t)) : KeepsE p q (a.bind f) := by
  cases a with
  | ok t => exact hf t h.1 h.2
  | error e => trivial

@[simp] theorem bindE_kept' {ε} {p q} {a : Except ε State} {f : State → Except ε State} (h : KeepsE p q a)
    (hf : ∀ t, t.pending = p → Grown q t.fuses → KeepsE p q (f t)) : KeepsE p q (a >>= f) := bindE_kept h hf

@[simp] theorem mapE_kept {ε} {p q} {a : Except ε State} {f : State → State} (h : KeepsE p q a)
    (hf : ∀ t, t.pending = p → Grown q t.fuses → (f t).pending = p ∧ Grown q (f t).fuses) : KeepsE p q (a.map f) := by
  cases a with
  | ok t => exact hf t h.1 h.2
  | error e => trivial

theorem foldl_keptE {ε β} {p q} (f : Except ε State → β → Except ε State)
    (h : ∀ a x, KeepsE p q a → KeepsE p q (f a x)) (l : List β) (a : Except ε State) (ha : KeepsE p q a) :
    KeepsE p q (l.foldl f a) := by
  induction l generalizing a with
  | nil => exact ha
  | cons x l ih => exact ih _ (h a x ha)

theorem foldlM_keptE {ε β} {p q} (f : State → β → Except ε State)
    (h : ∀ s x, s.pending = p → Grown q s.fuses → KeepsE p q (f s x)) (l : List β) (s : State)
    (hp : s.pending = p) (hq : Grown q s.fuses) : KeepsE p q (l.foldlM f s) := by
  induction l generalizing s with
  | nil => exact ⟨hp, hq⟩
  | cons x l ih => exact bindE_kept' (h s x hp hq) fun t h1 h2 => ih t h1 h2

theorem foldlM_keptO {β} {p q} (f : State → β → Option State)
    (h : ∀ s x, s.pending = p → s.fuses = q → KeepsO p q (f s x)) (l : List β) (s : State)
    (hp : s.pending = p) (hq : s.fuses = q) : KeepsO p q (l.foldlM f s) := by
  induction l generalizing s with
  | nil => exact ⟨hp, hq⟩
  | cons x l ih =>
    have := h s x hp hq
    simp only [List.foldlM_cons]
    cases hx : f s x with
    | none => trivial
    | some t => rw [hx] at this; exact ih t this.1 this.2

theorem foldl_kept2 {β γ : Type} (f : State × γ → β → State × γ)
    (h : ∀ s x, (f s x).1.pending = s.1.pending ∧ (f s x).1.fuses = s.1.fuses) (l : List β) (s : State × γ) :
    (l.foldl f s).1.pending = s.1.pending ∧ (l.foldl f s).1.fuses = s.1.fuses := by
  induction l generalizing s with
  | nil => exact ⟨rfl, rfl⟩
  | cons x l ih => exact ⟨(ih _).1.trans (h s x).1, (ih _).2.trans (h s x).2⟩

@[simp] theorem ofAttempt_kept {p q a} (h : KeepsE p q a) : Keeps p q (ofAttempt a) := by
  unfold ofAttempt; split <;> simp_all

@[simp] theorem ite_pending (c : Prop) [Decidable c] (a b : State) :
    (if c then a else b).pending = if c then a.pending else b.pending := by split <;> rfl

@[simp] theorem ite_fuses (c : Prop) [Decidable c] (a b : State) :
    (if c then a else b).fuses = if c then a.fuses else b.fuses := by split <;> rfl

@[simp] theorem keeps_ite (c : Prop) [Decidable c] {p q} (a b : Result) :
    Keeps p q (if c then a else b) ↔ if c then Keeps p q a else Keeps p q b := by split <;> rfl

@[simp] theorem keepsO_ite (c : Prop) [Decidable c] {p q} (a b : Option State) :
    KeepsO p q (if c then a else b) ↔ if c then KeepsO p q a else KeepsO p q b := by split <;> rfl

@[simp] theorem keepsE_ite {ε} (c : Prop) [Decidable c] {p q} (a b : Except ε State) :
    KeepsE p q (if c then a else b) ↔ if c then KeepsE p q a else KeepsE p q b := by split <;> rfl

@[simp] theorem foldl_pending {β : Type} (f : State → β → State)
    (h : ∀ s x, (f s x).pending = s.pending ∧ (f s x).fuses = s.fuses) (l : List β) (s : State) :
    (l.foldl f s).pending = s.pending := (foldl_kept f h l s).1

@[simp] theorem foldl_fuses {β : Type} (f : State → β → State)
    (h : ∀ s x, (f s x).pending = s.pending ∧ (f s x).fuses = s.fuses) (l : List β) (s : State) :
    (l.foldl f s).fuses = s.fuses := (foldl_kept f h l s).2

@[simp] theorem setReg_kept (s : State) (a1 : Nat) (a2 : Word) :
    (setReg s a1 a2).pending = s.pending ∧ (setReg s a1 a2).fuses = s.fuses := by
  unfold setReg; simp [*]

@[simp] theorem bumpReg_kept (s : State) (a1 : Nat) :
    (bumpReg s a1).pending = s.pending ∧ (bumpReg s a1).fuses = s.fuses := by
  unfold bumpReg; simp [*]

@[simp] theorem addReg_kept (s : State) (a1 : Nat) (a2 : Nat) :
    (addReg s a1 a2).pending = s.pending ∧ (addReg s a1 a2).fuses = s.fuses := by
  unfold addReg; simp [*]

@[simp] theorem ringSend_kept (s : State) (a1 : Nat) (a2 : Byte) (a3 : Nat) (a4 : Nat) (a5 : Bytes) :
    (ringSend s a1 a2 a3 a4 a5).pending = s.pending ∧ (ringSend s a1 a2 a3 a4 a5).fuses = s.fuses := by
  unfold ringSend; simp [*]

@[simp] theorem replyInfo_kept (s : State) (a1 : Msg) (a2 : Nat) (a3 : Nat) (a4 : Bytes) :
    (replyInfo s a1 a2 a3 a4).pending = s.pending ∧ (replyInfo s a1 a2 a3 a4).fuses = s.fuses := by
  unfold replyInfo; simp [*]

@[simp] theorem reply_kept (s : State) (a1 : Msg) (a2 : Nat) :
    (reply s a1 a2).pending = s.pending ∧ (reply s a1 a2).fuses = s.fuses := by
  unfold reply; simp [*]

@[simp] theorem tailPush_kept (s : State) (a1 : Bytes) :
    (tailPush s a1).pending = s.pending ∧ (tailPush s a1).fuses = s.fuses := by
  unfold tailPush; simp [*]

@[simp] theorem logTake_kept (s : State) (a1 : Nat) (a2 : Nat) (a3 : Nat) (a4 : Nat) (a5 : Bytes) (a6 : Bool) :
    (logTake s a1 a2 a3 a4 a5 a6).pending = s.pending ∧ (logTake s a1 a2 a3 a4 a5 a6).fuses = s.fuses := by
  unfold logTake; simp [*]

@[simp] theorem logNow_kept (s : State) (a1 : Nat) (a2 : Nat) (a3 : Bytes) :
    (logNow s a1 a2 a3).pending = s.pending ∧ (logNow s a1 a2 a3).fuses = s.fuses := by
  unfold logNow; simp [*]

@[simp] theorem sendEvent_kept (s : State) (a1 : Nat) (a2 : Bytes) :
    (sendEvent s a1 a2).pending = s.pending ∧ (sendEvent s a1 a2).fuses = s.fuses := by
  unfold sendEvent; simp [*]

@[simp] theorem tickFree_kept (s : State) : (tickFree s).pending = s.pending ∧ (tickFree s).fuses = s.fuses := by
  unfold tickFree; simp [*]

@[simp] theorem sendOpenEvent_kept (s : State) (a1 : Nat) :
    (sendOpenEvent s a1).pending = s.pending ∧ (sendOpenEvent s a1).fuses = s.fuses := by
  unfold sendOpenEvent; simp [*]

@[simp] theorem replyBadArg_kept (s : State) (a1 : Msg) (a2 : Nat) :
    (replyBadArg s a1 a2).pending = s.pending ∧ (replyBadArg s a1 a2).fuses = s.fuses := by
  unfold replyBadArg; simp [*]

@[simp] theorem replyData_kept (s : State) (a1 : Msg) (a2 : Bytes) :
    (replyData s a1 a2).pending = s.pending ∧ (replyData s a1 a2).fuses = s.fuses := by
  unfold replyData; simp [*]

@[simp] theorem devWrite_kept (s : State) (a1 : Nat) (a2 : Bytes) :
    (devWrite s a1 a2).pending = s.pending ∧ (devWrite s a1 a2).fuses = s.fuses := by
  unfold devWrite; simp [*]

@[simp] theorem devScramble_kept (s : State) (a1 : Nat) (a2 : Nat) :
    (devScramble s a1 a2).pending = s.pending ∧ (devScramble s a1 a2).fuses = s.fuses := by
  unfold devScramble; simp [*]

@[simp] theorem setOwnerQueue_kept (s : State) (a1 : Owner) (a2 : List Msg) :
    (setOwnerQueue s a1 a2).pending = s.pending ∧ (setOwnerQueue s a1 a2).fuses = s.fuses := by
  unfold setOwnerQueue; simp [*]

@[simp] theorem sendTrans_kept (s : State) (a1 : Out) :
    (sendTrans s a1).pending = s.pending ∧ (sendTrans s a1).fuses = s.fuses := by
  unfold sendTrans; simp [*]

@[simp] theorem logIslandAs_kept (s : State) (a1 : Nat) (a2 : Nat) (a3 : Bytes) :
    (logIslandAs s a1 a2 a3).pending = s.pending ∧ (logIslandAs s a1 a2 a3).fuses = s.fuses := by
  unfold logIslandAs; simp [*]

@[simp] theorem logIsland_kept (s : State) (a1 : Nat) (a2 : Bytes) :
    (logIsland s a1 a2).pending = s.pending ∧ (logIsland s a1 a2).fuses = s.fuses := by
  unfold logIsland; simp [*]

@[simp] theorem stageFault_kept (s : State) (a1 : Nat) (a2 : Nat) (a3 : Bytes) :
    (stageFault s a1 a2 a3).pending = s.pending ∧ (stageFault s a1 a2 a3).fuses = s.fuses := by
  unfold stageFault; try simp only []
  (repeat' split) <;> simp [*]

@[simp] theorem withFront_kept {p q} (s : State) (o : Owner) (isIt : Msg → Bool) (f : Msg → State → Result)
    (hp : s.pending = p) (hq : Grown q s.fuses) (hf : ∀ m t, t.pending = p → Grown q t.fuses → Keeps p q (f m t)) :
    Keeps p q (withFront s o isIt f) := by
  unfold withFront
  split
  · split
    · exact hf _ _ (by simp [hp]) (by simp [hq])
    · simp [*]
  · simp [*]

@[simp] theorem traceRec_kept (s : State) (a1 : Nat) (a2 : Nat) (a3 : Nat) (a4 : Nat) (a5 : Nat) :
    (traceRec s a1 a2 a3 a4 a5).pending = s.pending ∧ (traceRec s a1 a2 a3 a4 a5).fuses = s.fuses := by
  unfold traceRec; simp [*]

@[simp] theorem tileWrite_kept (s : State) (a1 : Nat) (a2 : Nat) (a3 : Bytes) :
    (tileWrite s a1 a2 a3).pending = s.pending ∧ (tileWrite s a1 a2 a3).fuses = s.fuses := by
  unfold tileWrite; simp [*]

@[simp] theorem eccReport_kept (s : State) (a1 : Nat) (a2 : Nat) (a3 : Nat) :
    (eccReport s a1 a2 a3).pending = s.pending ∧ (eccReport s a1 a2 a3).fuses = s.fuses := by
  unfold eccReport; simp [*]

@[simp] theorem replyPiece_kept (s : State) (a1 : Msg) (a2 : Nat) (a3 : Bytes) :
    (replyPiece s a1 a2 a3).pending = s.pending ∧ (replyPiece s a1 a2 a3).fuses = s.fuses := by
  unfold replyPiece; simp [*]

@[simp] theorem linesStatic_kept (s : State) :
    (linesStatic s).pending = s.pending ∧ (linesStatic s).fuses = s.fuses := by
  unfold linesStatic; simp [*]

@[simp] theorem ceaseCause_kept (s : State) (a1 : Nat) :
    (ceaseCause s a1).pending = s.pending ∧ (ceaseCause s a1).fuses = s.fuses := by
  unfold ceaseCause; simp [*]

@[simp] theorem unholdHost_kept (s : State) :
    (unholdHost s).pending = s.pending ∧ (unholdHost s).fuses = s.fuses := by
  unfold unholdHost; simp [*]

@[simp] theorem stopNow_kept (s : State) : (stopNow s).pending = s.pending ∧ (stopNow s).fuses = s.fuses := by
  unfold stopNow; simp [*]

@[simp] theorem earlyView_kept (s : State) (a1 : Nat) :
    (earlyView s a1).pending = s.pending ∧ (earlyView s a1).fuses = s.fuses := by
  unfold earlyView; simp [*]

@[simp] theorem releaseLines_kept (s : State) (a1 : Nat) :
    (releaseLines s a1).pending = s.pending ∧ (releaseLines s a1).fuses = s.fuses := by
  unfold releaseLines; simp [*]

@[simp] theorem vlHandOver_kept (s : State) (a1 : Bytes) :
    (vlHandOver s a1).pending = s.pending ∧ (vlHandOver s a1).fuses = s.fuses := by
  unfold vlHandOver; simp [*]

@[simp] theorem releaseRecord_kept (s : State) (a1 : Released) :
    (releaseRecord s a1).pending = s.pending ∧ (releaseRecord s a1).fuses = s.fuses := by
  unfold releaseRecord; simp [*]

@[simp] theorem entryRecord_kept (s : State) :
    (entryRecord s).pending = s.pending ∧ (entryRecord s).fuses = s.fuses := by
  unfold entryRecord; try simp only []
  split <;> simp [*]

@[simp] theorem enterSafe_kept (s : State) (a1 : Nat) :
    (enterSafe s a1).pending = s.pending ∧ (enterSafe s a1).fuses = s.fuses := by
  unfold enterSafe; simp [*]

@[simp] theorem worldFullRaised_kept (s : State) :
    (worldFullRaised s).pending = s.pending ∧ (worldFullRaised s).fuses = s.fuses := by
  unfold worldFullRaised; simp [*]

@[simp] theorem faultReact_kept (s : State) (a1 : Nat) :
    (faultReact s a1).pending = s.pending ∧ (faultReact s a1).fuses = s.fuses := by
  unfold faultReact; simp [*]

@[simp] theorem raiseFault_kept (s : State) (a1 : Nat) (a2 : Nat) (a3 : Bytes) :
    (raiseFault s a1 a2 a3).pending = s.pending ∧ (raiseFault s a1 a2 a3).fuses = s.fuses := by
  unfold raiseFault; simp [*]

@[simp] theorem raiseOpenFault_kept (s : State) (a1 : Nat) (a2 : Nat) :
    (raiseOpenFault s a1 a2).pending = s.pending ∧ (raiseOpenFault s a1 a2).fuses = s.fuses := by
  unfold raiseOpenFault; simp [*]

@[simp] theorem setSpare_kept (s : State) (a1 : Nat) (a2 : Spare → Spare) :
    (setSpare s a1 a2).pending = s.pending ∧ (setSpare s a1 a2).fuses = s.fuses := by
  unfold setSpare; simp [*]

@[simp] theorem pendSubst_kept (s : State) (a1 : Nat) :
    (pendSubst s a1).pending = s.pending ∧ (pendSubst s a1).fuses = s.fuses := by
  unfold pendSubst; simp [*]

@[simp] theorem countUe_kept (s : State) (a1 : Nat) :
    (countUe s a1).pending = s.pending ∧ (countUe s a1).fuses = s.fuses := by
  unfold countUe; simp [*]

@[simp] theorem tileWordLost_kept (s : State) (a1 : Nat) (a2 : Nat) :
    (tileWordLost s a1 a2).pending = s.pending ∧ (tileWordLost s a1 a2).fuses = s.fuses := by
  unfold tileWordLost; simp [*]

@[simp] theorem corrected_kept (s : State) (a1 : Nat) :
    (corrected s a1).pending = s.pending ∧ (corrected s a1).fuses = s.fuses := by
  unfold corrected; simp [*]

@[simp] theorem tileStoreUe_kept (s : State) (a1 : Nat) (a2 : Nat) :
    (tileStoreUe s a1 a2).pending = s.pending ∧ (tileStoreUe s a1 a2).fuses = s.fuses := by
  unfold tileStoreUe; simp [*]

@[simp] theorem correctRead_kept (s : State) (a1 : Nat) (a2 : Nat) :
    (correctRead s a1 a2).pending = s.pending ∧ (correctRead s a1 a2).fuses = s.fuses := by
  unfold correctRead; simp [*]

@[simp] theorem bankUe_kept (s : State) (a1 : Nat) (a2 : Nat) :
    (bankUe s a1 a2).pending = s.pending ∧ (bankUe s a1 a2).fuses = s.fuses := by
  unfold bankUe; simp [*]

@[simp] theorem wakeBanks_kept (s : State) (a1 : Nat) (a2 : Nat) (a3 : Nat) :
    (wakeBanks s a1 a2 a3).pending = s.pending ∧ (wakeBanks s a1 a2 a3).fuses = s.fuses := by
  unfold wakeBanks; simp [*]

@[simp] theorem gddrUe_kept (s : State) (a1 : Nat) :
    (gddrUe s a1).pending = s.pending ∧ (gddrUe s a1).fuses = s.fuses := by
  unfold gddrUe; simp [*]

@[simp] theorem mailboxUe_kept (s : State) (a1 : Nat) :
    (mailboxUe s a1).pending = s.pending ∧ (mailboxUe s a1).fuses = s.fuses := by
  unfold mailboxUe; simp [*]

@[simp] theorem devUe_kept (s : State) (a1 : Nat) :
    (devUe s a1).pending = s.pending ∧ (devUe s a1).fuses = s.fuses := by
  unfold devUe; simp [*]

@[simp] theorem setBank_kept (s : State) (a1 : Nat) (a2 : Nat) :
    (setBank s a1 a2).pending = s.pending ∧ (setBank s a1 a2).fuses = s.fuses := by
  unfold setBank; simp [*]

@[simp] theorem vlLink_kept (s : State) (a1 : Bool) :
    (vlLink s a1).pending = s.pending ∧ (vlLink s a1).fuses = s.fuses := by
  unfold vlLink; simp [*]

@[simp] theorem execVlLinkChange_kept {p q} (a0 : Bool) (s : State) (hp : s.pending = p) (hq : Grown q s.fuses) :
    Keeps p q (execVlLinkChange a0 s) := by
  unfold execVlLinkChange; simp [*]

@[simp] theorem execVlRxFrame_kept {p q} (a0 : Bytes) (s : State) (hp : s.pending = p) (hq : Grown q s.fuses) :
    Keeps p q (execVlRxFrame a0 s) := by
  unfold execVlRxFrame; simp [*]

theorem listUpd_raise_le (f : Nat → Nat) (hf : ∀ c, c ≤ f c) (l : List Nat) (n k : Nat) :
    l.getD k 0 ≤ (listUpd l n f).getD k 0 := by
  induction l generalizing n k with
  | nil => simp [listUpd]
  | cons x l ih => cases n <;> cases k <;> simp [listUpd, hf, ih] <;> exact ih _ _

theorem cutBlow_grown (s : State) (u : Fuses) (f : FwImage) : Grown u (cutBlow s u f) := by
  unfold cutBlow
  split
  · exact ⟨rfl, rfl, rfl, id, id, fun _ => id, fun _ => id, rfl, listUpd_raise_le _ (fun _ => Nat.le_add_right _ _) _ _⟩
  · exact Grown.rfl' u

theorem foldBlow_grown (s : State) (l : List FwImage) (u : Fuses) : Grown u (l.foldl (cutBlow s) u) := by
  induction l generalizing u with
  | nil => exact Grown.rfl' u
  | cons f l ih => exact (cutBlow_grown s u f).trans (ih _)

@[simp] theorem heldReset_kept (s : State) (a1 : Byte) :
    (heldReset s a1).pending = s.pending ∧ ∀ q, Grown q s.fuses → Grown q (heldReset s a1).fuses :=
  ⟨rfl, fun _ h => h.trans (foldBlow_grown s _ _)⟩

@[simp] theorem coldReset_kept (s : State) (a1 : Byte) :
    (coldReset s a1).pending = s.pending ∧ ∀ q, Grown q s.fuses → Grown q (coldReset s a1).fuses := by
  unfold coldReset; try simp only []
  (repeat' split) <;> simp_all

@[simp] theorem execVlFrameSend_kept {p q} (s : State) (hp : s.pending = p) (hq : Grown q s.fuses) :
    Keeps p q (execVlFrameSend s) := by
  unfold execVlFrameSend; try simp only []
  split <;> simp [*]

@[simp] theorem drainWhere_kept (s : State) (a1 : Channel → RegSet → Bool) :
    (drainWhere s a1).pending = s.pending ∧ (drainWhere s a1).fuses = s.fuses := by
  unfold drainWhere; simp [*]

@[simp] theorem drainQueue_kept (s : State) (a1 : Nat) :
    (drainQueue s a1).pending = s.pending ∧ (drainQueue s a1).fuses = s.fuses := by
  unfold drainQueue; simp [*]

@[simp] theorem frameFlagged_kept (s : State) (a1 : Nat) (a2 : Nat) (a3 : Nat) (a4 : Nat) :
    (frameFlagged s a1 a2 a3 a4).pending = s.pending ∧ (frameFlagged s a1 a2 a3 a4).fuses = s.fuses := by
  unfold frameFlagged; simp [*]

@[simp] theorem setQueue_kept (s : State) (a1 : Nat) (a2 : Queue → Queue) :
    (setQueue s a1 a2).pending = s.pending ∧ (setQueue s a1 a2).fuses = s.fuses := by
  unfold setQueue; simp [*]

@[simp] theorem acceptFrame_kept (s : State) (a1 : Nat) (a2 : RxFrame) (a3 : List RxFrame) :
    (acceptFrame s a1 a2 a3).pending = s.pending ∧ (acceptFrame s a1 a2 a3).fuses = s.fuses := by
  unfold acceptFrame; simp [*]

@[simp] theorem flushCpls_kept (l : List HeldWra) (s : State) :
    (flushCpls l s).pending = s.pending ∧ (flushCpls l s).fuses = s.fuses := by
  induction l generalizing s with
  | nil => exact ⟨rfl, rfl⟩
  | cons h t ih => unfold flushCpls; split <;> simp [ih]

@[simp] theorem answerWra_kept (s : State) (a1 : HeldWra) :
    (answerWra s a1).pending = s.pending ∧ (answerWra s a1).fuses = s.fuses := by
  unfold answerWra; simp [*]

@[simp] theorem bufferFrame_kept (s : State) (a1 : Nat) (a2 : Option RxFrame) :
    (bufferFrame s a1 a2).pending = s.pending ∧ (bufferFrame s a1 a2).fuses = s.fuses := by
  unfold bufferFrame; try simp only []
  split <;> simp [*]

@[simp] theorem closeBurst_kept (s : State) (a1 : Nat) (a2 : Bytes) (a3 : Bool) :
    (closeBurst s a1 a2 a3).1.pending = s.pending ∧ (closeBurst s a1 a2 a3).1.fuses = s.fuses := by
  unfold closeBurst; try simp only []
  (repeat' split) <;> simp [*]

@[simp] theorem setBurst_kept (s : State) (a1 : Nat) (a2 : Bytes) (a3 : Bool) :
    (setBurst s a1 a2 a3).pending = s.pending ∧ (setBurst s a1 a2 a3).fuses = s.fuses := by
  unfold setBurst; simp [*]

@[simp] theorem hostWra_kept (s : State) (a1 : Nat) (a2 : Nat) (a3 : Nat) (a4 : Bytes) :
    (hostWra s a1 a2 a3 a4).pending = s.pending ∧ (hostWra s a1 a2 a3 a4).fuses = s.fuses := by
  unfold hostWra; simp [*]

@[simp] theorem undoWra_kept (s : State) (a1 : HeldWra) :
    (undoWra s a1).pending = s.pending ∧ (undoWra s a1).fuses = s.fuses := by
  unfold undoWra; try simp only []
  (repeat' split) <;> simp [*]

@[simp] theorem releaseQueue_kept (s : State) (a1 : Nat) :
    (releaseQueue s a1).pending = s.pending ∧ (releaseQueue s a1).fuses = s.fuses := by
  unfold releaseQueue; simp [*]

@[simp] theorem noteRx_kept (s : State) (a1 : Nat) :
    (noteRx s a1).pending = s.pending ∧ (noteRx s a1).fuses = s.fuses := by
  unfold noteRx; simp [*]

@[simp] theorem execFrameReceived_kept {p q} (a0 : Nat) (a1 : Bytes) (a2 : Nat) (s : State)
    (hp : s.pending = p) (hq : Grown q s.fuses) :
    Keeps p q (execFrameReceived a0 a1 a2 s) := by
  unfold execFrameReceived; simp [*]

@[simp] theorem execGptpSyncTx_kept {p q} (a0 : Nat) (s : State) (hp : s.pending = p) (hq : Grown q s.fuses) :
    Keeps p q (execGptpSyncTx a0 s) := by
  unfold execGptpSyncTx; simp [*]

@[simp] theorem releaseHeldCpls_kept (s : State) (a1 : Nat) :
    (releaseHeldCpls s a1).pending = s.pending ∧ (releaseHeldCpls s a1).fuses = s.fuses := by
  unfold releaseHeldCpls; simp [*]

@[simp] theorem execSensorLinkChange_kept {p q} (a0 : Nat) (a1 : Bool) (s : State) (hp : s.pending = p)
    (hq : Grown q s.fuses) :
    Keeps p q (execSensorLinkChange a0 a1 s) := by
  unfold execSensorLinkChange; simp [*]

@[simp] theorem dropTransactions_kept (s : State) :
    (dropTransactions s).pending = s.pending ∧ (dropTransactions s).fuses = s.fuses := by
  unfold dropTransactions; try simp only []
  refine foldl_kept _ ?_ _ _; intros; (repeat' split) <;> simp [*]

@[simp] theorem execFrameAccept_kept {p q} (a0 : Nat) (s : State) (hp : s.pending = p) (hq : Grown q s.fuses) :
    Keeps p q (execFrameAccept a0 s) := by
  unfold execFrameAccept; try simp only []
  split <;> simp [*]

@[simp] theorem execHostQueueWra_kept {p q} (a0 : Nat) (a1 : Nat) (a2 : Nat) (a3 : Bytes) (s : State)
    (hp : s.pending = p) (hq : Grown q s.fuses) :
    Keeps p q (execHostQueueWra a0 a1 a2 a3 s) := by
  unfold execHostQueueWra; simp [*]

@[simp] theorem execGptpSyncTimeout_kept {p q} (s : State) (hp : s.pending = p) (hq : Grown q s.fuses) :
    Keeps p q (execGptpSyncTimeout s) := by
  unfold execGptpSyncTimeout; simp [*]

@[simp] theorem execGptpSyncRx_kept {p q} (a0 : Nat) (a1 : ℤ) (s : State) (hp : s.pending = p)
    (hq : Grown q s.fuses) :
    Keeps p q (execGptpSyncRx a0 a1 s) := by
  unfold execGptpSyncRx; simp [*]

@[simp] theorem execFrameHashDone_kept {p q} (a0 : Nat) (s : State) (hp : s.pending = p) (hq : Grown q s.fuses) :
    Keeps p q (execFrameHashDone a0 s) := by
  unfold execFrameHashDone; simp [*]

@[simp] theorem execQueueReadTimeout_kept {p q} (a0 : Nat) (s : State) (hp : s.pending = p) (hq : Grown q s.fuses) :
    Keeps p q (execQueueReadTimeout a0 s) := by
  unfold execQueueReadTimeout; simp [*]

@[simp] theorem setChan_kept (s : State) (a1 : Channel) :
    (setChan s a1).pending = s.pending ∧ (setChan s a1).fuses = s.fuses := by
  unfold setChan; simp [*]

@[simp] theorem stopReading_kept (s : State) (a1 : Nat) (a2 : RegSet) :
    (stopReading s a1 a2).pending = s.pending ∧ (stopReading s a1 a2).fuses = s.fuses := by
  unfold stopReading; simp [*]

@[simp] theorem endSet_kept (s : State) (a1 : Nat) (a2 : Nat) (a3 : Nat) :
    (endSet s a1 a2 a3).pending = s.pending ∧ (endSet s a1 a2 a3).fuses = s.fuses := by
  unfold endSet; try simp only []
  split <;> simp [*]

@[simp] theorem endWaiting_kept (s : State) (a1 : Nat) (a2 : Nat) :
    (endWaiting s a1 a2).pending = s.pending ∧ (endWaiting s a1 a2).fuses = s.fuses := by
  unfold endWaiting; simp [*]

@[simp] theorem endBoth_kept (s : State) (a1 : Nat) (a2 : Nat) (a3 : Nat) :
    (endBoth s a1 a2 a3).pending = s.pending ∧ (endBoth s a1 a2 a3).fuses = s.fuses := by
  unfold endBoth; try simp only []
  split <;> simp [*]

@[simp] theorem passWords_kept (s : State) (a1 : Nat) (a2 : Nat) :
    (passWords s a1 a2).pending = s.pending ∧ (passWords s a1 a2).fuses = s.fuses := by
  unfold passWords; simp [*]

@[simp] theorem advanceRead_kept (s : State) (a1 : RegSet) (a2 : Nat) :
    (advanceRead s a1 a2).pending = s.pending ∧ (advanceRead s a1 a2).fuses = s.fuses := by
  unfold advanceRead; simp [*]

@[simp] theorem landWords_kept (s : State) (a1 : RegSet) (a2 : List (Bytes × Nat)) :
    (landWords s a1 a2).pending = s.pending ∧ (landWords s a1 a2).fuses = s.fuses := by
  unfold landWords; simp [*]

@[simp] theorem landSides_kept (s : State) (a1 : Nat) (a2 : List (Bytes × Nat)) :
    (landSides s a1 a2).pending = s.pending ∧ (landSides s a1 a2).fuses = s.fuses := by
  unfold landSides; try simp only []
  (repeat' split) <;> simp [*]

@[simp] theorem cutTransfer_kept (s : State) (a1 : Nat) (a2 : Nat) :
    (cutTransfer s a1 a2).pending = s.pending ∧ (cutTransfer s a1 a2).fuses = s.fuses := by
  unfold cutTransfer; try simp only []
  split <;> simp [*]

@[simp] theorem disarm_kept (s : State) (a1 : Nat) :
    (disarm s a1).pending = s.pending ∧ (disarm s a1).fuses = s.fuses := by
  unfold disarm; try simp only []
  split <;> simp [*]

@[simp] theorem abortChannel_kept (a0 : Inst) (s : State) (a2 : Nat) :
    (abortChannel a0 s a2).pending = s.pending ∧ (abortChannel a0 s a2).fuses = s.fuses := by
  unfold abortChannel; try simp only []
  split <;> simp [*]

@[simp] theorem finishOk_kept {p q} (s : State) (a1 : Nat) (a2 : Nat) (hp : s.pending = p) (hq : Grown q s.fuses) :
    KeepsE p q (finishOk s a1 a2) := by
  unfold finishOk; try simp only []
  split <;> simp [*]

@[simp] theorem abortSets_kept (s : State) (a1 : Inst) :
    (abortSets s a1).pending = s.pending ∧ (abortSets s a1).fuses = s.fuses := by
  unfold abortSets; simp [*]

@[simp] theorem startQueue_kept (s : State) (a1 : Nat) (a2 : RegSet) :
    (startQueue s a1 a2).pending = s.pending ∧ (startQueue s a1 a2).fuses = s.fuses := by
  unfold startQueue; simp [*]

@[simp] theorem addToken_kept (s : State) (a1 : Nat) (a2 : Nat) (a3 : Nat) :
    (addToken s a1 a2 a3).pending = s.pending ∧ (addToken s a1 a2 a3).fuses = s.fuses := by
  unfold addToken; simp [*]

@[simp] theorem signalSet_kept (s : State) (a1 : RegSet) :
    (signalSet s a1).pending = s.pending ∧ (signalSet s a1).fuses = s.fuses := by
  unfold signalSet; simp [*]

@[simp] theorem completeSide_kept {p q} (s : State) (a1 : Nat) (a2 : List (Bytes × Nat)) (a3 : Bool)
    (hp : s.pending = p) (hq : Grown q s.fuses) :
    KeepsE p q (completeSide s a1 a2 a3) := by
  unfold completeSide; try simp only []
  split <;> simp [*]

@[simp] theorem noteTimeout_kept (s : State) (a1 : Nat) :
    (noteTimeout s a1).pending = s.pending ∧ (noteTimeout s a1).fuses = s.fuses := by
  unfold noteTimeout; simp [*]

@[simp] theorem noteTimeouts_kept (s : State) (a1 : Nat) (a2 : Option Nat) :
    (noteTimeouts s a1 a2).pending = s.pending ∧ (noteTimeouts s a1 a2).fuses = s.fuses := by
  unfold noteTimeouts; try simp only []
  split <;> simp [*]

@[simp] theorem correctSource_kept (s : State) (a1 : Channel) (a2 : RegSet) :
    (correctSource s a1 a2).pending = s.pending ∧ (correctSource s a1 a2).fuses = s.fuses := by
  unfold correctSource; simp [*]

@[simp] theorem sourceFault_kept (s : State) (a1 : RegSet) (a2 : Nat) :
    (sourceFault s a1 a2).pending = s.pending ∧ (sourceFault s a1 a2).fuses = s.fuses := by
  unfold sourceFault; simp [*]

@[simp] theorem stopAtLine_kept (s : State) (a1 : Nat) (a2 : Nat) :
    (stopAtLine s a1 a2).pending = s.pending ∧ (stopAtLine s a1 a2).fuses = s.fuses := by
  unfold stopAtLine; try simp only []
  split <;> simp [*]

@[simp] theorem completeTransfer_kept {p q} (s : State) (a1 : Nat) (hp : s.pending = p) (hq : Grown q s.fuses) :
    KeepsE p q (completeTransfer s a1) := by
  unfold completeTransfer; try simp only []
  (repeat' split) <;> simp_all

@[simp] theorem failReadback_kept (s : State) (a1 : Nat) :
    (failReadback s a1).pending = s.pending ∧ (failReadback s a1).fuses = s.fuses := by
  unfold failReadback; try simp only []
  split <;> simp [*]

@[simp] theorem execDmaComplete_kept {p q} (engine channel : Nat) (readbackOk : Bool) (s : State)
    (hp : s.pending = p) (hq : Grown q s.fuses) : Keeps p q (execDmaComplete engine channel readbackOk s) := by
  unfold execDmaComplete; simp only []
  split
  · simp [*]
  · split
    · simp [*]
    · split
      · simp [*]
      · exact ofAttempt_kept (by simp [*])

@[simp] theorem wakeTransfer_kept (s : State) (a1 : Channel) (a2 : RegSet) :
    (wakeTransfer s a1 a2).pending = s.pending ∧ (wakeTransfer s a1 a2).fuses = s.fuses := by
  unfold wakeTransfer; simp [*]

@[simp] theorem execQueueReset_kept {p q} (a0 : Nat) (s : State) (hp : s.pending = p) (hq : Grown q s.fuses) :
    Keeps p q (execQueueReset a0 s) := by
  unfold execQueueReset; try simp only []
  split <;> simp [*]

@[simp] theorem idleDecision_kept (s : State) (a1 : Nat) :
    (idleDecision s a1).pending = s.pending ∧ (idleDecision s a1).fuses = s.fuses := by
  unfold idleDecision; simp [*]

@[simp] theorem wakeStarted_kept (s : State) (a1 : Nat) :
    (wakeStarted s a1).pending = s.pending ∧ (wakeStarted s a1).fuses = s.fuses := by
  unfold wakeStarted; try simp only []
  split <;> simp [*]

@[simp] theorem timeoutChain_kept {p q} (s : State) (a1 : Nat) (hp : s.pending = p) (hq : Grown q s.fuses) :
    KeepsE p q (timeoutChain s a1) := by
  unfold timeoutChain; try simp only []
  (repeat' split) <;> simp_all

@[simp] theorem execDmaTimeout_kept {p q} (engine channel : Nat) (s : State)
    (hp : s.pending = p) (hq : Grown q s.fuses) : Keeps p q (execDmaTimeout engine channel s) := by
  unfold execDmaTimeout; simp only []
  split
  · simp [*]
  · split
    · exact ofAttempt_kept (mapE_kept (by simp [*]) (by intros; simp [*]))
    · simp [*]

@[simp] theorem execDmaErrEcc_kept {p q} (a0 : Nat) (a1 : Nat) (a2 : Nat) (s : State) (hp : s.pending = p)
    (hq : Grown q s.fuses) :
    Keeps p q (execDmaErrEcc a0 a1 a2 s) := by
  unfold execDmaErrEcc; simp [*]

@[simp] theorem startTransfer_kept (s : State) (a1 : Nat) :
    (startTransfer s a1).pending = s.pending ∧ (startTransfer s a1).fuses = s.fuses := by
  unfold startTransfer; try simp only []
  (repeat' split) <;> simp [*]

@[simp] theorem serviceDecision_kept (s : State) (a1 : Nat) (a2 : Nat) (a3 : Nat) :
    (serviceDecision s a1 a2 a3).pending = s.pending ∧ (serviceDecision s a1 a2 a3).fuses = s.fuses := by
  unfold serviceDecision; simp [*]

@[simp] theorem execDmaTransferStart_kept {p q} (a0 : Nat) (s : State) (hp : s.pending = p) (hq : Grown q s.fuses) :
    Keeps p q (execDmaTransferStart a0 s) := by
  unfold execDmaTransferStart; try simp only []
  split <;> simp [*]

@[simp] theorem writeShadow_kept (s : State) (a1 : Nat) (a2 : RegSet) (a3 : Bool) :
    (writeShadow s a1 a2 a3).pending = s.pending ∧ (writeShadow s a1 a2 a3).fuses = s.fuses := by
  unfold writeShadow; simp [*]

@[simp] theorem mapEpoch_kept (s : State) (a1 : Nat) (a2 : Epoch → Epoch) :
    (mapEpoch s a1 a2).pending = s.pending ∧ (mapEpoch s a1 a2).fuses = s.fuses := by
  unfold mapEpoch; simp [*]

@[simp] theorem reapEpochs_kept (s : State) :
    (reapEpochs s).pending = s.pending ∧ (reapEpochs s).fuses = s.fuses := by
  unfold reapEpochs; simp [*]

@[simp] theorem dropHold_kept (s : State) (a1 : Nat) :
    (dropHold s a1).pending = s.pending ∧ (dropHold s a1).fuses = s.fuses := by
  unfold dropHold; simp [*]

@[simp] theorem holdEpoch_kept (s : State) (a1 : Nat) :
    (holdEpoch s a1).pending = s.pending ∧ (holdEpoch s a1).fuses = s.fuses := by
  unfold holdEpoch; simp [*]

@[simp] theorem mismatchRefuses_kept (s : State) :
    (mismatchRefuses s).pending = s.pending ∧ (mismatchRefuses s).fuses = s.fuses := by
  unfold mismatchRefuses; simp [*]

@[simp] theorem latigoDue_kept (s : State) : (latigoDue s).pending = s.pending ∧ (latigoDue s).fuses = s.fuses := by
  unfold latigoDue; simp [*]

@[simp] theorem latigoIfDue_kept (s : State) :
    (latigoIfDue s).pending = s.pending ∧ (latigoIfDue s).fuses = s.fuses := by
  unfold latigoIfDue; simp [*]

@[simp] theorem refuseItem_kept (s : State) :
    (refuseItem s).pending = s.pending ∧ (refuseItem s).fuses = s.fuses := by
  unfold refuseItem; simp [*]

@[simp] theorem traceGrant_kept (s : State) (a1 : Bool) :
    (traceGrant s a1).pending = s.pending ∧ (traceGrant s a1).fuses = s.fuses := by
  unfold traceGrant; simp [*]

@[simp] theorem judgeRelease_kept (s : State) (a1 : Bytes) :
    (judgeRelease s a1).pending = s.pending ∧ (judgeRelease s a1).fuses = s.fuses := by
  unfold judgeRelease; simp [*]

@[simp] theorem markMiss_kept (s : State) : (markMiss s).pending = s.pending ∧ (markMiss s).fuses = s.fuses := by
  unfold markMiss; simp [*]

@[simp] theorem execReleaseRequest_kept {p q} (s : State) (hp : s.pending = p) (hq : Grown q s.fuses) :
    Keeps p q (execReleaseRequest s) := by
  unfold execReleaseRequest; try simp only []
  split <;> simp [*]

@[simp] theorem takePlanItem_kept (s : State) (a1 : Bytes) :
    (takePlanItem s a1).pending = s.pending ∧ (takePlanItem s a1).fuses = s.fuses := by
  unfold takePlanItem; simp [*]

@[simp] theorem judgeIfWaiting_kept (s : State) :
    (judgeIfWaiting s).pending = s.pending ∧ (judgeIfWaiting s).fuses = s.fuses := by
  unfold judgeIfWaiting; try simp only []
  split <;> simp [*]

@[simp] theorem afterLatigo_kept (s : State) :
    (afterLatigo s).pending = s.pending ∧ (afterLatigo s).fuses = s.fuses := by
  unfold afterLatigo; simp [*]

@[simp] theorem addFact_kept (s : State) (a1 : Fact) :
    (addFact s a1).pending = s.pending ∧ (addFact s a1).fuses = s.fuses := by
  unfold addFact; simp [*]

@[simp] theorem scrambleOutputs_kept (s : State) (a1 : Inst) :
    (scrambleOutputs s a1).pending = s.pending ∧ (scrambleOutputs s a1).fuses = s.fuses := by
  unfold scrambleOutputs; simp [*]

@[simp] theorem endLatigo_kept (s : State) : (endLatigo s).pending = s.pending ∧ (endLatigo s).fuses = s.fuses := by
  unfold endLatigo; simp [*]

@[simp] theorem dropSweepHolds_kept (s : State) (a1 : Inst) :
    (dropSweepHolds s a1).pending = s.pending ∧ (dropSweepHolds s a1).fuses = s.fuses := by
  unfold dropSweepHolds; simp [*]

@[simp] theorem setInst_kept (s : State) (a1 : Inst) :
    (setInst s a1).pending = s.pending ∧ (setInst s a1).fuses = s.fuses := by
  unfold setInst; simp [*]

@[simp] theorem dropStream_kept (s : State) (a1 : Inst) :
    (dropStream s a1).pending = s.pending ∧ (dropStream s a1).fuses = s.fuses := by
  unfold dropStream; simp [*]

@[simp] theorem endStream_kept (s : State) (a1 : Inst) (a2 : Nat) :
    (endStream s a1 a2).pending = s.pending ∧ (endStream s a1 a2).fuses = s.fuses := by
  unfold endStream; simp [*]

@[simp] theorem finishInst_kept (s : State) (a1 : Inst) (a2 : Nat) :
    (finishInst s a1 a2).pending = s.pending ∧ (finishInst s a1 a2).fuses = s.fuses := by
  unfold finishInst; simp [*]

@[simp] theorem abortInst_kept (s : State) (a1 : Inst) (a2 : Nat) :
    (abortInst s a1 a2).pending = s.pending ∧ (abortInst s a1 a2).fuses = s.fuses := by
  unfold abortInst; simp [*]

@[simp] theorem abortAt_kept (s : State) (a1 : Nat) (a2 : Nat) (a3 : Nat) :
    (abortAt s a1 a2 a3).pending = s.pending ∧ (abortAt s a1 a2 a3).fuses = s.fuses := by
  unfold abortAt; try simp only []
  split <;> simp [*]

@[simp] theorem quarantineCore_kept (s : State) (a1 : Nat) :
    (quarantineCore s a1).pending = s.pending ∧ (quarantineCore s a1).fuses = s.fuses := by
  unfold quarantineCore; simp [*]

@[simp] theorem countCore_kept (s : State) (a1 : List Nat) :
    (countCore s a1).pending = s.pending ∧ (countCore s a1).fuses = s.fuses := by
  unfold countCore; simp [*]

@[simp] theorem latigoFails_kept (s : State) (a1 : Nat) :
    (latigoFails s a1).pending = s.pending ∧ (latigoFails s a1).fuses = s.fuses := by
  unfold latigoFails; simp [*]

@[simp] theorem latigoIncomplete_kept (s : State) :
    (latigoIncomplete s).pending = s.pending ∧ (latigoIncomplete s).fuses = s.fuses := by
  unfold latigoIncomplete; simp [*]

@[simp] theorem latigoHit_kept (s : State) : (latigoHit s).pending = s.pending ∧ (latigoHit s).fuses = s.fuses := by
  unfold latigoHit; simp [*]

@[simp] theorem quarantineTile_kept (s : State) (a1 : Nat) :
    (quarantineTile s a1).pending = s.pending ∧ (quarantineTile s a1).fuses = s.fuses := by
  unfold quarantineTile; simp [*]

@[simp] theorem countOutcome_kept (s : State) (a1 : List Nat) :
    (countOutcome s a1).pending = s.pending ∧ (countOutcome s a1).fuses = s.fuses := by
  unfold countOutcome; simp [*]

@[simp] theorem stitchFails_kept (s : State) (a1 : Nat) (a2 : SigRec) (a3 : SigRec) :
    (stitchFails s a1 a2 a3).pending = s.pending ∧ (stitchFails s a1 a2 a3).fuses = s.fuses := by
  unfold stitchFails; simp [*]

@[simp] theorem resolveEntry_kept (s : State) (a1 : StitchEntry) (a2 : SigRec) (a3 : SigRec) :
    (resolveEntry s a1 a2 a3).pending = s.pending ∧ (resolveEntry s a1 a2 a3).fuses = s.fuses := by
  unfold resolveEntry; try simp only []
  split <;> simp [*]

@[simp] theorem takeSignature_kept (s : State) (a1 : SigRec) :
    (takeSignature s a1).pending = s.pending ∧ (takeSignature s a1).fuses = s.fuses := by
  unfold takeSignature; try simp only []
  (repeat' split) <;> simp [*]

@[simp] theorem execSignatureRecord_kept {p q} (a0 : Nat) (s : State) (hp : s.pending = p) (hq : Grown q s.fuses) :
    Keeps p q (execSignatureRecord a0 s) := by
  unfold execSignatureRecord; try simp only []
  (repeat' split) <;> simp [*]

@[simp] theorem reinOverrun_kept (s : State) (a1 : Nat) (a2 : Nat) (a3 : Nat) :
    (reinOverrun s a1 a2 a3).pending = s.pending ∧ (reinOverrun s a1 a2 a3).fuses = s.fuses := by
  unfold reinOverrun; simp [*]

@[simp] theorem latigoOverrun_kept (s : State) (a1 : Nat) (a2 : Nat) :
    (latigoOverrun s a1 a2).pending = s.pending ∧ (latigoOverrun s a1 a2).fuses = s.fuses := by
  unfold latigoOverrun; simp [*]

@[simp] theorem execReinExpiry_kept {p q} (a0 : Nat) (a1 : Nat) (s : State) (hp : s.pending = p)
    (hq : Grown q s.fuses) :
    Keeps p q (execReinExpiry a0 a1 s) := by
  unfold execReinExpiry; try simp only []
  split <;> simp [*]

@[simp] theorem execInstanceComplete_kept {p q} (a0 : Nat) (a1 : Nat) (s : State) (hp : s.pending = p)
    (hq : Grown q s.fuses) :
    Keeps p q (execInstanceComplete a0 a1 s) := by
  unfold execInstanceComplete; try simp only []
  split <;> simp [*]

@[simp] theorem endPhaseHolds_kept (s : State) :
    (endPhaseHolds s).pending = s.pending ∧ (endPhaseHolds s).fuses = s.fuses := by
  unfold endPhaseHolds; simp [*]

@[simp] theorem holdForPhase_kept (s : State) (a1 : Nat) :
    (holdForPhase s a1).pending = s.pending ∧ (holdForPhase s a1).fuses = s.fuses := by
  unfold holdForPhase; simp [*]

@[simp] theorem placePhase_kept (s : State) (a1 : Nat) :
    (placePhase s a1).pending = s.pending ∧ (placePhase s a1).fuses = s.fuses := by
  unfold placePhase; simp [*]

@[simp] theorem releaseHeld_kept (s : State) :
    (releaseHeld s).pending = s.pending ∧ (releaseHeld s).fuses = s.fuses := by
  unfold releaseHeld; simp [*]

@[simp] theorem releasePhase_kept (s : State) (a1 : Nat) :
    (releasePhase s a1).pending = s.pending ∧ (releasePhase s a1).fuses = s.fuses := by
  unfold releasePhase; simp [*]

@[simp] theorem factFails_kept (s : State) : (factFails s).pending = s.pending ∧ (factFails s).fuses = s.fuses := by
  unfold factFails; try simp only []
  split <;> simp [*]

@[simp] theorem execPhaseRelease_kept {p q} (a0 : Nat) (s : State) (hp : s.pending = p) (hq : Grown q s.fuses) :
    Keeps p q (execPhaseRelease a0 s) := by
  unfold execPhaseRelease; simp [*]

@[simp] theorem debit_kept (s : State) (a1 : Nat) (a2 : ℤ × Nat) :
    (debit s a1 a2).pending = s.pending ∧ (debit s a1 a2).fuses = s.fuses := by
  unfold debit; simp [*]

@[simp] theorem noteStarved_kept (s : State) (a1 : Nat) :
    (noteStarved s a1).pending = s.pending ∧ (noteStarved s a1).fuses = s.fuses := by
  unfold noteStarved; simp [*]

@[simp] theorem spendTokens_kept {p q} (s : State) (w : Nat × Nat) (n : Nat) (hp : s.pending = p) (hq : s.fuses = q) :
    KeepsO p q (spendTokens s w n) := by
  unfold spendTokens; simp [*]

@[simp] theorem holdFact_kept (s : State) (a1 : Ready) (a2 : Nat) (a3 : Nat) :
    (holdFact s a1 a2 a3).pending = s.pending ∧ (holdFact s a1 a2 a3).fuses = s.fuses := by
  unfold holdFact; simp [*]

@[simp] theorem openStitch_kept (s : State) (a1 : Task) (a2 : Nat) :
    (openStitch s a1 a2).pending = s.pending ∧ (openStitch s a1 a2).fuses = s.fuses := by
  unfold openStitch; simp [*]

@[simp] theorem takeBatch_kept (s : State) (a1 : Ready) (a2 : Nat) (a3 : Nat) (a4 : Bool) :
    (takeBatch s a1 a2 a3 a4).pending = s.pending ∧ (takeBatch s a1 a2 a3 a4).fuses = s.fuses := by
  unfold takeBatch; simp [*]

@[simp] theorem takeHold_kept (s : State) (a1 : Ready) (a2 : Nat) (a3 : Nat) :
    (takeHold s a1 a2 a3).pending = s.pending ∧ (takeHold s a1 a2 a3).fuses = s.fuses := by
  unfold takeHold; simp [*]

@[simp] theorem wakeUsed_kept (s : State) (a1 : Nat) :
    (wakeUsed s a1).pending = s.pending ∧ (wakeUsed s a1).fuses = s.fuses := by
  unfold wakeUsed; simp [*]

@[simp] theorem startInst_kept (s : State) (a1 : Ready) (a2 : Nat) (a3 : Nat) (a4 : Nat) (a5 : Nat) (a6 : Nat)
    (a7 : Bool) :
    (startInst s a1 a2 a3 a4 a5 a6 a7).pending = s.pending ∧ (startInst s a1 a2 a3 a4 a5 a6 a7).fuses = s.fuses := by
  unfold startInst; simp [*]

@[simp] theorem streamRead_kept (s : State) (a1 : Nat) (a2 : Nat) (a3 : Task) :
    (streamRead s a1 a2 a3).pending = s.pending ∧ (streamRead s a1 a2 a3).fuses = s.fuses := by
  unfold streamRead; simp [*]

@[simp] theorem waitTokens_kept (s : State) (a1 : Nat × Nat) (a2 : Nat) :
    (waitTokens s a1 a2).pending = s.pending ∧ (waitTokens s a1 a2).fuses = s.fuses := by
  unfold waitTokens; simp [*]

@[simp] theorem tryStart_kept {p q} (s : State) (e : Ready) (tile ctx b : Nat) (own : Bool) (hp : s.pending = p) (hq : Grown q s.fuses) :
    Keeps p q (tryStart s e tile ctx b own) := by
  unfold tryStart; simp only []
  split
  · simp [*]
  · split
    · split <;> simp [*]
    · split
      · simp [*]
      · split
        · simp [*]
        · rename_i h
          split
          · split at h
            · have k := spendTokens_kept s (waiterOf s tile e.task.safe) 1 hp rfl
              rw [h] at k; obtain ⟨k1, k2⟩ := k
              split <;> simp [*]
            · cases h
              split <;> simp [*]
          · trivial

@[simp] theorem replayLate_kept (s : State) (a1 : Nat) :
    (replayLate s a1).pending = s.pending ∧ (replayLate s a1).fuses = s.fuses := by
  unfold replayLate; simp [*]

@[simp] theorem noteThief_kept (s : State) (a1 : Nat) (a2 : Ready) :
    (noteThief s a1 a2).pending = s.pending ∧ (noteThief s a1 a2).fuses = s.fuses := by
  unfold noteThief; simp [*]

@[simp] theorem noteTested_kept (s : State) (a1 : Nat) :
    (noteTested s a1).pending = s.pending ∧ (noteTested s a1).fuses = s.fuses := by
  unfold noteTested; simp [*]

@[simp] theorem wakeCopy_kept (s : State) (a1 : Inst) :
    (wakeCopy s a1).pending = s.pending ∧ (wakeCopy s a1).fuses = s.fuses := by
  unfold wakeCopy; simp [*]

@[simp] theorem copyList_kept (s : State) (a1 : Inst) :
    (copyList s a1).pending = s.pending ∧ (copyList s a1).fuses = s.fuses := by
  unfold copyList; simp [*]

@[simp] theorem applyAbort_kept (s : State) (a1 : Ready) (a2 : Nat) (a3 : Nat) (a4 : Fact) :
    (applyAbort s a1 a2 a3 a4).pending = s.pending ∧ (applyAbort s a1 a2 a3 a4).fuses = s.fuses := by
  unfold applyAbort; simp [*]

@[simp] theorem execDispatch_kept {p q} (a0 : Nat) (a1 : Nat) (s : State) (hp : s.pending = p)
    (hq : Grown q s.fuses) :
    Keeps p q (execDispatch a0 a1 s) := by
  unfold execDispatch; try simp only []
  (repeat' split) <;> simp [*]

@[simp] theorem execSteal_kept {p q} (a0 : Nat) (a1 : Nat) (s : State) (hp : s.pending = p) (hq : Grown q s.fuses) :
    Keeps p q (execSteal a0 a1 s) := by
  unfold execSteal; try simp only []
  (repeat' split) <;> simp [*]

@[simp] theorem execListCopyDone_kept {p q} (a0 : Nat) (a1 : Nat) (s : State) (hp : s.pending = p)
    (hq : Grown q s.fuses) :
    Keeps p q (execListCopyDone a0 a1 s) := by
  unfold execListCopyDone; try simp only []
  (repeat' split) <;> simp [*]

@[simp] theorem track_kept (s : State) (a1 : Completion) :
    (track s a1).pending = s.pending ∧ (track s a1).fuses = s.fuses := by
  unfold track; simp [*]

@[simp] theorem execCompletionRecord_kept {p q} (a0 : Nat) (s : State) (hp : s.pending = p) (hq : Grown q s.fuses) :
    Keeps p q (execCompletionRecord a0 s) := by
  unfold execCompletionRecord; try simp only []
  (repeat' split) <;> simp [*]

@[simp] theorem setOpp_kept (s : State) (a1 : Nat) (a2 : Nat) :
    (setOpp s a1 a2).pending = s.pending ∧ (setOpp s a1 a2).fuses = s.fuses := by
  unfold setOpp; simp [*]

@[simp] theorem retainCluster_kept (s : State) (a1 : Nat) :
    (retainCluster s a1).pending = s.pending ∧ (retainCluster s a1).fuses = s.fuses := by
  unfold retainCluster; simp [*]

@[simp] theorem execIslandGate_kept {p q} (a0 : Nat) (s : State) (hp : s.pending = p) (hq : Grown q s.fuses) :
    Keeps p q (execIslandGate a0 s) := by
  unfold execIslandGate; simp [*]

@[simp] theorem execTileIdle_kept {p q} (a0 : Nat) (s : State) (hp : s.pending = p) (hq : Grown q s.fuses) :
    Keeps p q (execTileIdle a0 s) := by
  unfold execTileIdle; simp [*]

@[simp] theorem pmcResumes_kept (s : State) :
    (pmcResumes s).pending = s.pending ∧ (pmcResumes s).fuses = s.fuses := by
  unfold pmcResumes; simp [*]

@[simp] theorem execOppSwitch_kept {p q} (cluster opp : Nat) (s : State) (hp : s.pending = p) (hq : Grown q s.fuses) :
    Keeps p q (execOppSwitch cluster opp s) := by
  have k := spendTokens_kept s (4, 16 + cluster) 4 hp rfl
  unfold execOppSwitch; simp only []
  (repeat' split) <;> simp_all

@[simp] theorem execIslandWake_kept {p q} (cluster : Nat) (s : State) (hp : s.pending = p) (hq : Grown q s.fuses) :
    Keeps p q (execIslandWake cluster s) := by
  have k := spendTokens_kept s (4, cluster) 1 hp rfl
  unfold execIslandWake
  (repeat' split) <;> simp_all

@[simp] theorem windowValues_kept (s : State) :
    (windowValues s).pending = s.pending ∧ (windowValues s).fuses = s.fuses := by
  unfold windowValues; try simp only []
  split <;> simp [*]

@[simp] theorem windowStart_kept (s : State) :
    (windowStart s).pending = s.pending ∧ (windowStart s).fuses = s.fuses := by
  unfold windowStart; simp [*]

@[simp] theorem execWakeToken_kept {p q} (s : State) (hp : s.pending = p) (hq : Grown q s.fuses) :
    Keeps p q (execWakeToken s) := by
  unfold execWakeToken; try simp only []
  split <;> simp [*]

@[simp] theorem execLedgerWindowStart_kept {p q} (s : State) (hp : s.pending = p) (hq : Grown q s.fuses) :
    Keeps p q (execLedgerWindowStart s) := by
  unfold execLedgerWindowStart; simp [*]

@[simp] theorem execAvsbusSetpointChange_kept {p q} (a0 : Nat) (s : State) (hp : s.pending = p)
    (hq : Grown q s.fuses) :
    Keeps p q (execAvsbusSetpointChange a0 s) := by
  unfold execAvsbusSetpointChange; simp [*]

@[simp] theorem writeRow_kept (s : State) (a1 : Nat) (a2 : Nat) (a3 : Tref) (a4 : Nat → Rm) (a5 : Nat)
    (a6 : List Val) :
    (writeRow s a1 a2 a3 a4 a5 a6).1.pending = s.pending ∧ (writeRow s a1 a2 a3 a4 a5 a6).1.fuses = s.fuses := by
  unfold writeRow; try simp only []
  split <;> simp [*]

@[simp] theorem writeTensor_kept (s : State) (tile f : Nat) (t : Tref) (rm : Nat → Rm) (rows : List (List Val)) :
    (writeTensor s tile f t rm rows).1.pending = s.pending ∧ (writeTensor s tile f t rm rows).1.fuses = s.fuses := by
  unfold writeTensor
  refine foldl_kept2 _ ?_ _ _
  intro s x; simp

theorem correctReads_kept (b : Nat) (s : State) (l : List (Nat × Nat)) :
    (l.foldl (fun t r => correctRead t (b + r.1) r.2) s).pending = s.pending ∧
    (l.foldl (fun t r => correctRead t (b + r.1) r.2) s).fuses = s.fuses :=
  foldl_kept _ (fun s x => correctRead_kept s (b + x.1) x.2) l s

@[simp] theorem correctAccess_kept (s : State) (tile : Nat) (a : Access) :
    (correctAccess s tile a).pending = s.pending ∧ (correctAccess s tile a).fuses = s.fuses := by
  rw [correctAccess]
  exact correctReads_kept _ _ _

@[simp] theorem noteIssue_kept (s : State) (a1 : Inst) (a2 : Bytes) (a3 : Bool) (a4 : List (Nat × Nat)) :
    (noteIssue s a1 a2 a3 a4).pending = s.pending ∧ (noteIssue s a1 a2 a3 a4).fuses = s.fuses := by
  unfold noteIssue; simp [*]

@[simp] theorem readerAborts_kept (s : State) (a1 : Nat) (a2 : Nat) (a3 : Nat) :
    (readerAborts s a1 a2 a3).pending = s.pending ∧ (readerAborts s a1 a2 a3).fuses = s.fuses := by
  unfold readerAborts; simp [*]

@[simp] theorem wakeAccess_kept (s : State) (a1 : Nat) (a2 : Access) :
    (wakeAccess s a1 a2).pending = s.pending ∧ (wakeAccess s a1 a2).fuses = s.fuses := by
  unfold wakeAccess; simp [*]

@[simp] theorem issueDesc_kept {p q} (s : State) (tile ctx op : Nat) (r : DescRun)
    (hp : s.pending = p) (hq : Grown q s.fuses)
    (hf : ∀ s i d k, s.pending = p → Grown q s.fuses → KeepsE p q (r.run s i d k)) :
    Keeps p q (issueDesc s tile ctx op r) := by
  unfold issueDesc; (try simp only [])
  (repeat' split) <;> simp [*]

@[simp] theorem gatherFlags_kept (s : State) (a1 : Nat) (a2 : Nat) (a3 : Nat) :
    (gatherFlags s a1 a2 a3).pending = s.pending ∧ (gatherFlags s a1 a2 a3).fuses = s.fuses := by
  unfold gatherFlags; try simp only []
  split <;> simp [*]

@[simp] theorem landFlags_kept {p q} (i : Inst) (w : Flagged State) (more : Nat) (hp : w.1.pending = p) (hq : Grown q w.1.fuses) :
    KeepsE p q (landFlags i w more) := by
  unfold landFlags; simp [*]

@[simp] theorem acceptReq_kept {p q} (s : State) (a1 : Inst) (a2 : Bytes) (a3 : Nat) (hp : s.pending = p)
    (hq : Grown q s.fuses) :
    KeepsE p q (acceptReq s a1 a2 a3) := by
  unfold acceptReq; simp [*]

@[simp] theorem writeRows_kept (s : State) (a1 : Nat) (a2 : Tref) (a3 : List Bytes) :
    (writeRows s a1 a2 a3).pending = s.pending ∧ (writeRows s a1 a2 a3).fuses = s.fuses := by
  unfold writeRows; simp [*]

@[simp] theorem landFetch_kept (s : State) (a1 : Inst) (a2 : Bytes) :
    (landFetch s a1 a2).pending = s.pending ∧ (landFetch s a1 a2).fuses = s.fuses := by
  unfold landFetch; simp [*]

@[simp] theorem execDmareq_kept {p q} (a0 : Nat) (a1 : Nat) (s : State) (hp : s.pending = p) (hq : Grown q s.fuses) :
    Keeps p q (execDmareq a0 a1 s) := by
  unfold execDmareq
  try split
  all_goals first
  | (simp [*]; done)
  | (refine issueDesc_kept _ _ _ _ _ hp hq ?_
     intro s i d k hp hq
     simp only [dmareqRun]
     first
     | (simp [*]; done)
     | ((repeat' split) <;> simp [*]; done))

@[simp] theorem execFence_kept {p q} (a0 : Nat) (a1 : Nat) (s : State) (hp : s.pending = p) (hq : Grown q s.fuses) :
    Keeps p q (execFence a0 a1 s) := by
  unfold execFence
  try split
  all_goals first
  | (simp [*]; done)
  | (refine issueDesc_kept _ _ _ _ _ hp hq ?_
     intro s i d k hp hq
     simp only [fenceRun]
     first
     | (simp [*]; done)
     | ((repeat' split) <;> simp [*]; done))

@[simp] theorem fetchFault_kept (s : State) (a1 : Inst) (a2 : Bytes) (a3 : Nat) :
    (fetchFault s a1 a2 a3).pending = s.pending ∧ (fetchFault s a1 a2 a3).fuses = s.fuses := by
  unfold fetchFault; simp [*]

@[simp] theorem execMovePut_kept {p q} (tile ctx : Nat) (s : State) (hp : s.pending = p) (hq : Grown q s.fuses) :
    Keeps p q (execMovePut tile ctx s) := by
  unfold execMovePut
  refine issueDesc_kept _ _ _ _ _ hp hq ?_
  intro s i d k hp hq
  simp only [putRun]
  have h := fun l => foldl_kept (fun (u : State) (p : (Nat × Nat) × Bytes) => match putKey i p.1.1 p.1.2 with
    | some k => devWrite u k p.2
    | none => u) (fun s x => by split <;> simp) l s
  split
  · trivial
  · exact keepsE_ok.2 ⟨(h _).1.trans hp, (congrArg (Grown q) (h _).2).mpr hq⟩

@[simp] theorem correctFetch_kept (s : State) (a1 : List (Nat × Nat)) :
    (correctFetch s a1).pending = s.pending ∧ (correctFetch s a1).fuses = s.fuses := by
  unfold correctFetch; simp [*]

@[simp] theorem execMoveFetch_kept {p q} (a0 : Nat) (a1 : Nat) (s : State) (hp : s.pending = p)
    (hq : Grown q s.fuses) :
    Keeps p q (execMoveFetch a0 a1 s) := by
  unfold execMoveFetch
  try split
  all_goals first
  | (simp [*]; done)
  | (refine issueDesc_kept _ _ _ _ _ hp hq ?_
     intro s i d k hp hq
     simp only [fetchRun]
     first
     | (simp [*]; done)
     | ((repeat' split) <;> simp [*]; done))

@[simp] theorem execNop_kept {p q} (a0 : Nat) (a1 : Nat) (s : State) (hp : s.pending = p) (hq : Grown q s.fuses) :
    Keeps p q (execNop a0 a1 s) := by
  unfold execNop
  try split
  all_goals first
  | (simp [*]; done)
  | (refine issueDesc_kept _ _ _ _ _ hp hq ?_
     intro s i d k hp hq
     simp only [nopRun]
     first
     | (simp [*]; done)
     | ((repeat' split) <;> simp [*]; done))

@[simp] theorem execMoveFill_kept {p q} (a0 : Nat) (a1 : Nat) (s : State) (hp : s.pending = p)
    (hq : Grown q s.fuses) :
    Keeps p q (execMoveFill a0 a1 s) := by
  unfold execMoveFill
  try split
  all_goals first
  | (simp [*]; done)
  | (refine issueDesc_kept _ _ _ _ _ hp hq ?_
     intro s i d k hp hq
     simp only [fillRun]
     first
     | (simp [*]; done)
     | ((repeat' split) <;> simp [*]; done))

@[simp] theorem execMoveCopy_kept {p q} (a0 : Nat) (a1 : Nat) (s : State) (hp : s.pending = p)
    (hq : Grown q s.fuses) :
    Keeps p q (execMoveCopy a0 a1 s) := by
  unfold execMoveCopy
  try split
  all_goals first
  | (simp [*]; done)
  | (refine issueDesc_kept _ _ _ _ _ hp hq ?_
     intro s i d k hp hq
     simp only [copyRun]
     first
     | (simp [*]; done)
     | ((repeat' split) <;> simp [*]; done))

@[simp] theorem retire_kept (s : State) (a1 : Nat) (a2 : Nat) (a3 : Nat) :
    (retire s a1 a2 a3).pending = s.pending ∧ (retire s a1 a2 a3).fuses = s.fuses := by
  unfold retire; try simp only []
  split <;> simp [*]

theorem scrambleRanges_kept (i : Inst) (l : List (Nat × Nat)) (s : State) :
    (l.foldl (fun u r => match putKey i r.1 r.2 with
      | some a => devScramble u a r.2
      | none => u) s).pending = s.pending ∧
    (l.foldl (fun u r => match putKey i r.1 r.2 with
      | some a => devScramble u a r.2
      | none => u) s).fuses = s.fuses :=
  foldl_kept _ (fun s x => by split <;> simp) l s

@[simp] theorem putTimeout_kept (s : State) (i : Inst) (d : Bytes) (k : Nat) :
    (putTimeout s i d k).pending = s.pending ∧ (putTimeout s i d k).fuses = s.fuses := by
  unfold putTimeout
  have h := scrambleRanges_kept i (fabricRanges d (dTref d 0x10)) s
  simp only [retire_kept, sendOpenEvent_kept]
  exact h

@[simp] theorem putMismatch_kept (s : State) (a1 : Inst) (a2 : Bytes) (a3 : Nat) :
    (putMismatch s a1 a2 a3).pending = s.pending ∧ (putMismatch s a1 a2 a3).fuses = s.fuses := by
  unfold putMismatch; try simp only []
  (repeat' split) <;> simp [*]

@[simp] theorem takeToken_kept (s : State) (a1 : Nat) (a2 : Nat) (a3 : Nat) :
    (takeToken s a1 a2 a3).pending = s.pending ∧ (takeToken s a1 a2 a3).fuses = s.fuses := by
  unfold takeToken; simp [*]

@[simp] theorem setFlow_kept (s : State) (a1 : Flow) :
    (setFlow s a1).pending = s.pending ∧ (setFlow s a1).fuses = s.fuses := by
  unfold setFlow; simp [*]

@[simp] theorem flowDup_kept (s : State) : (flowDup s).pending = s.pending ∧ (flowDup s).fuses = s.fuses := by
  unfold flowDup; simp [*]

@[simp] theorem offerItem_kept {p q} (s : State) (i : Inst) (f seq : Nat) (item : Bytes) (hp : s.pending = p) (hq : s.fuses = q) :
    KeepsO p q (offerItem s i f seq item) := by
  unfold offerItem; (try simp only []); (repeat' split) <;> simp [*]

@[simp] theorem servedEmit_kept (s : State) (a1 : Inst) (a2 : Nat) :
    (servedEmit s a1 a2).pending = s.pending ∧ (servedEmit s a1 a2).fuses = s.fuses := by
  unfold servedEmit; simp [*]

theorem retryStalled_kept {p q} (s : State) (i : Inst) (d : Bytes) (k : Nat) (hp : s.pending = p) (hq : Grown q s.fuses) (a : Attempt)
    (h : retryStalled s i d k = some a) : KeepsE p q a := by
  unfold retryStalled at h; simp only [] at h
  split at h
  · cases h; simp [*]
  · split at h
    · split at h
      · cases h
      · have e := offerItem_kept (setInst s { i with stalled := i.stalled.filter (· ≠ k) }) { i with stalled := i.stalled.filter (· ≠ k) }
          (fieldAt d 0x10 2) (fieldAt d 0x14 4) (emitItem s i d) (p := p) (q := s.fuses) (by simp [hp]) (by simp)
        rw [Option.map_eq_some_iff] at h
        obtain ⟨t, h1, rfl⟩ := h
        rw [h1] at e; simp [e.1, e.2, hq]
    · split at h
      · cases h; simp [*]
      · cases h

@[simp] theorem execDescriptorComplete_kept {p q} (tile ctx index : Nat) (s : State) (hp : s.pending = p) (hq : Grown q s.fuses) :
    Keeps p q (execDescriptorComplete tile ctx index s) := by
  unfold execDescriptorComplete
  split
  · simp [*]
  · split
    · simp [*]
    · split
      · simp [*]
      · rename_i h
        exact ofAttempt_kept (mapE_kept (retryStalled_kept _ _ _ _ hp hq _ h) (by intro t h1 h2; simp [h1, h2]))

@[simp] theorem sendSignal_kept (s : State) (a1 : Inst) (a2 : Bytes) (a3 : Nat) :
    (sendSignal s a1 a2 a3).pending = s.pending ∧ (sendSignal s a1 a2 a3).fuses = s.fuses := by
  unfold sendSignal; simp [*]

@[simp] theorem execWait_kept {p q} (a0 : Nat) (a1 : Nat) (s : State) (hp : s.pending = p) (hq : Grown q s.fuses) :
    Keeps p q (execWait a0 a1 s) := by
  unfold execWait
  try split
  all_goals first
  | (simp [*]; done)
  | (refine issueDesc_kept _ _ _ _ _ hp hq ?_
     intro s i d k hp hq
     simp only [waitRun]
     first
     | (simp [*]; done)
     | ((repeat' split) <;> simp [*]; done))

@[simp] theorem execTokenIncrement_kept {p q} (a0 : Nat) (a1 : Nat) (a2 : Nat) (s : State)
    (hp : s.pending = p) (hq : Grown q s.fuses) :
    Keeps p q (execTokenIncrement a0 a1 a2 s) := by
  unfold execTokenIncrement; try simp only []
  split <;> simp [*]

@[simp] theorem execSignal_kept {p q} (a0 : Nat) (a1 : Nat) (s : State) (hp : s.pending = p) (hq : Grown q s.fuses) :
    Keeps p q (execSignal a0 a1 s) := by
  unfold execSignal
  try split
  all_goals first
  | (simp [*]; done)
  | (refine issueDesc_kept _ _ _ _ _ hp hq ?_
     intro s i d k hp hq
     simp only [signalRun]
     first
     | (simp [*]; done)
     | ((repeat' split) <;> simp [*]; done))

@[simp] theorem execPutTimeout_kept {p q} (a0 : Nat) (a1 : Nat) (s : State) (hp : s.pending = p)
    (hq : Grown q s.fuses) :
    Keeps p q (execPutTimeout a0 a1 s) := by
  unfold execPutTimeout; try simp only []
  (repeat' split) <;> simp [*]

@[simp] theorem execEmit_kept {p q} (tile ctx : Nat) (s : State) (hp : s.pending = p) (hq : Grown q s.fuses) :
    Keeps p q (execEmit tile ctx s) := by
  unfold execEmit
  refine issueDesc_kept _ _ _ _ _ hp hq ?_
  intro s i d k hp hq
  simp only [emitRun]
  have h := offerItem_kept s i (fieldAt d 0x10 2) (fieldAt d 0x14 4) (emitItem s i d) hp rfl
  split
  · rename_i e; rw [e] at h; simp [h.1, h.2, hq]
  · simp [*]

@[simp] theorem landLists_kept {p q} (s : State) (a1 : Inst) (a2 : Bytes) (a3 : List Bytes) (a4 : Nat)
    (hp : s.pending = p) (hq : Grown q s.fuses) :
    KeepsE p q (landLists s a1 a2 a3 a4) := by
  unfold landLists; simp [*]

@[simp] theorem execTopk_kept {p q} (a0 : Nat) (a1 : Nat) (s : State) (hp : s.pending = p) (hq : Grown q s.fuses) :
    Keeps p q (execTopk a0 a1 s) := by
  unfold execTopk
  try split
  all_goals first
  | (simp [*]; done)
  | (refine issueDesc_kept _ _ _ _ _ hp hq ?_
     intro s i d k hp hq
     simp only [topkRun]
     first
     | (simp [*]; done)
     | ((repeat' split) <;> simp [*]; done))

@[simp] theorem execKnn_kept {p q} (a0 : Nat) (a1 : Nat) (s : State) (hp : s.pending = p) (hq : Grown q s.fuses) :
    Keeps p q (execKnn a0 a1 s) := by
  unfold execKnn
  try split
  all_goals first
  | (simp [*]; done)
  | (refine issueDesc_kept _ _ _ _ _ hp hq ?_
     intro s i d k hp hq
     simp only [knnRun]
     first
     | (simp [*]; done)
     | ((repeat' split) <;> simp [*]; done))

@[simp] theorem execTopkMerge_kept {p q} (a0 : Nat) (a1 : Nat) (s : State) (hp : s.pending = p)
    (hq : Grown q s.fuses) :
    Keeps p q (execTopkMerge a0 a1 s) := by
  unfold execTopkMerge
  try split
  all_goals first
  | (simp [*]; done)
  | (refine issueDesc_kept _ _ _ _ _ hp hq ?_
     intro s i d k hp hq
     simp only [mergeRun]
     first
     | (simp [*]; done)
     | ((repeat' split) <;> simp [*]; done))

@[simp] theorem fillMissing_kept (s : State) (a1 : Coll) :
    (fillMissing s a1).pending = s.pending ∧ (fillMissing s a1).fuses = s.fuses := by
  unfold fillMissing; simp [*]

@[simp] theorem setColl_kept (s : State) (a1 : Coll) :
    (setColl s a1).pending = s.pending ∧ (setColl s a1).fuses = s.fuses := by
  unfold setColl; simp [*]

@[simp] theorem completeColl_kept (s : State) (a1 : Coll) (a2 : Nat) (a3 : Nat) :
    (completeColl s a1 a2 a3).pending = s.pending ∧ (completeColl s a1 a2 a3).fuses = s.fuses := by
  unfold completeColl; simp [*]

@[simp] theorem collSettled_kept (s : State) (a1 : Batch) (a2 : Nat) (a3 : Nat) :
    (collSettled s a1 a2 a3).pending = s.pending ∧ (collSettled s a1 a2 a3).fuses = s.fuses := by
  unfold collSettled; try simp only []
  (repeat' split) <;> simp [*]

@[simp] theorem updateReach_kept (s : State) :
    (updateReach s).pending = s.pending ∧ (updateReach s).fuses = s.fuses := by
  unfold updateReach; simp [*]

@[simp] theorem submitColl_kept (s : State) (a1 : Coll) (a2 : Nat) :
    (submitColl s a1 a2).pending = s.pending ∧ (submitColl s a1 a2).fuses = s.fuses := by
  unfold submitColl; simp [*]

@[simp] theorem advanceColl_kept (s : State) (a1 : Coll) :
    (advanceColl s a1).pending = s.pending ∧ (advanceColl s a1).fuses = s.fuses := by
  unfold advanceColl; simp [*]

@[simp] theorem sendLink_kept (s : State) (a1 : Nat) (a2 : State → Bytes) :
    (sendLink s a1 a2).pending = s.pending ∧ (sendLink s a1 a2).fuses = s.fuses := by
  unfold sendLink; simp [*]

@[simp] theorem broadcastColl_kept (s : State) (a1 : Coll) (a2 : Nat) (a3 : Bytes) :
    (broadcastColl s a1 a2 a3).pending = s.pending ∧ (broadcastColl s a1 a2 a3).fuses = s.fuses := by
  unfold broadcastColl; simp [*]

@[simp] theorem keepPart_kept (s : State) (a1 : Coll) (a2 : Nat) (a3 : Nat) (a4 : Nat) (a5 : Bytes) :
    (keepPart s a1 a2 a3 a4 a5).pending = s.pending ∧ (keepPart s a1 a2 a3 a4 a5).fuses = s.fuses := by
  unfold keepPart; simp [*]

@[simp] theorem deliverFrame_kept {p q} (s : State) (a1 : Bytes) (hp : s.pending = p) (hq : Grown q s.fuses) :
    KeepsE p q (deliverFrame s a1) := by
  unfold deliverFrame; try simp only []
  split <;> simp [*]

@[simp] theorem issueColl_kept {p q} (s : State) (item : Bytes) (hp : s.pending = p) (hq : Grown q s.fuses) :
    KeepsE p q (issueColl s item) := by
  unfold issueColl
  split
  · trivial
  · simp only []
    refine foldl_keptE _ (fun a x h => bindE_kept h fun t h1 h2 => deliverFrame_kept _ _ h1 h2) _ _ ?_
    (repeat' split) <;> simp [*]

@[simp] theorem forwardFrame_kept (s : State) (a1 : Nat) (a2 : Bytes) :
    (forwardFrame s a1 a2).pending = s.pending ∧ (forwardFrame s a1 a2).fuses = s.fuses := by
  unfold forwardFrame; simp [*]

@[simp] theorem takeFrame_kept {p q} (s : State) (a1 : Nat) (a2 : Bytes) (hp : s.pending = p) (hq : Grown q s.fuses) :
    KeepsE p q (takeFrame s a1 a2) := by
  unfold takeFrame; try simp only []
  (repeat' split) <;> simp_all

@[simp] theorem execCollFrameRx_kept {p q} (a0 : Nat) (a1 : Bytes) (s : State) (hp : s.pending = p)
    (hq : Grown q s.fuses) :
    Keeps p q (execCollFrameRx a0 a1 s) := by
  unfold execCollFrameRx; simp [*]

@[simp] theorem execLkLinkChange_kept {p q} (a0 : Nat) (a1 : LinkTurn) (s : State) (hp : s.pending = p)
    (hq : Grown q s.fuses) :
    Keeps p q (execLkLinkChange a0 a1 s) := by
  unfold execLkLinkChange; simp [*]

@[simp] theorem execCollTimeout_kept {p q} (a0 : Nat) (s : State) (hp : s.pending = p) (hq : Grown q s.fuses) :
    Keeps p q (execCollTimeout a0 s) := by
  unfold execCollTimeout; try simp only []
  split <;> simp [*]

@[simp] theorem dropObject_kept (s : State) (a1 : Half) (a2 : Nat) :
    (dropObject s a1 a2).pending = s.pending ∧ (dropObject s a1 a2).fuses = s.fuses := by
  unfold dropObject; simp [*]

@[simp] theorem takePiece_kept (s : State) (a1 : Msg) :
    (takePiece s a1).1.pending = s.pending ∧ (takePiece s a1).1.fuses = s.fuses := by
  unfold takePiece; try simp only []
  (repeat' split) <;> simp [*]

@[simp] theorem pieceRun_kept {p q} (s : State) (m : Msg) (whole : State → Bytes → Result)
    (hp : s.pending = p) (hq : Grown q s.fuses) (hf : ∀ t bs, t.pending = p → Grown q t.fuses → Keeps p q (whole t bs)) :
    Keeps p q (pieceRun s m whole) := by
  have h := takePiece_kept s m
  unfold pieceRun
  split
  · trivial
  · split <;> rename_i x <;> simp only [x] at h
    · simp [*]
    · simp [*]
    · exact hf _ _ (by simp [h, hp]) (by simp [h, hq])

@[simp] theorem pieceRun0_kept {p q} (s : State) (m : Msg) (whole : State → Bytes → Result)
    (hp : s.pending = p) (hq : Grown q s.fuses) (hf : ∀ t bs, t.pending = p → Grown q t.fuses → Keeps p q (whole t bs)) :
    Keeps p q (pieceRun0 s m whole) := by
  unfold pieceRun0; split
  · simp [*]
  · exact pieceRun_kept s m whole hp hq hf

@[simp] theorem countGenerated_kept (s : State) (a1 : Inst) (a2 : Nat) :
    (countGenerated s a1 a2).pending = s.pending ∧ (countGenerated s a1 a2).fuses = s.fuses := by
  unfold countGenerated; simp [*]

@[simp] theorem landCandidates_kept (s : State) (a1 : Inst) (a2 : Bytes) (a3 : Nat) :
    (landCandidates s a1 a2 a3).pending = s.pending ∧ (landCandidates s a1 a2 a3).fuses = s.fuses := by
  unfold landCandidates; simp [*]

@[simp] theorem landNoStart_kept (s : State) (a1 : Inst) (a2 : Bytes) :
    (landNoStart s a1 a2).pending = s.pending ∧ (landNoStart s a1 a2).fuses = s.fuses := by
  unfold landNoStart; simp [*]

@[simp] theorem execGenprim_kept {p q} (a0 : Nat) (a1 : Nat) (s : State) (hp : s.pending = p) (hq : Grown q s.fuses) :
    Keeps p q (execGenprim a0 a1 s) := by
  unfold execGenprim
  try split
  all_goals first
  | (simp [*]; done)
  | (refine issueDesc_kept _ _ _ _ _ hp hq ?_
     intro s i d k hp hq
     simp only [genprimRun]
     first
     | (simp [*]; done)
     | ((repeat' split) <;> simp [*]; done))

@[simp] theorem readBatch_kept (s : State) (a1 : Batch) :
    (readBatch s a1).pending = s.pending ∧ (readBatch s a1).fuses = s.fuses := by
  unfold readBatch; simp [*]

@[simp] theorem takeBatchToStaging_kept (s : State) (a1 : Batch) :
    (takeBatchToStaging s a1).pending = s.pending ∧ (takeBatchToStaging s a1).fuses = s.fuses := by
  unfold takeBatchToStaging; simp [*]

@[simp] theorem execWorldBatchTake_kept {p q} (s : State) (hp : s.pending = p) (hq : Grown q s.fuses) :
    Keeps p q (execWorldBatchTake s) := by
  unfold execWorldBatchTake; try simp only []
  split <;> simp [*]

@[simp] theorem publishAs_kept (s : State) (a1 : Nat) (a2 : Nat) (a3 : Bytes) (a4 : Built) :
    (publishAs s a1 a2 a3 a4).pending = s.pending ∧ (publishAs s a1 a2 a3 a4).fuses = s.fuses := by
  unfold publishAs; simp [*]

@[simp] theorem unstage_kept (s : State) (a1 : Batch) :
    (unstage s a1).pending = s.pending ∧ (unstage s a1).fuses = s.fuses := by
  unfold unstage; simp [*]

@[simp] theorem rejectBatch_kept (s : State) (a1 : Batch) (a2 : Nat) :
    (rejectBatch s a1 a2).pending = s.pending ∧ (rejectBatch s a1 a2).fuses = s.fuses := by
  unfold rejectBatch; try simp only []
  split <;> simp [*]

@[simp] theorem publishFact_kept (s : State) (a1 : Nat) (a2 : Nat) :
    (publishFact s a1 a2).pending = s.pending ∧ (publishFact s a1 a2).fuses = s.fuses := by
  unfold publishFact; simp [*]

@[simp] theorem writeSlots_kept (s : State) (a1 : FreeMap) (a2 : List (Nat × Nat)) :
    (writeSlots s a1 a2).pending = s.pending ∧ (writeSlots s a1 a2).fuses = s.fuses := by
  unfold writeSlots; simp [*]

@[simp] theorem buildBatch_kept (s : State) (a1 : Batch) :
    (buildBatch s a1).pending = s.pending ∧ (buildBatch s a1).fuses = s.fuses := by
  unfold buildBatch; try simp only []
  split <;> simp [*]

@[simp] theorem execBatchApply_kept {p q} (s : State) (hp : s.pending = p) (hq : Grown q s.fuses) :
    Keeps p q (execBatchApply s) := by
  unfold execBatchApply; try simp only []
  split <;> simp [*]

@[simp] theorem publishNow_kept (s : State) (a1 : Nat) (a2 : Built) :
    (publishNow s a1 a2).pending = s.pending ∧ (publishNow s a1 a2).fuses = s.fuses := by
  unfold publishNow; try simp only []
  split <;> simp [*]

@[simp] theorem execEpochPublish_kept {p q} (s : State) (hp : s.pending = p) (hq : Grown q s.fuses) :
    Keeps p q (execEpochPublish s) := by
  unfold execEpochPublish; try simp only []
  split <;> simp [*]

@[simp] theorem hostBatch_kept (s : State) (a1 : Msg) (a2 : Bytes) :
    (hostBatch s a1 a2).pending = s.pending ∧ (hostBatch s a1 a2).fuses = s.fuses := by
  unfold hostBatch; simp [*]

@[simp] theorem execWorldDelta_kept {p q} (s : State) (hp : s.pending = p) (hq : Grown q s.fuses) :
    Keeps p q (execWorldDelta s) := by
  unfold execWorldDelta; try simp only []
  (repeat' split) <;> simp_all

@[simp] theorem execWorldBankRepair_kept {p q} (a0 : Nat) (a1 : Nat) (s : State) (hp : s.pending = p)
    (hq : Grown q s.fuses) :
    Keeps p q (execWorldBankRepair a0 a1 s) := by
  unfold execWorldBankRepair; simp [*]

@[simp] theorem blockFlow_kept (s : State) (a1 : Flow) :
    (blockFlow s a1).pending = s.pending ∧ (blockFlow s a1).fuses = s.fuses := by
  unfold blockFlow; simp [*]

@[simp] theorem releaseToRing_kept (s : State) (a1 : FlowCfg) (a2 : Flow) (a3 : Word) (a4 : Bytes)
    (a5 : List FlowItem) :
    (releaseToRing s a1 a2 a3 a4 a5).pending = s.pending ∧ (releaseToRing s a1 a2 a3 a4 a5).fuses = s.fuses := by
  unfold releaseToRing; simp [*]

@[simp] theorem toPlanSink_kept {p q} (s : State) (a1 : Bytes) (hp : s.pending = p) (hq : Grown q s.fuses) :
    KeepsE p q (toPlanSink s a1) := by
  unfold toPlanSink; simp [*]

@[simp] theorem toWorldSink_kept {p q} (s : State) (a1 : FlowItem) (hp : s.pending = p) (hq : Grown q s.fuses) :
    KeepsE p q (toWorldSink s a1) := by
  unfold toWorldSink; simp [*]

@[simp] theorem toSink_kept {p q} (s : State) (a1 : Nat) (a2 : FlowItem) (hp : s.pending = p) (hq : Grown q s.fuses) :
    KeepsE p q (toSink s a1 a2) := by
  unfold toSink; simp [*]

@[simp] theorem releaseItem_kept {p q} (s : State) (a1 : Nat) (a2 : Flow) (a3 : FlowItem) (a4 : List FlowItem)
    (hp : s.pending = p) (hq : Grown q s.fuses) :
    KeepsE p q (releaseItem s a1 a2 a3 a4) := by
  unfold releaseItem; try simp only []
  (repeat' split) <;> simp [*]

@[simp] theorem execFlowRelease_kept {p q} (a0 : Nat) (s : State) (hp : s.pending = p) (hq : Grown q s.fuses) :
    Keeps p q (execFlowRelease a0 s) := by
  unfold execFlowRelease; try simp only []
  split <;> simp [*]

@[simp] theorem resetRing_kept (s : State) (a1 : FlowCfg) :
    (resetRing s a1).pending = s.pending ∧ (resetRing s a1).fuses = s.fuses := by
  unfold resetRing; simp [*]

@[simp] theorem resetRings_kept (s : State) :
    (resetRings s).pending = s.pending ∧ (resetRings s).fuses = s.fuses := by
  unfold resetRings; try simp only []
  split <;> simp [*]

@[simp] theorem execFlowAckPoll_kept {p q} (a0 : Nat) (s : State) (hp : s.pending = p) (hq : Grown q s.fuses) :
    Keeps p q (execFlowAckPoll a0 s) := by
  unfold execFlowAckPoll; try simp only []
  split <;> simp [*]

@[simp] theorem takeUpRings_kept (s : State) :
    (takeUpRings s).pending = s.pending ∧ (takeUpRings s).fuses = s.fuses := by
  unfold takeUpRings; try simp only []
  split <;> simp [*]

@[simp] theorem emptyFlow_kept (s : State) (a1 : Flow) :
    (emptyFlow s a1).pending = s.pending ∧ (emptyFlow s a1).fuses = s.fuses := by
  unfold emptyFlow; simp [*]

@[simp] theorem emptyFlows_kept (s : State) :
    (emptyFlows s).pending = s.pending ∧ (emptyFlows s).fuses = s.fuses := by
  unfold emptyFlows; simp [*]

@[simp] theorem paramsInForce_kept (s : State) :
    (paramsInForce s).pending = s.pending ∧ (paramsInForce s).fuses = s.fuses := by
  unfold paramsInForce; simp [*]

@[simp] theorem weightsInForce_kept (s : State) :
    (weightsInForce s).pending = s.pending ∧ (weightsInForce s).fuses = s.fuses := by
  unfold weightsInForce; simp [*]

@[simp] theorem recheckLost_kept (s : State) :
    (recheckLost s).pending = s.pending ∧ (recheckLost s).fuses = s.fuses := by
  unfold recheckLost; simp [*]

@[simp] theorem setStaged_kept (s : State) (a1 : Staged) :
    (setStaged s a1).pending = s.pending ∧ (setStaged s a1).fuses = s.fuses := by
  unfold setStaged; simp [*]

@[simp] theorem abandonLoad_kept (s : State) :
    (abandonLoad s).pending = s.pending ∧ (abandonLoad s).fuses = s.fuses := by
  unfold abandonLoad; simp [*]

@[simp] theorem beginLoad_kept (s : State) : (beginLoad s).pending = s.pending ∧ (beginLoad s).fuses = s.fuses := by
  unfold beginLoad; try simp only []
  split <;> simp [*]

@[simp] theorem loadImagePiece_kept {p q} (s : State) (m : Msg) (hp : s.pending = p) (hq : Grown q s.fuses) :
    Keeps p q (loadImagePiece s m) := by
  have h := takePiece_kept s m
  unfold loadImagePiece; simp only []
  split
  · simp [*]
  · split
    · trivial
    · split <;> rename_i x <;> simp only [x] at h
      · simp [*]
      · split <;> simp [*]
      · split <;> simp [*]

@[simp] theorem writeProfile_kept (s : State) (a1 : Nat × Bytes) :
    (writeProfile s a1).pending = s.pending ∧ (writeProfile s a1).fuses = s.fuses := by
  unfold writeProfile; simp [*]

@[simp] theorem setProfile_kept (s : State) (a1 : Msg) (a2 : Nat) (a3 : Bytes) :
    (setProfile s a1 a2 a3).pending = s.pending ∧ (setProfile s a1 a2 a3).fuses = s.fuses := by
  unfold setProfile; simp [*]

@[simp] theorem execProfileSet_kept {p q} (s : State) (hp : s.pending = p) (hq : Grown q s.fuses) :
    Keeps p q (execProfileSet s) := by
  unfold execProfileSet; try simp only []
  (repeat' split) <;> simp_all

@[simp] theorem switchBanks_kept (s : State) :
    (switchBanks s).pending = s.pending ∧ (switchBanks s).fuses = s.fuses := by
  unfold switchBanks; simp [*]

@[simp] theorem activateImage_kept (s : State) (i : Image) :
    (activateImage s i).1.pending = s.pending ∧ (activateImage s i).1.fuses = s.fuses := by
  unfold activateImage; simp only []
  split <;> simp

@[simp] theorem keepImage_kept (s : State) (a1 : Bytes) (a2 : Bool) (a3 : Msg) :
    (keepImage s a1 a2 a3).pending = s.pending ∧ (keepImage s a1 a2 a3).fuses = s.fuses := by
  unfold keepImage; simp [*]

@[simp] theorem execImageVerifyDone_kept {p q} (s : State) (hp : s.pending = p) (hq : Grown q s.fuses) :
    Keeps p q (execImageVerifyDone s) := by
  unfold execImageVerifyDone; try simp only []
  split <;> simp [*]

@[simp] theorem activateDue_kept (s : State) :
    (activateDue s).pending = s.pending ∧ (activateDue s).fuses = s.fuses := by
  unfold activateDue; try simp only []
  split <;> simp [*]

@[simp] theorem keepWeights_kept (s : State) (a1 : Msg) (a2 : Bytes) :
    (keepWeights s a1 a2).pending = s.pending ∧ (keepWeights s a1 a2).fuses = s.fuses := by
  unfold keepWeights; try simp only []
  split <;> simp [*]

@[simp] theorem execLoadTaskImage_kept {p q} (s : State) (hp : s.pending = p) (hq : Grown q s.fuses) :
    Keeps p q (execLoadTaskImage s) := by
  unfold execLoadTaskImage; try simp only []
  (repeat' split) <;> simp_all

@[simp] theorem profilesInForce_kept (s : State) :
    (profilesInForce s).pending = s.pending ∧ (profilesInForce s).fuses = s.fuses := by
  unfold profilesInForce; simp [*]

@[simp] theorem execLoadWeights_kept {p q} (s : State) (hp : s.pending = p) (hq : Grown q s.fuses) :
    Keeps p q (execLoadWeights s) := by
  unfold execLoadWeights; try simp only []
  (repeat' split) <;> simp_all

@[simp] theorem setConfig_kept (s : State) (a1 : Msg) :
    (setConfig s a1).pending = s.pending ∧ (setConfig s a1).fuses = s.fuses := by
  unfold setConfig; simp [*]

@[simp] theorem execCycleConfig_kept {p q} (s : State) (hp : s.pending = p) (hq : Grown q s.fuses) :
    Keeps p q (execCycleConfig s) := by
  unfold execCycleConfig; try simp only []
  (repeat' split) <;> simp_all

@[simp] theorem scrambleTiles_kept (s : State) (a1 : Nat) (a2 : Nat) :
    (scrambleTiles s a1 a2).pending = s.pending ∧ (scrambleTiles s a1 a2).fuses = s.fuses := by
  unfold scrambleTiles; simp [*]

@[simp] theorem applySetting_kept (s : State) (a1 : Nat) (a2 : Word) :
    (applySetting s a1 a2).pending = s.pending ∧ (applySetting s a1 a2).fuses = s.fuses := by
  unfold applySetting; simp [*]

@[simp] theorem plainWrite_kept {p q} (s : State) (a1 : Nat) (a2 : Word) (hp : s.pending = p) (hq : Grown q s.fuses) :
    KeepsE p q (plainWrite s a1 a2) := by
  unfold plainWrite; try simp only []
  split <;> simp [*]

@[simp] theorem applyWritten_kept (s : State) :
    (applyWritten s).pending = s.pending ∧ (applyWritten s).fuses = s.fuses := by
  unfold applyWritten; simp [*]

@[simp] theorem badAccess_kept (s : State) : (badAccess s).pending = s.pending ∧ (badAccess s).fuses = s.fuses := by
  unfold badAccess; simp [*]

@[simp] theorem execRegisterWrite_kept {p q} (a0 : Nat) (a1 : Word) (s : State) (hp : s.pending = p)
    (hq : Grown q s.fuses) :
    Keeps p q (execRegisterWrite a0 a1 s) := by
  unfold execRegisterWrite; simp [*]

@[simp] theorem entryEcc_kept (s : State) (a1 : CmdHeader) :
    (entryEcc s a1).pending = s.pending ∧ (entryEcc s a1).fuses = s.fuses := by
  unfold entryEcc; try simp only []
  split <;> simp [*]

@[simp] theorem routeRefuse_kept (s : State) (a1 : Msg) (a2 : Nat) :
    (routeRefuse s a1 a2).pending = s.pending ∧ (routeRefuse s a1 a2).fuses = s.fuses := by
  unfold routeRefuse; simp [*]

@[simp] theorem takeEntry_kept (s : State) (a1 : CmdHeader) :
    (takeEntry s a1).pending = s.pending ∧ (takeEntry s a1).fuses = s.fuses := by
  unfold takeEntry; simp [*]

@[simp] theorem routeEntry_kept (s : State) (a1 : CmdHeader) :
    (routeEntry s a1).pending = s.pending ∧ (routeEntry s a1).fuses = s.fuses := by
  unfold routeEntry; try simp only []
  (repeat' split) <;> simp [*]

@[simp] theorem routeAll_kept (n : Nat) (s : State) :
    (routeAll n s).pending = s.pending ∧ (routeAll n s).fuses = s.fuses := by
  induction n generalizing s with
  | zero => exact ⟨rfl, rfl⟩
  | succ n ih => unfold routeAll; split <;> simp [ih]

@[simp] theorem routeRun_kept (s : State) : (routeRun s).pending = s.pending ∧ (routeRun s).fuses = s.fuses := by
  unfold routeRun; simp [*]

@[simp] theorem execCmdDoorbell_kept {p q} (a0 : Word) (s : State) (hp : s.pending = p) (hq : Grown q s.fuses) :
    Keeps p q (execCmdDoorbell a0 s) := by
  unfold execCmdDoorbell; simp [*]

@[simp] theorem execSafeRequest_kept {p q} (s : State) (hp : s.pending = p) (hq : Grown q s.fuses) :
    Keeps p q (execSafeRequest s) := by
  unfold execSafeRequest; try simp only []
  (repeat' split) <;> simp_all

@[simp] theorem clearRings_kept (s : State) :
    (clearRings s).pending = s.pending ∧ (clearRings s).fuses = s.fuses := by
  unfold clearRings; simp [*]

@[simp] theorem aoAnswer_kept (s : State) (a1 : Nat) :
    (aoAnswer s a1).pending = s.pending ∧ (aoAnswer s a1).fuses = s.fuses := by
  unfold aoAnswer; simp [*]

@[simp] theorem execAoResetArm_kept {p q} (a0 : Word) (s : State) (hp : s.pending = p) (hq : Grown q s.fuses) :
    Keeps p q (execAoResetArm a0 s) := by
  unfold execAoResetArm; simp [*]

@[simp] theorem execAoLogRead_kept {p q} (a0 : Nat) (a1 : Nat) (s : State) (hp : s.pending = p)
    (hq : Grown q s.fuses) :
    Keeps p q (execAoLogRead a0 a1 s) := by
  unfold execAoLogRead; simp [*]

@[simp] theorem loseHost_kept (s : State) : (loseHost s).pending = s.pending ∧ (loseHost s).fuses = s.fuses := by
  unfold loseHost; simp [*]

@[simp] theorem meetExpiry_kept (s : State) :
    (meetExpiry s).pending = s.pending ∧ (meetExpiry s).fuses = s.fuses := by
  unfold meetExpiry; simp [*]

@[simp] theorem logHost_kept (s : State) (a1 : Nat) (a2 : Bytes) :
    (logHost s a1 a2).pending = s.pending ∧ (logHost s a1 a2).fuses = s.fuses := by
  unfold logHost; simp [*]

@[simp] theorem restartTimer_kept (s : State) :
    (restartTimer s).pending = s.pending ∧ (restartTimer s).fuses = s.fuses := by
  unfold restartTimer; simp [*]

@[simp] theorem helloCommon_kept (s : State) (a1 : Msg) :
    (helloCommon s a1).pending = s.pending ∧ (helloCommon s a1).fuses = s.fuses := by
  unfold helloCommon; simp [*]

@[simp] theorem helloReattached_kept (s : State) (a1 : Msg) :
    (helloReattached s a1).pending = s.pending ∧ (helloReattached s a1).fuses = s.fuses := by
  unfold helloReattached; simp [*]

@[simp] theorem execHelloReattach_kept {p q} (s : State) (hp : s.pending = p) (hq : Grown q s.fuses) :
    Keeps p q (execHelloReattach s) := by
  unfold execHelloReattach; try simp only []
  (repeat' split) <;> simp_all

@[simp] theorem queryRun_kept {p q} (s : State) (isIt : Msg → Bool) (f : Msg → State → State)
    (hp : s.pending = p) (hq : Grown q s.fuses)
    (hf : ∀ m t, t.pending = p → Grown q t.fuses → (f m t).pending = p ∧ Grown q (f m t).fuses) :
    Keeps p q (queryRun s isIt f) := by
  unfold queryRun
  exact withFront_kept _ _ _ _ hp hq fun m t h1 h2 => by split <;> simp [hf m t h1 h2]

@[simp] theorem execQueryWeightDir_kept {p q} (s : State) (hp : s.pending = p) (hq : Grown q s.fuses) :
    Keeps p q (execQueryWeightDir s) := by
  unfold execQueryWeightDir; try simp only []
  (repeat' split) <;> simp_all

@[simp] theorem execHeadWrite_kept {p q} (a0 : Nat) (a1 : Word) (s : State) (hp : s.pending = p)
    (hq : Grown q s.fuses) :
    Keeps p q (execHeadWrite a0 a1 s) := by
  unfold execHeadWrite; simp [*]

@[simp] theorem execAoSafeRequest_kept {p q} (s : State) (hp : s.pending = p) (hq : Grown q s.fuses) :
    Keeps p q (execAoSafeRequest s) := by
  unfold execAoSafeRequest; simp [*]

@[simp] theorem execHostLossExpiry_kept {p q} (s : State) (hp : s.pending = p) (hq : Grown q s.fuses) :
    Keeps p q (execHostLossExpiry s) := by
  unfold execHostLossExpiry; simp [*]

@[simp] theorem execMainbandDown_kept {p q} (s : State) (hp : s.pending = p) (hq : Grown q s.fuses) :
    Keeps p q (execMainbandDown s) := by
  unfold execMainbandDown; simp [*]

@[simp] theorem execQueryDevice_kept {p q} (s : State) (hp : s.pending = p) (hq : Grown q s.fuses) :
    Keeps p q (execQueryDevice s) := by
  unfold execQueryDevice; try simp only []
  (repeat' split) <;> simp_all

@[simp] theorem execSidebandLinkChange_kept {p q} (a0 : Bool) (s : State) (hp : s.pending = p)
    (hq : Grown q s.fuses) :
    Keeps p q (execSidebandLinkChange a0 s) := by
  unfold execSidebandLinkChange; simp [*]

@[simp] theorem replyMemPiece_kept (s : State) (a1 : Msg) (a2 : Nat) (a3 : Nat) :
    (replyMemPiece s a1 a2 a3).pending = s.pending ∧ (replyMemPiece s a1 a2 a3).fuses = s.fuses := by
  unfold replyMemPiece; simp [*]

@[simp] theorem execQueryCkptRead_kept {p q} (s : State) (hp : s.pending = p) (hq : Grown q s.fuses) :
    Keeps p q (execQueryCkptRead s) := by
  unfold execQueryCkptRead; try simp only []
  (repeat' split) <;> simp_all

@[simp] theorem helloFresh_kept (s : State) (a1 : Msg) :
    (helloFresh s a1).pending = s.pending ∧ (helloFresh s a1).fuses = s.fuses := by
  unfold helloFresh; simp [*]

@[simp] theorem execHello_kept {p q} (s : State) (hp : s.pending = p) (hq : Grown q s.fuses) :
    Keeps p q (execHello s) := by
  unfold execHello; try simp only []
  (repeat' split) <;> simp_all

@[simp] theorem execQueryFacts_kept {p q} (s : State) (hp : s.pending = p) (hq : Grown q s.fuses) :
    Keeps p q (execQueryFacts s) := by
  unfold execQueryFacts; try simp only []
  (repeat' split) <;> simp_all

@[simp] theorem execNtf_kept {p q} (a0 : Nat) (s : State) (hp : s.pending = p) (hq : Grown q s.fuses) :
    Keeps p q (execNtf a0 s) := by
  unfold execNtf; simp [*]

@[simp] theorem clearSafe_kept (s : State) : (clearSafe s).pending = s.pending ∧ (clearSafe s).fuses = s.fuses := by
  unfold clearSafe; simp [*]

@[simp] theorem safeClearRun_kept (s : State) (a1 : Msg) :
    (safeClearRun s a1).pending = s.pending ∧ (safeClearRun s a1).fuses = s.fuses := by
  unfold safeClearRun; simp [*]

@[simp] theorem execSafeClear_kept {p q} (s : State) (hp : s.pending = p) (hq : Grown q s.fuses) :
    Keeps p q (execSafeClear s) := by
  unfold execSafeClear; try simp only []
  (repeat' split) <;> simp_all

@[simp] theorem execAoResetGo_kept {p q} (a0 : Word) (s : State) (hp : s.pending = p) (hq : Grown q s.fuses) :
    Keeps p q (execAoResetGo a0 s) := by
  unfold execAoResetGo; try simp only []
  apply onlyIf_kept hp hq <;> split <;> simp_all

@[simp] theorem execHeartbeat_kept {p q} (s : State) (hp : s.pending = p) (hq : Grown q s.fuses) :
    Keeps p q (execHeartbeat s) := by
  unfold execHeartbeat; try simp only []
  (repeat' split) <;> simp_all

@[simp] theorem execReadCounters_kept {p q} (s : State) (hp : s.pending = p) (hq : Grown q s.fuses) :
    Keeps p q (execReadCounters s) := by
  unfold execReadCounters; try simp only []
  (repeat' split) <;> simp_all

@[simp] theorem execAoRead_kept {p q} (a0 : Nat) (s : State) (hp : s.pending = p) (hq : Grown q s.fuses) :
    Keeps p q (execAoRead a0 s) := by
  unfold execAoRead; simp [*]

@[simp] theorem execHostLossCfgWrite_kept {p q} (a0 : Word) (s : State) (hp : s.pending = p) (hq : Grown q s.fuses) :
    Keeps p q (execHostLossCfgWrite a0 s) := by
  unfold execHostLossCfgWrite; simp [*]

@[simp] theorem execMainbandUp_kept {p q} (a0 : Nat) (a1 : Bool) (s : State) (hp : s.pending = p)
    (hq : Grown q s.fuses) :
    Keeps p q (execMainbandUp a0 a1 s) := by
  unfold execMainbandUp; simp [*]

@[simp] theorem secPiece_kept {p q} (s : State) (a1 : Msg → Bool) (hp : s.pending = p) (hq : Grown q s.fuses) :
    Keeps p q (secPiece s a1) := by
  unfold secPiece; try simp only []
  (repeat' split) <;> simp_all

@[simp] theorem execLoadFirmware_kept {p q} (s : State) (hp : s.pending = p) (hq : Grown q s.fuses) :
    Keeps p q (execLoadFirmware s) := by
  unfold execLoadFirmware; simp [*]

@[simp] theorem mapProc_kept (s : State) (a1 : Nat) (a2 : Proc → Proc) :
    (mapProc s a1 a2).pending = s.pending ∧ (mapProc s a1 a2).fuses = s.fuses := by
  unfold mapProc; simp [*]

@[simp] theorem runProc_kept (s : State) (a1 : Nat) :
    (runProc s a1).pending = s.pending ∧ (runProc s a1).fuses = s.fuses := by
  unfold runProc; simp [*]

@[simp] theorem rejoinAll_kept (s : State) : (rejoinAll s).pending = s.pending ∧ (rejoinAll s).fuses = s.fuses := by
  unfold rejoinAll; simp [*]

theorem set_true (l : List Bool) (n k : Nat) (h : l.getD k false) : (l.set n true).getD k false := by
  by_cases e : n = k
  · subst e
    by_cases hl : n < l.length
    · simp [hl]
    · simp [hl] at h
  · simpa [List.getElem?_set_ne e] using h

theorem blowFuses_grown (f : Fuses) (bs : Bytes) : Grown f (blowFuses f bs) := by
  refine ⟨rfl, rfl, rfl, ?_, ?_, ?_, ?_, rfl, fun _ => Nat.le_refl _⟩
  · intro h; simp [blowFuses, h]
  · intro h; simp [blowFuses, h]
  · intro k h; simp only [blowFuses]; split; exact set_true _ _ _ h; exact h
  · intro k h; simp only [blowFuses]; split; exact set_true _ _ _ h; exact h

@[simp] theorem runFuses_kept (s : State) (bs : Bytes) (m : Msg) :
    (runFuses s bs m).pending = s.pending ∧ ∀ q, Grown q s.fuses → Grown q (runFuses s bs m).fuses := by
  unfold runFuses; (repeat' split) <;> simp
  exact fun q hq => hq.trans (blowFuses_grown _ _)

@[simp] theorem activateFw_kept (s : State) (a1 : FwImage) :
    (activateFw s a1).pending = s.pending ∧ (activateFw s a1).fuses = s.fuses := by
  unfold activateFw; simp [*]

theorem listUpd_le (l : List Nat) (n m k : Nat) : l.getD k 0 ≤ (listUpd l n fun c => max c m).getD k 0 := by
  induction l generalizing n k with
  | nil => simp [listUpd]
  | cons x l ih =>
    cases n <;> cases k <;> simp [listUpd]
    exact ih _ _

@[simp] theorem blowRb_kept (s : State) (f : FwImage) :
    (blowRb s f).pending = s.pending ∧ ∀ q, Grown q s.fuses → Grown q (blowRb s f).fuses :=
  ⟨rfl, fun _ hq => hq.trans ⟨rfl, rfl, rfl, id, id, fun _ => id, fun _ => id, rfl, fun k => listUpd_le _ _ _ _⟩⟩

@[simp] theorem latigoListsDue_kept (s : State) :
    (latigoListsDue s).pending = s.pending ∧ ∀ q, Grown q s.fuses → Grown q (latigoListsDue s).fuses := by
  unfold latigoListsDue; try simp only []
  (repeat' split) <;> simp_all

@[simp] theorem switchCode_kept (s : State) (a1 : Nat) :
    (switchCode s a1).pending = s.pending ∧ ∀ q, Grown q s.fuses → Grown q (switchCode s a1).fuses := by
  unfold switchCode; try simp only []
  (repeat' split) <;> simp_all

@[simp] theorem replyIf_kept (s : State) (a1 : Option Msg) (a2 : Nat) :
    (replyIf s a1 a2).pending = s.pending ∧ (replyIf s a1 a2).fuses = s.fuses := by
  unfold replyIf; try simp only []
  split <;> simp [*]

@[simp] theorem execPlannedRestartDone_kept {p q} (a0 : Nat) (s : State) (hp : s.pending = p) (hq : Grown q s.fuses) :
    Keeps p q (execPlannedRestartDone a0 s) := by
  unfold execPlannedRestartDone; simp [*]

@[simp] theorem execFuseRequest_kept {p q} (s : State) (hp : s.pending = p) (hq : Grown q s.fuses) :
    Keeps p q (execFuseRequest s) := by
  unfold execFuseRequest; simp [*]

@[simp] theorem stageFw_kept (s : State) (a1 : FwImage) :
    (stageFw s a1).pending = s.pending ∧ (stageFw s a1).fuses = s.fuses := by
  unfold stageFw; simp [*]

@[simp] theorem setStage_kept (s : State) (a1 : Nat) :
    (setStage s a1).pending = s.pending ∧ (setStage s a1).fuses = s.fuses := by
  unfold setStage; simp [*]

@[simp] theorem startProc_kept (s : State) (a1 : Nat) :
    (startProc s a1).pending = s.pending ∧ (startProc s a1).fuses = s.fuses := by
  unfold startProc; simp [*]

@[simp] theorem endWaitRest_kept (s : State) :
    (endWaitRest s).pending = s.pending ∧ (endWaitRest s).fuses = s.fuses := by
  unfold endWaitRest; simp [*]

@[simp] theorem takeBootImage_kept (s : State) (a1 : FwImage) :
    (takeBootImage s a1).pending = s.pending ∧ (takeBootImage s a1).fuses = s.fuses := by
  unfold takeBootImage; simp [*]

@[simp] theorem verifyFw_kept (s : State) (a1 : Bytes) (a2 : Nat) (a3 : Msg) :
    (verifyFw s a1 a2 a3).pending = s.pending ∧ ∀ q, Grown q s.fuses → Grown q (verifyFw s a1 a2 a3).fuses := by
  unfold verifyFw; try simp only []
  (repeat' split) <;> simp_all

@[simp] theorem execFwVerifyDone_kept {p q} (s : State) (hp : s.pending = p) (hq : Grown q s.fuses) :
    Keeps p q (execFwVerifyDone s) := by
  unfold execFwVerifyDone; try simp only []
  split <;> simp [*]

@[simp] theorem abandonVerify_kept (s : State) :
    (abandonVerify s).pending = s.pending ∧ (abandonVerify s).fuses = s.fuses := by
  unfold abandonVerify; try simp only []
  (repeat' split) <;> simp [*]

@[simp] theorem answerQueue_kept (s : State) (a1 : Owner) :
    (answerQueue s a1).pending = s.pending ∧ (answerQueue s a1).fuses = s.fuses := by
  unfold answerQueue; simp [*]

@[simp] theorem dropBegun_kept (s : State) : (dropBegun s).pending = s.pending ∧ (dropBegun s).fuses = s.fuses := by
  unfold dropBegun; simp [*]

@[simp] theorem dropPieces_kept (s : State) (a1 : Owner) :
    (dropPieces s a1).pending = s.pending ∧ (dropPieces s a1).fuses = s.fuses := by
  unfold dropPieces; simp [*]

@[simp] theorem loseProc_kept (s : State) (a1 : Nat) :
    (loseProc s a1).pending = s.pending ∧ (loseProc s a1).fuses = s.fuses := by
  unfold loseProc; try simp only []
  (repeat' split) <;> simp [*]

@[simp] theorem reportRestart_kept (s : State) (a1 : Nat) (a2 : Nat) :
    (reportRestart s a1 a2).pending = s.pending ∧ (reportRestart s a1 a2).fuses = s.fuses := by
  unfold reportRestart; simp [*]

@[simp] theorem crashRestart_kept (s : State) (a1 : Nat) (a2 : Nat) (a3 : Option Msg) :
    (crashRestart s a1 a2 a3).pending = s.pending ∧ (crashRestart s a1 a2 a3).fuses = s.fuses := by
  unfold crashRestart; simp [*]

@[simp] theorem crash_kept (s : State) (a1 : Nat) (a2 : Nat) :
    (crash s a1 a2).pending = s.pending ∧ (crash s a1 a2).fuses = s.fuses := by
  unfold crash; try simp only []
  split <;> simp [*]

@[simp] theorem fwMemError_kept (s : State) (a1 : Nat) :
    (fwMemError s a1).pending = s.pending ∧ (fwMemError s a1).fuses = s.fuses := by
  unfold fwMemError; simp [*]

@[simp] theorem execFwMemEcc_kept {p q} (a0 : Nat) (s : State) (hp : s.pending = p) (hq : Grown q s.fuses) :
    Keeps p q (execFwMemEcc a0 s) := by
  unfold execFwMemEcc; simp [*]

@[simp] theorem askRestart_kept (s : State) (a1 : Msg) (a2 : Nat) :
    (askRestart s a1 a2).pending = s.pending ∧ (askRestart s a1 a2).fuses = s.fuses := by
  unfold askRestart; try simp only []
  split <;> simp [*]

@[simp] theorem execRestartProcessor_kept {p q} (s : State) (hp : s.pending = p) (hq : Grown q s.fuses) :
    Keeps p q (execRestartProcessor s) := by
  unfold execRestartProcessor; try simp only []
  (repeat' split) <;> simp_all

@[simp] theorem reloadFailed_kept (s : State) (a1 : Nat) :
    (reloadFailed s a1).pending = s.pending ∧ (reloadFailed s a1).fuses = s.fuses := by
  unfold reloadFailed; try simp only []
  (repeat' split) <;> simp [*]

@[simp] theorem execPlannedRestartBegin_kept {p q} (a0 : Nat) (s : State) (hp : s.pending = p)
    (hq : Grown q s.fuses) :
    Keeps p q (execPlannedRestartBegin a0 s) := by
  unfold execPlannedRestartBegin; simp [*]

@[simp] theorem execAttest_kept {p q} (s : State) (hp : s.pending = p) (hq : Grown q s.fuses) :
    Keeps p q (execAttest s) := by
  unfold execAttest; try simp only []
  (repeat' split) <;> simp_all

@[simp] theorem reloaded_kept (s : State) (a1 : Nat) :
    (reloaded s a1).pending = s.pending ∧ (reloaded s a1).fuses = s.fuses := by
  unfold reloaded; try simp only []
  (repeat' split) <;> simp [*]

@[simp] theorem execInternalFatalException_kept {p q} (a0 : Nat) (s : State) (hp : s.pending = p)
    (hq : Grown q s.fuses) :
    Keeps p q (execInternalFatalException a0 s) := by
  unfold execInternalFatalException; simp [*]

@[simp] theorem execFwReloadDone_kept {p q} (a0 : Nat) (a1 : Bool) (s : State) (hp : s.pending = p)
    (hq : Grown q s.fuses) :
    Keeps p q (execFwReloadDone a0 a1 s) := by
  unfold execFwReloadDone; simp [*]

@[simp] theorem execWatchdogExpiry_kept {p q} (a0 : Nat) (s : State) (hp : s.pending = p) (hq : Grown q s.fuses) :
    Keeps p q (execWatchdogExpiry a0 s) := by
  unfold execWatchdogExpiry; simp [*]

@[simp] theorem restoreTree_kept {p q} (s : State) (bs : Bytes) (l : List Bytes) (hp : s.pending = p) (hq : s.fuses = q) :
    KeepsO p q (restoreTree s bs l) := by
  unfold restoreTree; (try simp only []); (repeat' split) <;> simp_all

@[simp] theorem restoreRest_kept (s : State) (a1 : Bytes) (a2 : List Bytes) :
    (restoreRest s a1 a2).pending = s.pending ∧ (restoreRest s a1 a2).fuses = s.fuses := by
  unfold restoreRest; simp [*]

@[simp] theorem restoreCkpt_kept (s : State) :
    (restoreCkpt s).2.pending = s.pending ∧ (restoreCkpt s).2.fuses = s.fuses := by
  unfold restoreCkpt; simp only []
  split
  · simp [*]
  · split
    · simp [*]
    · split
      · simp [*]
      · rename_i l _ _ t h
        have k := restoreTree_kept s (ckptStored s) (treeSection (l.getD 5 [])) rfl rfl
        rw [h] at k; simp [k.1, k.2]

@[simp] theorem setAck_kept (s : State) (a1 : Inst) (a2 : Nat) (a3 : Nat) :
    (setAck s a1 a2 a3).pending = s.pending ∧ (setAck s a1 a2 a3).fuses = s.fuses := by
  unfold setAck; simp [*]

@[simp] theorem putHeader_kept (s : State) (a1 : Nat) (a2 : Bytes) (a3 : Nat) (a4 : Nat) :
    (putHeader s a1 a2 a3 a4).pending = s.pending ∧ (putHeader s a1 a2 a3 a4).fuses = s.fuses := by
  unfold putHeader; simp [*]

@[simp] theorem closeRows_kept (s : State) (a1 : Inst) (a2 : Bytes) (a3 : SweepRun) :
    (closeRows s a1 a2 a3).1.pending = s.pending ∧ (closeRows s a1 a2 a3).1.fuses = s.fuses := by
  unfold closeRows; simp [*]

@[simp] theorem putRecord_kept (s : State) (a1 : Nat) (a2 : Bytes) (a3 : Nat) (a4 : Nat) (a5 : Bytes) :
    (putRecord s a1 a2 a3 a4 a5).pending = s.pending ∧ (putRecord s a1 a2 a3 a4 a5).fuses = s.fuses := by
  unfold putRecord; simp [*]

@[simp] theorem countSweep_kept (s : State) (a1 : Inst) (a2 : CycleCounts → CycleCounts) :
    (countSweep s a1 a2).pending = s.pending ∧ (countSweep s a1 a2).fuses = s.fuses := by
  unfold countSweep; simp [*]

@[simp] theorem takeCut_kept (s : State) (a1 : Inst) (a2 : Bytes) (a3 : SweepRun) :
    (takeCut s a1 a2 a3).1.pending = s.pending ∧ (takeCut s a1 a2 a3).1.fuses = s.fuses := by
  unfold takeCut; simp [*]

@[simp] theorem askLines_kept (s : State) (a1 : Nat) (a2 : List Nat) :
    (askLines s a1 a2).pending = s.pending ∧ (askLines s a1 a2).fuses = s.fuses := by
  unfold askLines; simp [*]

@[simp] theorem takePair_kept (s : State) (a1 : Inst) (a2 : Bytes) (a3 : SweepRun) (a4 : Nat) (a5 : Nat)
    (a6 : List (Nat × Nat)) :
    (takePair s a1 a2 a3 a4 a5 a6).1.pending = s.pending ∧ (takePair s a1 a2 a3 a4 a5 a6).1.fuses = s.fuses := by
  unfold takePair; try simp only []
  split <;> simp [*]

@[simp] theorem fillLanes_kept (i : Inst) (d : Bytes) (n : Nat) (s : State) (w : SweepRun) :
    (fillLanes i d n s w).1.pending = s.pending ∧ (fillLanes i d n s w).1.fuses = s.fuses := by
  induction n generalizing s w with
  | zero => exact ⟨rfl, rfl⟩
  | succ n ih => unfold fillLanes; simp only []; (repeat' split) <;> simp [ih]

@[simp] theorem sweepGo_kept (s : State) (a1 : Inst) (a2 : Bytes) (a3 : SweepRun) :
    (sweepGo s a1 a2 a3).pending = s.pending ∧ (sweepGo s a1 a2 a3).fuses = s.fuses := by
  unfold sweepGo; simp [*]

@[simp] theorem answerReport_kept (s : State) (a1 : Inst) (a2 : Bytes) (a3 : SweepRun) :
    (answerReport s a1 a2 a3).pending = s.pending ∧ (answerReport s a1 a2 a3).fuses = s.fuses := by
  unfold answerReport; simp [*]

@[simp] theorem countLine_kept (s : State) (a1 : Nat) (a2 : Nat) :
    (countLine s a1 a2).pending = s.pending ∧ (countLine s a1 a2).fuses = s.fuses := by
  unfold countLine; simp [*]

@[simp] theorem lineLost_kept (s : State) (a1 : Nat) (a2 : Nat) :
    (lineLost s a1 a2).pending = s.pending ∧ (lineLost s a1 a2).fuses = s.fuses := by
  unfold lineLost; simp [*]

@[simp] theorem lineFails_kept (s : State) (a1 : Nat) (a2 : Nat) :
    (lineFails s a1 a2).pending = s.pending ∧ (lineFails s a1 a2).fuses = s.fuses := by
  unfold lineFails; simp [*]

@[simp] theorem execCacheFill_kept {p q} (a0 : Nat) (a1 : Nat) (a2 : Bool) (s : State) (hp : s.pending = p)
    (hq : Grown q s.fuses) :
    Keeps p q (execCacheFill a0 a1 a2 s) := by
  unfold execCacheFill; simp [*]

@[simp] theorem holdSample_kept (s : State) (a1 : Inst) (a2 : Nat) (a3 : Nat) :
    (holdSample s a1 a2 a3).pending = s.pending ∧ (holdSample s a1 a2 a3).fuses = s.fuses := by
  unfold holdSample; try simp only []
  split <;> simp [*]

@[simp] theorem startSweep_kept (s : State) (a1 : Inst) (a2 : Bytes) (a3 : Nat) :
    (startSweep s a1 a2 a3).pending = s.pending ∧ (startSweep s a1 a2 a3).fuses = s.fuses := by
  unfold startSweep; simp [*]

@[simp] theorem pairDone_kept (s : State) (a1 : Inst) (a2 : Bytes) (a3 : SweepRun) (a4 : Nat) (a5 : Nat)
    (a6 : List (Nat × Nat)) :
    (pairDone s a1 a2 a3 a4 a5 a6).pending = s.pending ∧ (pairDone s a1 a2 a3 a4 a5 a6).fuses = s.fuses := by
  unfold pairDone; simp [*]

@[simp] theorem execSweepPairDone_kept {p q} (a0 : Nat) (a1 : Nat) (s : State) (hp : s.pending = p)
    (hq : Grown q s.fuses) :
    Keeps p q (execSweepPairDone a0 a1 s) := by
  unfold execSweepPairDone; try simp only []
  (repeat' split) <;> simp [*]

@[simp] theorem execSweep_kept {p q} (a0 : Nat) (a1 : Nat) (s : State) (hp : s.pending = p) (hq : Grown q s.fuses) :
    Keeps p q (execSweep a0 a1 s) := by
  unfold execSweep
  try split
  all_goals first
  | (simp [*]; done)
  | (refine issueDesc_kept _ _ _ _ _ hp hq ?_
     intro s i d k hp hq
     simp only [sweepRun]
     first
     | (simp [*]; done)
     | ((repeat' split) <;> simp [*]; done))

@[simp] theorem execSweepStartReport_kept {p q} (a0 : Nat) (a1 : Nat) (s : State) (hp : s.pending = p)
    (hq : Grown q s.fuses) :
    Keeps p q (execSweepStartReport a0 a1 s) := by
  unfold execSweepStartReport; try simp only []
  (repeat' split) <;> simp [*]

@[simp] theorem latigoMatch_kept (s : State) (a1 : Option Bytes × Bool) :
    (latigoMatch s a1).pending = s.pending ∧ (latigoMatch s a1).fuses = s.fuses := by
  unfold latigoMatch; simp [*]

@[simp] theorem completeLatigo_kept (s : State) :
    (completeLatigo s).pending = s.pending ∧ (completeLatigo s).fuses = s.fuses := by
  unfold completeLatigo; simp [*]

@[simp] theorem latigoBlind_kept (s : State) (a1 : Nat × Nat) :
    (latigoBlind s a1).pending = s.pending ∧ (latigoBlind s a1).fuses = s.fuses := by
  unfold latigoBlind; simp [*]

@[simp] theorem startCopy_kept (s : State) (t : Nat) :
    (startCopy s t).pending = s.pending ∧ (startCopy s t).fuses = s.fuses := by
  have k := spendTokens_kept s (1, t) 1 rfl rfl
  unfold startCopy; split
  · exact ⟨rfl, rfl⟩
  · split
    · split
      · rename_i h; rw [h] at k; exact k
      · simp
    · exact ⟨rfl, rfl⟩

@[simp] theorem startCopies_kept (s : State) :
    (startCopies s).pending = s.pending ∧ (startCopies s).fuses = s.fuses := by
  unfold startCopies; simp [*]

@[simp] theorem startLatigo_kept (s : State) (a1 : Nat) (a2 : Nat) :
    (startLatigo s a1 a2).pending = s.pending ∧ (startLatigo s a1 a2).fuses = s.fuses := by
  unfold startLatigo; try simp only []
  (repeat' split) <;> simp [*]

@[simp] theorem replayStart_kept (s : State) :
    (replayStart s).pending = s.pending ∧ (replayStart s).fuses = s.fuses := by
  unfold replayStart; try simp only []
  split <;> simp [*]

@[simp] theorem execLatigoComplete_kept {p q} (s : State) (hp : s.pending = p) (hq : Grown q s.fuses) :
    Keeps p q (execLatigoComplete s) := by
  unfold execLatigoComplete; simp [*]

@[simp] theorem putF_kept (s : State) (a1 : Solve) (a2 : Nat) (a3 : Num) :
    (putF s a1 a2 a3).pending = s.pending ∧ (putF s a1 a2 a3).fuses = s.fuses := by
  unfold putF; simp [*]

@[simp] theorem accGroup_kept {p q} (s : State) (c : Solve) (g : Nat) (hp : s.pending = p) (hq : s.fuses = q) :
    KeepsO p q (accGroup s c g) := by
  unfold accGroup; simp only []
  split
  · trivial
  · have h := fun (l : List _) => foldl_kept (fun (t : State) (p : (Nat × List Num) × (Nat × List Num)) => match hAddr c p.1.1 p.2.1 with
      | some o => putF t c (atHb c + o) (addProducts (getF t c (atHb c + o)) p.1.2 p.2.2)
      | none => t) (fun s x => by split <;> simp) l s
    exact ⟨((foldl_kept _ (fun s x => by simp) _ _).1.trans (h _).1).trans hp,
      ((foldl_kept _ (fun s x => by simp) _ _).2.trans (h _).2).trans hq⟩

@[simp] theorem pointBack_kept (a0 : Solve) (a1 : SolveStep) (s : State) :
    (pointBack a0 a1 s).1.pending = s.pending ∧ (pointBack a0 a1 s).1.fuses = s.fuses := by
  unfold pointBack; try simp only []
  split <;> simp [*]

theorem tryThen_kept {s : State} {x : SolveTry} {f : State → SolveTry}
    (hx : x.1.pending = s.pending ∧ x.1.fuses = s.fuses)
    (hf : ∀ t, (f t).1.pending = t.pending ∧ (f t).1.fuses = t.fuses) :
    (tryThen x f).1.pending = s.pending ∧ (tryThen x f).1.fuses = s.fuses := by
  unfold tryThen; split
  · exact ⟨(hf _).1.trans hx.1, (hf _).2.trans hx.2⟩
  · exact hx

theorem tryAll_kept {α : Type} (f : State → α → SolveTry) (l : List α) (s : State)
    (hf : ∀ t a, (f t a).1.pending = t.pending ∧ (f t a).1.fuses = t.fuses) :
    (tryAll f l s).1.pending = s.pending ∧ (tryAll f l s).1.fuses = s.fuses :=
  foldl_kept2 _ (fun _ a => tryThen_kept ⟨rfl, rfl⟩ fun t => hf t a) l (s, none)

@[simp] theorem bwdStep_kept (c : Solve) (n : Panel) (s : State) :
    (bwdStep c n s).1.pending = s.pending ∧ (bwdStep c n s).1.fuses = s.fuses := by
  unfold bwdStep
  refine tryAll_kept _ _ _ ?_
  intro s x; simp only []; split <;> simp [*]

@[simp] theorem diagStep_kept (a0 : Solve) (s : State) :
    (diagStep a0 s).pending = s.pending ∧ (diagStep a0 s).fuses = s.fuses := by
  unfold diagStep; simp [*]

@[simp] theorem fwdStep_kept (a0 : Solve) (a1 : Panel) (s : State) :
    (fwdStep a0 a1 s).pending = s.pending ∧ (fwdStep a0 a1 s).fuses = s.fuses := by
  unfold fwdStep; simp [*]

@[simp] theorem trialStep_kept (a0 : Solve) (s : State) :
    (trialStep a0 s).pending = s.pending ∧ (trialStep a0 s).fuses = s.fuses := by
  unfold trialStep; simp [*]

@[simp] theorem substStep_kept (a0 : Solve) (a1 : SolveStep) (s : State) :
    (substStep a0 a1 s).1.pending = s.pending ∧ (substStep a0 a1 s).1.fuses = s.fuses := by
  unfold substStep; try simp only []
  (repeat' split) <;> simp [*]

@[simp] theorem subFrame_kept (a0 : Solve) (s : State) (a2 : Nat) (a3 : Nat) (a4 : List (Num × Num × Num)) :
    (subFrame a0 s a2 a3 a4).pending = s.pending ∧ (subFrame a0 s a2 a3 a4).fuses = s.fuses := by
  unfold subFrame; try simp only []
  split <;> simp [*]

@[simp] theorem snUpdate_kept (c : Solve) (src tgt : Panel) (s : State) :
    (snUpdate c src tgt s).pending = s.pending ∧ (snUpdate c src tgt s).fuses = s.fuses := by
  unfold snUpdate; simp only []
  refine foldl_kept _ ?_ _ _
  intro s x; split
  · simp
  · refine foldl_kept _ ?_ _ _
    intro s x; split <;> simp

@[simp] theorem ldlColumn_kept (a0 : Solve) (a1 : Nat → Nat → Nat) (a2 : Nat) (a3 : Nat) (s : State) (a5 : Nat) :
    (ldlColumn a0 a1 a2 a3 s a5).1.pending = s.pending ∧ (ldlColumn a0 a1 a2 a3 s a5).1.fuses = s.fuses := by
  unfold ldlColumn; try simp only []
  (repeat' split) <;> simp [*]

@[simp] theorem ldl_kept (c : Solve) (addr : Nat → Nat → Nat) (w h col0 : Nat) (s : State) :
    (ldl c addr w h col0 s).1.pending = s.pending ∧ (ldl c addr w h col0 s).1.fuses = s.fuses := by
  unfold ldl
  exact tryAll_kept _ _ _ fun s x => ldlColumn_kept ..

@[simp] theorem elimPoint_kept (c : Solve) (st : SolveStep) (s : State) :
    (elimPoint c st s).1.pending = s.pending ∧ (elimPoint c st s).1.fuses = s.fuses := by
  unfold elimPoint
  refine tryThen_kept (ldl_kept ..) ?_
  intro s; simp only []
  split
  · exact ⟨rfl, rfl⟩
  · have h := fun (f : State → Nat × List Num → Nat × List Num → List (Num × Num × Num)) (l m : List (Nat × List Num)) => foldl_kept (fun (t : State) x => m.foldl (fun (u : State) y => subFrame c u x.1 y.1 (f s x y)) t)
      (fun s x => by refine foldl_kept _ ?_ _ _; intros; simp) l s
    simp

@[simp] theorem factorStep_kept (a0 : Solve) (a1 : SolveStep) (s : State) :
    (factorStep a0 a1 s).1.pending = s.pending ∧ (factorStep a0 a1 s).1.fuses = s.fuses := by
  unfold factorStep; try simp only []
  (repeat' split) <;> simp [*]

@[simp] theorem loadDamped_kept (s : State) (a1 : Solve) (a2 : Num) (a3 : Bool) :
    (loadDamped s a1 a2 a3).1.pending = s.pending ∧ (loadDamped s a1 a2 a3).1.fuses = s.fuses := by
  unfold loadDamped; simp [*]

@[simp] theorem zeroStep_kept (s : State) (a1 : Solve) :
    (zeroStep s a1).pending = s.pending ∧ (zeroStep s a1).fuses = s.fuses := by
  unfold zeroStep; simp [*]

@[simp] theorem applyWrites_kept (s : State) (a1 : Nat) (a2 : List (Nat × Bytes)) :
    (applyWrites s a1 a2).pending = s.pending ∧ (applyWrites s a1 a2).fuses = s.fuses := by
  unfold applyWrites; simp [*]

@[simp] theorem takeSolveCut_kept (s : State) (a1 : Inst) (a2 : Solve) :
    (takeSolveCut s a1 a2).pending = s.pending ∧ (takeSolveCut s a1 a2).fuses = s.fuses := by
  unfold takeSolveCut; simp [*]

@[simp] theorem concludeSolve_kept (s : State) (a1 : Inst) (a2 : Solve) (a3 : Nat) (a4 : Ctrl) (a5 : List
    (Nat × Bytes)) :
    (concludeSolve s a1 a2 a3 a4 a5).pending = s.pending ∧ (concludeSolve s a1 a2 a3 a4 a5).fuses = s.fuses := by
  unfold concludeSolve; try simp only []
  (repeat' split) <;> simp [*]

@[simp] theorem endSolve_kept (s : State) (a1 : Inst) (a2 : Solve) (a3 : Nat) (a4 : Nat) (a5 : Nat) :
    (endSolve s a1 a2 a3 a4 a5).pending = s.pending ∧ (endSolve s a1 a2 a3 a4 a5).fuses = s.fuses := by
  unfold endSolve; simp [*]

@[simp] theorem freeFlags_kept (s : State) (a1 : Inst) :
    (freeFlags s a1).pending = s.pending ∧ (freeFlags s a1).fuses = s.fuses := by
  unfold freeFlags; simp [*]

@[simp] theorem runSubst_kept {p q} (s : State) (i : Inst) (c : Solve) (d : Bytes) (idx : Nat) (hp : s.pending = p) (hq : Grown q s.fuses) :
    KeepsE p q (runSubst s i c d idx) := by
  have k := tryAll_kept (fun t st => substStep c st t) (stepsOf c 2 d) s fun t a => substStep_kept ..
  unfold runSubst; simp only []; split <;> simp [k.1, k.2, hp, hq]

@[simp] theorem cutSolve_kept (s : State) (a1 : Inst) :
    (cutSolve s a1).pending = s.pending ∧ (cutSolve s a1).fuses = s.fuses := by
  unfold cutSolve; try simp only []
  split <;> simp [*]

@[simp] theorem assembleSteps_kept {p q} (s : State) (c : Solve) (l : List SolveStep) (hp : s.pending = p) (hq : s.fuses = q) :
    KeepsO p q (assembleSteps s c l) := by
  induction l generalizing s with
  | nil => exact ⟨hp, hq⟩
  | cons x l ih =>
    unfold assembleSteps; split
    · exact ih _ (by simp [hp]) (by simp [hq])
    · have k := foldlM_keptO (fun u k => accGroup u c (x.a + k)) (fun s y h1 h2 => accGroup_kept _ _ _ h1 h2) (List.range x.b) s hp hq
      split
      · rename_i h; rw [h] at k; exact ih _ k.1 k.2
      · trivial

@[simp] theorem runAssemble_kept {p q} (s : State) (i : Inst) (c : Solve) (d : Bytes) (hp : s.pending = p) (hq : Grown q s.fuses) :
    KeepsE p q (runAssemble s i c d) := by
  have k := assembleSteps_kept s c (stepsOf c 0 d) hp rfl
  unfold runAssemble; split
  · trivial
  · rename_i h; rw [h] at k; simp [k.1, k.2, hq]

@[simp] theorem refuseReport_kept (s : State) (a1 : Inst) (a2 : Solve) :
    (refuseReport s a1 a2).pending = s.pending ∧ (refuseReport s a1 a2).fuses = s.fuses := by
  unfold refuseReport; simp [*]

@[simp] theorem factorOne_kept (a0 : Solve) (a1 : Num) (a2 : SolveStep) (a3 : SolveWork) (s : State) :
    (factorOne a0 a1 a2 a3 s).2.1.pending = s.pending ∧ (factorOne a0 a1 a2 a3 s).2.1.fuses = s.fuses := by
  unfold factorOne; try simp only []
  split <;> simp [*]

@[simp] theorem factorSteps_kept (c : Solve) (mu : Num) (l : List SolveStep) (w : SolveWork) (s : State) :
    (factorSteps c mu l w s).2.1.pending = s.pending ∧ (factorSteps c mu l w s).2.1.fuses = s.fuses := by
  induction l generalizing s w with
  | nil => exact ⟨rfl, rfl⟩
  | cons x l ih =>
    have k := factorOne_kept c mu x w s
    unfold factorSteps; simp only []; split
    · exact ⟨(ih _ _).1.trans k.1, (ih _ _).2.trans k.2⟩
    · exact k

@[simp] theorem finishFactor_kept (i : Inst) (c : Solve) (idx : Nat) (r : SolveWork × SolveTry) :
    (finishFactor i c idx r).pending = r.2.1.pending ∧ (finishFactor i c idx r).fuses = r.2.1.fuses := by
  unfold finishFactor; simp only []; split <;> simp

@[simp] theorem refactor_kept (a0 : Solve) (a1 : Num) (a2 : Bytes) (a3 : Nat) (a4 : SolveWork) (s : State) :
    (refactor a0 a1 a2 a3 a4 s).2.1.pending = s.pending ∧ (refactor a0 a1 a2 a3 a4 s).2.1.fuses = s.fuses := by
  unfold refactor; simp [*]

@[simp] theorem runFactor_kept {p q} (s : State) (i : Inst) (c : Solve) (d : Bytes) (idx : Nat) (hp : s.pending = p) (hq : Grown q s.fuses) :
    KeepsE p q (runFactor s i c d idx) := by
  unfold runFactor; simp only []
  split
  · rw [keepsE_ok, (finishFactor_kept ..).1, (finishFactor_kept ..).2]; split <;> simp [*]
  · simp [*]

@[simp] theorem runUpdate_kept {p q} (s : State) (a1 : Inst) (a2 : Solve) (a3 : Nat) (hp : s.pending = p)
    (hq : Grown q s.fuses) :
    KeepsE p q (runUpdate s a1 a2 a3) := by
  unfold runUpdate; simp [*]

@[simp] theorem solveWorks_kept {p q} (s : State) (a1 : Inst) (a2 : Solve) (a3 : Nat) (a4 : Bytes) (a5 : Nat)
    (hp : s.pending = p) (hq : Grown q s.fuses) :
    KeepsE p q (solveWorks s a1 a2 a3 a4 a5) := by
  unfold solveWorks; simp [*]

@[simp] theorem solveDesc_kept {p q} (a0 : Nat) (s : State) (a2 : Inst) (a3 : Bytes) (a4 : Nat)
    (hp : s.pending = p) (hq : Grown q s.fuses) :
    KeepsE p q (solveDesc a0 s a2 a3 a4) := by
  unfold solveDesc; simp [*]

@[simp] theorem execSolveAssemble_kept {p q} (a0 : Nat) (a1 : Nat) (s : State) (hp : s.pending = p)
    (hq : Grown q s.fuses) :
    Keeps p q (execSolveAssemble a0 a1 s) := by
  unfold execSolveAssemble
  try split
  all_goals first
  | (simp [*]; done)
  | (refine issueDesc_kept _ _ _ _ _ hp hq ?_
     intro s i d k hp hq
     simp only [solveRun]
     first
     | (simp [*]; done)
     | ((repeat' split) <;> simp [*]; done))

@[simp] theorem recordReport_kept (s : State) (a1 : Inst) (a2 : SolveWork) (a3 : Nat × Nat) :
    (recordReport s a1 a2 a3).pending = s.pending ∧ (recordReport s a1 a2 a3).fuses = s.fuses := by
  unfold recordReport; simp [*]

@[simp] theorem acceptReport_kept (s : State) (i : Inst) (c : Solve) (r : SolveRun) :
    (acceptReport s i c r).pending = s.pending ∧ (acceptReport s i c r).fuses = s.fuses := by
  unfold acceptReport; simp only []
  split <;> simp

@[simp] theorem answerSolve_kept (s : State) (a1 : Inst) (a2 : Solve) (a3 : SolveRun) :
    (answerSolve s a1 a2 a3).pending = s.pending ∧ (answerSolve s a1 a2 a3).fuses = s.fuses := by
  unfold answerSolve; try simp only []
  (repeat' split) <;> simp [*]

@[simp] theorem execSolveReport_kept {p q} (a0 : Nat) (a1 : Nat) (s : State) (hp : s.pending = p)
    (hq : Grown q s.fuses) :
    Keeps p q (execSolveReport a0 a1 s) := by
  unfold execSolveReport; try simp only []
  (repeat' split) <;> simp [*]

@[simp] theorem execSolveSubst_kept {p q} (a0 : Nat) (a1 : Nat) (s : State) (hp : s.pending = p)
    (hq : Grown q s.fuses) :
    Keeps p q (execSolveSubst a0 a1 s) := by
  unfold execSolveSubst
  try split
  all_goals first
  | (simp [*]; done)
  | (refine issueDesc_kept _ _ _ _ _ hp hq ?_
     intro s i d k hp hq
     simp only [solveRun]
     first
     | (simp [*]; done)
     | ((repeat' split) <;> simp [*]; done))

@[simp] theorem execSolveUpdate_kept {p q} (a0 : Nat) (a1 : Nat) (s : State) (hp : s.pending = p)
    (hq : Grown q s.fuses) :
    Keeps p q (execSolveUpdate a0 a1 s) := by
  unfold execSolveUpdate
  try split
  all_goals first
  | (simp [*]; done)
  | (refine issueDesc_kept _ _ _ _ _ hp hq ?_
     intro s i d k hp hq
     simp only [solveRun]
     first
     | (simp [*]; done)
     | ((repeat' split) <;> simp [*]; done))

@[simp] theorem execSolveFactor_kept {p q} (a0 : Nat) (a1 : Nat) (s : State) (hp : s.pending = p)
    (hq : Grown q s.fuses) :
    Keeps p q (execSolveFactor a0 a1 s) := by
  unfold execSolveFactor
  try split
  all_goals first
  | (simp [*]; done)
  | (refine issueDesc_kept _ _ _ _ _ hp hq ?_
     intro s i d k hp hq
     simp only [solveRun]
     first
     | (simp [*]; done)
     | ((repeat' split) <;> simp [*]; done))

@[simp] theorem stopBecomesEffective_kept (s : State) :
    (stopBecomesEffective s).pending = s.pending ∧ (stopBecomesEffective s).fuses = s.fuses := by
  unfold stopBecomesEffective; simp [*]

@[simp] theorem stopEnWrite_kept {p q} (s : State) (a1 : Word) (hp : s.pending = p) (hq : Grown q s.fuses) :
    KeepsE p q (stopEnWrite s a1) := by
  unfold stopEnWrite; simp [*]

@[simp] theorem execStopEnWrite_kept {p q} (a0 : Word) (s : State) (hp : s.pending = p) (hq : Grown q s.fuses) :
    Keeps p q (execStopEnWrite a0 s) := by
  unfold execStopEnWrite; simp [*]

@[simp] theorem execFpToggle_kept {p q} (s : State) (hp : s.pending = p) (hq : Grown q s.fuses) :
    Keeps p q (execFpToggle s) := by
  unfold execFpToggle; simp [*]

@[simp] theorem execFpReadback_kept {p q} (a0 : Nat) (s : State) (hp : s.pending = p) (hq : Grown q s.fuses) :
    Keeps p q (execFpReadback a0 s) := by
  unfold execFpReadback; simp [*]

@[simp] theorem execStopInputActive_kept {p q} (s : State) (hp : s.pending = p) (hq : Grown q s.fuses) :
    Keeps p q (execStopInputActive s) := by
  unfold execStopInputActive; simp [*]

@[simp] theorem execStopInputInactive_kept {p q} (s : State) (hp : s.pending = p) (hq : Grown q s.fuses) :
    Keeps p q (execStopInputInactive s) := by
  unfold execStopInputInactive; simp [*]

@[simp] theorem deadlineRecord_kept (s : State) :
    (deadlineRecord s).pending = s.pending ∧ (deadlineRecord s).fuses = s.fuses := by
  unfold deadlineRecord; simp [*]

@[simp] theorem stopLatigo_kept (s : State) :
    (stopLatigo s).pending = s.pending ∧ (stopLatigo s).fuses = s.fuses := by
  unfold stopLatigo; simp [*]

@[simp] theorem settleDeadline_kept (s : State) :
    (settleDeadline s).pending = s.pending ∧ (settleDeadline s).fuses = s.fuses := by
  unfold settleDeadline; simp [*]

@[simp] theorem settleIfDue_kept (s : State) :
    (settleIfDue s).pending = s.pending ∧ (settleIfDue s).fuses = s.fuses := by
  unfold settleIfDue; simp [*]

@[simp] theorem discardOutputs_kept (s : State) (a1 : List Inst) :
    (discardOutputs s a1).pending = s.pending ∧ (discardOutputs s a1).fuses = s.fuses := by
  unfold discardOutputs; simp [*]

@[simp] theorem cutInstance_kept (s : State) (a1 : Inst) :
    (cutInstance s a1).pending = s.pending ∧ (cutInstance s a1).fuses = s.fuses := by
  unfold cutInstance; try simp only []
  (repeat' split) <;> simp [*]

@[simp] theorem leaveBatches_kept (s : State) (a1 : Nat) (a2 : Nat) (a3 : List Nat) :
    (leaveBatches s a1 a2 a3).pending = s.pending ∧ (leaveBatches s a1 a2 a3).fuses = s.fuses := by
  unfold leaveBatches; simp [*]

@[simp] theorem leaveCopy_kept (s : State) (a1 : Task) (a2 : Nat) (a3 : List Nat) :
    (leaveCopy s a1 a2 a3).pending = s.pending ∧ (leaveCopy s a1 a2 a3).fuses = s.fuses := by
  unfold leaveCopy; simp [*]

@[simp] theorem cutEntry_kept (s : State) (a1 : Ready) :
    (cutEntry s a1).pending = s.pending ∧ (cutEntry s a1).fuses = s.fuses := by
  unfold cutEntry; simp [*]

@[simp] theorem cutLists_kept (s : State) : (cutLists s).pending = s.pending ∧ (cutLists s).fuses = s.fuses := by
  unfold cutLists; simp [*]

@[simp] theorem leaveTask_kept (s : State) (a1 : Task) :
    (leaveTask s a1).pending = s.pending ∧ (leaveTask s a1).fuses = s.fuses := by
  unfold leaveTask; simp [*]

@[simp] theorem cutPhases_kept (s : State) : (cutPhases s).pending = s.pending ∧ (cutPhases s).fuses = s.fuses := by
  unfold cutPhases; simp [*]

@[simp] theorem cutNow_kept (s : State) : (cutNow s).pending = s.pending ∧ (cutNow s).fuses = s.fuses := by
  unfold cutNow; simp [*]

@[simp] theorem execCut_kept {p q} (s : State) (hp : s.pending = p) (hq : Grown q s.fuses) :
    Keeps p q (execCut s) := by
  unfold execCut; simp [*]

@[simp] theorem abortAll_kept (s : State) : (abortAll s).pending = s.pending ∧ (abortAll s).fuses = s.fuses := by
  unfold abortAll; simp [*]

@[simp] theorem clearLists_kept (s : State) :
    (clearLists s).pending = s.pending ∧ (clearLists s).fuses = s.fuses := by
  unfold clearLists; simp [*]

@[simp] theorem lapseItem_kept (s : State) : (lapseItem s).pending = s.pending ∧ (lapseItem s).fuses = s.fuses := by
  unfold lapseItem; try simp only []
  split <;> simp [*]

@[simp] theorem deadlineNow_kept (s : State) :
    (deadlineNow s).pending = s.pending ∧ (deadlineNow s).fuses = s.fuses := by
  unfold deadlineNow; simp [*]

@[simp] theorem execDeadline_kept {p q} (s : State) (hp : s.pending = p) (hq : Grown q s.fuses) :
    Keeps p q (execDeadline s) := by
  unfold execDeadline; simp [*]

@[simp] theorem beginCycle_kept (s : State) (a1 : Nat) :
    (beginCycle s a1).pending = s.pending ∧ (beginCycle s a1).fuses = s.fuses := by
  unfold beginCycle; try simp only []
  split <;> simp [*]

@[simp] theorem startCycle_kept (s : State) (a1 : Nat) :
    (startCycle s a1).pending = s.pending ∧ (startCycle s a1).fuses = s.fuses := by
  unfold startCycle; simp [*]

@[simp] theorem execSyncTimeout_kept {p q} (s : State) (hp : s.pending = p) (hq : Grown q s.fuses) :
    Keeps p q (execSyncTimeout s) := by
  unfold execSyncTimeout; simp [*]

@[simp] theorem acceptEdge_kept (s : State) :
    (acceptEdge s).pending = s.pending ∧ (acceptEdge s).fuses = s.fuses := by
  unfold acceptEdge; simp [*]

@[simp] theorem execCycleStart_kept {p q} (s : State) (hp : s.pending = p) (hq : Grown q s.fuses) :
    Keeps p q (execCycleStart s) := by
  unfold execCycleStart; try simp only []
  split <;> simp [*]

@[simp] theorem loseSync_kept (s : State) : (loseSync s).pending = s.pending ∧ (loseSync s).fuses = s.fuses := by
  unfold loseSync; simp [*]

@[simp] theorem ignoreEdge_kept (s : State) :
    (ignoreEdge s).pending = s.pending ∧ (ignoreEdge s).fuses = s.fuses := by
  unfold ignoreEdge; simp [*]

@[simp] theorem execFpSyncEdge_kept {p q} (s : State) (hp : s.pending = p) (hq : Grown q s.fuses) :
    Keeps p q (execFpSyncEdge s) := by
  unfold execFpSyncEdge; simp [*]

@[simp] theorem execSyncLostClear_kept {p q} (s : State) (hp : s.pending = p) (hq : Grown q s.fuses) :
    Keeps p q (execSyncLostClear s) := by
  unfold execSyncLostClear; simp [*]

@[simp] theorem enterRun_kept (s : State) (a1 : DevState) :
    (enterRun s a1).pending = s.pending ∧ (enterRun s a1).fuses = s.fuses := by
  unfold enterRun; simp [*]

@[simp] theorem holdAllHost_kept (s : State) :
    (holdAllHost s).pending = s.pending ∧ (holdAllHost s).fuses = s.fuses := by
  unfold holdAllHost; simp [*]

@[simp] theorem startRun_kept (s : State) (a1 : Msg) (a2 : Bool) :
    (startRun s a1 a2).pending = s.pending ∧ (startRun s a1 a2).fuses = s.fuses := by
  unfold startRun; simp [*]

@[simp] theorem startStatus_kept (s : State) :
    (startStatus s).1.pending = s.pending ∧ (startStatus s).1.fuses = s.fuses := by
  unfold startStatus; try simp only []
  (repeat' split) <;> simp [*]

@[simp] theorem startCommand_kept (s : State) (a1 : Msg) :
    (startCommand s a1).pending = s.pending ∧ (startCommand s a1).fuses = s.fuses := by
  unfold startCommand; simp [*]

@[simp] theorem resumeCommand_kept (s : State) (a1 : Msg) :
    (resumeCommand s a1).pending = s.pending ∧ (resumeCommand s a1).fuses = s.fuses := by
  unfold resumeCommand; simp [*]

@[simp] theorem execResume_kept {p q} (s : State) (hp : s.pending = p) (hq : Grown q s.fuses) :
    Keeps p q (execResume s) := by
  unfold execResume; try simp only []
  (repeat' split) <;> simp_all

@[simp] theorem keepPackage_kept (s : State) (a1 : Replay) (a2 : Msg) (a3 : Nat) (a4 : Bytes) :
    (keepPackage s a1 a2 a3 a4).pending = s.pending ∧ (keepPackage s a1 a2 a3 a4).fuses = s.fuses := by
  unfold keepPackage; try simp only []
  split <;> simp [*]

@[simp] theorem pauseCommand_kept (s : State) (a1 : Msg) :
    (pauseCommand s a1).pending = s.pending ∧ (pauseCommand s a1).fuses = s.fuses := by
  unfold pauseCommand; simp [*]

@[simp] theorem execCkptPut_kept {p q} (s : State) (hp : s.pending = p) (hq : Grown q s.fuses) :
    Keeps p q (execCkptPut s) := by
  unfold execCkptPut; try simp only []
  (repeat' split) <;> simp_all

@[simp] theorem saveCommand_kept (s : State) (a1 : Msg) :
    (saveCommand s a1).pending = s.pending ∧ (saveCommand s a1).fuses = s.fuses := by
  unfold saveCommand; simp [*]

@[simp] theorem replayPiece_kept {p q} (s : State) (a1 : Replay) (a2 : Msg) (hp : s.pending = p)
    (hq : Grown q s.fuses) :
    Keeps p q (replayPiece s a1 a2) := by
  unfold replayPiece; try simp only []
  (repeat' split) <;> simp_all

@[simp] theorem execSave_kept {p q} (s : State) (hp : s.pending = p) (hq : Grown q s.fuses) :
    Keeps p q (execSave s) := by
  unfold execSave; try simp only []
  (repeat' split) <;> simp_all

@[simp] theorem emptyQueues_kept (s : State) :
    (emptyQueues s).pending = s.pending ∧ (emptyQueues s).fuses = s.fuses := by
  unfold emptyQueues; simp [*]

@[simp] theorem replayCommand_kept (s : State) (a1 : Msg) :
    (replayCommand s a1).pending = s.pending ∧ (replayCommand s a1).fuses = s.fuses := by
  unfold replayCommand; simp [*]

@[simp] theorem resumeCkptCommand_kept (s : State) (a1 : Msg) :
    (resumeCkptCommand s a1).pending = s.pending ∧ (resumeCkptCommand s a1).fuses = s.fuses := by
  unfold resumeCkptCommand; simp [*]

@[simp] theorem execStart_kept {p q} (s : State) (hp : s.pending = p) (hq : Grown q s.fuses) :
    Keeps p q (execStart s) := by
  unfold execStart; try simp only []
  (repeat' split) <;> simp_all

@[simp] theorem execResumeCheckpoint_kept {p q} (s : State) (hp : s.pending = p) (hq : Grown q s.fuses) :
    Keeps p q (execResumeCheckpoint s) := by
  unfold execResumeCheckpoint; try simp only []
  (repeat' split) <;> simp_all

@[simp] theorem execPause_kept {p q} (s : State) (hp : s.pending = p) (hq : Grown q s.fuses) :
    Keeps p q (execPause s) := by
  unfold execPause; try simp only []
  (repeat' split) <;> simp_all

@[simp] theorem execReplay_kept {p q} (s : State) (hp : s.pending = p) (hq : Grown q s.fuses) :
    Keeps p q (execReplay s) := by
  unfold execReplay; try simp only []
  (repeat' split) <;> simp_all

@[simp] theorem execReplayData_kept {p q} (s : State) (hp : s.pending = p) (hq : Grown q s.fuses) :
    Keeps p q (execReplayData s) := by
  unfold execReplayData
  refine withFront_kept _ _ _ _ hp hq fun m t h1 h2 => ?_
  (repeat' split) <;> simp [*]

@[simp] theorem clearIfDue_kept (s : State) :
    (clearIfDue s).pending = s.pending ∧ (clearIfDue s).fuses = s.fuses := by
  unfold clearIfDue; simp [*]

@[simp] theorem clearStitch_kept (s : State) :
    (clearStitch s).pending = s.pending ∧ (clearStitch s).fuses = s.fuses := by
  unfold clearStitch; simp [*]

@[simp] theorem retainBanks_kept (s : State) :
    (retainBanks s).pending = s.pending ∧ (retainBanks s).fuses = s.fuses := by
  unfold retainBanks; simp [*]

@[simp] theorem clearTokens_kept (s : State) :
    (clearTokens s).pending = s.pending ∧ (clearTokens s).fuses = s.fuses := by
  unfold clearTokens; simp [*]

@[simp] theorem endHolds_kept (s : State) : (endHolds s).pending = s.pending ∧ (endHolds s).fuses = s.fuses := by
  unfold endHolds; simp [*]

@[simp] theorem keepFacts_kept (s : State) (a1 : Released) :
    (keepFacts s a1).pending = s.pending ∧ (keepFacts s a1).fuses = s.fuses := by
  unfold keepFacts; simp [*]

@[simp] theorem keepIncumbent_kept (s : State) (a1 : Released) :
    (keepIncumbent s a1).pending = s.pending ∧ (keepIncumbent s a1).fuses = s.fuses := by
  unfold keepIncumbent; simp [*]

@[simp] theorem settingsInForce_kept (s : State) :
    (settingsInForce s).pending = s.pending ∧ ∀ q, Grown q s.fuses → Grown q (settingsInForce s).fuses := by
  unfold settingsInForce; simp +contextual

@[simp] theorem shiftCounts_kept (s : State) :
    (shiftCounts s).pending = s.pending ∧ (shiftCounts s).fuses = s.fuses := by
  unfold shiftCounts; simp [*]

@[simp] theorem loseTile_kept (s : State) (t : Nat) :
    (loseTile s t).pending = s.pending ∧ (loseTile s t).fuses = s.fuses := by
  unfold loseTile; simp

@[simp] theorem substTile_kept (s : State) (a1 : Nat) :
    (substTile s a1).pending = s.pending ∧ (substTile s a1).fuses = s.fuses := by
  unfold substTile; simp [*]

@[simp] theorem substitute_kept (s : State) :
    (substitute s).pending = s.pending ∧ (substitute s).fuses = s.fuses := by
  unfold substitute; simp [*]

@[simp] theorem endCycle_kept (s : State) (a1 : Released) :
    (endCycle s a1).pending = s.pending ∧ ∀ q, Grown q s.fuses → Grown q (endCycle s a1).fuses := by
  unfold endCycle; try simp only []
  (repeat' split) <;> simp_all

@[simp] theorem answerMsg_kept (s : State) (a1 : Option Msg) (a2 : Nat) :
    (answerMsg s a1 a2).pending = s.pending ∧ (answerMsg s a1 a2).fuses = s.fuses := by
  unfold answerMsg; try simp only []
  split <;> simp [*]

@[simp] theorem endReplay_kept (s : State) : (endReplay s).pending = s.pending ∧ (endReplay s).fuses = s.fuses := by
  unfold endReplay; simp [*]

@[simp] theorem stopReplay_kept (s : State) (a1 : Msg) :
    (stopReplay s a1).pending = s.pending ∧ ∀ q, Grown q s.fuses → Grown q (stopReplay s a1).fuses := by
  unfold stopReplay; try simp only []
  (repeat' split) <;> simp_all

@[simp] theorem stopCommand_kept (s : State) (a1 : Msg) :
    (stopCommand s a1).pending = s.pending ∧ ∀ q, Grown q s.fuses → Grown q (stopCommand s a1).fuses := by
  unfold stopCommand; try simp only []
  (repeat' split) <;> simp_all

@[simp] theorem execStop_kept {p q} (s : State) (hp : s.pending = p) (hq : Grown q s.fuses) :
    Keeps p q (execStop s) := by
  unfold execStop; try simp only []
  (repeat' split) <;> simp_all

@[simp] theorem startEarly_kept (s : State) :
    (startEarly s).pending = s.pending ∧ (startEarly s).fuses = s.fuses := by
  unfold startEarly; try simp only []
  split <;> simp [*]

@[simp] theorem placeBatches_kept (s : State) (a1 : ReplayPkg) :
    (placeBatches s a1).pending = s.pending ∧ (placeBatches s a1).fuses = s.fuses := by
  unfold placeBatches; simp [*]

@[simp] theorem placeFrame_kept (a0 : Nat) (s : State) (a2 : Bytes) :
    (placeFrame a0 s a2).pending = s.pending ∧ (placeFrame a0 s a2).fuses = s.fuses := by
  unfold placeFrame; simp [*]

@[simp] theorem placeFrames_kept (s : State) (a1 : ReplayPkg) :
    (placeFrames s a1).pending = s.pending ∧ (placeFrames s a1).fuses = s.fuses := by
  unfold placeFrames; simp [*]

@[simp] theorem startReplayed_kept (s : State) (a1 : ReplayPkg) :
    (startReplayed s a1).pending = s.pending ∧ (startReplayed s a1).fuses = s.fuses := by
  unfold startReplayed; simp [*]

@[simp] theorem spareIn_kept (s : State) (a1 : Nat) (a2 : Nat) :
    (spareIn s a1 a2).pending = s.pending ∧ (spareIn s a1 a2).fuses = s.fuses := by
  unfold spareIn; simp [*]

@[simp] theorem ckptReady_kept (s : State) (a1 : Replay) :
    (ckptReady s a1).pending = s.pending ∧ (ckptReady s a1).fuses = s.fuses := by
  unfold ckptReady; simp [*]

@[simp] theorem replayOn_kept (s : State) (a1 : Replay) (a2 : Bytes) :
    (replayOn s a1 a2).pending = s.pending ∧ (replayOn s a1 a2).fuses = s.fuses := by
  unfold replayOn; simp [*]

@[simp] theorem snapCounters_kept (s : State) :
    (snapCounters s).pending = s.pending ∧ (snapCounters s).fuses = s.fuses := by
  unfold snapCounters; simp [*]

@[simp] theorem nextSeq_kept (s : State) (a1 : Released) :
    (nextSeq s a1).pending = s.pending ∧ (nextSeq s a1).fuses = s.fuses := by
  unfold nextSeq; simp [*]

@[simp] theorem stopOrPause_kept (s : State) :
    (stopOrPause s).pending = s.pending ∧ (stopOrPause s).fuses = s.fuses := by
  unfold stopOrPause; simp [*]

@[simp] theorem passBoundary_kept (s : State) (a1 : Released) :
    (passBoundary s a1).pending = s.pending ∧ ∀ q, Grown q s.fuses → Grown q (passBoundary s a1).fuses := by
  unfold passBoundary; try simp only []
  (repeat' split) <;> simp_all

@[simp] theorem abandonReplay_kept (s : State) :
    (abandonReplay s).pending = s.pending ∧ ∀ q, Grown q s.fuses → Grown q (abandonReplay s).fuses := by
  unfold abandonReplay; try simp only []
  (repeat' split) <;> simp_all

@[simp] theorem closeReplayed_kept (s : State) :
    (closeReplayed s).pending = s.pending ∧ (closeReplayed s).fuses = s.fuses := by
  unfold closeReplayed; try simp only []
  (repeat' split) <;> simp [*]

@[simp] theorem execBoundary_kept {p q} (s : State) (hp : s.pending = p) (hq : Grown q s.fuses) :
    Keeps p q (execBoundary s) := by
  unfold execBoundary; try simp only []
  (repeat' split) <;> simp [*]

@[simp] theorem execSpareIn_kept {p q} (a0 : Nat) (s : State) (hp : s.pending = p) (hq : Grown q s.fuses) :
    Keeps p q (execSpareIn a0 s) := by
  unfold execSpareIn; try simp only []
  split <;> simp [*]

@[simp] theorem execReplayCycleStart_kept {p q} (s : State) (hp : s.pending = p) (hq : Grown q s.fuses) :
    Keeps p q (execReplayCycleStart s) := by
  unfold execReplayCycleStart; try simp only []
  split <;> simp [*]

@[simp] theorem reportLate_kept (s : State) (a1 : Nat) :
    (reportLate s a1).pending = s.pending ∧ (reportLate s a1).fuses = s.fuses := by
  unfold reportLate; simp [*]

@[simp] theorem setSlices_kept (s : State) (a1 : Msg) :
    (setSlices s a1).pending = s.pending ∧ (setSlices s a1).fuses = s.fuses := by
  unfold setSlices; simp [*]

@[simp] theorem execSelftestConfig_kept {p q} (s : State) (hp : s.pending = p) (hq : Grown q s.fuses) :
    Keeps p q (execSelftestConfig s) := by
  unfold execSelftestConfig; try simp only []
  (repeat' split) <;> simp_all

@[simp] theorem startSlice_kept (s : State) :
    (startSlice s).pending = s.pending ∧ (startSlice s).fuses = s.fuses := by
  unfold startSlice; simp [*]

@[simp] theorem sliceCeases_kept (s : State) (a1 : Nat) (a2 : List Nat) :
    (sliceCeases s a1 a2).pending = s.pending ∧ (sliceCeases s a1 a2).fuses = s.fuses := by
  unfold sliceCeases; simp [*]

@[simp] theorem sliceEnds_kept (s : State) (a1 : Nat) (a2 : Nat) (a3 : List Nat) :
    (sliceEnds s a1 a2 a3).pending = s.pending ∧ (sliceEnds s a1 a2 a3).fuses = s.fuses := by
  unfold sliceEnds; simp [*]

@[simp] theorem noteFail_kept (s : State) (a1 : Nat) (a2 : Nat) :
    (noteFail s a1 a2).pending = s.pending ∧ (noteFail s a1 a2).fuses = s.fuses := by
  unfold noteFail; simp [*]

@[simp] theorem sliceFails_kept (s : State) (a1 : Nat) (a2 : Nat) :
    (sliceFails s a1 a2).pending = s.pending ∧ (sliceFails s a1 a2).fuses = s.fuses := by
  unfold sliceFails; simp [*]

@[simp] theorem endSlice_kept (s : State) (a1 : Nat) (a2 : Nat) (a3 : List Nat) :
    (endSlice s a1 a2 a3).pending = s.pending ∧ (endSlice s a1 a2 a3).fuses = s.fuses := by
  unfold endSlice; simp [*]

@[simp] theorem execSliceDone_kept {p q} (a0 : List Nat) (s : State) (hp : s.pending = p) (hq : Grown q s.fuses) :
    Keeps p q (execSliceDone a0 s) := by
  unfold execSliceDone; try simp only []
  split <;> simp [*]

@[simp] theorem execSelftestLate_kept {p q} (a0 : Nat) (s : State) (hp : s.pending = p) (hq : Grown q s.fuses) :
    Keeps p q (execSelftestLate a0 s) := by
  unfold execSelftestLate; simp [*]

@[simp] theorem reportStarved_kept (s : State) (a1 : Nat) (a2 : Nat) :
    (reportStarved s a1 a2).pending = s.pending ∧ (reportStarved s a1 a2).fuses = s.fuses := by
  unfold reportStarved; simp [*]

@[simp] theorem execSelftestStarved_kept {p q} (a0 : Nat) (a1 : Nat) (s : State) (hp : s.pending = p)
    (hq : Grown q s.fuses) :
    Keeps p q (execSelftestStarved a0 a1 s) := by
  unfold execSelftestStarved; simp [*]

@[simp] theorem execSelftestSlice_kept {p q} (s : State) (hp : s.pending = p) (hq : Grown q s.fuses) :
    Keeps p q (execSelftestSlice s) := by
  unfold execSelftestSlice; simp [*]

@[simp] theorem takeHandshake_kept (s : State) :
    (takeHandshake s).pending = s.pending ∧ (takeHandshake s).fuses = s.fuses := by
  unfold takeHandshake; try simp only []
  split <;> simp [*]

@[simp] theorem tileUnitReads_kept (s : State) (a1 : Nat) (a2 : Bytes) :
    (tileUnitReads s a1 a2).pending = s.pending ∧ (tileUnitReads s a1 a2).fuses = s.fuses := by
  unfold tileUnitReads; simp [*]

@[simp] theorem drainTail_kept (s : State) (a1 : Staging) :
    (drainTail s a1).pending = s.pending ∧ (drainTail s a1).fuses = s.fuses := by
  unfold drainTail; simp [*]

@[simp] theorem offerLog_kept (s : State) (a1 : Staging) :
    (offerLog s a1).pending = s.pending ∧ (offerLog s a1).fuses = s.fuses := by
  unfold offerLog; simp [*]

@[simp] theorem drainEntry_kept (s : State) (a1 : Staging) (a2 : List Staging) :
    (drainEntry s a1 a2).pending = s.pending ∧ (drainEntry s a1 a2).fuses = s.fuses := by
  unfold drainEntry; simp [*]

@[simp] theorem execLogRecord_kept {p q} (a0 : Nat) (a1 : Nat) (a2 : Nat) (a3 : Bytes) (s : State)
    (hp : s.pending = p) (hq : Grown q s.fuses) :
    Keeps p q (execLogRecord a0 a1 a2 a3 s) := by
  unfold execLogRecord; simp [*]

@[simp] theorem markBad_kept (s : State) (a1 : Nat) :
    (markBad s a1).pending = s.pending ∧ (markBad s a1).fuses = s.fuses := by
  unfold markBad; simp [*]

@[simp] theorem markBurst_kept (s : State) (a1 : Nat) :
    (markBurst s a1).pending = s.pending ∧ (markBurst s a1).fuses = s.fuses := by
  unfold markBurst; simp [*]

@[simp] theorem edcLimit_kept (s : State) (a1 : Bytes) :
    (edcLimit s a1).pending = s.pending ∧ (edcLimit s a1).fuses = s.fuses := by
  unfold edcLimit; simp [*]

@[simp] theorem gddrReads_kept (s : State) (a1 : Nat) (a2 : Bytes) :
    (gddrReads s a1 a2).pending = s.pending ∧ (gddrReads s a1 a2).fuses = s.fuses := by
  unfold gddrReads; simp [*]

@[simp] theorem putDiffers_kept (s : State) (a1 : Nat) (a2 : Bytes) :
    (putDiffers s a1 a2).pending = s.pending ∧ (putDiffers s a1 a2).fuses = s.fuses := by
  unfold putDiffers; try simp only []
  (repeat' split) <;> simp [*]

@[simp] theorem faultMemory_kept (s : State) (a1 : Nat) (a2 : Nat) (a3 : Bytes) :
    (faultMemory s a1 a2 a3).pending = s.pending ∧ (faultMemory s a1 a2 a3).fuses = s.fuses := by
  unfold faultMemory; simp [*]

@[simp] theorem execFaultEvent_kept {p q} (a0 : Nat) (a1 : Nat) (a2 : Bytes) (s : State) (hp : s.pending = p)
    (hq : Grown q s.fuses) :
    Keeps p q (execFaultEvent a0 a1 a2 s) := by
  unfold execFaultEvent; simp [*]

@[simp] theorem execFaultDrain_kept {p q} (s : State) (hp : s.pending = p) (hq : Grown q s.fuses) :
    Keeps p q (execFaultDrain s) := by
  unfold execFaultDrain; try simp only []
  split <;> simp [*]

@[simp] theorem mdioStart_kept {p q} (s : State) (a1 : Nat) (a2 : Nat) (a3 : Word) (hp : s.pending = p)
    (hq : Grown q s.fuses) :
    KeepsE p q (mdioStart s a1 a2 a3) := by
  unfold mdioStart; simp [*]

@[simp] theorem mdioCommand_kept {p q} (s : State) (a1 : Nat) (a2 : Word) (a3 : Nat) (hp : s.pending = p)
    (hq : Grown q s.fuses) :
    Keeps p q (mdioCommand s a1 a2 a3) := by
  unfold mdioCommand; try simp only []
  split <;> simp [*]

@[simp] theorem phyCtrlWrite_kept {p q} (s : State) (a1 : Nat) (a2 : Word) (hp : s.pending = p)
    (hq : Grown q s.fuses) :
    KeepsE p q (phyCtrlWrite s a1 a2) := by
  unfold phyCtrlWrite; simp [*]

@[simp] theorem execPhyResetWrite_kept {p q} (a0 : Nat) (a1 : Word) (s : State) (hp : s.pending = p)
    (hq : Grown q s.fuses) :
    Keeps p q (execPhyResetWrite a0 a1 s) := by
  unfold execPhyResetWrite; try simp only []
  split <;> simp [*]

@[simp] theorem execMdioC45Write_kept {p q} (a0 : Nat) (a1 : Word) (s : State) (hp : s.pending = p)
    (hq : Grown q s.fuses) :
    Keeps p q (execMdioC45Write a0 a1 s) := by
  unfold execMdioC45Write; simp [*]

@[simp] theorem execMdioC22Read_kept {p q} (a0 : Nat) (a1 : Word) (s : State) (hp : s.pending = p)
    (hq : Grown q s.fuses) :
    Keeps p q (execMdioC22Read a0 a1 s) := by
  unfold execMdioC22Read; simp [*]

@[simp] theorem execMdioC22Write_kept {p q} (a0 : Nat) (a1 : Word) (s : State) (hp : s.pending = p)
    (hq : Grown q s.fuses) :
    Keeps p q (execMdioC22Write a0 a1 s) := by
  unfold execMdioC22Write; simp [*]

@[simp] theorem execMdioC45Read_kept {p q} (a0 : Nat) (a1 : Word) (s : State) (hp : s.pending = p)
    (hq : Grown q s.fuses) :
    Keeps p q (execMdioC45Read a0 a1 s) := by
  unfold execMdioC45Read; simp [*]

@[simp] theorem execMdioDone_kept {p q} (a0 : Nat) (a1 : Option Half) (s : State) (hp : s.pending = p)
    (hq : Grown q s.fuses) :
    Keeps p q (execMdioDone a0 a1 s) := by
  unfold execMdioDone; try simp only []
  (repeat' split) <;> simp [*]

@[simp] theorem execPhyRstNRelease_kept {p q} (s : State) (hp : s.pending = p) (hq : Grown q s.fuses) :
    Keeps p q (execPhyRstNRelease s) := by
  unfold execPhyRstNRelease; simp [*]

@[simp] theorem execPhyIntFall_kept {p q} (a0 : Nat) (s : State) (hp : s.pending = p) (hq : Grown q s.fuses) :
    Keeps p q (execPhyIntFall a0 s) := by
  unfold execPhyIntFall; try simp only []
  split <;> simp [*]

@[simp] theorem discardFlit_kept (s : State) (a1 : Half) (a2 : Bool) :
    (discardFlit s a1 a2).pending = s.pending ∧ (discardFlit s a1 a2).fuses = s.fuses := by
  unfold discardFlit; simp [*]

@[simp] theorem takeAck_kept (s : State) (a1 : Bytes) :
    (takeAck s a1).pending = s.pending ∧ (takeAck s a1).fuses = s.fuses := by
  unfold takeAck; simp [*]

@[simp] theorem returnCredit_kept (s : State) (a1 : Nat) (a2 : Nat) :
    (returnCredit s a1 a2).pending = s.pending ∧ (returnCredit s a1 a2).fuses = s.fuses := by
  unfold returnCredit; simp [*]

@[simp] theorem stirrupRead_kept (a0 : Nat) (a1 : Nat) (a2 : Nat) (s : State) :
    (stirrupRead a0 a1 a2 s).pending = s.pending ∧ (stirrupRead a0 a1 a2 s).fuses = s.fuses := by
  unfold stirrupRead; simp [*]

@[simp] theorem stirrupWra_kept (a0 : Nat) (a1 : Nat) (a2 : Bytes) (s : State) :
    (stirrupWra a0 a1 a2 s).pending = s.pending ∧ (stirrupWra a0 a1 a2 s).fuses = s.fuses := by
  unfold stirrupWra; simp [*]

@[simp] theorem windowWrite_kept {p q} (a0 : Nat) (a1 : Word) (s : State) (hp : s.pending = p)
    (hq : Grown q s.fuses) :
    Keeps p q (windowWrite a0 a1 s) := by
  unfold windowWrite; try simp only []
  (repeat' split) <;> simp [*]

@[simp] theorem stirrupWrite_kept {p q} (a0 : Nat) (a1 : Bytes) (s : State) (hp : s.pending = p)
    (hq : Grown q s.fuses) :
    Keeps p q (stirrupWrite a0 a1 s) := by
  unfold stirrupWrite; simp [*]

@[simp] theorem transaction_kept {p q} (a0 : Bytes) (a1 : Bytes) (s : State) (hp : s.pending = p)
    (hq : Grown q s.fuses) :
    Keeps p q (transaction a0 a1 s) := by
  unfold transaction; simp [*]

@[simp] theorem transactions_kept {p q} (n : Nat) (bs : Bytes) (s : State) (hp : s.pending = p) (hq : Grown q s.fuses) :
    Keeps p q (transactions n bs s) := by
  induction n generalizing bs s with
  | zero => exact ⟨hp, hq⟩
  | succ n ih =>
    unfold transactions; simp only []
    split
    · simp [*]
    · have k := transaction_kept (bs.take 16) (sliceOf bs 16 (transactionData bs)) s hp hq
      split
      · rename_i h; rw [h] at k; exact ih _ _ k.1 k.2
      · exact k

@[simp] theorem execFlitReceive_kept {p q} (a0 : Bytes) (s : State) (hp : s.pending = p) (hq : Grown q s.fuses) :
    Keeps p q (execFlitReceive a0 s) := by
  unfold execFlitReceive; simp [*]

@[simp] theorem landFree_kept {p q} (s : State) (a1 : Inst) (a2 : Bytes) (a3 : Tref) (hp : s.pending = p)
    (hq : Grown q s.fuses) :
    KeepsE p q (landFree s a1 a2 a3) := by
  unfold landFree; simp [*]

@[simp] theorem landRows_kept {p q} (s : State) (i : Inst) (d : Bytes) (idx : Nat) (dst : Tref) (r : List (List Val) × Nat)
    (hp : s.pending = p) (hq : Grown q s.fuses) : KeepsE p q (landRows s i d idx dst r) := by
  unfold landRows
  exact landFlags_kept _ _ _ (by simp [hp]) (by simp [hq])

@[simp] theorem execVectUn_kept {p q} (a0 : Nat) (a1 : Nat) (s : State) (hp : s.pending = p) (hq : Grown q s.fuses) :
    Keeps p q (execVectUn a0 a1 s) := by
  unfold execVectUn
  try split
  all_goals first
  | (simp [*]; done)
  | (refine issueDesc_kept _ _ _ _ _ hp hq ?_
     intro s i d k hp hq
     simp only [unRun]
     first
     | (simp [*]; done)
     | ((repeat' split) <;> simp [*]; done))

@[simp] theorem execVectCvt_kept {p q} (a0 : Nat) (a1 : Nat) (s : State) (hp : s.pending = p) (hq : Grown q s.fuses) :
    Keeps p q (execVectCvt a0 a1 s) := by
  unfold execVectCvt
  try split
  all_goals first
  | (simp [*]; done)
  | (refine issueDesc_kept _ _ _ _ _ hp hq ?_
     intro s i d k hp hq
     simp only [cvtRun]
     first
     | (simp [*]; done)
     | ((repeat' split) <;> simp [*]; done))

@[simp] theorem execReduce_kept {p q} (a0 : Nat) (a1 : Nat) (s : State) (hp : s.pending = p) (hq : Grown q s.fuses) :
    Keeps p q (execReduce a0 a1 s) := by
  unfold execReduce
  try split
  all_goals first
  | (simp [*]; done)
  | (refine issueDesc_kept _ _ _ _ _ hp hq ?_
     intro s i d k hp hq
     simp only [reduceRun]
     first
     | (simp [*]; done)
     | ((repeat' split) <;> simp [*]; done))

@[simp] theorem execVectBin_kept {p q} (a0 : Nat) (a1 : Nat) (s : State) (hp : s.pending = p) (hq : Grown q s.fuses) :
    Keeps p q (execVectBin a0 a1 s) := by
  unfold execVectBin
  try split
  all_goals first
  | (simp [*]; done)
  | (refine issueDesc_kept _ _ _ _ _ hp hq ?_
     intro s i d k hp hq
     simp only [binRun]
     first
     | (simp [*]; done)
     | ((repeat' split) <;> simp [*]; done))

@[simp] theorem execVectNorm_kept {p q} (a0 : Nat) (a1 : Nat) (s : State) (hp : s.pending = p)
    (hq : Grown q s.fuses) :
    Keeps p q (execVectNorm a0 a1 s) := by
  unfold execVectNorm
  try split
  all_goals first
  | (simp [*]; done)
  | (refine issueDesc_kept _ _ _ _ _ hp hq ?_
     intro s i d k hp hq
     simp only [normRun]
     first
     | (simp [*]; done)
     | ((repeat' split) <;> simp [*]; done))

@[simp] theorem notePtr_kept (s : State) (a1 : Inst) :
    (notePtr s a1).pending = s.pending ∧ (notePtr s a1).fuses = s.fuses := by
  unfold notePtr; simp [*]

@[simp] theorem setFull_kept (s : State) (a1 : Nat) (a2 : Nat) (a3 : Bool) :
    (setFull s a1 a2 a3).pending = s.pending ∧ (setFull s a1 a2 a3).fuses = s.fuses := by
  unfold setFull; simp [*]

@[simp] theorem clearSlots_kept (s : State) (a1 : Nat) (a2 : Bytes) (a3 : Nat) (a4 : Nat) :
    (clearSlots s a1 a2 a3 a4).pending = s.pending ∧ (clearSlots s a1 a2 a3 a4).fuses = s.fuses := by
  unfold clearSlots; simp [*]

@[simp] theorem writePart_kept (s : State) (a1 : Nat) (a2 : Nat) (a3 : Tref) (a4 : Nat → Rm) (a5 : Nat)
    (a6 : Nat) (a7 : List Val) :
    (writePart s a1 a2 a3 a4 a5 a6 a7).1.pending = s.pending ∧ (writePart s a1 a2 a3 a4 a5 a6 a7).1.fuses = s.fuses := by
  unfold writePart; try simp only []
  split <;> simp [*]

@[simp] theorem mmRowOut_kept (s : State) (a1 : Inst) (a2 : Bytes) (a3 : Nat) (a4 : Bytes) (a5 : Nat)
    (a6 : List (List Val)) (a7 : Nat) :
    (mmRowOut s a1 a2 a3 a4 a5 a6 a7).1.pending = s.pending ∧ (mmRowOut s a1 a2 a3 a4 a5 a6 a7).1.fuses = s.fuses := by
  unfold mmRowOut; simp [*]

@[simp] theorem mmBlockOut_kept (s : State) (i : Inst) (d : Bytes) (idx panel lo n : Nat) (chunks : List Bytes) :
    (mmBlockOut s i d idx panel lo n chunks).pending = s.pending ∧ (mmBlockOut s i d idx panel lo n chunks).fuses = s.fuses := by
  unfold mmBlockOut; simp only []
  have h := fun qp c0 cols => foldl_kept2 (fun (acc : Flagged State) k =>
    let w := mmRowOut acc.1 i d idx qp c0 cols (lo + k)
    (w.1, acc.2 ||| w.2)) (by intro s x; simp) (List.range n) (s, 0)
  simp only [] at h
  split <;> simp [h]

@[simp] theorem mmCompute_kept (s : State) (a1 : Inst) (a2 : Bytes) (a3 : MmRun) :
    (mmCompute s a1 a2 a3).1.pending = s.pending ∧ (mmCompute s a1 a2 a3).1.fuses = s.fuses := by
  unfold mmCompute; try simp only []
  split <;> simp [*]

@[simp] theorem putUser_kept (s : State) (a1 : Inst) (a2 : Inst) :
    (putUser s a1 a2).pending = s.pending ∧ (putUser s a1 a2).fuses = s.fuses := by
  unfold putUser; simp [*]

@[simp] theorem failUser_kept (s : State) (a1 : Inst) :
    (failUser s a1).pending = s.pending ∧ (failUser s a1).fuses = s.fuses := by
  unfold failUser; simp [*]

@[simp] theorem mmAdvance_kept (i : Inst) (d : Bytes) (n : Nat) (s : State) (m : MmRun) :
    (mmAdvance i d n s m).1.pending = s.pending ∧ (mmAdvance i d n s m).1.fuses = s.fuses := by
  induction n generalizing s m with
  | zero => exact ⟨rfl, rfl⟩
  | succ n ih => unfold mmAdvance; simp only []; (repeat' split) <;> simp [ih]

@[simp] theorem mmRunOn_kept (s : State) (a1 : Nat) (a2 : Nat) :
    (mmRunOn s a1 a2).pending = s.pending ∧ (mmRunOn s a1 a2).fuses = s.fuses := by
  unfold mmRunOn; try simp only []
  (repeat' split) <;> simp [*]

@[simp] theorem execMatmulConv_kept {p q} (a0 : Nat) (a1 : Nat) (s : State) (hp : s.pending = p)
    (hq : Grown q s.fuses) :
    Keeps p q (execMatmulConv a0 a1 s) := by
  unfold execMatmulConv
  try split
  all_goals first
  | (simp [*]; done)
  | (refine issueDesc_kept _ _ _ _ _ hp hq ?_
     intro s i d k hp hq
     simp only [matmulRun]
     first
     | (simp [*]; done)
     | ((repeat' split) <;> simp [*]; done))

@[simp] theorem giveChunk_kept (s : State) (a1 : Bytes) (a2 : Inst) :
    (giveChunk s a1 a2).pending = s.pending ∧ (giveChunk s a1 a2).fuses = s.fuses := by
  unfold giveChunk; try simp only []
  split <;> simp [*]

@[simp] theorem tileRuns_kept (s : State) (a1 : Nat) :
    (tileRuns s a1).pending = s.pending ∧ (tileRuns s a1).fuses = s.fuses := by
  unfold tileRuns; simp [*]

@[simp] theorem writeChunk_kept (s : State) (a1 : WeightSet) (a2 : Nat) (a3 : List Inst) :
    (writeChunk s a1 a2 a3).pending = s.pending ∧ (writeChunk s a1 a2 a3).fuses = s.fuses := by
  unfold writeChunk; simp [*]

@[simp] theorem execWeightChunkWrite_kept {p q} (a0 : Nat) (a1 : Nat) (s : State) (hp : s.pending = p)
    (hq : Grown q s.fuses) :
    Keeps p q (execWeightChunkWrite a0 a1 s) := by
  unfold execWeightChunkWrite; try simp only []
  (repeat' split) <;> simp [*]

@[simp] theorem execMatmul_kept {p q} (a0 : Nat) (a1 : Nat) (s : State) (hp : s.pending = p) (hq : Grown q s.fuses) :
    Keeps p q (execMatmul a0 a1 s) := by
  unfold execMatmul
  try split
  all_goals first
  | (simp [*]; done)
  | (refine issueDesc_kept _ _ _ _ _ hp hq ?_
     intro s i d k hp hq
     simp only [matmulRun]
     first
     | (simp [*]; done)
     | ((repeat' split) <;> simp [*]; done))

@[simp] theorem released_kept (s : State) : (released s).pending = s.pending ∧ (released s).fuses = s.fuses := by
  unfold released; simp [*]

@[simp] theorem execResetRelease_kept {p q} (s : State) (hp : s.pending = p) (hq : Grown q s.fuses) :
    Keeps p q (execResetRelease s) := by
  unfold execResetRelease; simp [*]

@[simp] theorem setTemp_kept (s : State) (a1 : Nat) (a2 : Half) :
    (setTemp s a1 a2).pending = s.pending ∧ (setTemp s a1 a2).fuses = s.fuses := by
  unfold setTemp; simp [*]

@[simp] theorem edgeLinksDown_kept (s : State) :
    (edgeLinksDown s).pending = s.pending ∧ (edgeLinksDown s).fuses = s.fuses := by
  unfold edgeLinksDown; simp [*]

@[simp] theorem execRefclkLoss_kept {p q} (s : State) (hp : s.pending = p) (hq : Grown q s.fuses) :
    Keeps p q (execRefclkLoss s) := by
  unfold execRefclkLoss; simp [*]

@[simp] theorem spareFails_kept (s : State) (a1 : Nat) :
    (spareFails s a1).pending = s.pending ∧ (spareFails s a1).fuses = s.fuses := by
  unfold spareFails; simp [*]

@[simp] theorem tileFails_kept (s : State) (a1 : Nat) (a2 : Nat) :
    (tileFails s a1 a2).pending = s.pending ∧ (tileFails s a1 a2).fuses = s.fuses := by
  unfold tileFails; simp [*]

@[simp] theorem slotFails_kept (s : State) (a1 : Nat × Nat) :
    (slotFails s a1).pending = s.pending ∧ (slotFails s a1).fuses = s.fuses := by
  unfold slotFails; simp [*]

@[simp] theorem execGddr6TrainingDone_kept {p q} (s : State) (hp : s.pending = p) (hq : Grown q s.fuses) :
    Keeps p q (execGddr6TrainingDone s) := by
  unfold execGddr6TrainingDone; simp [*]

@[simp] theorem execRailOutOfWindow_kept {p q} (a0 : Nat × Nat) (s : State) (hp : s.pending = p) (hq : Grown q s.fuses) :
    Keeps p q (execRailOutOfWindow a0 s) := by
  unfold execRailOutOfWindow; simp [*]

@[simp] theorem execResetPin_kept {p q} (s : State) (hp : s.pending = p) (hq : Grown q s.fuses) :
    Keeps p q (execResetPin s) := by
  unfold execResetPin; simp [*]

@[simp] theorem withdrawRaises_kept (s : State) :
    (withdrawRaises s).pending = s.pending ∧ (withdrawRaises s).fuses = s.fuses := by
  unfold withdrawRaises; simp [*]

@[simp] theorem bootRotation_kept (s : State) :
    (bootRotation s).pending = s.pending ∧ (bootRotation s).fuses = s.fuses := by
  unfold bootRotation; simp [*]

@[simp] theorem execCriticalTemp_kept {p q} (a0 : Nat) (a1 : Half) (s : State) (hp : s.pending = p)
    (hq : Grown q s.fuses) :
    Keeps p q (execCriticalTemp a0 a1 s) := by
  unfold execCriticalTemp; simp [*]

@[simp] theorem slowIslands_kept (s : State) :
    (slowIslands s).pending = s.pending ∧ (slowIslands s).fuses = s.fuses := by
  unfold slowIslands; simp [*]

@[simp] theorem tripNow_kept (s : State) : (tripNow s).pending = s.pending ∧ (tripNow s).fuses = s.fuses := by
  unfold tripNow; simp [*]

@[simp] theorem execThermalTrip_kept {p q} (a0 : Nat) (a1 : Half) (s : State) (hp : s.pending = p)
    (hq : Grown q s.fuses) :
    Keeps p q (execThermalTrip a0 a1 s) := by
  unfold execThermalTrip; simp [*]

@[simp] theorem execRomStageDone_kept {p q} (s : State) (hp : s.pending = p) (hq : Grown q s.fuses) :
    Keeps p q (execRomStageDone s) := by
  unfold execRomStageDone; simp [*]

@[simp] theorem execPowerOnReset_kept {p q} (s : State) (hp : s.pending = p) (hq : Grown q s.fuses) :
    Keeps p q (execPowerOnReset s) := by
  unfold execPowerOnReset; simp [*]

@[simp] theorem execThermalTripEnd_kept {p q} (a0 : List Half) (s : State) (hp : s.pending = p)
    (hq : Grown q s.fuses) :
    Keeps p q (execThermalTripEnd a0 s) := by
  unfold execThermalTripEnd; simp [*]

@[simp] theorem spareBanksOff_kept (s : State) :
    (spareBanksOff s).pending = s.pending ∧ (spareBanksOff s).fuses = s.fuses := by
  unfold spareBanksOff; simp [*]

@[simp] theorem execBootSelftestDone_kept {p q} (a0 : List (Nat × Nat)) (s : State) (hp : s.pending = p)
    (hq : Grown q s.fuses) :
    Keeps p q (execBootSelftestDone a0 s) := by
  unfold execBootSelftestDone; simp [*]

@[simp] theorem execRefclkReturn_kept {p q} (s : State) (hp : s.pending = p) (hq : Grown q s.fuses) :
    Keeps p q (execRefclkReturn s) := by
  unfold execRefclkReturn; simp [*]

@[simp] theorem execGddr6Retrain_kept {p q} (a0 : Nat) (s : State) (hp : s.pending = p) (hq : Grown q s.fuses) :
    Keeps p q (execGddr6Retrain a0 s) := by
  unfold execGddr6Retrain; simp [*]

@[simp] theorem scrubUe_kept (s : State) (a1 : Nat) (a2 : Nat) (a3 : Nat) :
    (scrubUe s a1 a2 a3).pending = s.pending ∧ (scrubUe s a1 a2 a3).fuses = s.fuses := by
  unfold scrubUe; simp [*]

@[simp] theorem execPatrolScrub_kept {p q} (a0 : Nat) (a1 : Nat) (a2 : Nat) (a3 : Bool) (s : State)
    (hp : s.pending = p) (hq : Grown q s.fuses) :
    Keeps p q (execPatrolScrub a0 a1 a2 a3 s) := by
  unfold execPatrolScrub; simp [*]

@[simp] theorem endWake_kept (s : State) (a1 : Nat) :
    (endWake s a1).pending = s.pending ∧ (endWake s a1).fuses = s.fuses := by
  unfold endWake; simp [*]

@[simp] theorem execBankWake_kept {p q} (a0 : Nat) (a1 : Nat) (s : State) (hp : s.pending = p)
    (hq : Grown q s.fuses) :
    Keeps p q (execBankWake a0 a1 s) := by
  unfold execBankWake; simp [*]

@[simp] theorem endRetrain_kept (s : State) :
    (endRetrain s).pending = s.pending ∧ (endRetrain s).fuses = s.fuses := by
  unfold endRetrain; try simp only []
  split <;> simp [*]

@[simp] theorem settleAo_kept (s : State) : (settleAo s).pending = s.pending ∧ (settleAo s).fuses = s.fuses := by
  unfold settleAo; simp [*]

@[simp] theorem comparePins_kept (s : State) :
    (comparePins s).pending = s.pending ∧ (comparePins s).fuses = s.fuses := by
  unfold comparePins; simp [*]

@[simp] theorem shortPulse_kept (s : State) :
    (shortPulse s).pending = s.pending ∧ (shortPulse s).fuses = s.fuses := by
  unfold shortPulse; split <;> simp [*]

@[simp] theorem samplePins_kept (s : State) :
    (samplePins s).pending = s.pending ∧ (samplePins s).fuses = s.fuses := by
  unfold samplePins; simp [*]

@[simp] theorem retryBursts_kept (s : State) :
    (retryBursts s).pending = s.pending ∧ (retryBursts s).fuses = s.fuses := by
  unfold retryBursts; simp [*]

@[simp] theorem sampleTemps_kept (s : State) :
    (sampleTemps s).pending = s.pending ∧ (sampleTemps s).fuses = s.fuses := by
  unfold sampleTemps; simp [*]

@[simp] theorem upset_kept (s : State) : (upset s).pending = s.pending ∧ (upset s).fuses = s.fuses := by
  unfold upset; simp [*]

@[simp] theorem unbidden_kept (s : State) : (unbidden s).pending = s.pending ∧ (unbidden s).fuses = s.fuses := by
  unfold unbidden; simp [*]

@[simp] theorem tickAo_kept (s : State) : (tickAo s).pending = s.pending ∧ (tickAo s).fuses = s.fuses := by
  unfold tickAo; simp [*]

@[simp] theorem State.withFetchWord_kept (s : State) (a1 : Nat) (a2 : Nat) :
    (State.withFetchWord s a1 a2).pending = s.pending ∧ (State.withFetchWord s a1 a2).fuses = s.fuses := by
  exact ⟨rfl, rfl⟩

end Sys2Proof.Machine
end

