-- ==== Sys2Proof/Laws/State.lean ====
section
/-! SUPPORT. What each basic update of the state leaves in each field, by rfl: the fields it does not touch as they
were, those it does as it says. -/

namespace Sys2Proof.Machine

section DevWrite
variable (s : State) (a : Nat) (bs : Bytes)
@[simp] theorem devWrite_pending : (devWrite s a bs).pending = s.pending := rfl
@[simp] theorem devWrite_ao : (devWrite s a bs).ao = s.ao := rfl
@[simp] theorem devWrite_mem : (devWrite s a bs).mem = memWrite s.mem a bs := rfl
@[simp] theorem devWrite_regs : (devWrite s a bs).regs = s.regs := rfl
@[simp] theorem devWrite_written : (devWrite s a bs).written = s.written := rfl
@[simp] theorem devWrite_host : (devWrite s a bs).host = s.host := rfl
@[simp] theorem devWrite_load : (devWrite s a bs).load = s.load := rfl
@[simp] theorem devWrite_fuses : (devWrite s a bs).fuses = s.fuses := rfl
@[simp] theorem devWrite_boot : (devWrite s a bs).boot = s.boot := rfl
@[simp] theorem devWrite_procs : (devWrite s a bs).procs = s.procs := rfl
@[simp] theorem devWrite_cyc : (devWrite s a bs).cyc = s.cyc := rfl
@[simp] theorem devWrite_lat : (devWrite s a bs).lat = s.lat := rfl
@[simp] theorem devWrite_rep : (devWrite s a bs).rep = s.rep := rfl
@[simp] theorem devWrite_disp : (devWrite s a bs).disp = s.disp := rfl
@[simp] theorem devWrite_flows : (devWrite s a bs).flows = s.flows := rfl
@[simp] theorem devWrite_world : (devWrite s a bs).world = s.world := rfl
@[simp] theorem devWrite_chans : (devWrite s a bs).chans = s.chans := rfl
@[simp] theorem devWrite_dmaPtr : (devWrite s a bs).dmaPtr = s.dmaPtr := rfl
@[simp] theorem devWrite_ing : (devWrite s a bs).ing = s.ing := rfl
@[simp] theorem devWrite_keeps_outp : (devWrite s a bs).outp = s.outp := rfl
@[simp] theorem devWrite_safety : (devWrite s a bs).safety = s.safety := rfl
@[simp] theorem devWrite_plat : (devWrite s a bs).plat = healed s.plat a bs.length := rfl
@[simp] theorem devWrite_links : (devWrite s a bs).links = s.links := rfl
@[simp] theorem devWrite_out : (devWrite s a bs).out = s.out := rfl
end DevWrite

section TileWrite
variable (s : State) (t a : Nat) (bs : Bytes)
@[simp] theorem tileWrite_pending : (tileWrite s t a bs).pending = s.pending := rfl
@[simp] theorem tileWrite_ao : (tileWrite s t a bs).ao = s.ao := rfl
@[simp] theorem tileWrite_mem : (tileWrite s t a bs).mem = memWrite s.mem (tileBase t + a) bs := rfl
@[simp] theorem tileWrite_regs : (tileWrite s t a bs).regs = s.regs := rfl
@[simp] theorem tileWrite_written : (tileWrite s t a bs).written = s.written := rfl
@[simp] theorem tileWrite_host : (tileWrite s t a bs).host = s.host := rfl
@[simp] theorem tileWrite_load : (tileWrite s t a bs).load = s.load := rfl
@[simp] theorem tileWrite_fuses : (tileWrite s t a bs).fuses = s.fuses := rfl
@[simp] theorem tileWrite_boot : (tileWrite s t a bs).boot = s.boot := rfl
@[simp] theorem tileWrite_procs : (tileWrite s t a bs).procs = s.procs := rfl
@[simp] theorem tileWrite_cyc : (tileWrite s t a bs).cyc = s.cyc := rfl
@[simp] theorem tileWrite_lat : (tileWrite s t a bs).lat = s.lat := rfl
@[simp] theorem tileWrite_rep : (tileWrite s t a bs).rep = s.rep := rfl
@[simp] theorem tileWrite_disp : (tileWrite s t a bs).disp = s.disp := rfl
@[simp] theorem tileWrite_flows : (tileWrite s t a bs).flows = s.flows := rfl
@[simp] theorem tileWrite_world : (tileWrite s t a bs).world = s.world := rfl
@[simp] theorem tileWrite_chans : (tileWrite s t a bs).chans = s.chans := rfl
@[simp] theorem tileWrite_dmaPtr : (tileWrite s t a bs).dmaPtr = s.dmaPtr := rfl
@[simp] theorem tileWrite_ing : (tileWrite s t a bs).ing = s.ing := rfl
@[simp] theorem tileWrite_keeps_outp : (tileWrite s t a bs).outp = s.outp := rfl
@[simp] theorem tileWrite_safety : (tileWrite s t a bs).safety = s.safety := rfl
@[simp] theorem tileWrite_plat : (tileWrite s t a bs).plat = healed s.plat (tileBase t + a) bs.length := rfl
@[simp] theorem tileWrite_links : (tileWrite s t a bs).links = s.links := rfl
@[simp] theorem tileWrite_out : (tileWrite s t a bs).out = s.out := rfl
end TileWrite

section SetReg
variable (s : State) (off : Nat) (v : Word)
@[simp] theorem setReg_pending : (setReg s off v).pending = s.pending := rfl
@[simp] theorem setReg_ao : (setReg s off v).ao = s.ao := rfl
@[simp] theorem setReg_mem : (setReg s off v).mem = s.mem := rfl
@[simp] theorem setReg_regs : (setReg s off v).regs = mapSet resetVal s.regs off v := rfl
@[simp] theorem setReg_written : (setReg s off v).written = s.written := rfl
@[simp] theorem setReg_host : (setReg s off v).host = s.host := rfl
@[simp] theorem setReg_load : (setReg s off v).load = s.load := rfl
@[simp] theorem setReg_fuses : (setReg s off v).fuses = s.fuses := rfl
@[simp] theorem setReg_boot : (setReg s off v).boot = s.boot := rfl
@[simp] theorem setReg_procs : (setReg s off v).procs = s.procs := rfl
@[simp] theorem setReg_cyc : (setReg s off v).cyc = s.cyc := rfl
@[simp] theorem setReg_lat : (setReg s off v).lat = s.lat := rfl
@[simp] theorem setReg_rep : (setReg s off v).rep = s.rep := rfl
@[simp] theorem setReg_disp : (setReg s off v).disp = s.disp := rfl
@[simp] theorem setReg_flows : (setReg s off v).flows = s.flows := rfl
@[simp] theorem setReg_world : (setReg s off v).world = s.world := rfl
@[simp] theorem setReg_chans : (setReg s off v).chans = s.chans := rfl
@[simp] theorem setReg_dmaPtr : (setReg s off v).dmaPtr = s.dmaPtr := rfl
@[simp] theorem setReg_ing : (setReg s off v).ing = s.ing := rfl
@[simp] theorem setReg_keeps_outp : (setReg s off v).outp = s.outp := rfl
@[simp] theorem setReg_safety : (setReg s off v).safety = s.safety := rfl
@[simp] theorem setReg_plat : (setReg s off v).plat = s.plat := rfl
@[simp] theorem setReg_links : (setReg s off v).links = s.links := rfl
@[simp] theorem setReg_out : (setReg s off v).out = s.out := rfl
end SetReg

section BumpReg
variable (s : State) (off : Nat)
@[simp] theorem bumpReg_pending : (bumpReg s off).pending = s.pending := rfl
@[simp] theorem bumpReg_ao : (bumpReg s off).ao = s.ao := rfl
@[simp] theorem bumpReg_mem : (bumpReg s off).mem = s.mem := rfl
@[simp] theorem bumpReg_regs : (bumpReg s off).regs = mapSet resetVal s.regs off (regOf s off + 1) := rfl
@[simp] theorem bumpReg_written : (bumpReg s off).written = s.written := rfl
@[simp] theorem bumpReg_host : (bumpReg s off).host = s.host := rfl
@[simp] theorem bumpReg_load : (bumpReg s off).load = s.load := rfl
@[simp] theorem bumpReg_fuses : (bumpReg s off).fuses = s.fuses := rfl
@[simp] theorem bumpReg_boot : (bumpReg s off).boot = s.boot := rfl
@[simp] theorem bumpReg_procs : (bumpReg s off).procs = s.procs := rfl
@[simp] theorem bumpReg_cyc : (bumpReg s off).cyc = s.cyc := rfl
@[simp] theorem bumpReg_lat : (bumpReg s off).lat = s.lat := rfl
@[simp] theorem bumpReg_rep : (bumpReg s off).rep = s.rep := rfl
@[simp] theorem bumpReg_disp : (bumpReg s off).disp = s.disp := rfl
@[simp] theorem bumpReg_flows : (bumpReg s off).flows = s.flows := rfl
@[simp] theorem bumpReg_world : (bumpReg s off).world = s.world := rfl
@[simp] theorem bumpReg_chans : (bumpReg s off).chans = s.chans := rfl
@[simp] theorem bumpReg_dmaPtr : (bumpReg s off).dmaPtr = s.dmaPtr := rfl
@[simp] theorem bumpReg_ing : (bumpReg s off).ing = s.ing := rfl
@[simp] theorem bumpReg_keeps_outp : (bumpReg s off).outp = s.outp := rfl
@[simp] theorem bumpReg_safety : (bumpReg s off).safety = s.safety := rfl
@[simp] theorem bumpReg_plat : (bumpReg s off).plat = s.plat := rfl
@[simp] theorem bumpReg_links : (bumpReg s off).links = s.links := rfl
@[simp] theorem bumpReg_out : (bumpReg s off).out = s.out := rfl
end BumpReg

section AddReg
variable (s : State) (off n : Nat)
@[simp] theorem addReg_pending : (addReg s off n).pending = s.pending := rfl
@[simp] theorem addReg_ao : (addReg s off n).ao = s.ao := rfl
@[simp] theorem addReg_mem : (addReg s off n).mem = s.mem := rfl
@[simp] theorem addReg_regs : (addReg s off n).regs = mapSet resetVal s.regs off (regOf s off + BitVec.ofNat 32 n) := rfl
@[simp] theorem addReg_written : (addReg s off n).written = s.written := rfl
@[simp] theorem addReg_host : (addReg s off n).host = s.host := rfl
@[simp] theorem addReg_load : (addReg s off n).load = s.load := rfl
@[simp] theorem addReg_fuses : (addReg s off n).fuses = s.fuses := rfl
@[simp] theorem addReg_boot : (addReg s off n).boot = s.boot := rfl
@[simp] theorem addReg_procs : (addReg s off n).procs = s.procs := rfl
@[simp] theorem addReg_cyc : (addReg s off n).cyc = s.cyc := rfl
@[simp] theorem addReg_lat : (addReg s off n).lat = s.lat := rfl
@[simp] theorem addReg_rep : (addReg s off n).rep = s.rep := rfl
@[simp] theorem addReg_disp : (addReg s off n).disp = s.disp := rfl
@[simp] theorem addReg_flows : (addReg s off n).flows = s.flows := rfl
@[simp] theorem addReg_world : (addReg s off n).world = s.world := rfl
@[simp] theorem addReg_chans : (addReg s off n).chans = s.chans := rfl
@[simp] theorem addReg_dmaPtr : (addReg s off n).dmaPtr = s.dmaPtr := rfl
@[simp] theorem addReg_ing : (addReg s off n).ing = s.ing := rfl
@[simp] theorem addReg_keeps_outp : (addReg s off n).outp = s.outp := rfl
@[simp] theorem addReg_safety : (addReg s off n).safety = s.safety := rfl
@[simp] theorem addReg_plat : (addReg s off n).plat = s.plat := rfl
@[simp] theorem addReg_links : (addReg s off n).links = s.links := rfl
@[simp] theorem addReg_out : (addReg s off n).out = s.out := rfl
end AddReg

section TickFree
variable (s : State)
@[simp] theorem tickFree_pending : (tickFree s).pending = s.pending := rfl
@[simp] theorem tickFree_ao : (tickFree s).ao = s.ao := rfl
@[simp] theorem tickFree_mem : (tickFree s).mem = s.mem := rfl
@[simp] theorem tickFree_regs : (tickFree s).regs = s.regs := rfl
@[simp] theorem tickFree_written : (tickFree s).written = s.written := rfl
@[simp] theorem tickFree_host : (tickFree s).host = s.host := rfl
@[simp] theorem tickFree_load : (tickFree s).load = s.load := rfl
@[simp] theorem tickFree_fuses : (tickFree s).fuses = s.fuses := rfl
@[simp] theorem tickFree_boot : (tickFree s).boot = s.boot := rfl
@[simp] theorem tickFree_procs : (tickFree s).procs = s.procs := rfl
@[simp] theorem tickFree_cyc : (tickFree s).cyc = s.cyc := rfl
@[simp] theorem tickFree_lat : (tickFree s).lat = s.lat := rfl
@[simp] theorem tickFree_rep : (tickFree s).rep = s.rep := rfl
@[simp] theorem tickFree_disp : (tickFree s).disp = { s.disp with freeCtr := s.disp.freeCtr + 1 } := rfl
@[simp] theorem tickFree_flows : (tickFree s).flows = s.flows := rfl
@[simp] theorem tickFree_world : (tickFree s).world = s.world := rfl
@[simp] theorem tickFree_chans : (tickFree s).chans = s.chans := rfl
@[simp] theorem tickFree_dmaPtr : (tickFree s).dmaPtr = s.dmaPtr := rfl
@[simp] theorem tickFree_ing : (tickFree s).ing = s.ing := rfl
@[simp] theorem tickFree_keeps_outp : (tickFree s).outp = s.outp := rfl
@[simp] theorem tickFree_safety : (tickFree s).safety = s.safety := rfl
@[simp] theorem tickFree_plat : (tickFree s).plat = s.plat := rfl
@[simp] theorem tickFree_links : (tickFree s).links = s.links := rfl
@[simp] theorem tickFree_out : (tickFree s).out = s.out := rfl
end TickFree

section TailPush
variable (s : State) (entry : Bytes)
@[simp] theorem tailPush_pending : (tailPush s entry).pending = s.pending := rfl
@[simp] theorem tailPush_ao : (tailPush s entry).ao = s.ao := rfl
@[simp] theorem tailPush_mem : (tailPush s entry).mem = s.mem := rfl
@[simp] theorem tailPush_regs : (tailPush s entry).regs = s.regs := rfl
@[simp] theorem tailPush_written : (tailPush s entry).written = s.written := rfl
@[simp] theorem tailPush_host : (tailPush s entry).host = s.host := rfl
@[simp] theorem tailPush_load : (tailPush s entry).load = s.load := rfl
@[simp] theorem tailPush_fuses : (tailPush s entry).fuses = s.fuses := rfl
@[simp] theorem tailPush_boot : (tailPush s entry).boot = s.boot := rfl
@[simp] theorem tailPush_procs : (tailPush s entry).procs = s.procs := rfl
@[simp] theorem tailPush_cyc : (tailPush s entry).cyc = s.cyc := rfl
@[simp] theorem tailPush_lat : (tailPush s entry).lat = s.lat := rfl
@[simp] theorem tailPush_rep : (tailPush s entry).rep = s.rep := rfl
@[simp] theorem tailPush_disp : (tailPush s entry).disp = s.disp := rfl
@[simp] theorem tailPush_flows : (tailPush s entry).flows = s.flows := rfl
@[simp] theorem tailPush_world : (tailPush s entry).world = s.world := rfl
@[simp] theorem tailPush_chans : (tailPush s entry).chans = s.chans := rfl
@[simp] theorem tailPush_dmaPtr : (tailPush s entry).dmaPtr = s.dmaPtr := rfl
@[simp] theorem tailPush_ing : (tailPush s entry).ing = s.ing := rfl
@[simp] theorem tailPush_keeps_outp : (tailPush s entry).outp = s.outp := rfl
@[simp] theorem tailPush_safety : (tailPush s entry).safety = { s.safety with tail := (entry :: s.safety.tail).take 64 } := rfl
@[simp] theorem tailPush_plat : (tailPush s entry).plat = s.plat := rfl
@[simp] theorem tailPush_links : (tailPush s entry).links = s.links := rfl
@[simp] theorem tailPush_out : (tailPush s entry).out = s.out := rfl
end TailPush

section SetOwnerQueue
variable (s : State) (o : Owner) (l : List Msg)
@[simp] theorem setOwnerQueue_pending : (setOwnerQueue s o l).pending = s.pending := rfl
@[simp] theorem setOwnerQueue_ao : (setOwnerQueue s o l).ao = s.ao := rfl
@[simp] theorem setOwnerQueue_mem : (setOwnerQueue s o l).mem = s.mem := rfl
@[simp] theorem setOwnerQueue_regs : (setOwnerQueue s o l).regs = s.regs := rfl
@[simp] theorem setOwnerQueue_written : (setOwnerQueue s o l).written = s.written := rfl
@[simp] theorem setOwnerQueue_host : (setOwnerQueue s o l).host = { s.host with queues := (o, l) :: s.host.queues.filter (fun p => p.1 ≠ o) } := rfl
@[simp] theorem setOwnerQueue_load : (setOwnerQueue s o l).load = s.load := rfl
@[simp] theorem setOwnerQueue_fuses : (setOwnerQueue s o l).fuses = s.fuses := rfl
@[simp] theorem setOwnerQueue_boot : (setOwnerQueue s o l).boot = s.boot := rfl
@[simp] theorem setOwnerQueue_procs : (setOwnerQueue s o l).procs = s.procs := rfl
@[simp] theorem setOwnerQueue_cyc : (setOwnerQueue s o l).cyc = s.cyc := rfl
@[simp] theorem setOwnerQueue_lat : (setOwnerQueue s o l).lat = s.lat := rfl
@[simp] theorem setOwnerQueue_rep : (setOwnerQueue s o l).rep = s.rep := rfl
@[simp] theorem setOwnerQueue_disp : (setOwnerQueue s o l).disp = s.disp := rfl
@[simp] theorem setOwnerQueue_flows : (setOwnerQueue s o l).flows = s.flows := rfl
@[simp] theorem setOwnerQueue_world : (setOwnerQueue s o l).world = s.world := rfl
@[simp] theorem setOwnerQueue_chans : (setOwnerQueue s o l).chans = s.chans := rfl
@[simp] theorem setOwnerQueue_dmaPtr : (setOwnerQueue s o l).dmaPtr = s.dmaPtr := rfl
@[simp] theorem setOwnerQueue_ing : (setOwnerQueue s o l).ing = s.ing := rfl
@[simp] theorem setOwnerQueue_keeps_outp : (setOwnerQueue s o l).outp = s.outp := rfl
@[simp] theorem setOwnerQueue_safety : (setOwnerQueue s o l).safety = s.safety := rfl
@[simp] theorem setOwnerQueue_plat : (setOwnerQueue s o l).plat = s.plat := rfl
@[simp] theorem setOwnerQueue_links : (setOwnerQueue s o l).links = s.links := rfl
@[simp] theorem setOwnerQueue_out : (setOwnerQueue s o l).out = s.out := rfl
end SetOwnerQueue

section DropObject
variable (s : State) (opcode : Half) (obj : Nat)
@[simp] theorem dropObject_pending : (dropObject s opcode obj).pending = s.pending := rfl
@[simp] theorem dropObject_ao : (dropObject s opcode obj).ao = s.ao := rfl
@[simp] theorem dropObject_mem : (dropObject s opcode obj).mem = s.mem := rfl
@[simp] theorem dropObject_regs : (dropObject s opcode obj).regs = s.regs := rfl
@[simp] theorem dropObject_written : (dropObject s opcode obj).written = s.written := rfl
@[simp] theorem dropObject_host_queues : (dropObject s opcode obj).host.queues = s.host.queues := rfl
@[simp] theorem dropObject_host_session : (dropObject s opcode obj).host.session = s.host.session := rfl
@[simp] theorem dropObject_load : (dropObject s opcode obj).load = s.load := rfl
@[simp] theorem dropObject_fuses : (dropObject s opcode obj).fuses = s.fuses := rfl
@[simp] theorem dropObject_boot : (dropObject s opcode obj).boot = s.boot := rfl
@[simp] theorem dropObject_procs : (dropObject s opcode obj).procs = s.procs := rfl
@[simp] theorem dropObject_cyc : (dropObject s opcode obj).cyc = s.cyc := rfl
@[simp] theorem dropObject_lat : (dropObject s opcode obj).lat = s.lat := rfl
@[simp] theorem dropObject_rep : (dropObject s opcode obj).rep = s.rep := rfl
@[simp] theorem dropObject_disp : (dropObject s opcode obj).disp = s.disp := rfl
@[simp] theorem dropObject_flows : (dropObject s opcode obj).flows = s.flows := rfl
@[simp] theorem dropObject_world : (dropObject s opcode obj).world = s.world := rfl
@[simp] theorem dropObject_chans : (dropObject s opcode obj).chans = s.chans := rfl
@[simp] theorem dropObject_dmaPtr : (dropObject s opcode obj).dmaPtr = s.dmaPtr := rfl
@[simp] theorem dropObject_ing : (dropObject s opcode obj).ing = s.ing := rfl
@[simp] theorem dropObject_keeps_outp : (dropObject s opcode obj).outp = s.outp := rfl
@[simp] theorem dropObject_safety : (dropObject s opcode obj).safety = s.safety := rfl
@[simp] theorem dropObject_plat : (dropObject s opcode obj).plat = s.plat := rfl
@[simp] theorem dropObject_links : (dropObject s opcode obj).links = s.links := rfl
@[simp] theorem dropObject_out : (dropObject s opcode obj).out = s.out := rfl
end DropObject

section SetInst
variable (s : State) (i : Inst)
@[simp] theorem setInst_pending : (setInst s i).pending = s.pending := rfl
@[simp] theorem setInst_ao : (setInst s i).ao = s.ao := rfl
@[simp] theorem setInst_mem : (setInst s i).mem = s.mem := rfl
@[simp] theorem setInst_regs : (setInst s i).regs = s.regs := rfl
@[simp] theorem setInst_written : (setInst s i).written = s.written := rfl
@[simp] theorem setInst_host : (setInst s i).host = s.host := rfl
@[simp] theorem setInst_load : (setInst s i).load = s.load := rfl
@[simp] theorem setInst_fuses : (setInst s i).fuses = s.fuses := rfl
@[simp] theorem setInst_boot : (setInst s i).boot = s.boot := rfl
@[simp] theorem setInst_procs : (setInst s i).procs = s.procs := rfl
@[simp] theorem setInst_cyc : (setInst s i).cyc = s.cyc := rfl
@[simp] theorem setInst_lat : (setInst s i).lat = s.lat := rfl
@[simp] theorem setInst_rep : (setInst s i).rep = s.rep := rfl
@[simp] theorem setInst_running : (setInst s i).disp.running = s.disp.running.map fun j => if j.tile = i.tile ∧ j.ctx = i.ctx then i else j := rfl
@[simp] theorem setInst_tokens : (setInst s i).disp.tokens = s.disp.tokens := rfl
@[simp] theorem setInst_ready : (setInst s i).disp.ready = s.disp.ready := rfl
@[simp] theorem setInst_islands : (setInst s i).disp.islands = s.disp.islands := rfl
@[simp] theorem setInst_compQ : (setInst s i).disp.compQ = s.disp.compQ := rfl
@[simp] theorem setInst_flows : (setInst s i).flows = s.flows := rfl
@[simp] theorem setInst_world : (setInst s i).world = s.world := rfl
@[simp] theorem setInst_chans : (setInst s i).chans = s.chans := rfl
@[simp] theorem setInst_dmaPtr : (setInst s i).dmaPtr = s.dmaPtr := rfl
@[simp] theorem setInst_ing : (setInst s i).ing = s.ing := rfl
@[simp] theorem setInst_keeps_outp : (setInst s i).outp = s.outp := rfl
@[simp] theorem setInst_safety : (setInst s i).safety = s.safety := rfl
@[simp] theorem setInst_plat : (setInst s i).plat = s.plat := rfl
@[simp] theorem setInst_links : (setInst s i).links = s.links := rfl
@[simp] theorem setInst_out : (setInst s i).out = s.out := rfl
end SetInst

section AddFact
variable (s : State) (f : Fact)
@[simp] theorem addFact_pending : (addFact s f).pending = s.pending := rfl
@[simp] theorem addFact_ao : (addFact s f).ao = s.ao := rfl
@[simp] theorem addFact_mem : (addFact s f).mem = s.mem := rfl
@[simp] theorem addFact_regs : (addFact s f).regs = s.regs := rfl
@[simp] theorem addFact_written : (addFact s f).written = s.written := rfl
@[simp] theorem addFact_host : (addFact s f).host = s.host := rfl
@[simp] theorem addFact_load : (addFact s f).load = s.load := rfl
@[simp] theorem addFact_fuses : (addFact s f).fuses = s.fuses := rfl
@[simp] theorem addFact_boot : (addFact s f).boot = s.boot := rfl
@[simp] theorem addFact_procs : (addFact s f).procs = s.procs := rfl
@[simp] theorem addFact_cyc : (addFact s f).cyc = { s.cyc with facts := s.cyc.facts ++ [f] } := rfl
@[simp] theorem addFact_lat : (addFact s f).lat = s.lat := rfl
@[simp] theorem addFact_rep : (addFact s f).rep = s.rep := rfl
@[simp] theorem addFact_disp : (addFact s f).disp = s.disp := rfl
@[simp] theorem addFact_flows : (addFact s f).flows = s.flows := rfl
@[simp] theorem addFact_world : (addFact s f).world = s.world := rfl
@[simp] theorem addFact_chans : (addFact s f).chans = s.chans := rfl
@[simp] theorem addFact_dmaPtr : (addFact s f).dmaPtr = s.dmaPtr := rfl
@[simp] theorem addFact_ing : (addFact s f).ing = s.ing := rfl
@[simp] theorem addFact_keeps_outp : (addFact s f).outp = s.outp := rfl
@[simp] theorem addFact_safety : (addFact s f).safety = s.safety := rfl
@[simp] theorem addFact_plat : (addFact s f).plat = s.plat := rfl
@[simp] theorem addFact_links : (addFact s f).links = s.links := rfl
@[simp] theorem addFact_out : (addFact s f).out = s.out := rfl
end AddFact

section AddToken
variable (s : State) (tile counter n : Nat)
@[simp] theorem addToken_pending : (addToken s tile counter n).pending = s.pending := rfl
@[simp] theorem addToken_ao : (addToken s tile counter n).ao = s.ao := rfl
@[simp] theorem addToken_mem : (addToken s tile counter n).mem = s.mem := rfl
@[simp] theorem addToken_regs : (addToken s tile counter n).regs = s.regs := rfl
@[simp] theorem addToken_written : (addToken s tile counter n).written = s.written := rfl
@[simp] theorem addToken_host : (addToken s tile counter n).host = s.host := rfl
@[simp] theorem addToken_load : (addToken s tile counter n).load = s.load := rfl
@[simp] theorem addToken_fuses : (addToken s tile counter n).fuses = s.fuses := rfl
@[simp] theorem addToken_boot : (addToken s tile counter n).boot = s.boot := rfl
@[simp] theorem addToken_procs : (addToken s tile counter n).procs = s.procs := rfl
@[simp] theorem addToken_cyc : (addToken s tile counter n).cyc = s.cyc := rfl
@[simp] theorem addToken_lat : (addToken s tile counter n).lat = s.lat := rfl
@[simp] theorem addToken_rep : (addToken s tile counter n).rep = s.rep := rfl
@[simp] theorem addToken_tokens : (addToken s tile counter n).disp.tokens = halfSet s.disp.tokens (32 * tile + counter) (BitVec.ofNat 16 (min 65535 ((tokenOf s tile counter).toNat + n))) := rfl
@[simp] theorem addToken_running : (addToken s tile counter n).disp.running = s.disp.running := rfl
@[simp] theorem addToken_flows : (addToken s tile counter n).flows = s.flows := rfl
@[simp] theorem addToken_world : (addToken s tile counter n).world = s.world := rfl
@[simp] theorem addToken_chans : (addToken s tile counter n).chans = s.chans := rfl
@[simp] theorem addToken_dmaPtr : (addToken s tile counter n).dmaPtr = s.dmaPtr := rfl
@[simp] theorem addToken_ing : (addToken s tile counter n).ing = s.ing := rfl
@[simp] theorem addToken_keeps_outp : (addToken s tile counter n).outp = s.outp := rfl
@[simp] theorem addToken_safety : (addToken s tile counter n).safety = s.safety := rfl
@[simp] theorem addToken_plat : (addToken s tile counter n).plat = s.plat := rfl
@[simp] theorem addToken_links : (addToken s tile counter n).links = s.links := rfl
@[simp] theorem addToken_out : (addToken s tile counter n).out = s.out := rfl
end AddToken

section TakeToken
variable (s : State) (tile counter n : Nat)
@[simp] theorem takeToken_pending : (takeToken s tile counter n).pending = s.pending := rfl
@[simp] theorem takeToken_ao : (takeToken s tile counter n).ao = s.ao := rfl
@[simp] theorem takeToken_mem : (takeToken s tile counter n).mem = s.mem := rfl
@[simp] theorem takeToken_regs : (takeToken s tile counter n).regs = s.regs := rfl
@[simp] theorem takeToken_written : (takeToken s tile counter n).written = s.written := rfl
@[simp] theorem takeToken_host : (takeToken s tile counter n).host = s.host := rfl
@[simp] theorem takeToken_load : (takeToken s tile counter n).load = s.load := rfl
@[simp] theorem takeToken_fuses : (takeToken s tile counter n).fuses = s.fuses := rfl
@[simp] theorem takeToken_boot : (takeToken s tile counter n).boot = s.boot := rfl
@[simp] theorem takeToken_procs : (takeToken s tile counter n).procs = s.procs := rfl
@[simp] theorem takeToken_cyc : (takeToken s tile counter n).cyc = s.cyc := rfl
@[simp] theorem takeToken_lat : (takeToken s tile counter n).lat = s.lat := rfl
@[simp] theorem takeToken_rep : (takeToken s tile counter n).rep = s.rep := rfl
@[simp] theorem takeToken_tokens : (takeToken s tile counter n).disp.tokens = halfSet s.disp.tokens (32 * tile + counter) (tokenOf s tile counter - BitVec.ofNat 16 n) := rfl
@[simp] theorem takeToken_running : (takeToken s tile counter n).disp.running = s.disp.running := rfl
@[simp] theorem takeToken_flows : (takeToken s tile counter n).flows = s.flows := rfl
@[simp] theorem takeToken_world : (takeToken s tile counter n).world = s.world := rfl
@[simp] theorem takeToken_chans : (takeToken s tile counter n).chans = s.chans := rfl
@[simp] theorem takeToken_dmaPtr : (takeToken s tile counter n).dmaPtr = s.dmaPtr := rfl
@[simp] theorem takeToken_ing : (takeToken s tile counter n).ing = s.ing := rfl
@[simp] theorem takeToken_keeps_outp : (takeToken s tile counter n).outp = s.outp := rfl
@[simp] theorem takeToken_safety : (takeToken s tile counter n).safety = s.safety := rfl
@[simp] theorem takeToken_plat : (takeToken s tile counter n).plat = s.plat := rfl
@[simp] theorem takeToken_links : (takeToken s tile counter n).links = s.links := rfl
@[simp] theorem takeToken_out : (takeToken s tile counter n).out = s.out := rfl
end TakeToken

section SetFlow
variable (s : State) (x : Flow)
@[simp] theorem setFlow_pending : (setFlow s x).pending = s.pending := rfl
@[simp] theorem setFlow_ao : (setFlow s x).ao = s.ao := rfl
@[simp] theorem setFlow_mem : (setFlow s x).mem = s.mem := rfl
@[simp] theorem setFlow_regs : (setFlow s x).regs = s.regs := rfl
@[simp] theorem setFlow_written : (setFlow s x).written = s.written := rfl
@[simp] theorem setFlow_host : (setFlow s x).host = s.host := rfl
@[simp] theorem setFlow_load : (setFlow s x).load = s.load := rfl
@[simp] theorem setFlow_fuses : (setFlow s x).fuses = s.fuses := rfl
@[simp] theorem setFlow_boot : (setFlow s x).boot = s.boot := rfl
@[simp] theorem setFlow_procs : (setFlow s x).procs = s.procs := rfl
@[simp] theorem setFlow_cyc : (setFlow s x).cyc = s.cyc := rfl
@[simp] theorem setFlow_lat : (setFlow s x).lat = s.lat := rfl
@[simp] theorem setFlow_rep : (setFlow s x).rep = s.rep := rfl
@[simp] theorem setFlow_disp : (setFlow s x).disp = s.disp := rfl
@[simp] theorem setFlow_flows : (setFlow s x).flows = flowInsert x (s.flows.filter (·.flowId ≠ x.flowId)) := rfl
@[simp] theorem setFlow_world : (setFlow s x).world = s.world := rfl
@[simp] theorem setFlow_chans : (setFlow s x).chans = s.chans := rfl
@[simp] theorem setFlow_dmaPtr : (setFlow s x).dmaPtr = s.dmaPtr := rfl
@[simp] theorem setFlow_ing : (setFlow s x).ing = s.ing := rfl
@[simp] theorem setFlow_keeps_outp : (setFlow s x).outp = s.outp := rfl
@[simp] theorem setFlow_safety : (setFlow s x).safety = s.safety := rfl
@[simp] theorem setFlow_plat : (setFlow s x).plat = s.plat := rfl
@[simp] theorem setFlow_links : (setFlow s x).links = s.links := rfl
@[simp] theorem setFlow_out : (setFlow s x).out = s.out := rfl
end SetFlow

section SetChan
variable (s : State) (c : Channel)
@[simp] theorem setChan_pending : (setChan s c).pending = s.pending := rfl
@[simp] theorem setChan_ao : (setChan s c).ao = s.ao := rfl
@[simp] theorem setChan_mem : (setChan s c).mem = s.mem := rfl
@[simp] theorem setChan_regs : (setChan s c).regs = s.regs := rfl
@[simp] theorem setChan_written : (setChan s c).written = s.written := rfl
@[simp] theorem setChan_host : (setChan s c).host = s.host := rfl
@[simp] theorem setChan_load : (setChan s c).load = s.load := rfl
@[simp] theorem setChan_fuses : (setChan s c).fuses = s.fuses := rfl
@[simp] theorem setChan_boot : (setChan s c).boot = s.boot := rfl
@[simp] theorem setChan_procs : (setChan s c).procs = s.procs := rfl
@[simp] theorem setChan_cyc : (setChan s c).cyc = s.cyc := rfl
@[simp] theorem setChan_lat : (setChan s c).lat = s.lat := rfl
@[simp] theorem setChan_rep : (setChan s c).rep = s.rep := rfl
@[simp] theorem setChan_disp : (setChan s c).disp = s.disp := rfl
@[simp] theorem setChan_flows : (setChan s c).flows = s.flows := rfl
@[simp] theorem setChan_world : (setChan s c).world = s.world := rfl
@[simp] theorem setChan_chans : (setChan s c).chans = if c = .reset c.key then s.chans.filter (·.key ≠ c.key) else chanInsert c (s.chans.filter (·.key ≠ c.key)) := rfl
@[simp] theorem setChan_dmaPtr : (setChan s c).dmaPtr = s.dmaPtr := rfl
@[simp] theorem setChan_ing : (setChan s c).ing = s.ing := rfl
@[simp] theorem setChan_keeps_outp : (setChan s c).outp = s.outp := rfl
@[simp] theorem setChan_safety : (setChan s c).safety = s.safety := rfl
@[simp] theorem setChan_plat : (setChan s c).plat = s.plat := rfl
@[simp] theorem setChan_links : (setChan s c).links = s.links := rfl
@[simp] theorem setChan_out : (setChan s c).out = s.out := rfl
end SetChan

section MapEpoch
variable (s : State) (n : Nat) (f : Epoch → Epoch)
@[simp] theorem mapEpoch_pending : (mapEpoch s n f).pending = s.pending := rfl
@[simp] theorem mapEpoch_ao : (mapEpoch s n f).ao = s.ao := rfl
@[simp] theorem mapEpoch_mem : (mapEpoch s n f).mem = s.mem := rfl
@[simp] theorem mapEpoch_regs : (mapEpoch s n f).regs = s.regs := rfl
@[simp] theorem mapEpoch_written : (mapEpoch s n f).written = s.written := rfl
@[simp] theorem mapEpoch_host : (mapEpoch s n f).host = s.host := rfl
@[simp] theorem mapEpoch_load : (mapEpoch s n f).load = s.load := rfl
@[simp] theorem mapEpoch_fuses : (mapEpoch s n f).fuses = s.fuses := rfl
@[simp] theorem mapEpoch_boot : (mapEpoch s n f).boot = s.boot := rfl
@[simp] theorem mapEpoch_procs : (mapEpoch s n f).procs = s.procs := rfl
@[simp] theorem mapEpoch_cyc : (mapEpoch s n f).cyc = s.cyc := rfl
@[simp] theorem mapEpoch_lat : (mapEpoch s n f).lat = s.lat := rfl
@[simp] theorem mapEpoch_rep : (mapEpoch s n f).rep = s.rep := rfl
@[simp] theorem mapEpoch_disp : (mapEpoch s n f).disp = s.disp := rfl
@[simp] theorem mapEpoch_flows : (mapEpoch s n f).flows = s.flows := rfl
@[simp] theorem mapEpoch_newest : (mapEpoch s n f).world.newest = s.world.newest := rfl
@[simp] theorem mapEpoch_table : (mapEpoch s n f).world.table = s.world.table.map fun p => if p.2.num = n then (p.1, f p.2) else p := rfl
@[simp] theorem mapEpoch_chans : (mapEpoch s n f).chans = s.chans := rfl
@[simp] theorem mapEpoch_dmaPtr : (mapEpoch s n f).dmaPtr = s.dmaPtr := rfl
@[simp] theorem mapEpoch_ing : (mapEpoch s n f).ing = s.ing := rfl
@[simp] theorem mapEpoch_keeps_outp : (mapEpoch s n f).outp = s.outp := rfl
@[simp] theorem mapEpoch_safety : (mapEpoch s n f).safety = s.safety := rfl
@[simp] theorem mapEpoch_plat : (mapEpoch s n f).plat = s.plat := rfl
@[simp] theorem mapEpoch_links : (mapEpoch s n f).links = s.links := rfl
@[simp] theorem mapEpoch_out : (mapEpoch s n f).out = s.out := rfl
end MapEpoch

section HoldEpoch
variable (s : State) (n : Nat)
@[simp] theorem holdEpoch_pending : (holdEpoch s n).pending = s.pending := rfl
@[simp] theorem holdEpoch_ao : (holdEpoch s n).ao = s.ao := rfl
@[simp] theorem holdEpoch_mem : (holdEpoch s n).mem = s.mem := rfl
@[simp] theorem holdEpoch_regs : (holdEpoch s n).regs = s.regs := rfl
@[simp] theorem holdEpoch_written : (holdEpoch s n).written = s.written := rfl
@[simp] theorem holdEpoch_host : (holdEpoch s n).host = s.host := rfl
@[simp] theorem holdEpoch_load : (holdEpoch s n).load = s.load := rfl
@[simp] theorem holdEpoch_fuses : (holdEpoch s n).fuses = s.fuses := rfl
@[simp] theorem holdEpoch_boot : (holdEpoch s n).boot = s.boot := rfl
@[simp] theorem holdEpoch_procs : (holdEpoch s n).procs = s.procs := rfl
@[simp] theorem holdEpoch_cyc : (holdEpoch s n).cyc = s.cyc := rfl
@[simp] theorem holdEpoch_lat : (holdEpoch s n).lat = s.lat := rfl
@[simp] theorem holdEpoch_rep : (holdEpoch s n).rep = s.rep := rfl
@[simp] theorem holdEpoch_disp : (holdEpoch s n).disp = s.disp := rfl
@[simp] theorem holdEpoch_flows : (holdEpoch s n).flows = s.flows := rfl
@[simp] theorem holdEpoch_newest : (holdEpoch s n).world.newest = s.world.newest := rfl
@[simp] theorem holdEpoch_nextSlot : (holdEpoch s n).world.nextSlot = s.world.nextSlot := rfl
@[simp] theorem holdEpoch_chans : (holdEpoch s n).chans = s.chans := rfl
@[simp] theorem holdEpoch_dmaPtr : (holdEpoch s n).dmaPtr = s.dmaPtr := rfl
@[simp] theorem holdEpoch_ing : (holdEpoch s n).ing = s.ing := rfl
@[simp] theorem holdEpoch_keeps_outp : (holdEpoch s n).outp = s.outp := rfl
@[simp] theorem holdEpoch_safety : (holdEpoch s n).safety = s.safety := rfl
@[simp] theorem holdEpoch_plat : (holdEpoch s n).plat = s.plat := rfl
@[simp] theorem holdEpoch_links : (holdEpoch s n).links = s.links := rfl
@[simp] theorem holdEpoch_out : (holdEpoch s n).out = s.out := rfl
end HoldEpoch

section MapProc
variable (s : State) (p : Nat) (f : Proc → Proc)
@[simp] theorem mapProc_pending : (mapProc s p f).pending = s.pending := rfl
@[simp] theorem mapProc_ao : (mapProc s p f).ao = s.ao := rfl
@[simp] theorem mapProc_mem : (mapProc s p f).mem = s.mem := rfl
@[simp] theorem mapProc_regs : (mapProc s p f).regs = s.regs := rfl
@[simp] theorem mapProc_written : (mapProc s p f).written = s.written := rfl
@[simp] theorem mapProc_host : (mapProc s p f).host = s.host := rfl
@[simp] theorem mapProc_load : (mapProc s p f).load = s.load := rfl
@[simp] theorem mapProc_fuses : (mapProc s p f).fuses = s.fuses := rfl
@[simp] theorem mapProc_boot : (mapProc s p f).boot = s.boot := rfl
@[simp] theorem mapProc_procs : (mapProc s p f).procs = listUpd s.procs p f := rfl
@[simp] theorem mapProc_cyc : (mapProc s p f).cyc = s.cyc := rfl
@[simp] theorem mapProc_lat : (mapProc s p f).lat = s.lat := rfl
@[simp] theorem mapProc_rep : (mapProc s p f).rep = s.rep := rfl
@[simp] theorem mapProc_disp : (mapProc s p f).disp = s.disp := rfl
@[simp] theorem mapProc_flows : (mapProc s p f).flows = s.flows := rfl
@[simp] theorem mapProc_world : (mapProc s p f).world = s.world := rfl
@[simp] theorem mapProc_chans : (mapProc s p f).chans = s.chans := rfl
@[simp] theorem mapProc_dmaPtr : (mapProc s p f).dmaPtr = s.dmaPtr := rfl
@[simp] theorem mapProc_ing : (mapProc s p f).ing = s.ing := rfl
@[simp] theorem mapProc_keeps_outp : (mapProc s p f).outp = s.outp := rfl
@[simp] theorem mapProc_safety : (mapProc s p f).safety = s.safety := rfl
@[simp] theorem mapProc_plat : (mapProc s p f).plat = s.plat := rfl
@[simp] theorem mapProc_links : (mapProc s p f).links = s.links := rfl
@[simp] theorem mapProc_out : (mapProc s p f).out = s.out := rfl
end MapProc

section SetStage
variable (s : State) (n : Nat)
@[simp] theorem setStage_pending : (setStage s n).pending = s.pending := rfl
@[simp] theorem setStage_ao : (setStage s n).ao = s.ao := rfl
@[simp] theorem setStage_mem : (setStage s n).mem = s.mem := rfl
@[simp] theorem setStage_regs : (setStage s n).regs = s.regs := rfl
@[simp] theorem setStage_written : (setStage s n).written = s.written := rfl
@[simp] theorem setStage_host : (setStage s n).host = s.host := rfl
@[simp] theorem setStage_load : (setStage s n).load = s.load := rfl
@[simp] theorem setStage_fuses : (setStage s n).fuses = s.fuses := rfl
@[simp] theorem setStage_boot : (setStage s n).boot = { s.boot with stage := n } := rfl
@[simp] theorem setStage_procs : (setStage s n).procs = s.procs := rfl
@[simp] theorem setStage_cyc : (setStage s n).cyc = s.cyc := rfl
@[simp] theorem setStage_lat : (setStage s n).lat = s.lat := rfl
@[simp] theorem setStage_rep : (setStage s n).rep = s.rep := rfl
@[simp] theorem setStage_disp : (setStage s n).disp = s.disp := rfl
@[simp] theorem setStage_flows : (setStage s n).flows = s.flows := rfl
@[simp] theorem setStage_world : (setStage s n).world = s.world := rfl
@[simp] theorem setStage_chans : (setStage s n).chans = s.chans := rfl
@[simp] theorem setStage_dmaPtr : (setStage s n).dmaPtr = s.dmaPtr := rfl
@[simp] theorem setStage_ing : (setStage s n).ing = s.ing := rfl
@[simp] theorem setStage_keeps_outp : (setStage s n).outp = s.outp := rfl
@[simp] theorem setStage_safety : (setStage s n).safety = s.safety := rfl
@[simp] theorem setStage_plat : (setStage s n).plat = s.plat := rfl
@[simp] theorem setStage_links : (setStage s n).links = s.links := rfl
@[simp] theorem setStage_out : (setStage s n).out = s.out := rfl
end SetStage

section SetQueue
variable (s : State) (q : Nat) (f : Queue → Queue)
@[simp] theorem setQueue_pending : (setQueue s q f).pending = s.pending := rfl
@[simp] theorem setQueue_ao : (setQueue s q f).ao = s.ao := rfl
@[simp] theorem setQueue_mem : (setQueue s q f).mem = s.mem := rfl
@[simp] theorem setQueue_regs : (setQueue s q f).regs = s.regs := rfl
@[simp] theorem setQueue_written : (setQueue s q f).written = s.written := rfl
@[simp] theorem setQueue_host : (setQueue s q f).host = s.host := rfl
@[simp] theorem setQueue_load : (setQueue s q f).load = s.load := rfl
@[simp] theorem setQueue_fuses : (setQueue s q f).fuses = s.fuses := rfl
@[simp] theorem setQueue_boot : (setQueue s q f).boot = s.boot := rfl
@[simp] theorem setQueue_procs : (setQueue s q f).procs = s.procs := rfl
@[simp] theorem setQueue_cyc : (setQueue s q f).cyc = s.cyc := rfl
@[simp] theorem setQueue_lat : (setQueue s q f).lat = s.lat := rfl
@[simp] theorem setQueue_rep : (setQueue s q f).rep = s.rep := rfl
@[simp] theorem setQueue_disp : (setQueue s q f).disp = s.disp := rfl
@[simp] theorem setQueue_flows : (setQueue s q f).flows = s.flows := rfl
@[simp] theorem setQueue_world : (setQueue s q f).world = s.world := rfl
@[simp] theorem setQueue_chans : (setQueue s q f).chans = s.chans := rfl
@[simp] theorem setQueue_dmaPtr : (setQueue s q f).dmaPtr = s.dmaPtr := rfl
@[simp] theorem setQueue_queues : (setQueue s q f).ing.queues = listUpd s.ing.queues q f := rfl
@[simp] theorem setQueue_keeps_outp : (setQueue s q f).outp = s.outp := rfl
@[simp] theorem setQueue_safety : (setQueue s q f).safety = s.safety := rfl
@[simp] theorem setQueue_plat : (setQueue s q f).plat = s.plat := rfl
@[simp] theorem setQueue_links : (setQueue s q f).links = s.links := rfl
@[simp] theorem setQueue_out : (setQueue s q f).out = s.out := rfl
end SetQueue

section SetFull
variable (s : State) (tile slot : Nat) (v : Bool)
@[simp] theorem setFull_pending : (setFull s tile slot v).pending = s.pending := rfl
@[simp] theorem setFull_ao : (setFull s tile slot v).ao = s.ao := rfl
@[simp] theorem setFull_mem : (setFull s tile slot v).mem = s.mem := rfl
@[simp] theorem setFull_regs : (setFull s tile slot v).regs = s.regs := rfl
@[simp] theorem setFull_written : (setFull s tile slot v).written = s.written := rfl
@[simp] theorem setFull_host : (setFull s tile slot v).host = s.host := rfl
@[simp] theorem setFull_load : (setFull s tile slot v).load = s.load := rfl
@[simp] theorem setFull_fuses : (setFull s tile slot v).fuses = s.fuses := rfl
@[simp] theorem setFull_boot : (setFull s tile slot v).boot = s.boot := rfl
@[simp] theorem setFull_procs : (setFull s tile slot v).procs = s.procs := rfl
@[simp] theorem setFull_cyc : (setFull s tile slot v).cyc = s.cyc := rfl
@[simp] theorem setFull_lat : (setFull s tile slot v).lat = s.lat := rfl
@[simp] theorem setFull_rep : (setFull s tile slot v).rep = s.rep := rfl
@[simp] theorem setFull_disp : (setFull s tile slot v).disp = { s.disp with full := boolSet s.disp.full (8 * tile + slot) v } := rfl
@[simp] theorem setFull_flows : (setFull s tile slot v).flows = s.flows := rfl
@[simp] theorem setFull_world : (setFull s tile slot v).world = s.world := rfl
@[simp] theorem setFull_chans : (setFull s tile slot v).chans = s.chans := rfl
@[simp] theorem setFull_dmaPtr : (setFull s tile slot v).dmaPtr = s.dmaPtr := rfl
@[simp] theorem setFull_ing : (setFull s tile slot v).ing = s.ing := rfl
@[simp] theorem setFull_keeps_outp : (setFull s tile slot v).outp = s.outp := rfl
@[simp] theorem setFull_safety : (setFull s tile slot v).safety = s.safety := rfl
@[simp] theorem setFull_plat : (setFull s tile slot v).plat = s.plat := rfl
@[simp] theorem setFull_links : (setFull s tile slot v).links = s.links := rfl
@[simp] theorem setFull_out : (setFull s tile slot v).out = s.out := rfl
end SetFull

section SetOpp
variable (s : State) (c v : Nat)
@[simp] theorem setOpp_pending : (setOpp s c v).pending = s.pending := rfl
@[simp] theorem setOpp_ao : (setOpp s c v).ao = s.ao := rfl
@[simp] theorem setOpp_mem : (setOpp s c v).mem = s.mem := rfl
@[simp] theorem setOpp_regs : (setOpp s c v).regs = s.regs := rfl
@[simp] theorem setOpp_written : (setOpp s c v).written = s.written := rfl
@[simp] theorem setOpp_host : (setOpp s c v).host = s.host := rfl
@[simp] theorem setOpp_load : (setOpp s c v).load = s.load := rfl
@[simp] theorem setOpp_fuses : (setOpp s c v).fuses = s.fuses := rfl
@[simp] theorem setOpp_boot : (setOpp s c v).boot = s.boot := rfl
@[simp] theorem setOpp_procs : (setOpp s c v).procs = s.procs := rfl
@[simp] theorem setOpp_cyc : (setOpp s c v).cyc = s.cyc := rfl
@[simp] theorem setOpp_lat : (setOpp s c v).lat = s.lat := rfl
@[simp] theorem setOpp_rep : (setOpp s c v).rep = s.rep := rfl
@[simp] theorem setOpp_islands : (setOpp s c v).disp.islands = listUpd s.disp.islands c fun i => { i with opp := v } := rfl
@[simp] theorem setOpp_running : (setOpp s c v).disp.running = s.disp.running := rfl
@[simp] theorem setOpp_flows : (setOpp s c v).flows = s.flows := rfl
@[simp] theorem setOpp_world : (setOpp s c v).world = s.world := rfl
@[simp] theorem setOpp_chans : (setOpp s c v).chans = s.chans := rfl
@[simp] theorem setOpp_dmaPtr : (setOpp s c v).dmaPtr = s.dmaPtr := rfl
@[simp] theorem setOpp_ing : (setOpp s c v).ing = s.ing := rfl
@[simp] theorem setOpp_keeps_outp : (setOpp s c v).outp = s.outp := rfl
@[simp] theorem setOpp_safety : (setOpp s c v).safety = s.safety := rfl
@[simp] theorem setOpp_plat : (setOpp s c v).plat = s.plat := rfl
@[simp] theorem setOpp_links : (setOpp s c v).links = s.links := rfl
@[simp] theorem setOpp_out : (setOpp s c v).out = s.out := rfl
end SetOpp

section SetSpare
variable (s : State) (n : Nat) (f : Spare → Spare)
@[simp] theorem setSpare_pending : (setSpare s n f).pending = s.pending := rfl
@[simp] theorem setSpare_ao : (setSpare s n f).ao = s.ao := rfl
@[simp] theorem setSpare_mem : (setSpare s n f).mem = s.mem := rfl
@[simp] theorem setSpare_regs : (setSpare s n f).regs = s.regs := rfl
@[simp] theorem setSpare_written : (setSpare s n f).written = s.written := rfl
@[simp] theorem setSpare_host : (setSpare s n f).host = s.host := rfl
@[simp] theorem setSpare_load : (setSpare s n f).load = s.load := rfl
@[simp] theorem setSpare_fuses : (setSpare s n f).fuses = s.fuses := rfl
@[simp] theorem setSpare_boot : (setSpare s n f).boot = s.boot := rfl
@[simp] theorem setSpare_procs : (setSpare s n f).procs = s.procs := rfl
@[simp] theorem setSpare_cyc : (setSpare s n f).cyc = s.cyc := rfl
@[simp] theorem setSpare_lat : (setSpare s n f).lat = s.lat := rfl
@[simp] theorem setSpare_rep : (setSpare s n f).rep = s.rep := rfl
@[simp] theorem setSpare_disp : (setSpare s n f).disp = s.disp := rfl
@[simp] theorem setSpare_flows : (setSpare s n f).flows = s.flows := rfl
@[simp] theorem setSpare_world : (setSpare s n f).world = s.world := rfl
@[simp] theorem setSpare_chans : (setSpare s n f).chans = s.chans := rfl
@[simp] theorem setSpare_dmaPtr : (setSpare s n f).dmaPtr = s.dmaPtr := rfl
@[simp] theorem setSpare_ing : (setSpare s n f).ing = s.ing := rfl
@[simp] theorem setSpare_keeps_outp : (setSpare s n f).outp = s.outp := rfl
@[simp] theorem setSpare_safety : (setSpare s n f).safety = s.safety := rfl
@[simp] theorem setSpare_plat : (setSpare s n f).plat = { s.plat with spares := listUpd s.plat.spares n f } := rfl
@[simp] theorem setSpare_links : (setSpare s n f).links = s.links := rfl
@[simp] theorem setSpare_out : (setSpare s n f).out = s.out := rfl
end SetSpare

section SetBank
variable (s : State) (key v : Nat)
@[simp] theorem setBank_pending : (setBank s key v).pending = s.pending := rfl
@[simp] theorem setBank_ao : (setBank s key v).ao = s.ao := rfl
@[simp] theorem setBank_mem : (setBank s key v).mem = s.mem := rfl
@[simp] theorem setBank_regs : (setBank s key v).regs = s.regs := rfl
@[simp] theorem setBank_written : (setBank s key v).written = s.written := rfl
@[simp] theorem setBank_host : (setBank s key v).host = s.host := rfl
@[simp] theorem setBank_load : (setBank s key v).load = s.load := rfl
@[simp] theorem setBank_fuses : (setBank s key v).fuses = s.fuses := rfl
@[simp] theorem setBank_boot : (setBank s key v).boot = s.boot := rfl
@[simp] theorem setBank_procs : (setBank s key v).procs = s.procs := rfl
@[simp] theorem setBank_cyc : (setBank s key v).cyc = s.cyc := rfl
@[simp] theorem setBank_lat : (setBank s key v).lat = s.lat := rfl
@[simp] theorem setBank_rep : (setBank s key v).rep = s.rep := rfl
@[simp] theorem setBank_disp : (setBank s key v).disp = s.disp := rfl
@[simp] theorem setBank_flows : (setBank s key v).flows = s.flows := rfl
@[simp] theorem setBank_world : (setBank s key v).world = s.world := rfl
@[simp] theorem setBank_chans : (setBank s key v).chans = s.chans := rfl
@[simp] theorem setBank_dmaPtr : (setBank s key v).dmaPtr = s.dmaPtr := rfl
@[simp] theorem setBank_ing : (setBank s key v).ing = s.ing := rfl
@[simp] theorem setBank_keeps_outp : (setBank s key v).outp = s.outp := rfl
@[simp] theorem setBank_safety : (setBank s key v).safety = s.safety := rfl
@[simp] theorem setBank_plat : (setBank s key v).plat = { s.plat with banks := mapSet (fun _ => s.plat.bankBase) s.plat.banks key v } := rfl
@[simp] theorem setBank_links : (setBank s key v).links = s.links := rfl
@[simp] theorem setBank_out : (setBank s key v).out = s.out := rfl
end SetBank

section MarkBad
variable (s : State) (a : Nat)
@[simp] theorem markBad_pending : (markBad s a).pending = s.pending := rfl
@[simp] theorem markBad_ao : (markBad s a).ao = s.ao := rfl
@[simp] theorem markBad_mem : (markBad s a).mem = s.mem := rfl
@[simp] theorem markBad_regs : (markBad s a).regs = s.regs := rfl
@[simp] theorem markBad_written : (markBad s a).written = s.written := rfl
@[simp] theorem markBad_host : (markBad s a).host = s.host := rfl
@[simp] theorem markBad_load : (markBad s a).load = s.load := rfl
@[simp] theorem markBad_fuses : (markBad s a).fuses = s.fuses := rfl
@[simp] theorem markBad_boot : (markBad s a).boot = s.boot := rfl
@[simp] theorem markBad_procs : (markBad s a).procs = s.procs := rfl
@[simp] theorem markBad_cyc : (markBad s a).cyc = s.cyc := rfl
@[simp] theorem markBad_lat : (markBad s a).lat = s.lat := rfl
@[simp] theorem markBad_rep : (markBad s a).rep = s.rep := rfl
@[simp] theorem markBad_disp : (markBad s a).disp = s.disp := rfl
@[simp] theorem markBad_flows : (markBad s a).flows = s.flows := rfl
@[simp] theorem markBad_world : (markBad s a).world = s.world := rfl
@[simp] theorem markBad_chans : (markBad s a).chans = s.chans := rfl
@[simp] theorem markBad_dmaPtr : (markBad s a).dmaPtr = s.dmaPtr := rfl
@[simp] theorem markBad_ing : (markBad s a).ing = s.ing := rfl
@[simp] theorem markBad_keeps_outp : (markBad s a).outp = s.outp := rfl
@[simp] theorem markBad_safety : (markBad s a).safety = s.safety := rfl
@[simp] theorem markBad_plat : (markBad s a).plat = { s.plat with badWords := addOnce s.plat.badWords (8 * (a / 8)) } := rfl
@[simp] theorem markBad_links : (markBad s a).links = s.links := rfl
@[simp] theorem markBad_out : (markBad s a).out = s.out := rfl
end MarkBad

section SetColl
variable (s : State) (c : Coll)
@[simp] theorem setColl_pending : (setColl s c).pending = s.pending := rfl
@[simp] theorem setColl_ao : (setColl s c).ao = s.ao := rfl
@[simp] theorem setColl_mem : (setColl s c).mem = s.mem := rfl
@[simp] theorem setColl_regs : (setColl s c).regs = s.regs := rfl
@[simp] theorem setColl_written : (setColl s c).written = s.written := rfl
@[simp] theorem setColl_host : (setColl s c).host = s.host := rfl
@[simp] theorem setColl_load : (setColl s c).load = s.load := rfl
@[simp] theorem setColl_fuses : (setColl s c).fuses = s.fuses := rfl
@[simp] theorem setColl_boot : (setColl s c).boot = s.boot := rfl
@[simp] theorem setColl_procs : (setColl s c).procs = s.procs := rfl
@[simp] theorem setColl_cyc : (setColl s c).cyc = s.cyc := rfl
@[simp] theorem setColl_lat : (setColl s c).lat = s.lat := rfl
@[simp] theorem setColl_rep : (setColl s c).rep = s.rep := rfl
@[simp] theorem setColl_disp : (setColl s c).disp = s.disp := rfl
@[simp] theorem setColl_flows : (setColl s c).flows = s.flows := rfl
@[simp] theorem setColl_world : (setColl s c).world = s.world := rfl
@[simp] theorem setColl_chans : (setColl s c).chans = s.chans := rfl
@[simp] theorem setColl_dmaPtr : (setColl s c).dmaPtr = s.dmaPtr := rfl
@[simp] theorem setColl_ing : (setColl s c).ing = s.ing := rfl
@[simp] theorem setColl_keeps_outp : (setColl s c).outp = s.outp := rfl
@[simp] theorem setColl_safety : (setColl s c).safety = s.safety := rfl
@[simp] theorem setColl_plat : (setColl s c).plat = s.plat := rfl
@[simp] theorem setColl_colls : (setColl s c).links.colls = s.links.colls.map fun x => if x.collId = c.collId then c else x := rfl
@[simp] theorem setColl_up : (setColl s c).links.up = s.links.up := rfl
@[simp] theorem setColl_out : (setColl s c).out = s.out := rfl
end SetColl

section CeaseCause
variable (s : State) (bit : Nat)
@[simp] theorem ceaseCause_pending : (ceaseCause s bit).pending = s.pending := rfl
@[simp] theorem ceaseCause_ao : (ceaseCause s bit).ao = s.ao := rfl
@[simp] theorem ceaseCause_mem : (ceaseCause s bit).mem = s.mem := rfl
@[simp] theorem ceaseCause_regs : (ceaseCause s bit).regs = s.regs := rfl
@[simp] theorem ceaseCause_written : (ceaseCause s bit).written = s.written := rfl
@[simp] theorem ceaseCause_host : (ceaseCause s bit).host = s.host := rfl
@[simp] theorem ceaseCause_load : (ceaseCause s bit).load = s.load := rfl
@[simp] theorem ceaseCause_fuses : (ceaseCause s bit).fuses = s.fuses := rfl
@[simp] theorem ceaseCause_boot : (ceaseCause s bit).boot = s.boot := rfl
@[simp] theorem ceaseCause_procs : (ceaseCause s bit).procs = s.procs := rfl
@[simp] theorem ceaseCause_cyc : (ceaseCause s bit).cyc = s.cyc := rfl
@[simp] theorem ceaseCause_lat : (ceaseCause s bit).lat = s.lat := rfl
@[simp] theorem ceaseCause_rep : (ceaseCause s bit).rep = s.rep := rfl
@[simp] theorem ceaseCause_disp : (ceaseCause s bit).disp = s.disp := rfl
@[simp] theorem ceaseCause_flows : (ceaseCause s bit).flows = s.flows := rfl
@[simp] theorem ceaseCause_world : (ceaseCause s bit).world = s.world := rfl
@[simp] theorem ceaseCause_chans : (ceaseCause s bit).chans = s.chans := rfl
@[simp] theorem ceaseCause_dmaPtr : (ceaseCause s bit).dmaPtr = s.dmaPtr := rfl
@[simp] theorem ceaseCause_ing : (ceaseCause s bit).ing = s.ing := rfl
@[simp] theorem ceaseCause_keeps_outp : (ceaseCause s bit).outp = s.outp := rfl
@[simp] theorem ceaseCause_present : (ceaseCause s bit).safety.present = s.safety.present &&& ~~~(BitVec.ofNat 16 (2 ^ bit)) := rfl
@[simp] theorem ceaseCause_safe : (ceaseCause s bit).safety.safe = s.safety.safe := rfl
@[simp] theorem ceaseCause_cause : (ceaseCause s bit).safety.cause = s.safety.cause := rfl
@[simp] theorem ceaseCause_plat : (ceaseCause s bit).plat = s.plat := rfl
@[simp] theorem ceaseCause_links : (ceaseCause s bit).links = s.links := rfl
@[simp] theorem ceaseCause_out : (ceaseCause s bit).out = s.out := rfl
end CeaseCause

section LinesStatic
variable (s : State)
@[simp] theorem linesStatic_pending : (linesStatic s).pending = s.pending := rfl
@[simp] theorem linesStatic_ao : (linesStatic s).ao = s.ao := rfl
@[simp] theorem linesStatic_mem : (linesStatic s).mem = s.mem := rfl
@[simp] theorem linesStatic_regs : (linesStatic s).regs = s.regs := rfl
@[simp] theorem linesStatic_written : (linesStatic s).written = s.written := rfl
@[simp] theorem linesStatic_host : (linesStatic s).host = s.host := rfl
@[simp] theorem linesStatic_load : (linesStatic s).load = s.load := rfl
@[simp] theorem linesStatic_fuses : (linesStatic s).fuses = s.fuses := rfl
@[simp] theorem linesStatic_boot : (linesStatic s).boot = s.boot := rfl
@[simp] theorem linesStatic_procs : (linesStatic s).procs = s.procs := rfl
@[simp] theorem linesStatic_cyc : (linesStatic s).cyc = s.cyc := rfl
@[simp] theorem linesStatic_lat : (linesStatic s).lat = s.lat := rfl
@[simp] theorem linesStatic_rep : (linesStatic s).rep = s.rep := rfl
@[simp] theorem linesStatic_disp : (linesStatic s).disp = s.disp := rfl
@[simp] theorem linesStatic_flows : (linesStatic s).flows = s.flows := rfl
@[simp] theorem linesStatic_world : (linesStatic s).world = s.world := rfl
@[simp] theorem linesStatic_chans : (linesStatic s).chans = s.chans := rfl
@[simp] theorem linesStatic_dmaPtr : (linesStatic s).dmaPtr = s.dmaPtr := rfl
@[simp] theorem linesStatic_ing : (linesStatic s).ing = s.ing := rfl
@[simp] theorem linesStatic_outp : (linesStatic s).outp = { s.outp with toggling := false, validA := false, validB := false, degraded := true } := rfl
@[simp] theorem linesStatic_safety : (linesStatic s).safety = s.safety := rfl
@[simp] theorem linesStatic_plat : (linesStatic s).plat = s.plat := rfl
@[simp] theorem linesStatic_links : (linesStatic s).links = s.links := rfl
@[simp] theorem linesStatic_out : (linesStatic s).out = s.out := rfl
end LinesStatic

section SetTemp
variable (s : State) (k : Nat) (t : Half)
@[simp] theorem setTemp_pending : (setTemp s k t).pending = s.pending := rfl
@[simp] theorem setTemp_ao : (setTemp s k t).ao = s.ao := rfl
@[simp] theorem setTemp_mem : (setTemp s k t).mem = s.mem := rfl
@[simp] theorem setTemp_regs : (setTemp s k t).regs = s.regs := rfl
@[simp] theorem setTemp_written : (setTemp s k t).written = s.written := rfl
@[simp] theorem setTemp_host : (setTemp s k t).host = s.host := rfl
@[simp] theorem setTemp_load : (setTemp s k t).load = s.load := rfl
@[simp] theorem setTemp_fuses : (setTemp s k t).fuses = s.fuses := rfl
@[simp] theorem setTemp_boot : (setTemp s k t).boot = s.boot := rfl
@[simp] theorem setTemp_procs : (setTemp s k t).procs = s.procs := rfl
@[simp] theorem setTemp_cyc : (setTemp s k t).cyc = s.cyc := rfl
@[simp] theorem setTemp_lat : (setTemp s k t).lat = s.lat := rfl
@[simp] theorem setTemp_rep : (setTemp s k t).rep = s.rep := rfl
@[simp] theorem setTemp_disp : (setTemp s k t).disp = s.disp := rfl
@[simp] theorem setTemp_flows : (setTemp s k t).flows = s.flows := rfl
@[simp] theorem setTemp_world : (setTemp s k t).world = s.world := rfl
@[simp] theorem setTemp_chans : (setTemp s k t).chans = s.chans := rfl
@[simp] theorem setTemp_dmaPtr : (setTemp s k t).dmaPtr = s.dmaPtr := rfl
@[simp] theorem setTemp_ing : (setTemp s k t).ing = s.ing := rfl
@[simp] theorem setTemp_keeps_outp : (setTemp s k t).outp = s.outp := rfl
@[simp] theorem setTemp_safety : (setTemp s k t).safety = s.safety := rfl
@[simp] theorem setTemp_plat : (setTemp s k t).plat = { s.plat with temps := s.plat.temps.set k t } := rfl
@[simp] theorem setTemp_links : (setTemp s k t).links = s.links := rfl
@[simp] theorem setTemp_out : (setTemp s k t).out = s.out := rfl
end SetTemp

end Sys2Proof.Machine
end

