-- ==== Sys2Proof/Laws/Ops.lean ====
section
/-! SUPPORT. What the shared operations can do, said once: a guarded effect, a message taken from its owner's queue, a
descriptor issued, and the read-after-write laws of the state's tables. -/

namespace Sys2Proof.Machine

/-! ### Guards and outcomes -/

/-- A command whose guard fails changes nothing; otherwise its effect is the next state. -/
theorem onlyIf_cases {s t u : State} {c : Bool} (h : onlyIf s c t = .next u) :
    (s.boot.inReset = false ∧ c = true ∧ u = t) ∨ ((s.boot.inReset = true ∨ c = false) ∧ u = s) := by
  unfold onlyIf at h
  cases hr : s.boot.inReset <;> cases c <;> simp_all

@[simp] theorem onlyIf_true {s t : State} (h : s.boot.inReset = false) : onlyIf s true t = .next t := by simp [onlyIf, h]

@[simp] theorem onlyIf_false {s t : State} : onlyIf s false t = .next s := by simp [onlyIf]

theorem ofAttempt_next {a : Attempt} {t : State} (h : ofAttempt a = .next t) : a = .ok t := by
  unfold ofAttempt at h
  split at h
  · cases h; rfl
  · cases h

/-! ### Messages -/

/-- A mailbox command stays, or runs on its owner's front message with the message taken. -/
theorem withFront_cases {s : State} {o : Owner} {isIt : Msg → Bool} {f : Msg → State → Result} {r : Result}
    (h : withFront s o isIt f = r) :
    r = .next s ∨ ∃ m rest, ownerQueue s o = m :: rest ∧ isIt m = true ∧ ownerRuns s o = true ∧ ownerAway s o = false ∧
      s.boot.inReset = false ∧ r = f m (setOwnerQueue s o rest) := by
  unfold withFront at h
  split at h
  · rename_i m rest hq
    split at h
    · rename_i hc
      simp only [Bool.and_eq_true, Bool.not_eq_true'] at hc
      exact .inr ⟨m, rest, hq, hc.1.1.1, hc.1.1.2, hc.1.2, hc.2, h.symm⟩
    · exact .inl h.symm
  · exact .inl h.symm

theorem withFront_front {s : State} {o : Owner} {code : Nat} {m : Msg} {rest : List Msg} {f : Msg → State → Result}
    (h : Front s o code m rest) : withFront s o (isOp code) f = f m (setOwnerQueue s o rest) := by
  obtain ⟨a, b, c, d, e⟩ := h
  simp [withFront, a, isOp, b, c, d, e]

@[simp] theorem ownerQueue_setOwnerQueue (s : State) (o : Owner) (l : List Msg) : ownerQueue (setOwnerQueue s o l) o = l := by
  simp [ownerQueue, setOwnerQueue]

theorem ownerQueue_setOwnerQueue_other {s : State} {o p : Owner} (l : List Msg) (h : p ≠ o) :
    ownerQueue (setOwnerQueue s o l) p = ownerQueue s p := by
  have hf : List.find? (fun q : Owner × List Msg => decide (q.1 = p)) (s.host.queues.filter fun q => decide (q.1 ≠ o)) =
      s.host.queues.find? fun q => decide (q.1 = p) := by
    rw [List.find?_filter]
    congr 1
    funext q
    by_cases hq : q.1 = p <;> simp [hq, h]
  unfold ownerQueue setOwnerQueue
  simp only [List.find?_cons, show decide (o = p) = false from decide_eq_false (Ne.symm h), hf]

/-! ### Instances, flows -/

theorem find_map_inst (l : List Inst) (i : Inst) (tile ctx : Nat) (h : ¬(i.tile = tile ∧ i.ctx = ctx)) :
    (l.map fun j => if j.tile = i.tile ∧ j.ctx = i.ctx then i else j).find? (fun j => decide (j.tile = tile ∧ j.ctx = ctx)) =
      l.find? fun j => decide (j.tile = tile ∧ j.ctx = ctx) := by
  induction l with
  | nil => rfl
  | cons j t ih =>
    simp only [List.map_cons, List.find?_cons]
    by_cases hj : j.tile = i.tile ∧ j.ctx = i.ctx
    · have hn : ¬(j.tile = tile ∧ j.ctx = ctx) := fun hc => h ⟨hj.1 ▸ hc.1, hj.2 ▸ hc.2⟩
      simp only [if_pos hj, decide_eq_false h, decide_eq_false hn]
      exact ih
    · simp only [if_neg hj]
      split
      · rfl
      · exact ih

/-- Another context's instance stays as it was. -/
theorem instOf_setInst_other (s : State) (i : Inst) {tile ctx : Nat} (h : tile ≠ i.tile ∨ ctx ≠ i.ctx) :
    instOf (setInst s i) tile ctx = instOf s tile ctx :=
  find_map_inst _ _ _ _ fun hc => h.elim (fun a => a hc.1.symm) fun a => a hc.2.symm

/-- An instance put back on its own context is the one read there. -/
theorem instOf_setInst {s : State} {tile ctx : Nat} {i j : Inst} (h : instOf s tile ctx = some j) (ht : i.tile = tile)
    (hc : i.ctx = ctx) : instOf (setInst s i) tile ctx = some i := by
  unfold instOf at h ⊢
  simp only [setInst]
  revert h
  generalize s.disp.running = l
  intro h
  induction l with
  | nil => cases h
  | cons x t ih =>
    simp only [List.map_cons, List.find?_cons] at h ⊢
    by_cases hx : x.tile = tile ∧ x.ctx = ctx
    · have : x.tile = i.tile ∧ x.ctx = i.ctx := ⟨hx.1.trans ht.symm, hx.2.trans hc.symm⟩
      rw [if_pos this, decide_eq_true (⟨ht, hc⟩ : i.tile = tile ∧ i.ctx = ctx)]
    · have : ¬(x.tile = i.tile ∧ x.ctx = i.ctx) := fun hh => hx ⟨hh.1.trans ht, hh.2.trans hc⟩
      simp only [if_neg this, decide_eq_false hx] at h ⊢
      exact ih h

theorem find_flowInsert (x : Flow) (l : List Flow) (h : ∀ y ∈ l, y.flowId ≠ x.flowId) (f : Nat) :
    (flowInsert x l).find? (fun y => decide (y.flowId = f)) =
      if x.flowId = f then some x else l.find? fun y => decide (y.flowId = f) := by
  induction l with
  | nil => by_cases hf : x.flowId = f <;> simp [flowInsert, hf]
  | cons y t ih =>
    have hy := h y (List.mem_cons_self ..)
    have ht : ∀ z ∈ t, z.flowId ≠ x.flowId := fun z hz => h z (List.mem_cons_of_mem _ hz)
    unfold flowInsert
    split
    · by_cases hf : x.flowId = f <;> simp [List.find?_cons, hf]
    · simp only [List.find?_cons, ih ht]
      by_cases hf : x.flowId = f
      · have : decide (y.flowId = f) = false := decide_eq_false fun hh => hy (hh.trans hf.symm)
        simp [hf, this]
      · simp [hf]

/-- The flow written is the one read; the others stay. -/
theorem flowOf_setFlow (s : State) (x : Flow) (f : Nat) : flowOf (setFlow s x) f = if x.flowId = f then x else flowOf s f := by
  unfold flowOf setFlow
  simp only
  rw [find_flowInsert _ _ (fun y hy => by simpa using (List.mem_filter.mp hy).2)]
  by_cases hf : x.flowId = f
  · simp [hf]
  · simp only [if_neg hf, List.find?_filter]
    congr 2
    funext y
    by_cases hy : y.flowId = f
    · have : f ≠ x.flowId := fun h => hf h.symm
      simp [hy, this]
    · simp [hy]

/-! ### Registers, tokens, memory -/

/-- A register written holds the value; the others stay. -/
theorem regOf_setReg {s : State} (h : mapWf resetVal s.regs = true) (off r : Nat) (v : Word) :
    regOf (setReg s off v) r = if r = off then v else regOf s r := mapGet_mapSet _ h off r v

theorem regOf_bumpReg {s : State} (h : mapWf resetVal s.regs = true) (off r : Nat) :
    regOf (bumpReg s off) r = if r = off then regOf s off + 1 else regOf s r := regOf_setReg h off r _

/-- A token counter gains and saturates; the others stay (R88). -/
theorem tokenOf_addToken {s : State} (h : mapWf (fun _ => (0 : Half)) s.disp.tokens = true) (tile counter n t c : Nat) :
    tokenOf (addToken s tile counter n) t c =
      if 32 * t + c = 32 * tile + counter then BitVec.ofNat 16 (min 65535 ((tokenOf s tile counter).toNat + n)) else tokenOf s t c :=
  mapGet_mapSet _ h _ _ _

/-- Bytes written are the bytes read. -/
theorem devRead_devWrite {s : State} (h : memWf s.mem = true) (a : Nat) (bs : Bytes) : devRead (devWrite s a bs) a bs.length = bs :=
  (memRead_memWrite h a bs (Nat.le_refl _)).trans (List.take_length ..)

/-- A byte outside the range written stays. -/
theorem memGet_devWrite_outside {s : State} (h : memWf s.mem = true) {a b : Nat} {bs : Bytes} (hb : b < a ∨ a + bs.length ≤ b) :
    memGet (devWrite s a bs).mem b = memGet s.mem b := memGet_memWrite_outside h hb

/-- A whole word written is good again (R362). -/
theorem devWrite_heals {s : State} {a : Nat} {bs : Bytes} {w : Nat} (h1 : a ≤ w) (h2 : w + 8 ≤ a + bs.length) :
    w ∉ (devWrite s a bs).plat.badWords := by
  simp [devWrite, healed, h1, h2]

/-! ### Descriptors -/

/-- A descriptor command that gives a next state changes nothing; or it aborts an instance whose list line is in error; or an
instance stands at a well-formed descriptor of its opcode that may issue, and the command asks for the wake of the banks it
needs, or aborts the instance on a read in error, or does what the class's `run` makes of the issue. -/
theorem issueDesc_cases {s t : State} {tile ctx op : Nat} {r : DescRun} (h : issueDesc s tile ctx op r = .next t) :
    t = s ∨ ∃ i, instOf s tile ctx = some i ∧ s.boot.inReset = false ∧
      ((listLineBad s i = true ∧ t = readerAborts s tile ctx
          (firstBad s (tileBase tile + 64 * (i.task.listLine + i.pc)) 64 - tileBase tile)) ∨
       (listLineBad s i = false ∧ dOpcode (descBytes s i i.pc) = op ∧
        mayIssue s i (descBytes s i i.pc) = true ∧ pointerGrants s i (opUnit op) = true ∧ i.pc < 8192 ∧
        headerOk (descBytes s i i.pc) = true ∧ r.ok s i (descBytes s i i.pc) = true ∧
        accessOk s tile (accessAt s r i) = true ∧
        ((accessRests s tile (accessAt s r i) = true ∧ t = wakeAccess s tile (accessAt s r i)) ∨
         (accessRests s tile (accessAt s r i) = false ∧ ∃ j, instOf (issued s tile r i) tile ctx = some j ∧
          ((∃ a, badAccessAt s tile (accessAt s r i) = some a ∧ t = readerAborts (issued s tile r i) tile ctx a) ∨
           (badAccessAt s tile (accessAt s r i) = none ∧
            r.run (issued s tile r i) j (descBytes s i i.pc) i.pc = .ok t)))))) := by
  unfold issueDesc at h
  split at h
  · cases h; exact .inl rfl
  rename_i i hi
  simp only at h
  split at h
  · cases h; exact .inl rfl
  rename_i h0
  have h0 : s.boot.inReset = false := by simpa using h0
  split at h
  · rename_i hb
    cases h; exact .inr ⟨i, hi, h0, .inl ⟨hb, rfl⟩⟩
  rename_i hb
  have hb : listLineBad s i = false := by simpa using hb
  split at h
  · cases h; exact .inl rfl
  rename_i h1
  split at h
  · cases h
  rename_i h2
  split at h
  · cases h
  rename_i h3
  simp only [Bool.or_eq_true, not_or, Bool.not_eq_true', Bool.not_eq_false, decide_eq_true_eq, ne_eq, not_not] at h1
  simp only [not_or, Bool.not_eq_true', Bool.not_eq_false, Nat.not_le] at h2
  have h3 : accessOk s tile (accessAt s r i) = true := by simpa [accessAt] using h3
  suffices hq : t = s ∨ ((accessRests s tile (accessAt s r i) = true ∧ t = wakeAccess s tile (accessAt s r i)) ∨
      (accessRests s tile (accessAt s r i) = false ∧ ∃ j, instOf (issued s tile r i) tile ctx = some j ∧
        ((∃ a, badAccessAt s tile (accessAt s r i) = some a ∧ t = readerAborts (issued s tile r i) tile ctx a) ∨
         (badAccessAt s tile (accessAt s r i) = none ∧ r.run (issued s tile r i) j (descBytes s i i.pc) i.pc = .ok t)))) by
    refine hq.imp id fun q => ⟨i, hi, h0, .inr ⟨hb, h1.1.1, h1.1.2, h1.2, h2.1, h2.2.1, h2.2.2, h3, q⟩⟩
  split at h
  · rename_i hr
    cases h; exact .inr (.inl ⟨hr, rfl⟩)
  rename_i hr
  have hr : accessRests s tile (accessAt s r i) = false := by simpa [accessAt] using hr
  split at h
  · cases h; exact .inl rfl
  rename_i j hj
  refine .inr (.inr ⟨hr, j, hj, ?_⟩)
  split at h
  · rename_i a ha
    cases h; exact .inl ⟨a, ha, rfl⟩
  · rename_i ha
    exact .inr ⟨ha, ofAttempt_next h⟩

end Sys2Proof.Machine
end

