-- ==== Sys2Proof/Laws/Report.lean ====
section
/-! SUPPORT. What reporting changes: replies, events, log records and trace records leave `unreported` alone, and a
write into a device ring touches no byte outside the rings. -/

namespace Sys2Proof.Machine

/-! ### Byte lengths -/

@[simp] theorem toLe_length (n v : Nat) : (toLe n v).length = n := by
  induction n generalizing v with
  | zero => rfl
  | succ n ih => simp [toLe, ih]

@[simp] theorem zeros_length (n : Nat) : (zeros n).length = n := by simp [zeros]

theorem padMul_length_le (bs : Bytes) : (padMul 64 bs).length ≤ 64 * ceilDiv bs.length 64 := by
  simp [padMul, ceilDiv]; omega

theorem msgBytes_length_le (minor : Byte) (opcode seq corr : Nat) (payload : Bytes) (h : payload.length ≤ 65504) :
    (msgBytes minor opcode seq corr payload).length ≤ 65536 := by
  refine Nat.le_trans (padMul_length_le _) ?_
  simp [ceilDiv]; omega

/-! ### Writes into the rings -/

theorem filter_mapSet {β : Type} [DecidableEq β] (d : Nat → β) (p : Nat → Bool) (k : Nat) (v : β) (hk : p k = false)
    (m : List (Nat × β)) : (mapSet d m k v).filter (fun q => p q.1) = m.filter (fun q => p q.1) := by
  induction m with
  | nil => unfold mapSet; split <;> simp [hk]
  | cons q t ih =>
    obtain ⟨j, w⟩ := q
    unfold mapSet
    (repeat' split) <;> simp_all [List.filter_cons]

/-- A write inside a range leaves memory without the range as it was. -/
theorem memClear_memWrite (base n : Nat) (bs : Bytes) (m : Mem) (a : Nat) (h : base ≤ a) (h2 : a + bs.length ≤ base + n) :
    memClear (memWrite m a bs) base n = memClear m base n := by
  induction bs generalizing m a with
  | nil => rfl
  | cons b t ih =>
    simp only [List.length_cons] at h2
    rw [memWrite, ih _ _ (by omega) (by omega)]
    exact filter_mapSet memDefault (fun k => decide (k < base) || decide (base + n ≤ k)) a b (by simp; omega) m

theorem memClear_ringWrite (m : Mem) (r p : Nat) (bs : Bytes) (hr : r < 3) (hl : bs.length ≤ ringSize r) :
    memClear (ringWrite m (ringBase r) (ringSize r) p bs) ringsBase 0x40000 = memClear m ringsBase 0x40000 := by
  unfold ringWrite
  have hs : 0 < ringSize r := by unfold ringSize; split <;> omega
  have hm := Nat.mod_lt p hs
  have hb : ringsBase ≤ ringBase r ∧ ringBase r + ringSize r ≤ ringsBase + 0x40000 := by
    have : r = 0 ∨ r = 1 ∨ r = 2 := by omega
    rcases this with rfl | rfl | rfl <;> decide
  simp only []
  rw [memClear_memWrite, memClear_memWrite]
  · omega
  · simp; omega
  · omega
  · simp; omega

theorem isRingReg_tail {r : Nat} (h : r < 3) : isRingReg (offTail r) = true := by
  have : r = 0 ∨ r = 1 ∨ r = 2 := by omega
  rcases this with rfl | rfl | rfl <;> decide

theorem isRingReg_dropped {r : Nat} (h : r < 3) : isRingReg (offDropped r) = true := by
  have : r = 0 ∨ r = 1 ∨ r = 2 := by omega
  rcases this with rfl | rfl | rfl <;> decide

theorem ringRegs_filter (m : RegFile) (k : Nat) (v : Word) (hk : isRingReg k = true) :
    (mapSet resetVal m k v).filter (fun p => !isRingReg p.1) = m.filter fun p => !isRingReg p.1 :=
  filter_mapSet resetVal (fun k => !isRingReg k) k v (by simp [hk]) m

/-! ### Reports -/

/-- One entry written or dropped. -/
theorem ringSend_unreported (s : State) (r : Nat) (minor : Byte) (opcode corr : Nat) (payload : Bytes) (hr : r < 3)
    (hl : payload.length ≤ 65504) : unreported (ringSend s r minor opcode corr payload) = unreported s := by
  have hb := msgBytes_length_le minor opcode (s.host.seqs.getD r 0).toNat corr payload hl
  have hz : 65536 ≤ ringSize r := by unfold ringSize; split <;> omega
  unfold ringSend; simp only []
  split
  · simp only [unreported]
    rw [memClear_ringWrite _ _ _ _ hr (Nat.le_trans hb hz), ringRegs_filter _ _ _ (isRingReg_tail hr)]
  · simp only [unreported, bumpReg, setReg]
    rw [ringRegs_filter _ _ _ (isRingReg_dropped hr)]

theorem replyInfo_unreported (s : State) (m : Msg) (status info : Nat) (data : Bytes) (hl : data.length ≤ 65488) :
    unreported (replyInfo s m status info data) = unreported s := by
  unfold replyInfo; split
  · rfl
  · exact ringSend_unreported _ _ _ _ _ _ (by decide) (by simp [replyPayload]; omega)

theorem reply_unreported (s : State) (m : Msg) (status : Nat) : unreported (reply s m status) = unreported s :=
  replyInfo_unreported s m status 0 [] (by simp)

theorem replyData_unreported (s : State) (m : Msg) (data : Bytes) (hl : data.length ≤ 65488) :
    unreported (replyData s m data) = unreported s := replyInfo_unreported s m 0 0 data hl

theorem replyBadArg_unreported (s : State) (m : Msg) (off : Nat) : unreported (replyBadArg s m off) = unreported s :=
  replyInfo_unreported s m stBadArgument off [] (by simp)

theorem foldl_unreported {β : Type} (f : State → β → State) (l : List β) (s : State)
    (h : ∀ s, ∀ x ∈ l, unreported (f s x) = unreported s) : unreported (l.foldl f s) = unreported s := by
  induction l generalizing s with
  | nil => rfl
  | cons x l ih =>
    simp only [List.foldl_cons]
    rw [ih _ fun s y hy => h s y (List.mem_cons_of_mem _ hy), h s x (List.mem_cons_self)]

theorem eventPieces_length (data : Bytes) (total n off : Nat) :
    ∀ p ∈ eventPieces data total n off, p.length ≤ 65488 := by
  induction n generalizing off with
  | zero => intro p hp; simp [eventPieces] at hp
  | succ n ih =>
    intro p hp
    simp only [eventPieces, List.mem_cons] at hp
    rcases hp with rfl | hp
    · simp [pieceHeader, sliceOf]; omega
    · exact ih _ p hp

theorem sendEvent_unreported (s : State) (code : Nat) (data : Bytes) : unreported (sendEvent s code data) = unreported s := by
  unfold sendEvent; split
  · exact ringSend_unreported _ _ _ _ _ _ (by decide) (by simp [eventHead]; omega)
  · refine foldl_unreported _ _ _ fun s p hp => ringSend_unreported _ _ _ _ _ _ (by decide) ?_
    have := eventPieces_length _ _ _ _ p hp
    simp [eventHead]; omega

theorem tickFree_unreported (s : State) : unreported (tickFree s) = unreported s := rfl

theorem sendOpenEvent_unreported (s : State) (code : Nat) : unreported (sendOpenEvent s code) = unreported s :=
  sendEvent_unreported s code _

theorem logBytes_length (seq code source flags stamp cycle : Nat) (data : Bytes) :
    (logBytes seq code source flags stamp cycle data).length = 64 := by
  simp [logBytes, padTo]; omega

theorem logTake_unreported (s : State) (code source flags stamp : Nat) (data : Bytes) (direct : Bool) :
    unreported (logTake s code source flags stamp data direct) = unreported s := by
  have h := ringSend_unreported s 2 s.host.agreedMinor 0xF000 0
    (logBytes s.safety.logSeq.toNat code source flags stamp s.cyc.seq.toNat data) (by decide) (by rw [logBytes_length]; omega)
  unfold logTake; simp only []
  cases direct
  · rw [← h]; simp [unreported, tailPush]
  · rw [← h]; simp [unreported]

theorem logNow_unreported (s : State) (code source : Nat) (data : Bytes) :
    unreported (logNow s code source data) = unreported s := logTake_unreported _ _ _ _ _ _ _

theorem logIslandAs_unreported (s : State) (code test : Nat) (data : Bytes) :
    unreported (logIslandAs s code test data) = unreported s := by
  unfold logIslandAs
  rw [tickFree_unreported, logTake_unreported]; rfl

theorem logIsland_unreported (s : State) (code : Nat) (data : Bytes) :
    unreported (logIsland s code data) = unreported s := logIslandAs_unreported s code 0 data

theorem traceRec_unreported (s : State) (tp src arg16 a b : Nat) :
    unreported (traceRec s tp src arg16 a b) = unreported s := by
  unfold traceRec; split <;> rfl

end Sys2Proof.Machine
end

