-- ==== Sys2Proof/WellFormed.lean ====
section
/-! DEFINITION. Well-formed commands: every operand lies in the range the spec gives it, for the larger
part (R2). A command outside its range names nothing the block has. -/

namespace Sys2Proof

/-- A logical tile of the larger part (R2). -/
def isTile (t : Nat) : Bool := decide (t < 256)

/-- An execution context of a logical tile (R41). -/
def isCtx (t x : Nat) : Bool := isTile t && decide (x < 2)

def isCluster (n : Nat) : Bool := decide (n < 16)

/-- An ingress queue (R343). -/
def isQueue (q : Nat) : Bool := decide (q < 14)

/-- A DMA channel (R332). -/
def isChannel (e c : Nat) : Bool := isCluster e && decide (c < 8)

/-- A PHY management interface: sensor ports 0, 1, 6, 7 or the vehicle link, 14 (R417, R435, R441). -/
def isPhyPort (p : Nat) : Bool := decide (p ∈ [0, 1, 6, 7, 14])

/-- A firmware processor (R403). -/
def isProc (p : Nat) : Bool := decide (p < 19)

/-- A token counter (R88). -/
def isCounter (c : Nat) : Bool := decide (c < 32)

/-- A flow of the image or a device sink (R262). -/
def isFlow (f : Nat) : Bool := decide (f ≤ 0xFFF2)

/-- A 4-byte aligned offset of the register window (R382). -/
def isOffset (off : Nat) : Bool := decide (off < 65536 ∧ off % 4 = 0)

def wellFormed : Instr → Bool
  | .aoRead a => decide (a < 2 ^ 32)
  | .aoLogRead i w => decide (i < 64 ∧ w < 8)
  | .headWrite off _ => decide (off ∈ [0x10, 0x18, 0x20])
  | .registerWrite off _ => isOffset off
  | .mdioC22Read p v => isPhyPort p && decide (v.toNat / 2 ^ 30 = 0)
  | .mdioC22Write p v => isPhyPort p && decide (v.toNat / 2 ^ 30 = 1)
  | .mdioC45Read p v => isPhyPort p && decide (v.toNat / 2 ^ 30 = 2)
  | .mdioC45Write p v => isPhyPort p && decide (v.toNat / 2 ^ 30 = 3)
  | .mdioDone p _ => isPhyPort p
  | .phyResetWrite p _ => isPhyPort p
  | .phyIntFall p => isPhyPort p
  | .hostQueueWra q off tag data => decide (q = 12 ∨ q = 13) && decide (off < 4096 ∧ tag < 256)
      && decide (data.length ≤ 256 ∧ data.length % 8 = 0)
  | .flitReceive f => decide (f.length = 256)
  | .mainbandUp r _ => decide (r < 3)
  | .ntf r => decide (1 ≤ r ∧ r ≤ 3)
  | .phaseRelease p => decide (p < 11)
  | .spareIn c => isCluster c
  | .dispatch t x => isCtx t x
  | .steal t x => isCtx t x
  | .listCopyDone t x => isCtx t x
  | .completionRecord c => isCluster c
  | .instanceComplete t x => isCtx t x
  | .oppSwitch c o => isCluster c && decide (1 ≤ o ∧ o ≤ 3)
  | .islandGate c => isCluster c
  | .islandWake c => isCluster c
  | .nop t x => isCtx t x
  | .fence t x => isCtx t x
  | .moveCopy t x => isCtx t x
  | .moveFill t x => isCtx t x
  | .moveFetch t x => isCtx t x
  | .movePut t x => isCtx t x
  | .putTimeout t x => isCtx t x
  | .matmul t x => isCtx t x
  | .matmulConv t x => isCtx t x
  | .vectBin t x => isCtx t x
  | .vectUn t x => isCtx t x
  | .vectNorm t x => isCtx t x
  | .vectCvt t x => isCtx t x
  | .reduce t x => isCtx t x
  | .genprim t x => isCtx t x
  | .sweep t x => isCtx t x
  | .sweepPairDone t x => isCtx t x
  | .sweepStartReport t x => isCtx t x
  | .cacheFill t l _ => isTile t && decide (l < 65536)
  | .topk t x => isCtx t x
  | .topkMerge t x => isCtx t x
  | .knn t x => isCtx t x
  | .solveAssemble t x => isCtx t x
  | .solveFactor t x => isCtx t x
  | .solveSubst t x => isCtx t x
  | .solveUpdate t x => isCtx t x
  | .solveReport t x => isCtx t x
  | .dmareq t x => isCtx t x
  | .wait t x => isCtx t x
  | .signal t x => isCtx t x
  | .tokenIncrement t c n => isTile t && isCounter c && decide (n < 65536)
  | .emit t x => isCtx t x
  | .descriptorComplete t x i => isCtx t x && decide (i < 8192)
  | .weightChunkWrite t x => isCtx t x
  | .flowRelease f => isFlow f
  | .flowAckPoll f => isFlow f
  | .fpReadback l => decide (l < 3)
  | .signatureRecord c => isCluster c
  | .reinExpiry t x => isCtx t x
  | .logRecord code src fl d => decide (code < 65536 ∧ src < 256 ∧ fl < 256 ∧ d.length ≤ 40)
  | .faultEvent src code d => decide (src < 2 ^ 16 ∧ code < 2 ^ 16 ∧ d.length ≤ 40)
  | .worldBankRepair c s => isCluster c && decide (s < 2 ^ 19)
  | .dmaTransferStart e => isCluster e
  | .dmaComplete e c _ => isChannel e c
  | .dmaTimeout e c => isChannel e c
  | .dmaErrEcc e c _ => isChannel e c
  | .queueReset q => isQueue q
  | .queueReadTimeout q => isQueue q
  | .frameReceived p _ _ => decide (p < 12)
  | .frameAccept q => isQueue q
  | .frameHashDone q => isQueue q
  | .gptpSyncRx p _ => isPhyPort p
  | .gptpSyncTx p => isPhyPort p
  | .collFrameRx p _ => decide (p < 2)
  | .collTimeout c => decide (c < 65536)
  | .lkLinkChange p _ => decide (p < 2)
  | .watchdogExpiry p => isProc p
  | .fwReloadDone p _ => isProc p
  | .plannedRestartBegin p => isProc p
  | .plannedRestartDone p => isProc p
  | .fwMemEcc p => isProc p
  | .internalFatalException p => isProc p
  | .selftestLate c => decide (1 ≤ c ∧ c ≤ 11)
  | .selftestStarved c u => decide (1 ≤ c ∧ c ≤ 11 ∧ u < 606)
  | .bankWake t b => isTile t && decide (b < 46)
  | .patrolScrub c u _ _ => decide (c < 7 ∧ u < 606)
  | .gddr6Retrain c => decide (c < 24)
  | .railOutOfWindow r => decide (r.1 < 7)
  | .thermalTrip i _ => decide (i < 20)
  | .criticalTemp i _ => decide (i < 20)
  | .thermalTripEnd l => decide (l.length = 20)
  | .bootSelftestDone l => l.all fun p => isCluster p.1 && decide (p.2 < 17)
  | .tileIdle t => isTile t
  | .sensorLinkChange p _ => decide (p < 12)
  | .avsbusSetpointChange mv => decide (620 ≤ mv ∧ mv ≤ 800 ∧ mv % 5 = 0)
  | .hello | .helloReattach | .heartbeat | .queryDevice | .queryFacts | .queryCkptRead | .queryWeightDir
  | .readCounters | .loadFirmware | .fuseRequest | .restartProcessor | .attest | .loadTaskImage
  | .loadWeights | .profileSet | .cycleConfig | .selftestConfig | .worldDelta | .start | .stop | .pause
  | .resume | .resumeCheckpoint | .save | .ckptPut | .replay | .replayData | .safeClear | .safeRequest
  | .aoSafeRequest | .aoResetArm _ | .aoResetGo _ | .cmdDoorbell _ | .hostLossCfgWrite _ | .stopEnWrite _
  | .mainbandDown | .hostLossExpiry | .cycleStart | .syncTimeout | .fpSyncEdge | .syncLostClear | .cut
  | .deadline | .boundary | .replayCycleStart | .ledgerWindowStart | .wakeToken | .releaseRequest
  | .latigoComplete | .vlFrameSend | .vlLinkChange _ | .vlRxFrame _ | .fpToggle | .stopInputActive
  | .stopInputInactive | .faultDrain | .worldBatchTake | .batchApply | .epochPublish | .gptpSyncTimeout
  | .imageVerifyDone | .fwVerifyDone | .selftestSlice | .sliceDone _ | .refclkLoss | .refclkReturn
  | .powerOnReset | .resetPin | .resetRelease | .romStageDone | .gddr6TrainingDone | .phyRstNRelease
  | .sidebandLinkChange _ => true

end Sys2Proof
end

