-- ==== Sys2Proof/Tests/Slice0.lean ====
section
/-! SUPPORT. Tests and witnesses: each `witness_` theorem shows a state and operands that meet every hypothesis of a
clause of the statement it is named after, at a boundary of its range where there is one; each `test_` theorem is one
step on a small state, its expected values from the rule it names. -/

namespace Sys2Proof.Tests

set_option Elab.async false

open Sys2Proof Sys2Proof.Machine

/-! ### Small states -/

/-- READY: every processor runs, every island at 700 MHz, the links to the host up. -/
def ready : State :=
  { State.reset with
    boot := { Boot.reset with stage := 7 }
    procs := List.replicate 19 { Proc.reset with state := .running }
    host := { HostPort.reset with linkUp := true, sbUp := true, session := true }
    outp := { Output.reset with linkUp := true }
    disp := { Dispatcher.reset with
      schRun := true, cccRun := List.replicate 16 true,
      islands := List.replicate 16 { Island.reset with opp := 3, grant := 1000, balance := 1000000 } } }

/-- A task on tile 0 with four batches. -/
def task0 : Task :=
  { taskId := 5, safe := false, phase := 2, home := 0, twin := 0xFF, thinOk := false, stealable := true, listOffset := 0,
    listLen := 1, listLine := 8, seed := 0, reinBudget := 100, energyEst := 400, energyPerUnit := 100, units := 4,
    minUnits := 1, wsOffset := 0, wsCount := 0, schedIndex := 0xFFFF, schedLine := 0, divisor := 1 }

/-- An image of that task alone, with one flow from it. -/
def image0 : Image :=
  { slot := 0, imageId := 1, digest := zeros 48, tasks := [task0], wsets := [],
    flows := [{ flowId := 7, consTile := 1, consCounter := 3, itemMax := 64, consSlots := 2, ringOffset := 0 }], tilemap := [],
    lists := 0x1000, scheds := [], wstream := 0x2000, signed := false, keyHash := [] }

def loaded : State := { ready with load := { Loading.reset with active := some image0 } }

/-- RUNNING, in a cycle that started at AO cycle 0. -/
def cycling : State :=
  { loaded with cyc := { Cycle.reset with dev := .running, inCycle := true, everStarted := true, seqRun := true } }

def paused : State := { loaded with cyc := { Cycle.reset with dev := .paused, seqRun := true } }

def between : State := { cycling with cyc := { cycling.cyc with inCycle := false } }

def replaying : State :=
  { loaded with cyc := { Cycle.reset with dev := .replay },
                rep := some { cycles := 3, index := 0, packages := [], stopReq := false, factError := false } }

/-- The state in internal reset. -/
def held : State := heldReset ready 1

def latched : State :=
  { ready with safety := { Safety.reset with safe := true, cause := 64 }
               outp := { Output.reset with degraded := true } }

def msg (code : Nat) (payload : Bytes) : Msg :=
  { minor := 1, opcode := BitVec.ofNat 16 code, seq := 9, flags := 0, payload := payload, prevSeq := 8, headAt := 0 }

/-- The message waits in its owner's queue. -/
def asked (s : State) (o : Owner) (m : Msg) : State := { s with host := { s.host with queues := [(o, [m])] } }

/-- A piece's payload. -/
def piece (obj off total flags : Nat) (data : Bytes) : Bytes := pieceHeader obj off total flags ++ data

def reg (s : State) (off : Nat) (v : Word) : State := { s with regs := [(off, v)] }

def atAo (s : State) (n : Nat) : State := { s with ao := n }
def withCyc (s : State) (f : Cycle → Cycle) : State := { s with cyc := f s.cyc }

/-! ### Well-formedness -/

theorem test_wf_refuses : (∀ c ∈ [Instr.aoRead (2 ^ 32), .aoLogRead 64 0, .aoLogRead 0 8, .headWrite 0x14 0, .registerWrite 0x10000 0,
    .registerWrite 0x1001 0, .mdioC22Read 2 0, .mdioC22Read 0 0x40000000, .mdioC22Write 0 0, .mdioC45Read 0 0, .mdioC45Write 0 0,
    .mdioDone 2 none, .phyResetWrite 5 0, .phyIntFall 8, .hostQueueWra 11 0 0 [], .hostQueueWra 12 4096 0 [], .hostQueueWra 12 0 256 [],
    .hostQueueWra 12 0 0 [0], .flitReceive [], .mainbandUp 3 false, .ntf 0, .ntf 4, .phaseRelease 11, .spareIn 16, .dispatch 256 0,
    .dispatch 0 2, .oppSwitch 0 0, .oppSwitch 0 4, .cacheFill 0 65536 false, .tokenIncrement 0 32 1, .tokenIncrement 0 0 65536,
    .descriptorComplete 0 0 8192, .flowRelease 0xFFF3, .fpReadback 3, .logRecord 65536 0 0 [], .logRecord 0 256 0 [], .logRecord 0 0 256 [],
    .faultEvent 65536 0 [], .worldBankRepair 0 (2 ^ 19), .dmaComplete 0 8 true, .queueReset 14, .frameReceived 12 [] 0, .gptpSyncRx 3 0,
    .collFrameRx 2 [], .collTimeout 65536, .lkLinkChange 2 .up, .watchdogExpiry 19, .selftestLate 0, .selftestStarved 12 0,
    .bankWake 0 46, .patrolScrub 7 0 0 false, .gddr6Retrain 24, .railOutOfWindow (7, 0), .thermalTrip 20 0, .thermalTripEnd [],
    .bootSelftestDone [(0, 17)], .tileIdle 256, .sensorLinkChange 12 true, .avsbusSetpointChange 801, .avsbusSetpointChange 622],
    wellFormed c = false) := by decide +kernel

theorem test_wf_accepts : (∀ c ∈ [Instr.hello, .aoRead (2 ^ 32 - 1), .aoLogRead 63 7, .headWrite 0x20 0, .registerWrite 0xFFFC 0,
    .mdioC45Write 14 0xC0000000, .hostQueueWra 13 4095 255 (zeros 256), .flitReceive (zeros 256), .phaseRelease 10, .dispatch 255 1,
    .flowRelease 0xFFF2, .avsbusSetpointChange 620, .bootSelftestDone [(15, 16)]], wellFormed c = true) := by decide +kernel

/-! ### The whole machine -/

theorem ready_inv : Inv ready := ⟨by decide, by decide, by decide⟩
theorem cycling_inv : Inv cycling := ⟨by decide, by decide, by decide⟩
theorem latched_inv : Inv latched := ⟨by decide, by decide, by decide⟩

theorem witness_StepRunsTheFrontCommand : { ready with pending := [.nop 0 0] }.pending = .nop 0 0 :: [] := rfl
theorem witness_IdleStep : ready.pending = [] ∧ (ready.boot.inReset = false ∧ ready.host.cmdTail = regOf ready 0x0C ∧
    ready.cyc.item = .none ∧ ready.lat.running = false) ∧ held.pending = [] ∧ held.boot.inReset = true := by decide
theorem witness_EveryStepKeepsTheInvariant : Inv ready ∧ ∃ t, step ready = .next t := ⟨ready_inv, _, rfl⟩
theorem witness_NoCommandTouchesTheQueue : ∃ t, exec .fpSyncEdge ready = .next t := ⟨_, rfl⟩
theorem witness_OnlyTheseEndTheSafeState : Latched latched ∧ ∃ t, exec .safeClear latched = .next t := ⟨rfl, _, rfl⟩
theorem witness_InternalResetHoldsTheBlock : held.boot.inReset = true := rfl

/-! ### Session, queries, replies -/

theorem witness_SessionCommandsComplete :
    (let s := asked { ready with host := { ready.host with session := false } } .router (msg 1 (zeros 16))
     Front s .router 1 (msg 1 (zeros 16)) [] ∧ isReattach (msg 1 (zeros 16)) = false ∧ helloRsvd (msg 1 (zeros 16)) = true ∧
       s.host.session = false) ∧
    (let m := msg 1 (1 :: zeros 15)
     Front (asked cycling .router m) .router 1 m [] ∧ isReattach m = true ∧ helloRsvd m = true) ∧
    (let m := msg 2 (zeros 16)
     Front (asked cycling .router m) .router 2 m [] ∧ rsvdZero m.payload [(8, 8)] = true) := by
  unfold Front; decide +kernel
/-- A session outside STOPPED; REATTACH before, and in the AO cycle in which, the timer runs out under SAFE_AFTER. -/
theorem witness_SessionCommands_refused_and_late :
    (let m := msg 1 (zeros 16)
     Front (asked cycling .router m) .router 1 m [] ∧ cycling.host.session = true ∧ cycling.cyc.dev ≠ .stopped) ∧
    (∀ n ∈ [99999999, 100000000], let m := msg 1 (1 :: zeros 15)
      let s := asked { cycling with ao := n } .router m
      Front s .router 1 m [] ∧ isReattach m = true ∧ helloRsvd m = true ∧ s.host.cmdTail = regOf s 0x0C ∧
        (lossBy s s.ao = true ↔ n = 100000000) ∧ regNat s 0x28 / 2 ^ 30 = 2) := by
  unfold Front; decide +kernel
theorem witness_hello_inv : Inv (asked ready .router (msg 1 (zeros 16))) := ⟨by decide, by decide, by decide⟩

theorem witness_QueriesAnswer :
    (∀ k : Fin 4, Front (asked ready .sch (msg 3 (BitVec.ofNat 8 k :: zeros 15))) .sch 3 (msg 3 (BitVec.ofNat 8 k :: zeros 15)) [] ∧
      rsvdZero (BitVec.ofNat 8 k :: zeros 15) [(1, 3), (12, 4)] = true ∧ queryKind (msg 3 (BitVec.ofNat 8 k :: zeros 15)) = k) ∧
    queryArg (msg 3 (1 :: zeros 15)) ∈ { cycling with cyc := { cycling.cyc with factsSlots := [0] } }.cyc.factsSlots ∧
    Front (asked ready .sch (msg 4 [])) .sch 4 (msg 4 []) [] := by
  unfold Front; decide +kernel

theorem test_query_without_session_facts : (match exec .queryFacts (asked ready .sch (msg 3 (1 :: zeros 15))) with
    | .next t => regOf t 0x14 | _ => 0) = 64 := by decide +kernel

/-! ### Safe state -/

theorem witness_SafeRequestsSetTheLatch : Front (asked ready .island (msg 0x51 [])) .island 0x51 (msg 0x51 []) [] ∧
    ready.boot.inReset = false ∧ ready.host.sbUp = true := by
  unfold Front; decide +kernel

theorem witness_SafeClearEndsTheSafeState :
    (Front (asked latched .island (msg 0x50 [])) .island 0x50 (msg 0x50 []) [] ∧ latched.safety.safe = true ∧
      safeBlock (setOwnerQueue (asked latched .island (msg 0x50 [])) .island []) = 0 ∧ latched.cyc.dev = .stopped ∧
      causeNow (setOwnerQueue (asked latched .island (msg 0x50 [])) .island []) = false) ∧
    (let s := asked { latched with ao := 9, safety := { latched.safety with causeAt := some 9 } } .island (msg 0x50 [])
     Front s .island 0x50 (msg 0x50 []) [] ∧ causeNow (setOwnerQueue s .island []) = true) ∧
    (let s := asked { latched with cyc := { Cycle.reset with dev := .running }, safety := { latched.safety with clean := 3 } } .island (msg 0x50 [])
     Front s .island 0x50 (msg 0x50 []) [] ∧ s.safety.safe = true ∧ safeBlock (setOwnerQueue s .island []) = 0 ∧ s.cyc.dev ≠ .stopped ∧
       causeNow (setOwnerQueue s .island []) = false) ∧
    (let s := asked { latched with cyc := { Cycle.reset with dev := .running }, safety := { latched.safety with clean := 2 } } .island (msg 0x50 [])
     Front s .island 0x50 (msg 0x50 []) [] ∧ safeBlock (setOwnerQueue s .island []) ≠ 0) := by
  unfold Front; decide +kernel

theorem witness_SidebandAnswers : ready.boot.inReset = false ∧ ready.host.sbUp = true ∧ (0 : Word) ≠ 0x4B595253 ∧
    ready.host.sbArmedAt = none ∧ (let s := { ready with ao := 100001, host := { ready.host with sbArmedAt := some 0 } };
      s.host.sbArmedAt = some 0 ∧ 0 + 100000 < s.ao) := by decide

/-! ### The register window -/

/-- A HEARTBEAT at the start of the COMMAND ring. -/
def heartbeatEntry : Bytes :=
  let head := [1, 1] ++ toLe 2 2 ++ toLe 4 1 ++ toLe 4 0 ++ toLe 4 16 ++ zeros 12
  padMul 64 (head ++ toLe 4 (crc32c (head ++ zeros 16)) ++ zeros 16)

def rung : State := { ready with mem := memWrite ready.mem 0x200000000000 heartbeatEntry }

theorem witness_DoorbellRoutesTheMessage :
    (doorbellOk ready 3 = false) ∧
    (let u := { rung with host := { rung.host with cmdTail := 64 } }
     doorbellOk rung 64 = true ∧ 2 ≤ rung.boot.stage ∧ rung.boot.stage ≤ 7 ∧ opcodeOwner (readEntry u).msg.opcode.toNat = some .router ∧
       routeStatus u (readEntry u) = stOk ∧ (ownerQueue rung .router).length < 256 ∧
       (64 : Word) - regOf rung 0x0C = BitVec.ofNat 32 (entrySize u (readEntry u)) ∧ (64 : Word) ≠ regOf rung 0x0C) := by
  decide +kernel
/-- An entry of zero bytes; no entry; a HELLO still to be executed; the ROM's stage. -/
theorem witness_Doorbell_refused :
    (let u := { ready with host := { ready.host with cmdTail := 64 } }
     doorbellOk ready 64 = true ∧ helloWaits ready = false ∧ routeStatus u (readEntry u) ≠ stOk ∧
       (64 : Word) - regOf ready 0x0C = BitVec.ofNat 32 (entrySize u (readEntry u))) ∧
    doorbellOk ready 0 = true ∧ 0 = regOf ready 0x0C ∧ helloWaits (asked ready .router (msg 1 (zeros 16))) = true ∧
    doorbellOk (asked ready .router (msg 1 (zeros 16))) 64 = true ∧ State.reset.boot.stage < 2 ∧
    ready.plat.softWords = [] ∧ ready.plat.badWords = [] ∧ ready.plat.poison = [] := by decide +kernel
theorem witness_doorbell_inv : Inv rung := ⟨by decide +kernel, by decide, by decide⟩

def queryCounters (flags : Half) : Msg := { msg 4 [] with flags := flags }

theorem counterImage_length (s : State) : (counterImage s).length = 36864 := by
  rw [counterImage, List.length_flatten, List.map_map]
  simp only [Function.comp_def, toLe_length, List.map_const', List.sum_replicate_nat, List.length_range]

theorem counterReply_length (u : State) : (msgBytes 2 0x8004 0 9 (replyPayload 0 0 (counterImage u))).length = 36928 := by
  simp [msgBytes, padMul, replyPayload, counterImage_length]

theorem witness_RepliesStandInTheRing :
    (∀ f : Fin 2, Front (asked ready .sch (queryCounters (BitVec.ofNat 16 f))) .sch 4 (queryCounters (BitVec.ofNat 16 f)) []) ∧
    Front (asked (reg ready 0x14 0x20000) .sch (queryCounters 0)) .sch 4 (queryCounters 0) [] ∧
    (queryCounters 1).flags.toNat % 2 = 1 ∧ (queryCounters 0).flags.toNat % 2 = 0 := by
  unfold Front; decide +kernel
/-- With HEAD 0 the reply fits exactly at TAIL 0x16FC0, and not 64 bytes further on (R387). -/
theorem witness_RepliesStandInTheRing_bounds (u : State) :
    let n := BitVec.ofNat 32 (msgBytes 2 0x8004 0 9 (replyPayload 0 0 (counterImage u))).length
    ((0x16FC0 : Word) + n - 0).toNat ≤ 0x20000 ∧ 0x20000 < ((0x17000 : Word) + n - 0).toNat := by
  rw [counterReply_length]; decide
theorem witness_replies_inv : Inv (asked (reg ready 0x14 0x20000) .sch (queryCounters 0)) := ⟨by decide +kernel, by decide +kernel, by decide +kernel⟩

/-- HEAD at TAIL and 2^31 - 64 behind it, a misaligned value; the ends of T_HOST; STOP_EN. -/
theorem witness_WindowWrites : ready.boot.inReset = false ∧ ready.host.linkUp = true ∧
    (∀ off ∈ [0x10, 0x18, 0x20], (64 : Word).toNat % 64 = 0 ∧ (regOf (reg ready (off + 4) 64) (off + 4) - 64).toNat < 2 ^ 31 ∧
      (regOf (reg ready (off + 4) 0x7FFFFFC0) (off + 4) - 0).toNat < 2 ^ 31) ∧ (1 : Word).toNat % 64 ≠ 0 ∧
    (∀ v ∈ [10, 0x80002710], (BitVec.ofNat 32 v).toNat / 2 ^ 30 ≠ 3 ∧ 10 ≤ v % 16384 ∧ v % 16384 ≤ 10000 ∧ bitsOf v 14 16 = 0) ∧
    ready.cyc.dev = .stopped ∧ ready.outp.stopFilt = false ∧ cycling.cyc.dev = .running := by decide +kernel

/-- Registers with and without a boundary rule (R505). -/
theorem witness_WindowWrites_plain :
    (∀ p ∈ [(0x3008, (100 : Word), true), (0x6004, 0xFFFFFFFF, true), (0x8014, 0, false)], ownBehaviour p.1 = false ∧ p.1 < 65536 ∧ p.1 % 4 = 0 ∧
      (rwInfo ready p.1).any (fun i => i.ok p.2.1.toNat && decide (p.2.1.toNat &&& i.rsvd = 0) && i.atBoundary == p.2.2) = true) ∧
    mapWf (fun k => regOf cycling k) cycling.written = true := by decide +kernel

/-- Values out of range, offsets that take none; STOP active when STOP_EN is written. -/
theorem witness_WindowWrites_ignored : ready.boot.inReset = false ∧ ready.host.linkUp = true ∧
    (∀ v ∈ [0xC000000A, 9, 10001], let w : Word := BitVec.ofNat 32 v
      w.toNat / 2 ^ 30 = 3 ∨ w.toNat % 16384 < 10 ∨ 10000 < w.toNat % 16384) ∧
    (∀ x ∈ [0, 1], let s := { reg ready 0x6040 (BitVec.ofNat 32 (x * 2 ^ 31)) with outp := { ready.outp with stopFilt := true } }
      s.outp.stopFilt = true ∧ (2 ^ 31 ≤ regNat s 0x6040 ↔ x = 1)) ∧ cycling.cyc.dev ≠ .stopped ∧
    (0x80000000 : Word).toNat % 2 ^ 31 = 0 ∧ (∀ off ∈ [4, 0x10000, 0x3009], ownBehaviour off = false) ∧ rwInfo ready 4 = none ∧
    (rwInfo ready 0x3008).any (fun i => !i.ok 10001) = true := by decide +kernel
theorem test_host_loss_cfg_out_of_range : execHostLossCfgWrite 9 ready = .next ready := rfl

/-! ### PHY management, flits, link events, cold resets -/

def mdioRunning (w : Word) : State := { ready with ing := { ready.ing with mdio := [(0, w), (4, 0)] } }

theorem witness_PhyManagement : phyOfPort 2 = none ∧ phyOfPort 14 = some 0 ∧ phyOfPort 7 = some 4 ∧ ready.boot.inReset = false ∧ ready.host.linkUp = true ∧
    ready.cyc.dev = .stopped ∧ mdioBusy ready 0 = false ∧ mdioBusy (mdioRunning 0) 4 = true ∧ cycling.cyc.dev ≠ .stopped ∧
    (∀ k : Fin 4, (BitVec.ofNat 32 (k * 2 ^ 30 + 0xFFFF) : Word).toNat / 2 ^ 30 = k ∧ bitsOf (k * 2 ^ 30 + 0xFFFF) 16 4 = 0) ∧
    (mdioRunning 0xC0000001).ing.mdio.find? (·.1 = 0) = some (0, 0xC0000001) ∧ (mdioRunning 0).ing.mdio.find? (·.1 = 0) = some (0, 0) ∧
    2 ^ 31 ≤ (0x80000000 : Word).toNat ∧ bitsOf (0x8000FFFF : Word).toNat 16 14 = 0 ∧ (0x0000FFFF : Word).toNat < 2 ^ 31 ∧
    phyReleased { ready with ao := 1000000 } = true := by decide +kernel

theorem test_mdio_done_no_resp : (match exec (.mdioDone 14 none) (mdioRunning 0) with
    | .next t => regOf t (offMdioStatus 0) | _ => 0) = 0x4000FFFF := by decide +kernel
theorem test_mdio_write_waits_for_stopped : (match exec (.mdioC22Write 14 0x40000000) cycling with
    | .next t => t.ing.mdio.length | _ => 1) = 0 := by decide +kernel

/-- A flit of sequence 0 around 244 bytes of transactions (R376). -/
def flitOf (body : Bytes) : Bytes :=
  let f := zeros 8 ++ padTo 244 body
  f ++ toLe 4 (crc32c f)

/-- The header of a posted write: kind 1, tag, length, address, eight bytes RSVD (R377). -/
def hdr (kind tag len addr : Nat) : Bytes := toLe 1 kind ++ toLe 1 tag ++ toLe 2 len ++ toLe 4 addr ++ zeros 8

/-- Four bytes wait from the flit before; the rest of a 232-byte write to the COMMAND ring follows. -/
def midWrite : State := { ready with host := { ready.host with rxBytes := (hdr 1 0 232 0x100000).take 4 } }
def restOfWrite : Bytes := flitOf ((hdr 1 0 232 0x100000).drop 4 ++ List.replicate 232 0xAA)
/-- A read of DEV_STATE's register, then a write that this flit does not finish. -/
def readThenWrite : Bytes := flitOf (hdr 3 5 4 0x3008 ++ hdr 1 0 256 0x100000 ++ List.replicate 212 0x55)

theorem witness_Flits_write :
    let bs := midWrite.host.rxBytes ++ sliceOf restOfWrite 8 244
    flitGood restOfWrite = true ∧ BitVec.ofNat 16 (fieldAt restOfWrite 0 2) = midWrite.host.rxFseq ∧ fieldAt bs 2 2 = 232 ∧
      bs.length = 16 + 8 * ceilDiv 232 8 ∧ fieldAt bs 0 1 = 1 ∧ allZero (sliceOf bs 8 8) = true ∧ fieldAt bs 4 4 = 0x100000 ∧
      hitsTaken midWrite 0 232 = false := by decide +kernel
theorem witness_Flits_read :
    let bs := sliceOf readThenWrite 8 244
    flitGood readThenWrite = true ∧ bs = hdr 3 5 4 0x3008 ++ bs.drop 16 ∧ (hdr 3 5 4 0x3008).length = 16 ∧
      fieldAt (bs.drop 16) 0 1 ≠ 3 ∧ (bs.drop 16).length < 16 + fieldAt (bs.drop 16) 2 2 := by decide +kernel
theorem witness_Flits_unfinished : flitGood (flitOf (hdr 1 0 256 0x100000)) = true ∧
    (sliceOf (flitOf (hdr 1 0 256 0x100000)) 8 244).length < 16 + 8 * ceilDiv 256 8 := by decide +kernel
/-- A WRA of 232 bytes that ends at port 13's end; a good flit of another sequence number. -/
def midWra : State := { ready with host := { ready.host with rxBytes := (hdr 2 9 232 0x1C1F18).take 4 } }
def restOfWra : Bytes := flitOf ((hdr 2 9 232 0x1C1F18).drop 4 ++ zeros 232)
theorem witness_Flits_wra :
    let bs := midWra.host.rxBytes ++ sliceOf restOfWra 8 244
    flitGood restOfWra = true ∧ bs.length = 16 + 8 * ceilDiv 232 8 ∧ fieldAt bs 0 1 = 2 ∧ fieldAt bs 2 2 = 232 ∧
      allZero (sliceOf bs 8 8) = true ∧ fieldAt bs 4 4 = 0x1C1F18 ∧ fieldAt bs 4 4 % 0x1000 + 232 = 0x1000 := by decide +kernel
theorem witness_Flits_order : flitGood restOfWra = true ∧
    (∀ b : Bool, let s := { ready with host := { ready.host with rxFseq := 1, rxReplay := b } }
      BitVec.ofNat 16 (fieldAt restOfWra 0 2) ≠ s.host.rxFseq ∧ s.host.rxFails < 16 ∧ s.host.rxReplay = b) ∧
    ready.host.wraHeld = [] ∧ ready.host.rxReplay = false := by decide +kernel
theorem witness_Flits_bad : flitGood (zeros 255 ++ [1]) = false ∧ ready.host.rxFails < 15 ∧
    15 ≤ { ready with host := { ready.host with rxFails := 15 } }.host.rxFails := by decide +kernel
theorem test_flit_write_lands : (match exec (.flitReceive restOfWrite) midWrite with
    | .next t => (devRead t 0x2000000000E7 1, devRead t 0x2000000000E8 1, t.host.rxBytes) | _ => ([], [], [])) = ([0xAA], [0], []) := by
  decide +kernel
theorem test_flit_read_answers : (match exec (.flitReceive readThenWrite) ready with
    | .next t => t.out | _ => []) = [.cpl 0 5 [0x64, 0, 0, 0x20]] := by decide +kernel

/-- The ends of each interval: a notification 100 AO cycles after the last, the timer run out to the AO cycle. -/
theorem witness_LinkEvents : ready.boot.inReset = false ∧ ready.host.linkUp = true ∧ State.reset.host.linkUp = false ∧
    (let s := { ready with ao := 100, host := { ready.host with ntfDue := [2], ntfAt := [(2, 0)] } }
     2 ∈ s.host.ntfDue ∧ s.host.ntfAt.find? (·.1 = 2) = some (2, 0) ∧ 0 + 100 ≤ s.ao) ∧
    State.reset.boot.inReset = false ∧ 2 ∉ ready.host.ntfDue ∧
    (let s := { cycling with ao := 100000001 }
     s.host.timerAt + 100000 * (regNat s 0x28 % 16384) < s.ao) ∧
    (let s := { cycling with ao := 100000000 }
     s.host.session = true ∧ s.cyc.dev ≠ .stopped ∧ s.host.hostLost = false ∧
       s.host.timerAt + 100000 * (regNat s 0x28 % 16384) = s.ao ∧ regNat s 0x28 / 2 ^ 30 = 2) ∧
    regNat (reg cycling 0x28 10) 0x28 / 2 ^ 30 ≠ 2 := by decide +kernel
theorem witness_ColdResets : ready.boot.inReset = false ∧
    (let s := { ready with ao := 100000, host := { ready.host with sbArmedAt := some 0 } }
     s.host.sbUp = true ∧ s.host.sbArmedAt = some 0 ∧ s.ao ≤ 0 + 100000) ∧
    sensorPresent ready 0 = true ∧ sensorPresent ready 19 = true ∧ 2000 ≤ tempOf 2000 ∧ held.boot.inReset = true ∧
    (let s := { held with ao := 10000 }
     resetLasted s = true ∧ s.outp.thermN = false) ∧ resetLasted { held with ao := 9999 } = false ∧
    { held with outp := { held.outp with thermN := true } }.outp.thermN = true ∧
    (let s := { ready with plat := { ready.plat with vddtSet := 750, vddtRelax := some (0, 640) } }
     (∀ r ∈ List.range 7, railInside s r 0 = false) ∧ railInside { s with ao := 2000 } 0 674 = false ∧
       9 * s.plat.vddtSet ≤ 10 * 675 ∧ s.ao < 0 + 2000 ∧ 9 * 640 ≤ 10 * 576 ∧ railInside s 0 576 = true ∧ railInside s 6 1620 = true ∧
       railInside held 6 0 = false) := by decide +kernel
theorem test_reset_keeps_fuses : (match exec .resetPin { ready with fuses := { Fuses.reset with rbFused := [3, 0, 0, 0, 0] } } with
    | .next t => (t.fuses.rbFused, t.boot.resetCause) | _ => ([], 0)) = ([3, 0, 0, 0, 0], 2) := by decide +kernel

/-! ### Frames, gPTP, DMA -/

/-- CSI-2 port 2 enabled on virtual channel 0; source entry 0 takes source 1 on queue 2, entry 1 source 1 on queue 12. -/
def sensing : State :=
  { ready with regs := [(0x5008, 0x80000000), (0x5200, 0x82000001), (0x5208, 0x8C000001)] }

/-- A Welt frame of source 1, COUNTER 7, without payload, and with 100 bytes of it (R421). -/
def welt (n : Nat) : Bytes :=
  let h := toBe 2 1 ++ zeros 2 ++ toBe 4 7 ++ toBe 8 0 ++ toBe 4 n ++ zeros 8
  h ++ toBe 4 (crc32c (h ++ List.replicate n 0x77)) ++ List.replicate n 0x77

def carrier : Bytes := [0, 0, 0x12, 32, 0, 0, 0] ++ (welt 100).take 32 ++ [0x30, 100, 0, 0, 0] ++ (welt 100).drop 32

def rxFrame (n : Nat) : RxFrame := { bytes := welt n, entry := 0, entryCfg := 0x82000001, flags := 0, age := 0 }

def buffering (f : RxFrame) : State := setQueue sensing 2 fun x => { x with buffer := [f] }

theorem witness_FramesEnter : sensing.boot.inReset = false ∧ portReceives sensing 2 = true ∧ isGptpCarrier 2 carrier = false ∧
    weltOf sensing 2 carrier = some (welt 100) ∧ (weltCheck sensing 2 (welt 100) 0).isSome = true ∧
    (weltOf sensing 2 [1, 0]).isNone = true ∧ replaying.cyc.dev = .replay ∧ sensing.cyc.dev ≠ .replay ∧
    buffered (queueOf sensing 2) + (welt 100).length ≤ bufferSize 2 ∧ sensing.host.linkUp = true ∧ 0x7FF < 0x800 ∧
    (weltCheck sensing 12 (welt 0) (gptpNow sensing)).isSome = true ∧ (queueOf sensing 12).buffer = [] ∧
    sensing.host.burstDrop.getD 0 false = false ∧ (sensing.host.burst.getD 0 [] ++ welt 0).length ≤ 65536 ∧
    ceilDiv (welt 0).length 64 ≤ queueFree sensing 12 := by decide +kernel
/-- A burst of 65,536 bytes; one dropped; a frame that fails its checks; one that waits behind another; CPLs behind a held one. -/
theorem witness_FramesEnter_bursts :
    (let s := { sensing with host := { sensing.host with burst := [zeros 65536, []] } }
     s.boot.inReset = false ∧ s.host.linkUp = true ∧ s.host.burstDrop.getD 0 false = false ∧ s.host.burst.getD 0 [] = zeros 65536) ∧
    ({ sensing with host := { sensing.host with burstDrop := [true, false] } }).host.burstDrop.getD 0 false = true ∧
    weltCheck sensing 12 [1] (gptpNow sensing) = none ∧ replaying.cyc.dev = .replay ∧
    (let s := setQueue sensing 12 fun x => { x with buffer := [rxFrame 0] }
     (queueOf s 12).buffer ≠ [] ∧ (weltCheck s 12 (welt 0) (gptpNow s)).isSome = true) ∧
    (let h : HeldWra := { queue := 12, tag := 0, len := 8, closing := true, status := 0, ready := false }
     let v := { sensing with host := { sensing.host with wraHeld := [h] } }
     sensing.host.wraHeld = [] ∧ (∀ g ∈ v.host.wraHeld, g.ready = false) ∧ v.host.wraHeld ≠ [] ∧ ({ h with ready := true }).ready = true) := by
  refine ⟨⟨rfl, rfl, rfl, rfl⟩, ?_⟩
  decide +kernel
/-- A buffer that has no byte left. -/
theorem buffered_one (b : Bytes) : buffered (queueOf (buffering { rxFrame 0 with bytes := b }) 2) = b.length := by
  simp [buffered, queueOf, buffering, setQueue, sensing, ready, State.reset, Ingress.reset, listUpd]
theorem witness_FramesEnter_full : bufferSize 2 < buffered (queueOf (buffering { rxFrame 0 with bytes := zeros 393216 }) 2) + 32 := by
  rw [buffered_one, zeros_length]; decide
theorem test_frame_flags_gap : (counterCheck { counter := 7, valid := true } true 9 true).1 = 2 ∧
    (counterCheck { counter := 7, valid := true } true 7 true).1 = 4 := by decide

theorem witness_AcceptedFrames : 
    (let s := buffering (rxFrame 100)
     s.boot.inReset = false ∧ s.ing.queues.length = 14 ∧ (queueOf s 2).buffer = [rxFrame 100] ∧
       ceilDiv (rxFrame 100).bytes.length 64 ≤ queueFree s 2 ∧ s.cyc.dev ≠ .replay ∧
       ((rxFrame 100).flags.toNat ||| (counterCheck (s.ing.refs.getD 0 { counter := 0, valid := false }) true 7 true).1) &&& 0x3F = 0) ∧
    (let s := setQueue sensing 13 fun x => { x with frames := [{ entry := [], words := 1, bytes := welt 0, hash := none }], wPtr := 1 }
     (queueOf s 13).frames.any (·.hash.isNone) = true ∧ (queueOf s 13).fired = false ∧ (queueOf s 13).wPtr ≠ (queueOf s 13).rPtr ∧
       (queueOf s 13).timerAt + 100 * (regNat s (0x3008 + 16 * 13) % 16384) = 10000) := by decide +kernel
/-- An empty buffer, a queue without room, REPLAY. -/
theorem witness_AcceptedFrames_waiting : (queueOf sensing 2).buffer = [] ∧ replaying.cyc.dev = .replay ∧
    (let s := setQueue (buffering (rxFrame 100)) 2 fun x => { x with wPtr := BitVec.ofNat 32 (queueFree sensing 2 - 2) }
     (queueOf s 2).buffer = [rxFrame 100] ∧ queueFree s 2 < ceilDiv (rxFrame 100).bytes.length 64) := by decide +kernel
theorem test_accept_moves_w : (match exec (.frameAccept 2) (buffering (rxFrame 100)) with
    | .next t => ((queueOf t 2).wPtr, regOf t 0x5120, t.ing.refs.getD 0 { counter := 0, valid := false })
    | _ => (0, 0, { counter := 0, valid := false })) = (3, 1, { counter := 7, valid := true }) := by decide +kernel

theorem witness_Gptp :
    (let s := reg ready 0x6000 0x10000001
     gptpSlave s = some 14 ∧ s.ing.inRange = 0 ∧ s.ing.syncAt + 3 * syncInterval s ≤ { s with ao := 300000000 }.ao) ∧
    (let s := { ready with regs := [(0x6000, 0x08000001)], outp := { ready.outp with linkUp := true } }
     gptpRole s 14 = 1 ∧ s.outp.linkUp = true ∧ s.ing.syncTxAt.find? (·.1 = 14) = none) ∧
    (let s := { ready with regs := [(0x5000, 0x80400000)], ing := { ready.ing with linkUp := [0], syncTxAt := [(0, 0)] } }
     gptpRole s 0 = 1 ∧ 0 ∈ s.ing.linkUp ∧ 0 + syncInterval s ≤ { s with ao := 100000000 }.ao) := by decide +kernel

def dmaSet (d : Word) : RegSet :=
  { src := 0x200000000000, dst := 0x200000100000, length := 128, dctrl := d, sigTarget := 0, sigCounter := 0, sigInc := 0,
    highWm := 0, lowWm := 0, next := 0, safe := false, owner := (0, 0), pairKey := (0, 0, 0, 0), copy := 0, cycle := 0 }

def dmaState (running : Bool) : State :=
  { ready with chans := [{ Channel.reset 9 with active := some (dmaSet 0), running := running, moved := if running then 2 else 0 }] }

theorem witness_Dma : (dmaState false).boot.inReset = false ∧ enginePick (dmaState false) 1 = some (1, 3) ∧
    engineBusy (dmaState false) 1 = false ∧ (chanGet (dmaState false) 9).active = some (dmaSet 0) ∧ fromQueue (dmaSet 0) = false ∧
    (let c := chanGet (dmaState true) 9
     c.active = some (dmaSet 0) ∧ c.running = true ∧ c.shared = false ∧ c.armed = false ∧ c.key = 9 ∧ srcKind (dmaSet 0) = 0 ∧
       dstKind (dmaSet 0) = 0 ∧ dctrlBit (dmaSet 0) 20 = false ∧ dctrlBit (dmaSet 0) 21 = false ∧ dctrlBit (dmaSet 0) 22 = false ∧
       badLine (dmaState true) c (dmaSet 0) = none ∧ otherSide (dmaState true) c = none ∧ 1 < c.moved) := by decide +kernel
/-- An idle engine; a queue source in its mode; an engine that serves a channel. -/
theorem witness_Dma_starts : enginePick ready 1 = none ∧ engineBusy ready 1 = false ∧ engineBusy (dmaState true) 1 = true ∧
    (let r := { dmaSet 0x2020 with highWm := 1 }
     let s := setQueue { ready with chans := [{ Channel.reset 9 with active := some r }] } 2 fun x => { x with wPtr := 2 }
     fromQueue r = true ∧ r.safe = false ∧ dctrlBit r 19 = false ∧ enginePick s 1 = some (1, 3) ∧ engineBusy s 1 = false ∧
       (chanGet s 9).active = some r) ∧
    (chanGet (dmaState true) 9).running = true ∧ (chanGet (dmaState false) 9).running = false ∧
    (dmaState true).plat.softWords = [] ∧ (dmaState true).ing.queues.length = 14 ∧ (queueOf (dmaState true) 13).reading = none := by
  decide +kernel
theorem test_dma_done : (match exec (.dmaComplete 1 1 true) (dmaState true) with
    | .next t => ((chanGet t 9).done, (chanGet t 9).lastStatus, (chanGet t 9).running) | _ => (0, 9, true)) = (128, 0, false) := by
  decide +kernel

/-! ### Bulk objects, images, settings, lifecycle, checkpoints, restarts -/

/-- A message that brings data whole (R394). -/
def whole (code obj flags : Nat) (data : Bytes) : Msg := msg code (piece obj 0 data.length (1 + flags) data)

/-- A section of a replay package. -/
def pkgPart (bs : Bytes) : Bytes := toLe 8 bs.length ++ bs
/-- The package of a cycle with the given CYCLE_SEQ and OVERFLOW: no facts, no frames, no batches (R397). -/
def package (seq overflow : Nat) : Bytes :=
  pkgPart ([0x46, 0x43, 0x54, 0x53, 1, 0] ++ toLe 2 overflow ++ toLe 4 seq ++ zeros 52) ++ pkgPart (zeros 48) ++ (List.replicate 15 (pkgPart [])).flatten

theorem witness_ObjectsInOnePiece :
    (∀ obj ∈ [0, 0x100], WholeObject (whole 0x10 obj 0 [1, 2, 3]) ∧
      Front (asked ready .sec (whole 0x10 obj 0 [1, 2, 3])) .sec 0x10 (whole 0x10 obj 0 [1, 2, 3]) []) ∧ secFree ready = true ∧
    WholeObject (whole 0x20 0 2 [1]) ∧ Front (asked ready .sec (whole 0x20 0 2 [1])) .sec 0x20 (whole 0x20 0 2 [1]) [] ∧
    ready.boot.verifying = none ∧ (pieceOf (whole 0x20 0 2 [1])).obj = 0 ∧
    WholeObject (whole 0x21 9 0 [1]) ∧ Front (asked ready .sec (whole 0x21 9 0 [1])) .sec 0x21 (whole 0x21 9 0 [1]) [] ∧
    WholeObject (whole 0x30 0 0 (zeros 32)) ∧ Front (asked ready .world (whole 0x30 0 0 (zeros 32))) .world 0x30 (whole 0x30 0 0 (zeros 32)) [] ∧
    WholeObject (whole 0x45 0 0 [1]) ∧ Front (asked paused .sch (whole 0x45 0 0 [1])) .sch 0x45 (whole 0x45 0 0 [1]) [] ∧
    (pieceOf (whole 0x45 0 0 [1])).total ≤ 0x6000000 := by
  unfold Front WholeObject; decide +kernel

/-- Directory space, and none: one set over all of it. -/
theorem weightPlace_some (s : State) (n : Nat) (hw : weightFits s n weightBase = true) : ∃ a, weightPlace s n = some a := by
  unfold weightPlace
  by_cases h : weightFits s n (weightBase + 256 * Config.freeNat 70 s.disp.freeCtr) = true
  · exact ⟨_, if_pos h⟩
  · exact ⟨weightBase, by simp [h, hw]⟩
theorem witness_weights_place :
    ∃ a, weightPlace (afterPiece (asked ready .sec (whole 0x21 9 0 [1])) .sec (whole 0x21 9 0 [1]) []) 1 = some a :=
  weightPlace_some _ _ (by decide +kernel)
def crowded : State :=
  { ready with load := { ready.load with weights := [{ wsetId := 1, addr := weightBase, len := gddrEnd ready - weightBase, digest := [] }] } }
theorem weightPlace_none (s : State) (n : Nat) (hn : 0 < n) (e : gddrEnd s = 0x555555000)
    (l : weightCopies s = [{ wsetId := 1, addr := weightBase, len := 0x43B555000, digest := [] }]) : weightPlace s n = none := by
  have h : ∀ a, weightFits s n a = false := by
    intro a
    rw [Bool.eq_false_iff]; intro hw
    simp only [weightFits, l, e, Bool.and_eq_true, decide_eq_true_eq, List.all_cons, List.all_nil, Bool.and_true, Bool.or_eq_true] at hw
    simp only [weightBase] at hw
    omega
  simp [weightPlace, h]
theorem witness_weights_none :
    weightPlace (afterPiece (asked crowded .sec (whole 0x21 9 0 [1])) .sec (whole 0x21 9 0 [1]) []) 1 = none :=
  weightPlace_none _ _ (by decide) (by decide +kernel) (by decide +kernel)

theorem witness_ReplayData :
    (∀ n : Fin 2, let m := whole 0x47 n 0 (package n 0)
     WholeObject m ∧ Front (asked replaying .sch m) .sch 0x47 m [] ∧ replaying.cyc.dev = .replay ∧
      (match replaying.rep, parsePkg n (package n 0) with
        | some r, some p => bufferFree r n && pkgReplayable replaying r p | _, _ => false) = true ∧ (pieceOf m).total ≤ 0x2000000) ∧
    (match replaying.rep, parsePkg 0 (package 0 1) with
        | some r, some p => pkgReplayable replaying r p | _, _ => true) = false := by
  unfold Front WholeObject; decide +kernel

/-- Pieces of a weight set: the first of two, the second, one that skips. -/
def part (off flags : Nat) (data : Bytes) : Msg := msg 0x21 (piece 9 off 192 flags data)
def begun : State :=
  { ready with host := { ready.host with pieces := [{ opcode := 0x21, obj := 9, total := 192, data := zeros 64 }] } }
theorem witness_PiecesFollow :
    Front (asked ready .sec (part 0 0 (zeros 64))) .sec 0x21 (part 0 0 (zeros 64)) [] ∧ pieceRsvd (part 0 0 (zeros 64)) = true ∧
    (pieceOf (part 0 0 (zeros 64))).data.length % 64 = 0 ∧ pieceLast (pieceOf (part 0 0 (zeros 64))) = false ∧
    Front (asked begun .sec (part 64 0 (zeros 64))) .sec 0x21 (part 64 0 (zeros 64)) [] ∧ pieceRsvd (part 64 0 (zeros 64)) = true ∧
    (pieceObject (asked begun .sec (part 64 0 (zeros 64))) 0x21 9).any (fun o => decide (o.data.length = 64 ∧ o.total = 192)) = true ∧
    pieceLast (pieceOf (part 64 0 (zeros 64))) = false ∧ (pieceOf (part 128 1 (zeros 64))).off ≠ 0 ∧
    Front (asked begun .sec (part 128 1 (zeros 64))) .sec 0x21 (part 128 1 (zeros 64)) [] ∧
    (pieceObject (asked begun .sec (part 128 1 (zeros 64))) 0x21 9).all (fun o => decide (o.data.length ≠ 128)) = true ∧
    pieceObject (asked ready .sec (part 128 1 (zeros 64))) 0x21 9 = none := by
  unfold Front; decide +kernel

/-- The last piece, ending at TOTAL and short of it; one of 32 bytes that is not the last; a last one of 65,473 bytes. -/
theorem witness_PiecesFollow_ends :
    (∀ n ∈ [64, 128], let m := part 64 1 (zeros n)
      Front (asked begun .sec m) .sec 0x21 m [] ∧ pieceRsvd m = true ∧ pieceLast (pieceOf m) = true ∧
        (pieceObject (asked begun .sec m) 0x21 9).any (fun o => decide (o.data.length = (pieceOf m).off)) = true ∧
        (64 + (pieceOf m).data.length = (pieceOf m).total ↔ n = 128)) ∧
    (let m := part 0 0 (zeros 32)
     Front (asked ready .sec m) .sec 0x21 m [] ∧ pieceLast (pieceOf m) = false ∧ (pieceOf m).data.length = 32) := by
  unfold Front; decide +kernel
theorem witness_PiecesFollow_no_place : let m := part 64 1 (zeros 128)
    weightPlace (afterPiece (asked { crowded with host := begun.host } .sec m) .sec m []) (zeros 64 ++ (pieceOf m).data).length = none :=
  weightPlace_none _ _ (by decide +kernel) (by decide +kernel) (by decide +kernel)
theorem witness_PiecesFollow_long : 65472 < (pieceOf (part 0 1 (zeros 65473))).data.length := by
  simp [pieceOf, part, msg, piece, pieceHeader, toLe_length, zeros_length]

/-- A task image of one PLAIN task and one list, unsigned (R105 to R107, R114). -/
def imageBody : Bytes :=
  [0x4B, 0x47, 0x54, 0x49, 2, 0, 0, 0] ++ toLe 4 384 ++ toLe 2 2 ++ zeros 50 ++ (toLe 2 1 ++ zeros 2 ++ toLe 4 256 ++ toLe 4 64 ++ zeros 4)
    ++ (toLe 2 2 ++ zeros 2 ++ toLe 4 320 ++ toLe 4 64 ++ zeros 4) ++ zeros 160
    ++ (toLe 2 5 ++ [0, 2, 0, 0xFF] ++ zeros 58) ++ zeros 64
def imageBytes : Bytes := putAt imageBody 0xC0 (imageDigestOf imageBody)
/-- The same with 65 flows, one more than the tables hold (R262). -/
def flowsBody : Bytes :=
  [0x4B, 0x47, 0x54, 0x49, 2, 0, 0, 0] ++ toLe 4 1472 ++ toLe 2 3 ++ zeros 50 ++ (toLe 2 1 ++ zeros 2 ++ toLe 4 256 ++ toLe 4 64 ++ zeros 4)
    ++ (toLe 2 2 ++ zeros 2 ++ toLe 4 320 ++ toLe 4 64 ++ zeros 4) ++ (toLe 2 6 ++ zeros 2 ++ toLe 4 384 ++ toLe 4 1040 ++ zeros 4)
    ++ zeros 144 ++ (toLe 2 5 ++ [0, 2, 0, 0xFF] ++ zeros 58) ++ zeros 64 ++ zeros 1088
def flowsBytes : Bytes := putAt flowsBody 0xC0 (imageDigestOf flowsBody)
theorem witness_Verifications_flows : imageStatus ready flowsBytes = 0 ∧ imageRsvdOk flowsBytes = true ∧
    64 < (sectionBytes flowsBytes 6).length / 16 ∧ (sectionBytes imageBytes 6).length / 16 ≤ 64 := by decide +kernel
/-- A fuse request that blows nothing yet, by a key that is on no curve (R469). -/
def fuseBytes : Bytes := [0x4B, 0x47, 0x46, 0x52, 1, 1, 0, 0] ++ zeros 264

def verifying (bs : Bytes) (obj : Nat) : State := { ready with boot := { ready.boot with verifying := some (bs, obj, msg 0x10 []) } }
def verifyingImage (bs : Bytes) (act : Bool) (s : State) : State :=
  { s with load := { s.load with staged := .verifying bs act (msg 0x20 []) } }

/-- A signed firmware image or fuse request that passes cannot be written down: the hashes of the ROM's keys and the part's
DEVICE_ID are constants without a value (log entry 7). Their clauses' other hypotheses are met here. -/
theorem witness_Verifications : ownerRuns ready .sec = true ∧ imageStatus ready [] ≠ 0 ∧ imageStatus ready imageBytes = 0 ∧
    imageRsvdOk imageBytes = true ∧ activationStatus ready (parseImage imageBytes 0) = 0 ∧ ready.cyc.dev = .stopped ∧
    (verifyingImage imageBytes true ready).load.staged = .verifying imageBytes true (msg 0x20 []) ∧
    ownerRuns (verifyingImage imageBytes true cycling) .sec = true ∧ cycling.cyc.dev ≠ .stopped ∧
    (verifying [] 0).boot.verifying = some ([], 0, msg 0x10 []) ∧ fwStatus (verifying [] 0) [] 0 ≠ 0 ∧
    fuseForm [] = false ∧ fuseForm fuseBytes = true ∧ ready.boot.stage = 7 := by decide +kernel
theorem witness_unsigned_fuses : fuseSigned (verifying fuseBytes 0x100) fuseBytes = false := by
  have h : signedHead fuseBytes = false := by decide +kernel
  simp [fuseSigned, h]

/-- A profile record: class 2, one box (R155 to R157). -/
def profileRec (cls : Byte) : Bytes := zeros 4 ++ [cls, 1] ++ zeros 314
def configMsg (period : Nat) : Msg := msg 0x23 (configBytes { CycleParams.reset with period := period })
theorem witness_Settings :
    (∀ s ∈ [ready, paused, cycling], ∀ n ∈ [0, 7],
      let m := msg 0x22 ([BitVec.ofNat 8 n] ++ zeros 63 ++ profileRec 2)
      Front (asked s .sch m) .sch 0x22 m [] ∧ rsvdZero m.payload [(1, 63)] = true ∧ fieldAt m.payload 0 1 ≤ 7 ∧
        profileOk (sliceOf m.payload 0x40 320) = true) ∧ profileOk (sliceOf (profileRec 3) 0 320) = false ∧
    (∀ s ∈ [ready, cycling], Front (asked s .sch (configMsg 10000)) .sch 0x23 (configMsg 10000) []) ∧
    rsvdZero (configMsg 10000).payload [(16, 16)] = true ∧ configOk (configMsg 10000).payload = true ∧ configOk (configMsg 9999).payload = false ∧
    (∀ n ∈ [0, 1, 8, 9], let m := msg 0x24 ([BitVec.ofNat 8 n] ++ zeros 15)
      Front (asked ready .pmc m) .pmc 0x24 m [] ∧ rsvdZero m.payload [(1, 15)] = true ∧ fieldAt m.payload 0 1 = n) ∧
    ready.safety.selfRun = none ∧
    Front (asked { ready with safety := { ready.safety with selfRun := some (1, 0, 0) } } .pmc (msg 0x24 (1 :: zeros 15))) .pmc 0x24 (msg 0x24 (1 :: zeros 15)) [] ∧
    Front (asked ready .sec (msg 0x12 (zeros 64))) .sec 0x12 (msg 0x12 (zeros 64)) [] ∧ rsvdZero (zeros 64) [(48, 16)] = true := by
  unfold Front; decide +kernel
theorem test_config_waits_for_the_boundary : (match exec .cycleConfig (asked cycling .sch (configMsg 20000)) with
    | .next t => (t.cyc.params.period, t.cyc.paramsNext.map (·.period)) | _ => (0, none)) = (10000, some 20000) := by decide +kernel

theorem witness_Lifecycle :
    (∀ s ∈ [loaded, { loaded with boot := { loaded.boot with stage := 6 } }, ready, cycling],
      let m := msg 0x40 (1 :: zeros 15)
      Front (asked s .sch m) .sch 0x40 m [] ∧ rsvdZero m.payload [(1, 15)] = true ∧ fieldAt m.payload 0 1 ≤ 1) ∧
    loaded.load.staged = .none ∧ loaded.load.active.isSome = true ∧ ready.load.active = none ∧
    (∀ s ∈ [ready, paused, cycling, replaying], Front (asked s .sch (msg 0x41 [])) .sch 0x41 (msg 0x41 []) [] ∧ s.cyc.stopMsg = none ∧
      Front (asked s .sch (msg 0x42 [])) .sch 0x42 (msg 0x42 []) [] ∧ s.cyc.pauseMsg = none) ∧
    (∀ s ∈ [paused, { paused with cyc := { paused.cyc with tack := true } }, cycling],
      Front (asked s .sch (msg 0x43 (zeros 16))) .sch 0x43 (msg 0x43 (zeros 16)) []) ∧
    resumeRsvd (msg 0x43 (zeros 16)) = true ∧ resumeCkpt (msg 0x43 (zeros 16)) = false ∧ ready.cyc.dev = .stopped ∧
    paused.cyc.dev = .paused ∧ replaying.cyc.dev = .replay := by
  unfold Front; decide +kernel
/-- STOP in REPLAY between cycles and in one. -/
theorem witness_Lifecycle_replay : (∀ b : Bool,
    let s := withCyc replaying fun c => { c with inCycle := b }
    Front (asked s .sch (msg 0x41 [])) .sch 0x41 (msg 0x41 []) [] ∧ s.cyc.stopMsg = none ∧ s.cyc.dev = .replay ∧ s.cyc.inCycle = b) := by
  unfold Front; decide +kernel
theorem test_start_runs : (match exec .start (asked loaded .sch (msg 0x40 (1 :: zeros 15))) with
    | .next t => (t.cyc.dev, t.cyc.tack) | _ => (.stopped, false)) = (.running, true) := by decide +kernel

/-- A checkpoint of CYCLE_SEQ 5 in tack mode, with an empty tree, fit for the image of `loaded` (R288): its header before and
after CKPT_DIGEST, and its sections. -/
def ckptBody : Bytes :=
  ckptSection (configBytes .reset) ++ ckptSection (zeros 2560) ++ ckptSection (zeros 2048) ++ ckptSection [] ++ ckptSection []
    ++ ckptSection (batchHead 2 0 0 [0, 0, 0])
def ckptA : Bytes := (ckptHeader { loaded with cyc := { loaded.cyc with tack := true, seq := 5 } } 5312).take 0xB0
def ckptB : Bytes := zeros 96
def ckptDigest : Bytes := sha384 (ckptA ++ (zeros 48 ++ (ckptB ++ ckptBody)))
def ckptWith : Bytes := ckptA ++ (ckptDigest ++ (ckptB ++ ckptBody))
def stored (s : State) : State := { s with mem := memWrite s.mem ckptBase ckptWith }

theorem witness_Checkpoint :
    (∀ s ∈ [ready, paused, cycling, replaying], Front (asked s .sch (msg 0x44 [])) .sch 0x44 (msg 0x44 []) []) ∧
    (∀ s ∈ [loaded, paused], let m := msg 0x43 (1 :: zeros 15)
      Front (asked s .sch m) .sch 0x43 m [] ∧ resumeRsvd m = true ∧ resumeCkpt m = true ∧ worldIdle s = true ∧ s.boot.stage = 7) ∧
    (∀ n ∈ [0, 1, 64, 65], let m := msg 0x46 (BitVec.ofNat 8 n :: zeros 15)
      Front (asked loaded .sch m) .sch 0x46 m [] ∧ rsvdZero m.payload [(1, 15)] = true ∧ fieldAt m.payload 0 1 = n) ∧
    loaded.cyc.dev = .stopped ∧ (restoreCkpt loaded).1 ≠ 0 := by
  unfold Front; decide +kernel
theorem sliceOf_left (p r : Bytes) {off n : Nat} (h : off + n ≤ p.length) : sliceOf (p ++ r) off n = sliceOf p off n := by
  rw [sliceOf, sliceOf, List.drop_append_of_le_length (by omega), List.take_append_of_le_length (by rw [List.length_drop]; omega)]
theorem sliceOf_right (p r : Bytes) (off n : Nat) : sliceOf (p ++ r) (p.length + off) n = sliceOf r off n := by
  rw [sliceOf, sliceOf, List.drop_append, List.drop_eq_nil_of_le (by omega), Nat.add_sub_cancel_left]; rfl
theorem readSections_right (p r : Bytes) (h : p.length = 320) (n o : Nat) : readSections (p ++ r) n (320 + o) = readSections r n o := by
  induction n generalizing o with
  | zero => rfl
  | succ k ih =>
    have f : fieldAt (p ++ r) (320 + o) 8 = fieldAt r o 8 := by rw [fieldAt, ← h, sliceOf_right]; rfl
    have g : sliceOf (p ++ r) (320 + o + 8) = sliceOf r (o + 8) := by
      funext m; rw [← h, Nat.add_assoc, sliceOf_right]
    simp only [readSections, f, g, List.length_append, h]
    have e : 64 * ceilDiv (320 + o + 8 + fieldAt r o 8) 64 = 320 + 64 * ceilDiv (o + 8 + fieldAt r o 8) 64 := by
      simp only [ceilDiv]; omega
    rw [e, ih]
    simp only [show (320 + o + 8 + fieldAt r o 8 ≤ 320 + r.length) ↔ (o + 8 + fieldAt r o 8 ≤ r.length) by omega]

theorem ckptA_length : ckptA.length = 0xB0 := by decide +kernel
theorem ckptBody_length : ckptBody.length = 4992 := by decide +kernel
theorem ckptDigest_length : ckptDigest.length = 48 := by simp [ckptDigest, sha384, toBe]

theorem devRead_written (s : State) (a : Nat) (bs : Bytes) (hw : memWf s.mem = true) {n : Nat} (hn : n ≤ bs.length) :
    devRead { s with mem := memWrite s.mem a bs } a n = bs.take n := memRead_memWrite hw a bs hn

theorem ckptStored_stored : ckptStored (stored loaded) = ckptWith := by
  have hw : memWf loaded.mem = true := by decide
  have hl : ckptWith.length = 5312 := by
    simp [ckptWith, ckptA_length, ckptDigest_length, ckptBody_length, ckptB]
  have hr : ∀ n, n ≤ ckptWith.length → devRead (stored loaded) ckptBase n = ckptWith.take n := by
    intro n hn; rw [stored]; exact devRead_written _ _ _ hw hn
  have h16 := hr 16 (by omega)
  have hn := hr 5312 (by omega)
  have hf : fieldAt (ckptWith.take 16) 12 4 = 5312 := by
    rw [ckptWith, List.take_append_of_le_length (by rw [ckptA_length]; omega)]; decide +kernel
  simp only [ckptStored, h16, hf, hn]
  rw [if_pos (by simp [ckptMax]), ← hl, List.take_length]

theorem ckptDigestOk_with : ckptDigestOk ckptWith = true := by
  have h2 : sliceOf ckptWith 0xB0 48 = ckptDigest := by
    have := sliceOf_right ckptA (ckptDigest ++ (ckptB ++ ckptBody)) 0 48
    rw [ckptA_length] at this
    rw [ckptWith, this, sliceOf_left _ _ (by rw [ckptDigest_length]), ← ckptDigest_length]
    simp [sliceOf]
  have h : putAt ckptWith 0xB0 (zeros 48) = ckptA ++ (zeros 48 ++ (ckptB ++ ckptBody)) := by
    rw [putAt, ckptWith, ← ckptA_length, List.take_left, zeros_length, ← ckptDigest_length, ← List.append_assoc ckptA,
      ← List.length_append, List.drop_left, List.append_assoc]
  rw [ckptDigestOk, h, h2, ckptDigest]; simp

theorem ckptParts_with : (ckptParts ckptWith) = some ((readSections ckptBody 6 0).getD []) := by
  have h5 : sliceOf ckptWith 0 5 = [0x43, 0x4B, 0x50, 0x54, 1] := by
    rw [ckptWith, sliceOf_left _ _ (by rw [ckptA_length]; omega)]; decide +kernel
  have hr : readSections ckptWith 6 320 = readSections ckptBody 6 0 := by
    have := readSections_right (ckptA ++ (ckptDigest ++ ckptB)) ckptBody
      (by simp [ckptA_length, ckptDigest_length, ckptB]) 6 0
    rw [ckptWith]; simpa using this
  rw [ckptParts, if_pos h5, hr]
  decide +kernel

theorem ckptStatus_stored : ckptStatus (stored loaded) ckptWith = 0 := by
  have h20 : sliceOf ckptWith 0x20 48 = imageDigest (stored loaded) := by
    rw [ckptWith, sliceOf_left _ _ (by rw [ckptA_length]; omega)]; decide +kernel
  have h50 : sliceOf ckptWith 0x50 48 = wsetDigest (stored loaded) := by
    rw [ckptWith, sliceOf_left _ _ (by rw [ckptA_length]; omega)]; decide +kernel
  have ha : (stored loaded).load.active.isNone = false := by decide
  simp [ckptStatus, ckptDigestOk_with, ckptParts_with, h20, h50, ha, stOk]

theorem restoreTree_some (s : State) (bs : Bytes) (tree : List Bytes)
    (h : (storeTree { s with world := { s.world with
        table := [], nextSlot := 0, freed := [], hostQ := [], taskQ := [], staged := [], built := none, chains := [], cached := [],
        filling := [] } } (treeFrom tree)).isSome = true) : (restoreTree s bs tree).isSome = true := by
  obtain ⟨⟨n, root, f, l⟩, hx⟩ := Option.isSome_iff_exists.mp h
  simp [restoreTree, hx]

theorem restoreCkpt_ok (s : State) (bs : Bytes) (l : List Bytes) (h : ckptStored s = bs) (hs : ckptStatus s bs = 0) (hp : ckptParts bs = some l)
    (ht : (restoreTree s bs (treeSection (l.getD 5 []))).isSome = true) : (restoreCkpt s).1 = 0 := by
  obtain ⟨x, hx⟩ := Option.isSome_iff_exists.mp ht
  simp [restoreCkpt, h, hs, stOk, hp, hx, -List.getD_eq_getElem?_getD]

theorem witness_Checkpoint_restores : (restoreCkpt (stored loaded)).1 = 0 :=
  restoreCkpt_ok _ _ _ ckptStored_stored ckptStatus_stored ckptParts_with
    (restoreTree_some _ _ _ (by decide +kernel))
def msg11 (p : Nat) : Msg := msg 0x11 (BitVec.ofNat 8 p :: zeros 15)
def procState (x : Proc) : State := { loaded with procs := List.replicate 19 x }
def running : Proc := { Proc.reset with state := .running }

theorem witness_Restarts :
    (∀ p ∈ [0, 18], p < loaded.procs.length ∧ Front (asked loaded .router (msg11 p)) .router 0x11 (msg11 p) [] ∧
      rsvdZero (msg11 p).payload [(1, 15)] = true ∧ fieldAt (msg11 p).payload 0 1 = p ∧ presentProc loaded p = true ∧
      (procOf loaded p).state = .running ∧ canCrash loaded p = true ∧ (procOf loaded p).warmMsg = none ∧
      (recentCrashes loaded p).length < 4 ∧
      4 ≤ (recentCrashes (procState { running with crashAts := [0, 0, 0, 0] }) p).length ∧
      Front (asked { loaded with procs := loaded.procs.set p .reset } .router (msg11 p)) .router 0x11 (msg11 p) [] ∧
      (procOf (procState { running with state := .warmPending }) p).state = .warmPending ∧ queueDone loaded p = true ∧
      (procOf (procState { running with state := .restarting, warmBegun := true, warmMsg := some (msg11 p) }) p).warmBegun = true ∧
      fwOf loaded.boot.fwStaged (imageOfProc p) = none ∧
      (∀ b : Bool, (procOf (procState { running with state := .restarting, failedOnce := b }) p).state = .restarting)) := by
  unfold Front; decide +kernel

def firmware (n : Nat) : FwImage := { num := n, version := 2, rbLevel := 1, digest := [], code := [] }
/-- The moment of SEC, of PMC as a window is due, of SCH and a CCC at a boundary; a watchdog that has run out, to the AO cycle;
staged code of image 2. -/
theorem witness_Restarts_moments :
    restartMoment cycling 0 = true ∧ restartMoment (atAo cycling 10000) 1 = true ∧
    (∀ p ∈ [2, 18], restartMoment (withCyc between fun c => { c with boundaryAt := some 0 }) p = true ∧ restartMoment cycling p = false) ∧
    (∀ p ∈ [0, 2, 18], watchdogDue (atAo loaded (watchdogSpan p)) p = true ∧ watchdogDue (atAo loaded (watchdogSpan p - 1)) p = false) ∧
    (let s := { loaded with boot := { loaded.boot with fwStaged := [firmware (imageOfProc 2)] },
                            procs := List.replicate 19 { running with state := .restarting, warmBegun := true, warmMsg := some (msg11 2) } }
     2 < s.procs.length ∧ presentProc s 2 = true ∧ (procOf s 2).warmBegun = true ∧
       fwOf s.boot.fwStaged (imageOfProc 2) = some (firmware (imageOfProc 2)) ∧ (procOf s 2).switched = false) := by decide +kernel

/-! ### The plan cycle, dispatch, the ledger -/

def synced (s : State) : State := withCyc s fun c => { c with params := { c.params with sync := true }, prevSync := true }

/-- A LOCAL start in the AO cycle in which it is due, also before the first cycle; an edge at 0.98 PERIOD; the time-out at 1.02. -/
theorem witness_CyclesBegin :
    (let s := atAo between 1000000
     s.boot.inReset = false ∧ s.cyc.dev = .running ∧ s.cyc.earlyStart = none ∧ nextSync s = false ∧
       (if s.cyc.everStarted then s.cyc.startAo + 100 * s.cyc.prevPeriod else firstStart s) = s.ao ∧ s.cyc.inCycle = false) ∧
    (let s := withCyc (atAo between 5) fun c => { c with everStarted := false, effectAo := 5 }
     nextSync s = false ∧ (if s.cyc.everStarted then s.cyc.startAo + 100 * s.cyc.prevPeriod else firstStart s) = 5) ∧
    (let s := { synced between with ao := 1020000, outp := { between.outp with acceptAt := some 980000 } }
     nextSync s = true ∧ s.outp.acceptAt = some 980000 ∧ syncFrom s = 980000) ∧ cycling.cyc.inCycle = true ∧
    (let s := atAo (synced between) 1020000
     nextSync s = true ∧ startEdge s = none ∧ syncLimit s = s.ao ∧ s.cyc.dev = .running ∧ s.cyc.earlyStart = none) ∧
    (match parsePkg 0 (package 0 0) with
      | some p => (let s := { replaying with rep := some { cycles := 3, index := 0, packages := [p], stopReq := false, factError := false } };
        decide (s.cyc.dev = .replay) && (curPkg s).isSome && !s.cyc.inCycle)
      | none => false) = true := by decide +kernel

/-- A LOCAL start one AO cycle late; an edge later than 1.02 PERIOD. -/
theorem witness_CyclesBegin_late :
    (let s := atAo between 1000001
     nextSync s = false ∧ s.cyc.startAo + 100 * s.cyc.prevPeriod + 1 = s.ao ∧ s.cyc.everStarted = true ∧ s.cyc.earlyStart = none) ∧
    (let s := { synced between with ao := 1020001, outp := { between.outp with acceptAt := some 1020001 } }
     s.cyc.dev = .running ∧ nextSync s = true ∧ s.outp.acceptAt = some 1020001 ∧ syncLimit s + 1 = 1020001) := by decide +kernel
/-- An edge after the timer's start; one that starts the cycle. -/
theorem witness_SyncEdges_late :
    (let s := { synced between with ao := 1020001 }
     s.outp.syncLost = false ∧ s.outp.acceptAt = none ∧ s.cyc.earlyStart = none ∧ syncLimit s < s.ao) ∧
    (let s := { synced between with ao := 980000 }
     s.cyc.everStarted = true ∧ ¬s.ao < syncFrom s ∧ ¬syncLimit s < s.ao) := by decide +kernel
/-- An edge exactly 500 µs after the last; 98 % of the period less one AO cycle; a second without an ignored edge. -/
theorem witness_SyncEdges :
    (let s := { ready with ao := 50000, outp := { ready.outp with acceptAt := some 0 } }
     s.outp.syncLost = false ∧ s.outp.acceptAt = some 0 ∧ 0 + 50000 = s.ao ∧ s.cyc.dev ≠ .running) ∧
    (let s := { synced between with ao := 979999 }
     s.outp.acceptAt = none ∧ s.cyc.dev = .running ∧ s.cyc.everStarted = true ∧ nextSync s = true ∧ s.ao + 1 = syncFrom s) ∧
    (let s := { ready with ao := 49999, outp := { ready.outp with acceptAt := some 0 } }
     s.outp.acceptAt = some 0 ∧ s.ao < 0 + 50000) ∧
    (let s := { ready with ao := 100000000, outp := { ready.outp with syncLost := true, ignoredAt := [0] } }
     s.outp.syncLost = true ∧ s.outp.ignoredAt.filter (fun t => decide (s.ao < t + 100000000)) = []) := by decide +kernel
theorem witness_sync_inv : Inv { ready with ao := 49999, outp := { ready.outp with acceptAt := some 0 } } :=
  ⟨by decide, by decide, by decide⟩
theorem test_early_edge_is_ignored : (match exec .fpSyncEdge { ready with ao := 49999, outp := { ready.outp with acceptAt := some 0 } } with
    | .next t => (regOf t 0x6048, t.outp.acceptAt, t.outp.ignoredAt) | _ => (0, none, [])) = (1, some 0, [49999]) := by decide +kernel

/-- In `cycling` no phase is out yet: phases 0 to 2, and 10 once INGEST is out. -/
def phased (l : List Nat) : State := withCyc cycling fun c => { c with released := l }
theorem witness_PhaseRelease : releasable (phased []) 0 = true ∧ releasable (phased [1, 0]) 2 = true ∧ releasable (phased [0]) 10 = true ∧
    task0 ∈ dueIn cycling 2 ∧ task0.thinOk = false ∧ 0 < task0.units ∧ 0 < copies task0 ∧ inReplay cycling = false := by decide +kernel

def entry0 : Ready :=
  { task := task0, tile := 0, copy := 0, placed := 0, pending := [0, 1, 2, 3], thinTo := 4, first := true, epoch := none }
def placing (e : Ready) : State := { phased [2, 1, 0] with disp := { cycling.disp with ready := [e] } }
/-- An instance on context 1 of tile 17, its list at line 8. -/
def inst0 : Inst :=
  { (default : Inst) with tile := 17, ctx := 1, task := { task0 with home := 17 }, copied := true, charge := 100 }
def working (s : State) (i : Inst) : State := { s with disp := { s.disp with running := [i] } }

theorem witness_CutAndDeadline :
    (let s := atAo (working (placing entry0) inst0) 980000
     s.boot.inReset = false ∧ s.cyc.dev = .running ∧ s.cyc.inCycle = true ∧ s.cyc.deadlineDone = false ∧ s.cyc.cutDone = false ∧
       s.cyc.startAo + 100 * (s.cyc.params.deadline - s.cyc.params.emitMargin) = s.ao ∧
       s.disp.running.all (fun i => i.finished || !isCutPhase i.task.phase) = true ∧ (latigoTiles s).all (tileWorks s) = true ∧
       isCutPhase entry0.task.phase = false ∧ isCutPhase 4 = true ∧ entry0 ∈ s.disp.ready ∧ entry0.pending ≠ []) ∧
    (let s := atAo (working (placing entry0) inst0) 995000
     s.cyc.startAo + 100 * s.cyc.params.deadline = s.ao ∧ instOf s 17 1 = some inst0 ∧ inst0 ∈ s.disp.running ∧
       inst0.finished = false ∧ s.lat.running = false) ∧
    (∀ p ∈ latigoReads (atAo cycling 980000), badRead (atAo cycling 980000) p.1 p.2 = false) ∧
    (∀ n ∈ [995000, 995001], ({ atAo cycling n with lat := { cycling.lat with running := true } }).lat.running = true) := by decide +kernel
theorem test_cut_drops_check : (match exec .cut (atAo (placing { entry0 with task := { task0 with phase := 4 } }) 980000) with
    | .next t => t.disp.ready.length | _ => 9) = 0 := by decide +kernel
theorem test_cut_not_early : (match exec .cut (atAo (placing entry0) 979999) with
    | .next t => t.cyc.cutDone | _ => true) = false := by decide +kernel

def record0 : Released := { state := 0, source := 0, cause := 0, bytes := [], trajectory := [], digest := zeros 48 }
/-- Every due phase is out and over, and the record stands. -/
def ending : State :=
  { (withCyc cycling fun c => { c with released := [10, 9, 8, 7, 6, 5, 4, 3, 2, 1, 0], record := some record0, deadlineDone := true }) with
    lat := { cycling.lat with complete := true } }
theorem witness_Boundary :
    (∀ s ∈ [ending, withCyc ending fun c => { c with stopMsg := some (msg 0x41 []) }, withCyc ending fun c => { c with pauseMsg := some (msg 0x42 []) },
        withCyc ending fun c => { c with earlyStart := some 7 }],
      s.boot.inReset = false ∧ s.cyc.dev = .running ∧ s.rep = none ∧ s.cyc.inCycle = true ∧ s.cyc.record = some record0 ∧
        boundaryReady s = true) := by decide +kernel

theorem witness_Dispatch :
    (let s := placing entry0
     s.boot.inReset = false ∧ contextOpen s 0 1 = true ∧ inReplay s = false ∧ stitchRoom s entry0.task 0 = true ∧
       chooseEntry s 0 = some entry0 ∧ entry0.pending.headD 0 = 0 ∧ (epochOf s (dispatchEpoch s entry0 0 false)).isSome = true ∧
       (ledgerCovers s 0 (chargeOf (energyOf entry0.task true) (scaleOf s 0)) false).isSome = true ∧ 0 ∉ s.disp.idleTiles ∧
       blockOk s 0 entry0.task = true ∧ pointerHolds s 1 = false ∧ creditHolds s 1 entry0 = false ∧ windowDue s = false ∧
       badRead s (streamRange s entry0.task).1 (streamRange s entry0.task).2 = false) ∧
    (let s := placing entry0
     contextOpen s 1 0 = true ∧ s.cyc.tack = false ∧ chooseEntry s 1 = none ∧ victim s 0 = some entry0 ∧
       stolenBatch s entry0 = some 3 ∧ mayTake s entry0 3 0 = true ∧ thiefHolds s 2 entry0 = false ∧ creditHolds s 2 entry0 = false ∧
       (epochOf s (dispatchEpoch s entry0 3 true)).isSome = true ∧ 1 ∉ s.disp.idleTiles ∧ blockOk s 1 entry0.task = true) ∧
    (let s := placing entry0
     let t := { s with disp := { s.disp with islands := List.replicate 16 { Island.reset with opp := 3, grant := 1, balance := 0 } } }
     contextOpen t 0 0 = true ∧ chooseEntry t 0 = some entry0 ∧
       ledgerCovers t 0 (chargeOf (energyOf entry0.task true) (scaleOf t 0)) false = none) ∧
    windowDue (atAo (placing entry0) 10000) = true ∧ windowDue (atAo (placing entry0) 9999) = false := by decide +kernel
theorem test_steal_takes_the_highest : (match exec (.steal 1 0) (placing entry0) with
    | .next t => (t.disp.running.map (·.batch), t.disp.ready.map (·.pending)) | _ => ([], [])) = ([3], [[0, 1, 2]]) := by decide +kernel

def completion0 : Completion :=
  { taskId := 5, batch := 0, tile := 17, ctx := 1, copy := 0, status := 0, flags := 0, cycles := 0, charge := 100 }
theorem witness_Instances :
    (let i := { inst0 with copied := false }
     let s := working cycling i
     s.boot.inReset = false ∧ instOf s 17 1 = some i ∧ i.finished = false ∧ copyOk s i = true ∧ schedOf s i.task = none ∧
       i.copied = false ∧ copyRests s i = false ∧ copyBad s i = none) ∧
    (let i := { inst0 with ended := true, task := { inst0.task with safe := true } }
     instOf (working cycling i) 17 1 = some i ∧ i.finished = false ∧ i.inflight = []) ∧
    (let s := { cycling with disp := { cycling.disp with running := [{ inst0 with finished := true }, { inst0 with ctx := 0 }], compQ := [(1, completion0)] } }
     s.disp.compQ.findIdx? (fun p => decide (p.1 = 1)) = some 0 ∧ s.disp.compQ[0]? = some (1, completion0)) := by decide +kernel
theorem test_completion_frees_the_context :
    (match exec (.completionRecord 1) { cycling with disp := { cycling.disp with running := [{ inst0 with finished := true }, { inst0 with ctx := 0 }], compQ := [(1, completion0)] } } with
    | .next t => t.disp.running.map (·.ctx) | _ => []) = [0] := by decide +kernel

theorem witness_Ledger :
    (let s := atAo cycling 10000
     s.boot.inReset = false ∧ 15 < s.disp.islands.length ∧ s.disp.windowAt + 10000 = s.ao ∧ s.disp.next = none ∧ 15 < clusterCount s) ∧
    (let s := { cycling with disp := { cycling.disp with next := some { grants := List.replicate 16 5, reserves := List.replicate 16 0, scales := List.replicate 16 4096, pool := 7 } } }
     s.disp.next ≠ none) ∧
    (presentCluster cycling 15 = true ∧ procRuns cycling 1 = true ∧ cycling.ao = cycling.disp.windowAt ∧ oppOf cycling 15 = 3 ∧
      cycling.disp.trip = false) ∧
    (let s := setOpp cycling 15 2
     oppOf s 15 = 2 ∧ s.disp.granted = [] ∧ s.disp.tokensHeld < 4 ∧ s.disp.waiters = [] ∧
       4 ≤ ({ s with disp := { s.disp with granted := List.replicate 4 (4, 31) } }.disp.granted.filter (· = (4, 31))).length) ∧
    islandIdle cycling 15 = true ∧ mapWf (fun _ => cycling.plat.bankBase) cycling.plat.banks = true ∧
    (let s := setOpp cycling 15 0
     oppOf s 15 = 0 ∧ (4, 15) ∈ { s with disp := { s.disp with granted := [(4, 15)] } }.disp.granted) ∧
    presentTile cycling 255 = true ∧ instOf cycling 255 0 = none ∧ instOf cycling 255 1 = none ∧
    (cycling.lat.running = true → 255 ∉ latigoTiles cycling) ∧
    (let s := { cycling with disp := { cycling.disp with busyTo := [(255, 0)] } }
     tileRate s 255 = 70 ∧ 320 ≤ tileRate s 255 * ((atAo s 5).ao - 0)) ∧
    (let s := setOpp cycling 15 2
     setpointOf s 3 ≤ s.plat.vddtSet ∧ { s with plat := { s.plat with vddtSet := 640 } }.plat.vddtSet < setpointOf s 3) ∧
    (topOpp cycling = 3 ∧ setpointOf cycling 3 = 720 ∧ 720 % 5 = 0 ∧ ∀ k ∈ [3, 4], setpointOf cycling k ≠ 715) := by decide +kernel
/-- Debt is carried into the next window, credit is not (R269). -/
theorem test_window_carries_debt : (match exec .ledgerWindowStart (atAo { cycling with
      disp := { cycling.disp with islands := [{ Island.reset with grant := 5, balance := -300 }, { Island.reset with grant := 5, balance := 300 }] } } 10000) with
    | .next t => t.disp.islands.map (·.balance) | _ => []) = [4700, 5000] := by decide +kernel

/-! ### Descriptors -/

/-- `Issues` as one test. -/
def issuesB (s : State) (tile ctx op : Nat) (r : DescRun) (i : Inst) : Bool :=
  let d := descBytes s i i.pc
  let acc := accessAt s r i
  !s.boot.inReset && decide (instOf s tile ctx = some i) && !listLineBad s i && decide (dOpcode d = op) && mayIssue s i d
    && pointerGrants s i (opUnit op) && decide (i.pc < 8192) && headerOk d && r.ok s i d && accessOk s tile acc
    && !accessRests s tile acc && (badAccessAt s tile acc).isNone

theorem issues_of {s : State} {tile ctx op : Nat} {r : DescRun} {i : Inst} (h : issuesB s tile ctx op r i = true) :
    Issues s tile ctx op r i := by
  simp only [issuesB, Bool.and_eq_true, Bool.not_eq_true', decide_eq_true_eq, Option.isNone_iff_eq_none] at h
  obtain ⟨⟨⟨⟨⟨⟨⟨⟨⟨⟨⟨a, b⟩, c⟩, d⟩, e⟩, f⟩, g⟩, k⟩, l⟩, m⟩, n⟩, o⟩ := h
  exact ⟨a, b, c, d, e, f, g, k, l, m, n, o⟩

def tref (line rows cols stride : Nat) : Bytes := toLe 8 (line + rows * 2 ^ 14 + cols * 2 ^ 30 + stride * 2 ^ 46)
/-- A descriptor of an opcode, FMT_A, FMT_B, FMT_OUT, and the body from byte 0x10 on. -/
def desc (op fa fb fo : Nat) (body : Bytes) : Bytes := toLe 1 op ++ [0] ++ toLe 1 (fa + 16 * fb) ++ toLe 1 fo ++ zeros 12 ++ padTo 48 body
/-- Instance `inst0` stands at a descriptor; more of the tile's bytes follow. -/
def stand (d : Bytes) (more : List (Nat × Bytes)) : State :=
  (((8 * 64), d) :: more).foldl (fun s w => tileWrite s 17 w.1 w.2) (working cycling inst0)

def nopD : Bytes := desc 0 0 0 0 []
def fenceD : Bytes := desc 1 0 0 0 [1]
/-- One row of three bytes to the tile's last line. -/
def copyD : Bytes := desc 8 0 0 0 (tref 0x100 1 3 1 ++ tref 0x2FFF 1 3 1)
def fillD : Bytes := desc 9 0 0 0 (zeros 8 ++ tref 0x100 2 3 1 ++ zeros 16 ++ [1, 2, 3, 4, 5, 6, 7, 8])
def waitD : Bytes := desc 0x50 0 0 0 [31, 0, 4, 0]
def signalD : Bytes := desc 0x51 0 0 0 [255, 31, 1, 0]
def tokens (s : State) (k n : Nat) : State := { s with disp := { s.disp with tokens := halfSet s.disp.tokens k (BitVec.ofNat 16 n) } }

theorem witness_IssueMovesTheInstanceOn : Issues (stand copyD []) 17 1 8 copyRun inst0 := issues_of (by decide +kernel)
theorem test_copy : (match exec (.moveCopy 17 1) (stand copyD [(0x4000, [5, 6, 7, 8])]) with
    | .next t => (tileRead t 17 0xBFFC0 4, (instOf t 17 1).map (·.pc)) | _ => ([], none)) = ([5, 6, 7, 0], some 1) := by decide +kernel
theorem test_fill : (match exec (.moveFill 17 1) (stand fillD []) with
    | .next t => tileRead t 17 0x4040 4 | _ => []) = [1, 2, 3, 0] := by decide +kernel
theorem test_wait : (match exec (.wait 17 1) (tokens (stand waitD []) (32 * 17 + 31) 7) with
    | .next t => tokenOf t 17 31 | _ => 0) = 3 := by decide +kernel
theorem test_token_saturates : (match exec (.tokenIncrement 3 31 65535)
      { tokens cycling (32 * 3 + 31) 1 with disp := { (tokens cycling (32 * 3 + 31) 1).disp with inbound := [(32 * 3 + 31, 0xFFFF, 0, 0, 0)] } } with
    | .next t => (tokenOf t 3 31, t.disp.inbound.length) | _ => (0, 9)) = (0xFFFF, 0) := by decide +kernel

/-- A reserved header bit; a pattern byte too many; a range in a bank that is OFF; one past the tile. -/
theorem witness_IllFormedDescriptorsStop :
    (let d := nopD.set 12 1
     let s := stand d []
     s.boot.inReset = false ∧ instOf s 17 1 = some inst0 ∧ dOpcode d = 0 ∧ mayIssue s inst0 (descBytes s inst0 0) = true ∧
       pointerGrants s inst0 7 = true ∧ headerOk (descBytes s inst0 0) = false) ∧
    (let s := stand (copyD.set 0x20 1) []
     mayIssue s inst0 (descBytes s inst0 0) = true ∧ pointerGrants s inst0 0 = true ∧ copyRun.ok s inst0 (descBytes s inst0 0) = false) ∧
    (let s := { stand copyD [] with plat := { cycling.plat with banks := [(64 * 17 + 1, 2)] } }
     mayIssue s inst0 (descBytes s inst0 0) = true ∧ headerOk (descBytes s inst0 0) = true ∧
       copyRun.ok s inst0 (descBytes s inst0 0) = true ∧ accessOk s 17 (copyRun.access s inst0 (descBytes s inst0 0)) = false) := by
  decide +kernel

/-- The last bank of the range in retention; the source's one byte of the last column in error. -/
theorem witness_IllFormed_waits_and_errors :
    (let s := { stand copyD [] with plat := { cycling.plat with banks := [(64 * 17 + 1, 1)] } }
     mayIssue s inst0 (descBytes s inst0 0) = true ∧ listLineBad s inst0 = false ∧ copyRun.ok s inst0 (descBytes s inst0 0) = true ∧
       accessOk s 17 (accessAt s copyRun inst0) = true ∧ accessRests s 17 (accessAt s copyRun inst0) = true) ∧
    (let s := { stand copyD [] with plat := { cycling.plat with badWords := [tileBase 17 + 0x4000] } }
     mayIssue s inst0 (descBytes s inst0 0) = true ∧ listLineBad s inst0 = false ∧ accessOk s 17 (accessAt s copyRun inst0) = true ∧
       accessRests s 17 (accessAt s copyRun inst0) = false ∧ (badAccessAt s 17 (accessAt s copyRun inst0)).isSome = true) := by
  decide +kernel
theorem witness_MovesAndTokensComplete :
    Issues (stand nopD []) 17 1 0 nopRun inst0 ∧ Issues (stand fenceD []) 17 1 1 fenceRun inst0 ∧
    Issues (stand copyD []) 17 1 8 copyRun inst0 ∧ Issues (stand fillD []) 17 1 9 fillRun inst0 ∧
    Issues (tokens (stand waitD []) (32 * 17 + 31) 4) 17 1 0x50 waitRun inst0 ∧
    Issues (stand signalD []) 17 1 0x51 signalRun inst0 :=
  ⟨issues_of (by decide +kernel), issues_of (by decide +kernel), issues_of (by decide +kernel), issues_of (by decide +kernel),
    issues_of (by decide +kernel), issues_of (by decide +kernel)⟩
theorem witness_MovesAndTokens_waiting :
    (let i := { inst0 with acc := 1000 }
     let s := tokens (working (stand waitD []) i) (32 * 17 + 31) 3
     s.boot.inReset = false ∧ instOf s 17 1 = some i ∧ i.finished = false ∧ dOpcode (descBytes s i 0) = 0x50 ∧
       (tokenOf s 17 31).toNat < fieldAt (descBytes s i 0) 0x12 2 ∧ fieldAt (descBytes s i 0) 0x10 1 = 31 ∧
       10 * i.task.reinBudget ≤ i.acc ∧ 0 < i.acc ∧ listLineBad s i = false) ∧
    (let s := { cycling with disp := { cycling.disp with inbound := [(5, 1, 0, 0, 0), (32 * 255 + 31, 0xFFFF, 0, 0, 0)] } }
     s.disp.inbound.findIdx? (fun p => decide (p.1 = 32 * 255 + 31 ∧ p.2.1.toNat = 65535)) = some 1) := by decide +kernel

/-! ### FETCH, PUT, DMAREQ -/

def fetchD (addr : Nat) : Bytes := desc 0x0A 0 0 0 (zeros 8 ++ tref 0x100 2 64 1 ++ toLe 6 addr ++ [0, 0] ++ toLe 4 64)
def putD (addr : Nat) : Bytes := desc 0x0B 0 0 0 (tref 0x100 1 64 1 ++ zeros 8 ++ toLe 6 addr ++ [0, 0] ++ toLe 4 64)
/-- A 64-byte transfer from the mailbox area to tile 3, and one that only re-arms. -/
def setBytes (dctrl : Nat) : Bytes := toLe 8 0x200000000000 ++ toLe 8 (3 * 2 ^ 56) ++ toLe 4 64 ++ toLe 4 dctrl ++ zeros 16
def dmareqD (mode dctrl : Nat) : Bytes := desc 0x48 0 0 0 ([7, BitVec.ofNat 8 mode] ++ zeros 6 ++ setBytes dctrl)

theorem witness_FabricMovesComplete :
    (∀ a ∈ [0x200000000000, 0x2000000BFF80, 0], issuesB (stand (fetchD a) []) 17 1 0x0A fetchRun inst0 = true) ∧
    (let s := stand (fetchD 0x2000000BFF80) []
     (fabricRanges (fetchD 0x2000000BFF80) (dTref (fetchD 0x2000000BFF80) 0x18)).all (fun r => fetchable s 17 r.1 r.2) = true ∧
       (fabricRanges (fetchD 0x2000000BFF80) (dTref (fetchD 0x2000000BFF80) 0x18)).find?
         (fun r => badDev (issued s 17 fetchRun inst0) r.1 r.2) = none) ∧
    (let s := { stand (fetchD 0x200000000000) [] with plat := { cycling.plat with badWords := [devKey 0x200000000040] } }
     issuesB s 17 1 0x0A fetchRun inst0 = true ∧
       (fabricRanges (fetchD 0x200000000000) (dTref (fetchD 0x200000000000) 0x18)).find?
         (fun r => badDev (issued s 17 fetchRun inst0) r.1 r.2) = some (0x200000000040, 64)) ∧
    (fabricRanges (fetchD 0) (dTref (fetchD 0) 0x18)).all (fun r => fetchable (stand (fetchD 0) []) 17 r.1 r.2) = false ∧
    (∀ a ∈ [0x300000007FC0, 0x300000008000], issuesB (stand (putD a) []) 17 1 0x0B putRun inst0 = true) ∧
    (putKey inst0 0x300000007FC0 64).isSome = true ∧ (putKey inst0 0x300000008000 64).isSome = false := by decide +kernel
theorem witness_Dmareq :
    (∀ x ∈ [(0, 0x100), (1, 0x100), (1, 0x800100)], issuesB (stand (dmareqD x.1 x.2) []) 17 1 0x48 dmareqRun inst0 = true) ∧
    (let s := stand (dmareqD 1 0x100) []
     (chanGet s (8 * 1 + 7)).armed = false ∧ armOnly (dmareqD 1 0x100) = false ∧ setOk s (reqSet s inst0 (dmareqD 1 0x100) 0) = true ∧
       setOk s (reqSet s inst0 (dmareqD 0 0x100) 0) = true ∧ setOk s (reqSet s inst0 (dmareqD 1 0x101) 0) = false) ∧
    issuesB (stand (dmareqD 1 0x101) []) 17 1 0x48 dmareqRun inst0 = true ∧
    (let s := { stand (dmareqD 1 0x800100) [] with chans := [{ Channel.reset 15 with
       shadow := { reqSet cycling inst0 (dmareqD 1 0x100) 0 with length := 128 } }] }
     armOnly (dmareqD 1 0x800100) = true ∧ (chanGet s 15).armed = false ∧
       setOk s (rearmed (chanGet s 15).shadow (reqSet s inst0 (dmareqD 1 0x800100) 0)) = true) ∧
    (let s := { stand (dmareqD 1 0x100) [] with chans := [{ Channel.reset 15 with armed := true }] }
     issuesB s 17 1 0x48 dmareqRun inst0 = true ∧ (chanGet s 15).armed = true) ∧
    (let i := { inst0 with pc := 1, inflight := [(0, 0)] }
     let s := working (stand (putD 0x300000000000) []) i
     instOf s 17 1 = some i ∧ s.boot.inReset = false ∧ i.finished = false ∧ putInFlight s i = some 0) := by decide +kernel
theorem test_put_handoff : (match exec (.movePut 17 1) (stand (putD 0x300000007FC0) [(0x4000, [9])]) with
    | .next t => tileRead t 17 0xBFFC0 2 | _ => []) = [9, 0] := by decide +kernel
theorem test_fetch_mailbox : (match exec (.moveFetch 17 1) (devWrite (stand (fetchD 0x200000000000) []) 0x200000000041 [7]) with
    | .next t => tileRead t 17 0x4040 2 | _ => []) = [0, 7] := by decide +kernel
theorem test_dmareq_arms : (match exec (.dmareq 17 1) (stand (dmareqD 1 0x100) []) with
    | .next t => (t.chans.map fun c => (c.key, c.active.map (·.length)), (instOf t 17 1).map (·.armed)) | _ => ([], none))
      = ([(15, some 64)], some [7]) := by decide +kernel

/-! ### VECT, REDUCE, MATMUL -/

/-- I32 rows of two: A at 0x4000, B at 0x4040, OUT at 0x4080. -/
def binD (fa fb func bc : Nat) : Bytes :=
  desc 0x18 fa fb 3 (tref 0x100 1 2 1 ++ tref 0x101 1 2 1 ++ tref 0x102 1 2 1 ++ [BitVec.ofNat 8 func, BitVec.ofNat 8 bc])
def unD (fa func : Nat) : Bytes := desc 0x19 fa 0 3 (tref 0x100 1 2 1 ++ zeros 8 ++ tref 0x102 1 2 1 ++ [BitVec.ofNat 8 func])
def normD : Bytes := desc 0x1A 8 8 8 (tref 0x100 1 2 1 ++ tref 0x101 2 2 1 ++ tref 0x103 1 2 1 ++ [0])
def cvtD (func fo : Nat) (q : Bytes) : Bytes :=
  desc 0x1B 3 0 fo (tref 0x100 1 2 1 ++ zeros 8 ++ tref 0x102 1 2 1 ++ [BitVec.ofNat 8 func] ++ zeros 7 ++ q)
def reduceD : Bytes := desc 0x20 3 0 3 (tref 0x100 1 2 1 ++ tref 0x102 1 1 1 ++ [0, 0])
def matmulD (op : Nat) (conv : Bytes) : Bytes :=
  desc op 1 1 3 (tref 0x100 1 32 1 ++ tref 0x102 1 16 1 ++ toLe 4 9 ++ [7, 8, 0, 0] ++ zeros 8 ++ conv)
def set9 (s : State) : State :=
  { s with load := { s.load with weights := [{ wsetId := 9, addr := 0x1A000000, len := 8192, digest := zeros 48 }] } }

theorem witness_MathDescriptorsComplete :
    (∀ f ∈ [0, 7], issuesB (stand (binD 3 3 f 0) []) 17 1 0x18 binRun inst0 = true) ∧ binDomain 3 3 7 ≠ .free ∧
    issuesB (stand (binD 11 3 0 0) []) 17 1 0x18 binRun inst0 = true ∧ binDomain 11 3 0 = .free ∧
    (∀ f ∈ [0, 12], issuesB (stand (unD 3 f) []) 17 1 0x19 unRun inst0 = true) ∧ unDomain 3 12 ≠ .free ∧
    issuesB (stand (unD 11 12) []) 17 1 0x19 unRun inst0 = true ∧ unDomain 11 12 = .free ∧
    issuesB (stand normD []) 17 1 0x1A normRun inst0 = true ∧
    issuesB (stand (cvtD 0 8 []) []) 17 1 0x1B cvtRun inst0 = true ∧ isRequant (cvtD 0 8 []) = false ∧
    issuesB (stand (cvtD 1 1 (tref 0x2FFF 1 2 1)) []) 17 1 0x1B cvtRun inst0 = true ∧ isRequant (cvtD 1 1 []) = true ∧
    issuesB (stand reduceD []) 17 1 0x20 reduceRun inst0 = true := by decide +kernel
theorem witness_Matmul :
    issuesB (set9 (stand (matmulD 0x10 []) [])) 17 1 0x10 matmulRun inst0 = true ∧
    issuesB (set9 (stand (matmulD 0x11 (toLe 2 1 ++ toLe 2 1 ++ [1, 1, 1, 1, 0, 0, 1, 1])) [])) 17 1 0x11 matmulRun inst0 = true ∧
    (let e : StreamRun := { wset := 9, chunkFirst := 0, chunkCount := 2, slotFirst := 7, slotCount := 1, passes := 1 }
     let i := { inst0 with stream := [e], streamPos := 1 }
     let s := set9 (working cycling i)
     s.boot.inReset = false ∧ instOf s 17 1 = some i ∧ busUser s 17 1 = some i ∧ chunkTurn s i = true ∧ nextChunk i = some (e, 1, 7) ∧
       s.load.weights.find? (fun w => decide (w.wsetId = 9)) = some { wsetId := 9, addr := 0x1A000000, len := 8192, digest := zeros 48 } ∧
       badRead s (0x1A000000 + 4096) 4096 = false ∧ sharers s 1 9 1 = [i] ∧ instOf s 17 0 = none ∧ i.mm = none ∧
       mapWf (fun _ => false) s.disp.full = true ∧ 4096 * 2 ≤ 8192 ∧ 8191 < 4096 * 2) := by decide +kernel
theorem test_add_saturates : (match exec (.vectBin 17 1) (stand (binD 3 3 0 0) [(0x4000, toLe 4 0x7FFFFFFF ++ toLe 4 5), (0x4040, toLe 4 1 ++ toLe 4 0xFFFFFFFE)]) with
    | .next t => (fieldAt (tileRead t 17 0x4080 8) 0 4, fieldAt (tileRead t 17 0x4080 8) 4 4) | _ => (0, 0)) = (0x7FFFFFFF, 3) := by decide +kernel
theorem test_reduce_sum : (match exec (.reduce 17 1) (stand reduceD [(0x4000, toLe 4 40 ++ toLe 4 0xFFFFFFFF)]) with
    | .next t => fieldAt (tileRead t 17 0x4080 4) 0 4 | _ => 0) = 39 := by decide +kernel

/-! ### SEL and GENPRIM -/

def topkD (p : Nat) (in1 : Bytes) : Bytes :=
  desc 0x38 0 0 0 (tref 0x100 1 4 1 ++ in1 ++ tref 0x102 1 48 1 ++ [2, 1, 1, 0] ++ toLe 4 p)
def mergeD (k : Nat) : Bytes := desc 0x39 0 0 0 (tref 0x100 2 48 1 ++ zeros 8 ++ tref 0x102 1 48 1 ++ [BitVec.ofNat 8 k, 1, 1, 0])
def knnD : Bytes := desc 0x3A 0 0 0 (tref 0x100 1 16 1 ++ tref 0x101 1 16 1 ++ tref 0x102 1 32 1 ++ [1, 0, 0, 0])
/-- A list of one entry, of signed keys, largest first. -/
def list1 (key id : Nat) : Bytes := [1, 2, 0x0C, 0] ++ zeros 4 ++ toLe 8 1 ++ toLe 4 key ++ toLe 4 id ++ zeros 8

def f32one : Bytes := toLe 4 0x3F800000
/-- A profile whose positive fields are 1. -/
def profile1 : Bytes := zeros 8 ++ f32one ++ zeros 4 ++ f32one ++ f32one ++ f32one ++ zeros 4 ++ f32one ++ f32one ++ f32one ++ f32one
/-- A library row of one request of one 5 ms step. -/
def lib1 : Bytes := zeros 16 ++ [1, 0]
def genprimD : Bytes :=
  desc 0x28 0 0 0 (toLe 4 0x200 ++ toLe 4 0x208 ++ tref 0x20A 1 32 1 ++ tref 0x210 1 96 2 ++ [1, 0, 1, 0] ++ zeros 4 ++ zeros 8)

theorem witness_SelectAndGenprimComplete :
    issuesB (stand (topkD (2 ^ 32 - 4) (zeros 8)) []) 17 1 0x38 topkRun inst0 = true ∧
    issuesB (stand (topkD 0 (tref 0x101 1 4 1)) []) 17 1 0x38 topkRun inst0 = true ∧
    seParam (topkD (2 ^ 32 - 4) (zeros 8)) + (seIn0 (topkD 0 (zeros 8))).cols ≤ 2 ^ 32 ∧ (seIn1 (topkD 0 (zeros 8))).rows = 0 ∧
    (let s := stand (mergeD 2) [(0x4000, list1 5 1), (0x4040, list1 9 2)]
     issuesB s 17 1 0x39 mergeRun inst0 = true ∧ (seIn1 (mergeD 2)).rows = 0 ∧ seParam (mergeD 2) = 0 ∧
       ((List.range 2).map (readRowBytes s 17 fmtByte (seIn0 (mergeD 2)))).all (listOk (mergeD 2)) = true) ∧
    issuesB (stand knnD []) 17 1 0x3A knnRun inst0 = true ∧ (seIn0 knnD).cols = 16 ∧ (seIn1 knnD).cols = 16 ∧
    (let s := stand genprimD [(0x8000, profile1), (0x8280, lib1)]
     issuesB s 17 1 0x28 genprimRun inst0 = true ∧ profileGuarded (gpProfile s inst0 genprimD) = true ∧
       stateFinite (tileRead s 17 (64 * gpStateLine genprimD) 64) = true) := by decide +kernel
/-- Where each is unguarded: indices past 2^32, a second operand or a parameter of MERGE, points of no common dimension, a
profile without limits; a start state that is not finite. -/
theorem witness_Select_unguarded :
    issuesB (stand (topkD (2 ^ 32 - 3) (zeros 8)) []) 17 1 0x38 topkRun inst0 = true ∧
    2 ^ 32 < seParam (topkD (2 ^ 32 - 3) (zeros 8)) + (seIn0 (topkD (2 ^ 32 - 3) (zeros 8))).cols ∧
    (let s := stand (mergeD 2) []
     issuesB s 17 1 0x39 mergeRun inst0 = true ∧
       ((List.range 2).map (readRowBytes s 17 fmtByte (seIn0 (mergeD 2)))).all (listOk (mergeD 2)) = false) ∧
    (let d := desc 0x3A 0 0 0 (tref 0x100 1 17 2 ++ tref 0x102 1 17 2 ++ tref 0x104 1 32 1 ++ [1, 0, 0, 0])
     issuesB (stand d []) 17 1 0x3A knnRun inst0 = true ∧ 16 < (seIn0 d).cols) ∧
    (let s := stand genprimD [(0x8280, lib1)]
     issuesB s 17 1 0x28 genprimRun inst0 = true ∧ profileGuarded (gpProfile s inst0 genprimD) = false) ∧
    (let s := stand genprimD [(0x8000, profile1), (0x8280, lib1), (0x8200, List.replicate 64 0xFF)]
     issuesB s 17 1 0x28 genprimRun inst0 = true ∧ profileGuarded (gpProfile s inst0 genprimD) = true ∧
       stateFinite (tileRead s 17 (64 * gpStateLine genprimD) 64) = false) := by decide +kernel
theorem test_merge_orders : (match exec (.topkMerge 17 1) (stand (mergeD 2) [(0x4000, list1 5 1), (0x4040, list1 9 2)]) with
    | .next t => (fieldAt (tileRead t 17 0x4080 48) 0x10 4, fieldAt (tileRead t 17 0x4080 48) 0x20 4) | _ => (0, 0)) = (9, 5) := by decide +kernel
theorem test_topk : (match exec (.topk 17 1) (stand (topkD 0 (zeros 8)) [(0x4000, toLe 4 3 ++ toLe 4 0xFFFFFFFF ++ toLe 4 8 ++ toLe 4 3)]) with
    | .next t => (fieldAt (tileRead t 17 0x4080 48) 0x10 8, fieldAt (tileRead t 17 0x4080 48) 0x20 8) | _ => (0, 0))
      = (8 + 2 * 2 ^ 32, 3) := by decide +kernel

/-! ### SWEEP and SOLVE -/

def sweepD : Bytes := desc 0x30 0 0 0 (tref 0x20A 1 96 2 ++ tref 0x210 1 24 1 ++ toLe 4 0x200 ++ [0, 0, 15, 0, 1, 0])
def sweepMem : List (Nat × Bytes) := [(0x8000, profile1), (0x8280, [0, 0, 0, 0, 1])]
def sweepRun1 : SweepRun :=
  { index := 0, epoch := 0, ownHold := false, pairs := [], taken := [(0, 0)], started := 0, acked := 0, waiting := true, cutTaken := false,
    hits := [], opened := [] }
theorem witness_SweepsComplete :
    (let s := stand sweepD sweepMem
     issuesB s 17 1 0x30 sweepRun inst0 = true ∧ inReplay s = false ∧ swNewest sweepD = false ∧
       profileGuarded (swProfile s 17 sweepD) = true ∧ inst0.task.phase ≠ 4) ∧
    (let i := { inst0 with pc := 1, inflight := [(0, 3)], sweeps := [sweepRun1] }
     let s := working (stand sweepD sweepMem) i
     s.boot.inReset = false ∧ instOf s 17 1 = some i ∧ i.finished = false ∧ sweepOf i = some sweepRun1 ∧
       (pairLines s i (descBytes s i 0) 0 0 0).any (fun l => decide ((17, l) ∈ s.world.filling)) = false ∧ i.cut = false) ∧
    (17, 5) ∈ ({ cycling.world with filling := [(17, 5)] }).filling := by decide +kernel

/-- A SWEEP of a CHECK instance that the cut has reached, of which no copy has come further; one whose profile has no limits. -/
theorem witness_Sweeps_cut :
    (let i := { inst0 with task := { inst0.task with phase := 4 }, pc := 1, inflight := [(0, 3)], sweeps := [sweepRun1], cut := true }
     let s := working (stand sweepD sweepMem) i
     instOf s 17 1 = some i ∧ i.finished = false ∧ sweepOf i = some sweepRun1 ∧ inReplay s = false ∧ i.task.phase = 4 ∧
       ackOf s i 0 ≤ sweepRun1.started ∧ sweepRun1.waiting = true) ∧
    (let s := stand sweepD (sweepMem.drop 1)
     issuesB s 17 1 0x30 sweepRun inst0 = true ∧ profileGuarded (swProfile s 17 sweepD) = false) := by decide +kernel

def schedule : Bytes :=
  toLe 4 0x4843534B ++ toLe 4 192 ++ zeros 4 ++ [0, 1, 1, 1] ++ toLe 2 0 ++ toLe 2 1 ++ toLe 2 1 ++ toLe 2 1 ++ zeros 8
    ++ [2, 0, 3, 0, 4, 0, 5, 0, 6, 0] ++ toLe 2 8 ++ toLe 4 128 ++ toLe 4 132 ++ zeros 44 ++ toLe 2 1 ++ zeros 30 ++ [0, 0, 0xFF, 0xFF]
def solveD (op : Nat) : Bytes := desc op 0 0 0 (toLe 4 0x300 ++ [0, 0, 0, 0] ++ tref 0x310 8 64 1 ++ tref 0x320 2 1 1)
def solving (op status flags : Nat) : State :=
  stand (solveD op) [(0xC000, schedule), (0xC400, [BitVec.ofNat 8 status, 0, 0, 0, BitVec.ofNat 8 flags])]
theorem witness_SolvesComplete :
    (∀ x ∈ [(0x40, 0), (0x41, 1), (0x42, 2), (0x43, 3)], ∀ c ∈ [(1, 0), (2, 0), (9, 0)],
      let s := solving x.1 c.1 c.2
      issuesB s 17 1 x.1 (solveRun x.2) inst0 = true ∧ solveGuarded (solveOf s 17 (solveD x.1)) (solveD x.1) x.2 = true ∧
        (ctrlOf s (solveOf s 17 (solveD x.1))).status = c.1 ∧ inReplay s = false) ∧
    inst0.task.safe = false ∧ inst0.cut = false ∧
    (let s := solving 0x40 1 2
     let q := solveOf s 17 (solveD 0x40)
     let u := setInst (issued s 17 (solveRun 0) inst0) (issuedInst s (solveRun 0) inst0)
     (ctrlOf s q).status = 1 ∧ bitOf (ctrlOf s q).flags 1 = true ∧
       (assembleSteps (devScramble u (tileBase q.tile + (q.base + 64)) 64) q (stepsOf q 0 (solveD 0x40))).isSome = true) := by
  decide +kernel

/-- A CTRL status above 9, one FRESH outside UPDATE, a bad schedule; a REFINE instance that the cut has reached. -/
theorem witness_Solves_stops :
    issuesB (solving 0x41 10 0) 17 1 0x41 (solveRun 1) inst0 = true ∧
    9 < (ctrlOf (solving 0x41 10 0) (solveOf (solving 0x41 10 0) 17 (solveD 0x41))).status ∧
    issuesB (solving 0x41 0 0) 17 1 0x41 (solveRun 1) inst0 = true ∧
    (ctrlOf (solving 0x41 0 0) (solveOf (solving 0x41 0 0) 17 (solveD 0x41))).status = 0 ∧
    (let s := stand (solveD 0x43) []
     issuesB s 17 1 0x43 (solveRun 3) inst0 = true ∧ solveGuarded (solveOf s 17 (solveD 0x43)) (solveD 0x43) 3 = false) ∧
    (let i := { inst0 with task := { inst0.task with phase := 7 }, cut := true }
     let s := working (solving 0x43 1 0) i
     issuesB s 17 1 0x43 (solveRun 3) i = true ∧ solveCutReached s i (solveOf s 17 (solveD 0x43)) = true) ∧
    solveCutReached (solving 0x43 1 0) inst0 (solveOf (solving 0x43 1 0) 17 (solveD 0x43)) = false := by decide +kernel

/-! ### EMIT and completion -/

def emitD (flow seq : Nat) : Bytes := desc 0x58 0 0 0 (toLe 2 flow ++ [0, 0] ++ toLe 4 seq ++ tref 0x100 1 64 1)
def flow7 (items : List Nat) : Flow := { Flow.reset 7 with nextSeq := 10, items := items.map fun n => { seq := BitVec.ofNat 32 n, phase := 2, owner := (5, 0, 0), bytes := [] } }
def withFlow (s : State) (items : List Nat) : State := { s with flows := [flow7 items] }
theorem witness_EmitAndCompletion :
    (∀ n ∈ [10, 265, 266, 9, 2 ^ 31 + 9], issuesB (withFlow (stand (emitD 7 n) []) []) 17 1 0x58 emitRun inst0 = true) ∧ isSink 7 = false ∧
    (∀ x ∈ [(265, 255), (266, 256), (9, 2 ^ 32 - 1), (2 ^ 31 + 9, 2 ^ 31 - 1)],
      (BitVec.ofNat 32 x.1 - (flowOf (withFlow cycling []) 7).nextSeq).toNat = x.2) ∧
    (flowOf (withFlow cycling [265]) 7).items.any (fun p => p.seq.toNat = 265) = true ∧
    (let i := { inst0 with copy := 1, task := { inst0.task with safe := true } }
     let s := working (stand (emitD 0xFFF0 0) []) i
     issuesB s 17 1 0x58 emitRun i = true ∧ isSink 0xFFF0 = true) ∧
    (let i := { inst0 with pc := 1, inflight := [(0, 0)] }
     let s := working (stand copyD []) i
     s.boot.inReset = false ∧ instOf s 17 1 = some i ∧ i.finished = false ∧ i.inflight.any (·.1 = 0) = true ∧ workDone s i 0 = true ∧
       0 ∉ i.stalled) ∧
    (let r : SolveRun := { index := 0, iter := 1, status := 2, writes := [] }
     let i := { inst0 with pc := 1, inflight := [(0, 5)], solve := some r }
     let s := working (solving 0x43 1 0) i
     s.boot.inReset = false ∧ instOf s 17 1 = some i ∧ i.finished = false ∧ i.solve = some r ∧ i.cut = false) := by decide +kernel
/-- A stalled EMIT whose retry still waits, and one that is served; a report that the cut has passed. -/
theorem witness_Emit_retries :
    (let i := { inst0 with pc := 1, inflight := [(0, 8)], stalled := [0] }
     (∀ n ∈ [10, 266], let s := working (withFlow (stand (emitD 7 n) []) []) i
       instOf s 17 1 = some i ∧ i.inflight.any (·.1 = 0) = true ∧ workDone s i 0 = true ∧
         (retryStalled s i (descBytes s i 0) 0).isSome = decide (n = 10))) ∧
    (let r : SolveRun := { index := 0, iter := 1, status := 1, writes := [] }
     let i := { inst0 with task := { inst0.task with phase := 7 }, pc := 1, inflight := [(0, 5)], solve := some r, cut := true }
     let s := working (solving 0x43 1 0) i
     instOf s 17 1 = some i ∧ inReplay s = false ∧ i.solve = some r ∧
       reportKey (targetOf s i (workOf i (solveOf s 17 (descBytes s i 0)))) < reportKey (1, 1)) := by decide +kernel
theorem test_emit_waits : (match exec (.emit 17 1) (withFlow (stand (emitD 7 266) []) []) with
    | .next t => ((flowOf t 7).items.length, (instOf t 17 1).map (·.stalled)) | _ => (9, none)) = (0, some [0]) := by decide +kernel

/-! ### Flows, the release request, Latigo -/

/-- The flow of `image0`, its next item at SEQ 10 in hand; and one whose two slots are both used. -/
def flowItem (seq : Word) (bs : Bytes) : FlowItem := { seq := seq, phase := 2, owner := (5, 0, 0), bytes := bs }
def flowing (f : Nat) (item : Bytes) : State :=
  { cycling with flows := [{ Flow.reset f with nextSeq := 10, items := [flowItem 11 [], flowItem 10 item] }] }
def flowCfg7 : FlowCfg := { flowId := 7, consTile := 1, consCounter := 3, itemMax := 64, consSlots := 2, ringOffset := 0 }
def stopItem : Bytes := [1, 0, 0, 0] ++ zeros 28
def collItem0 : Bytes := [1, 0] ++ toLe 2 7 ++ zeros 12 ++ toLe 8 0x11000000 ++ toLe 2 0 ++ [255, 31] ++ toLe 2 10 ++ [0, 0]
def worldItem : Bytes := toLe 8 0x1A000000 ++ toLe 4 48 ++ zeros 4

theorem witness_FlowsReleaseInOrder :
    (∀ f ∈ [7, 0xFFF0, 0xFFF1, 0xFFF2], (flowing f []).boot.inReset = false ∧ (flowOf (flowing f []) f).blocked = false ∧
      (nextItem (flowOf (flowing f []) f)).map (fun x => (x.1.seq, x.2.length)) = some (10, 1)) := by decide +kernel
theorem witness_Rings_release : isSink 7 = false ∧ flowCfg (flowing 7 []) 7 = some flowCfg7 ∧ ringOk flowCfg7 = true ∧
    ringRoom (flowing 7 []) flowCfg7 (flowOf (flowing 7 []) 7) = true ∧
    (let s := { cycling with flows := [{ Flow.reset 7 with nextSeq := 10, items := [flowItem 10 []], released := 2 }] }
     nextItem (flowOf s 7) = some (flowItem 10 [], []) ∧ ringRoom s flowCfg7 (flowOf s 7) = false) ∧
    (let s := { atAo cycling 26 with flows := [{ Flow.reset 7 with blocked := true }] }
     (flowOf s 7).blocked = true ∧ (flowOf s 7).room + 26 = s.ao) := by decide +kernel
theorem witness_Sinks_release : taskItemOk (flowing 0xFFF0 worldItem) worldItem = true ∧
    (withCyc (flowing 0xFFF1 stopItem) fun c => { c with planSeen := true }).cyc.planSeen = true ∧
    (flowing 0xFFF1 stopItem).cyc.planSeen = false ∧ planItemOk stopItem = true ∧
    collItemOk (flowing 0xFFF2 collItem0) collItem0 = true ∧ (flowing 0xFFF2 collItem0).links.early = [] ∧
    (issueColl (flowing 0xFFF2 collItem0) collItem0).toBool = true := by decide +kernel
theorem test_flow_release : (match exec (.flowRelease 7) (flowing 7 [0xAB]) with
    | .next t => (tokenOf t 1 3, (flowOf t 7).nextSeq, (flowOf t 7).released, fieldAt (devRead t 0x11000040 8) 0 6, memGet t.mem 0x11000080)
    | _ => (0, 0, 0, 0, 0)) = (1, 11, 1, 10 + 2 ^ 32, 0xAB) := by decide +kernel

/-- A world item past the end of GDDR6. -/
theorem witness_Sinks_unguarded : taskItemOk (flowing 0xFFF0 []) (toLe 8 0xFFFFFFFFFFC0 ++ toLe 4 48 ++ zeros 4) = false := by decide +kernel

def granting (item : ItemState) (n : Nat) : State := atAo (withCyc cycling fun c => { c with item := item }) n
def safeEntry : StitchEntry := { seq := 0, taskId := 5, batch := 0, phase := 9, first := none }
theorem witness_ReleaseRequestsAreJudged :
    (let s := granting (.admitted (zeros 64)) 994999
     s.boot.inReset = false ∧ s.cyc.inCycle = true ∧ s.cyc.item = .admitted (zeros 64) ∧ grantable s = true ∧ stitchOpen s = false ∧
       s.safety.safe = false ∧ s.cyc.dev = .running ∧
       stitchOpen { s with safety := { s.safety with stitch := [safeEntry] } } = true) ∧
    (let s := { granting (.admitted (zeros 64)) 0 with safety := latched.safety }
     grantable s = true ∧ stitchOpen s = false ∧ s.safety.safe = true) ∧
    (let s := granting (.admitted (zeros 64)) 995000
     grantable s = false ∧ latigoEnded s = false ∧ inTime s = false) ∧
    (∀ p ∈ [9, 10], let s := { granting (.admitted (zeros 64)) 0 with safety := { cycling.safety with stitch := [{ safeEntry with phase := p }] } }
      inTime s = true ∧ stitchOpen s = decide (p = 9) ∧ mayMismatch s = decide (p = 10)) ∧
    mayMismatch (granting (.admitted (zeros 64)) 994999) = false := by decide +kernel
theorem test_release_at_the_deadline : (match exec .releaseRequest (granting (.admitted (zeros 64)) 995000) with
    | .next t => (t.cyc.record.isSome, t.cyc.item) | _ => (true, .none)) = (false, .refused) := by decide +kernel

/-- Latigo runs in STOP from a zero state, any verdict accepted. -/
def fleeing (st : Option Bytes) : State :=
  withCyc (devWrite { cycling with lat := { cycling.lat with running := true, runStop := true, copies := [127, 255], state := st } } profileBase profile1)
    fun c => { c with item := .refused, params := { c.params with recheckAccept := 255, minClear := 0 } }
/-- A copy that waits for its island; a state but no profile. -/
theorem witness_Latigo_waits : copiesRun { fleeing none with lat := { (fleeing none).lat with copies := [127] } } = false ∧
    (let s := { fleeing (some (zeros 64)) with mem := [] }
     copiesRun s = true ∧ latigoGuarded s = false) := by decide +kernel
theorem latigoPasses_all (cl : Nat) (c : Bytes) : latigoPasses (fleeing (some (zeros 64))) cl c = true := by
  have h : (fleeing (some (zeros 64))).cyc.params.recheckAccept = 255 ∧ (fleeing (some (zeros 64))).cyc.params.minClear = 0 := by
    decide +kernel
  have g : ∀ l : Bytes, leNat (l.take 1) ≤ 255 := by
    intro l
    cases l with
    | nil => decide
    | cons b t => simp only [List.take_succ_cons, List.take_zero, leNat]; have := b.isLt; omega
  unfold latigoPasses
  rw [h.1, h.2]
  simp only [fieldAt, sliceOf, Nat.zero_le, decide_true, Bool.and_true, g]
theorem witness_LatigoCompletes :
    (∀ st ∈ [none, some (zeros 64)], let s := fleeing st
      s.boot.inReset = false ∧ inReplay s = false ∧ s.lat.running = true ∧ latigoGuarded s = true ∧ s.cyc.item = .refused ∧
        s.cyc.inCycle = true ∧ s.cyc.record = none ∧ s.safety.safe = false ∧ s.cyc.dev = .running ∧ s.lat.failed = false ∧ s.rep = none ∧ copiesRun s = true ∧
        s.cyc.deadlineDone = false) ∧
    (∀ t, planOf (fleeing none) t = (none, false)) ∧
    (withCyc (fleeing none) fun c => { c with record := some record0 }).cyc.record.isSome = true :=
  ⟨by decide +kernel, fun t => by unfold planOf; rfl, rfl⟩
theorem witness_Latigo_has_a_plan (t u : Nat) : planOf (fleeing (some (zeros 64))) t = planOf (fleeing (some (zeros 64))) u ∧
    ∃ traj, (planOf (fleeing (some (zeros 64))) t).1 = some traj := by
  have h : (fleeing (some (zeros 64))).lat.state = some (zeros 64) ∧ stateFinite (zeros 64) = true ∧
      (fleeing (some (zeros 64))).lat.runStop = true := by decide +kernel
  have f : ∀ cl, (latigoPasses (fleeing (some (zeros 64))) cl) = fun _ => true := fun cl => funext (latigoPasses_all cl)
  unfold planOf
  simp only [h.1, h.2.1, if_true, latigoPlan, h.2.2, f, Option.filter, stopSteers, List.map, List.find?]
  exact ⟨trivial, _, rfl⟩

/-! ### The vehicle link, the field port, Stitch, Rein -/

def stopping (regs : List (Nat × Word)) (filt : Bool) : State :=
  { ready with regs := regs, outp := { ready.outp with stopFilt := filt } }
theorem witness_VehicleLinkAndFieldPort :
    (let s := { ready with outp := { ready.outp with txq := [default], linkUp := true } }
     s.boot.inReset = false ∧ s.outp.txq = [default] ∧ s.outp.linkUp = true) ∧
    fieldBe (zeros 64) 12 2 ≠ 0x88F7 ∧
    (let s := { atAo ready 50000 with outp := { ready.outp with toggling := true } }
     s.outp.toggling = true ∧ s.outp.toggleAt + 50000 = s.ao) ∧ ready.safety.staging.length < 32 ∧ ready.safety.safe = false ∧
    (stopping [(0x6040, 0)] false).outp.stopFilt = false ∧ bitOf (regNat (stopping [(0x6040, 0)] false) 0x6040) 31 = false ∧
    bitOf (regNat (stopping [] false) 0x6040) 31 = true ∧ (stopping [] true).outp.stopFilt = true := by decide +kernel
theorem witness_Stop_inv : Inv (stopping [] false) := ⟨by decide +kernel, by decide +kernel, by decide +kernel⟩
theorem test_stop_adds_its_cause : (match exec .stopInputActive { stopping [] false with safety := latched.safety } with
    | .next t => (t.safety.safe, t.safety.cause, t.safety.present) | _ => (false, 0, 0)) = (true, 0xC0, 0x80) := by decide +kernel

def sig (status len : Nat) : SigRec := { taskId := 5, batch := 0, tile := 0, copy := 0, status := status, len := len, seq := 0, crc := 7 }
def signing (first : Option (Option SigRec)) (r : SigRec) : State :=
  { cycling with safety := { cycling.safety with sigQ := [(0, sig 0 9), (15, r)],
                                                 stitch := match first with | some f => [{ safeEntry with first := f }] | none => [] } }
/-- No entry; an entry without its first record; each pair of the statement's cases. -/
theorem witness_SignaturesAndReinComplete :
    (∀ f ∈ [none, some none, some (some (sig 0 4)), some (some (sig 3 4)), some (some (sig 4 4))],
      let s := signing f (sig 0 4)
      s.boot.inReset = false ∧ s.safety.sigQ.findIdx? (fun p => decide (p.1 = 15)) = some 1 ∧ s.safety.sigQ[1]? = some (15, sig 0 4) ∧
        s.safety.stitch.find? (fun e => decide (e.seq = (sig 0 4).seq ∧ e.taskId = (sig 0 4).taskId ∧ e.batch = (sig 0 4).batch)) =
          f.map fun x => { safeEntry with first := x }) ∧
    (sig 0 4).len = (sig 0 4).len ∧ (sig 0 4).crc = (sig 0 4).crc ∧ (sig 0 4).len ≠ (sig 0 5).len ∧
    (let i := { inst0 with acc := 1000 }
     let s := working cycling i
     instOf s 17 1 = some i ∧ i.finished = false ∧ 10 * i.task.reinBudget = i.acc ∧ 0 < i.acc) ∧
    (let i := { inst0 with acc := 1000 + tileRate cycling 17, finished := true }
     let s := working cycling i
     instOf s 17 1 = some i ∧ i.finished = true ∧ 10 * i.task.reinBudget + tileRate s 17 = i.acc) ∧
    (let s := { cycling with lat := { cycling.lat with running := true, copies := [127] } }
     instOf s 127 1 = none ∧ 127 ∈ s.lat.copies) := by decide +kernel
theorem test_signatures_match : (match exec (.signatureRecord 15) (signing (some (some (sig 0 4))) (sig 0 4)) with
    | .next t => (regOf t offStitchPairs, t.safety.stitch.length, t.safety.sigQ.length) | _ => (0, 9, 9)) = (1, 0, 1) := by decide +kernel
theorem test_signatures_differ : (match exec (.signatureRecord 15) (signing (some (some (sig 0 4))) (sig 0 5)) with
    | .next t => (regOf t offStitchMismatch, t.cyc.stitchRefuse) | _ => (0, false)) = (1, true) := by decide +kernel

/-! ### World -/

/-- A batch without operations, and one whose header is bad. -/
def emptyBatch : Bytes := zeros 32
def batch (bs : Bytes) (host : Bool) : Batch := { host := host, bytes := bs, digest := zeros 48, msg := none, coll := none, held := false, since := 0, phase := 0, owner := none }
def worldly (f : World → World) : State := { cycling with world := f cycling.world }
def epochA : Epoch := { num := 0, root := 0, origin := [0, 0, 0], t0 := 0, chain := zeros 48, holds := 0, superseded := [], tl := false }
def builtA : Built := { batch := batch emptyBatch true, epoch := epochA, slots := [], source := 0xFFFF }
theorem witness_WorldCommandsComplete :
    (let b := batch emptyBatch true
     let s := worldly fun w => { w with hostQ := [b] }
     s.boot.inReset = false ∧ nextBatch s = some b ∧ b.host = true ∧ stagedSize s + b.bytes.length ≤ 0x1000000) ∧
    (let b := batch worldItem false
     let s := worldly fun w => { w with taskQ := [b] }
     nextBatch s = some b ∧ badRead s (fieldAt b.bytes 0 8) (fieldAt b.bytes 8 4) = false ∧
       stagedSize s + fieldAt b.bytes 8 4 ≤ 0x1000000) ∧
    (let b := batch worldItem false
     let s := { (worldly fun w => { w with taskQ := [b] }) with plat := { cycling.plat with badWords := [0x1A000000] } }
     nextBatch s = some b ∧ badRead s (fieldAt b.bytes 0 8) (fieldAt b.bytes 8 4) = true ∧ stagedSize s ≤ 0x1000000) ∧
    (∀ bs ∈ [emptyBatch, [3] ++ zeros 31], let b := batch bs true
      let s := worldly fun w => { w with staged := [b] }
      applyNext s = some b ∧ s.world.built = none) ∧
    batchOk emptyBatch = true ∧ batchOk ([3] ++ zeros 31) = false ∧
    (let s := worldly fun w => { w with staged := [batch emptyBatch true] }
     (storeTree s (applyBatchTo (loadTree s (newestEpoch s)) emptyBatch)).isSome = true) ∧
    (let s := worldly fun w => { w with staged := [batch emptyBatch true], nextSlot := 524288, freed := [] }
     (storeTree s (applyBatchTo (loadTree s (newestEpoch s)) emptyBatch)).isSome = false) ∧
    (let s := worldly fun w => { w with built := some builtA }
     s.world.built = some builtA ∧ (freeEntry s).isSome = true ∧
       s.world.table.any (fun p => decide (p.2.num = nextEpochNum s.world.newest)) = false) ∧
    (let s := worldly fun w => { w with badSlots := [(15, 524287)] }
     (15, 524287) ∈ s.world.badSlots ∧ (15 ^^^ 1, 524287) ∉ s.world.badSlots) := by decide +kernel
theorem test_publish_advances : (match exec .epochPublish (worldly fun w => { w with built := some builtA }) with
    | .next t => (t.world.newest, t.world.built.isSome) | _ => (0, true)) = (cycling.world.newest + 1, false) := by decide +kernel

/-! ### Linked packages -/

/-- Package 1 of two, both ports enabled and up. -/
def linked : State :=
  { cycling with regs := [(0x7000, 0x12340C21)], links := { cycling.links with up := 3 } }
def linkFrame (cyc src dst : Nat) : Bytes :=
  let h := collHeader 1 7 cyc src dst 1 0 0 0 0
  let body := List.replicate 12 0xFF ++ toBe 2 0x1234 ++ h (crc32c ((h 0).take 28))
  body ++ etherFcs body
def coll7 : Coll := { collItem cycling collItem0 with startAo := 0 }
theorem witness_CollectivesComplete :
    linked.boot.inReset = false ∧ portUp linked 0 = true ∧ portUp linked 1 = true ∧ collFrameOk linked (zeros 60) = false ∧
    (∀ x ∈ [(9, 0, 0xFF), (0, 0, 0xFF), (0, 0, 3)], collFrameOk linked (linkFrame x.1 x.2.1 x.2.2) = true) ∧
    fieldBe (linkFrame 9 0 0xFF) 18 4 ≠ linked.cyc.seq.toNat ∧ fieldBe (linkFrame 0 0 0xFF) 18 4 = linked.cyc.seq.toNat ∧
    forMe linked (linkFrame 0 0 3) = false ∧ forMe linked (linkFrame 0 0 0xFF) = true ∧
    collOf linked (fieldBe (linkFrame 0 0 0xFF) 16 2) = none ∧
    (let s := { atAo linked 1000 with links := { linked.links with colls := [coll7] } }
     collOf s (fieldBe (linkFrame 0 0 0xFF) 16 2) = some coll7 ∧ fieldBe (linkFrame 0 0 0xFF) 15 1 = coll7.kind ∧
       partFits coll7 (linkFrame 0 0 0xFF) = true ∧ collOf s 7 = some coll7 ∧ coll7.ended = false ∧ coll7.submitted = false ∧
       coll7.startAo + 100 * coll7.timeout = s.ao) := by decide +kernel
theorem witness_Coll_inv : Inv { atAo linked 1000 with links := { linked.links with colls := [coll7] } } :=
  ⟨by decide +kernel, by decide +kernel, by decide +kernel⟩
theorem test_stale_frame : (match exec (.collFrameRx 1 (linkFrame 9 0 0xFF)) linked with
    | .next t => (regOf t 0x7020, regOf t 0x7024, regOf t 0x7030) | _ => (0, 0, 0)) = (0, 1, 1) := by decide +kernel

/-! ### Faults and the log -/

def stage1 (source : Nat) : Staging := { source := source, code := 1, stamp := 0, data := zeros 40, count := 1, folded := false }
def staged (n source : Nat) : State := { ready with safety := { ready.safety with staging := List.replicate n (stage1 source) } }
/-- 31 and 32 entries staged; the newest of a source there, and none of it. -/
theorem witness_FaultsAndLogComplete :
    (∀ c ∈ [(0, 0), (0, 22), (271, 6), (256, 13)], sourceFits ready c.1 c.2 [] = true) ∧ ready.boot.inReset = false ∧
    (staged 31 5).safety.staging.length < 32 ∧ 32 ≤ (staged 32 5).safety.staging.length ∧
    (let y := (staged 32 5).safety
     givesWay y (stage1 4) = some (stage1 5) ∧ givesWay y (stage1 5) = none ∧ givesWay y (stage1 6) = none ∧
       (foldNewest (stage1 5) y.staging).isSome = true ∧ foldNewest (stage1 6) y.staging = none) ∧
    (∀ c ∈ [16, 18, 19, 20], sourceFits ready 0 c [1] = true) ∧
    (staged 1 5).safety.staging = [stage1 5] ∧ (staged 1 5).safety.drainAt ≠ some (staged 1 5).ao ∧
    ({ ready.safety with drainAt := some 7 }).drainAt = some 7 ∧ bitOf 3 2 = false ∧ bitOf 4 2 = true ∧
    (∀ n ∈ [63, 64], ({ ready.safety with handshake := List.replicate n (stage1 5) }).handshake.length = n) ∧
    ({ ready.safety with handshake := [stage1 5] }).handshake = [stage1 5] ∧
    (∀ x ∈ [0, 18, 0x22, 0x27], mayLog ready x = true) := by decide +kernel
theorem test_full_handshake_drops : (match exec .faultDrain { staged 1 5 with
      safety := { (staged 1 5).safety with handshake := List.replicate 64 (stage1 5) } } with
    | .next t => (t.safety.handshake.length, regOf t 0x38, t.safety.tail.length) | _ => (0, 0, 0)) = (64, 1, 1) := by decide +kernel
theorem test_fault_folds : (match exec (.faultEvent 5 1 (zeros 40)) (staged 32 5) with
    | .next t => (t.safety.staging.length, (t.safety.staging.getLastD (stage1 5)).count, t.safety.foldCount) | _ => (0, 0, 0))
      = (32, 2, 1) := by decide +kernel

/-! ### Self-test -/

def testing (c k : Nat) : State := { ready with safety := { ready.safety with selfRun := some (c, k, 0) } }
theorem witness_SelfTestCommandsComplete :
    sliceMay ready = true ∧
    (let s := withCyc (atAo between 500000) fun c => c
     sliceMay { s with safety := { s.safety with selfSpec := 1, selfGap := 0 } } = true) ∧
    (∀ x ∈ [(1, 0, 0), (1, 0, 3), (4, 3, 605), (11, 0, 1)], (testing x.1 x.2.1).safety.selfRun = some (x.1, x.2.1, 0) ∧
      inSlice x.1 x.2.1 x.2.2 = true ∧ x.2.2 ∉ busyUnits (testing x.1 x.2.1) x.1 x.2.1) ∧
    ready.safety.selfBad = [] ∧ failFits ready 4 3 [605] = true ∧ failFits ready 1 0 [0, 3] = true ∧ failFits ready 1 0 [0, 0] = false ∧
    failFits ready 1 0 [4] = false ∧
    (∀ c ∈ [1, 11], let s := atAo { ready with safety := { ready.safety with selfPass := List.replicate 11 (some 0) } } 10000000
      c ∉ s.safety.selfLate ∧ s.safety.selfPass.getD (c - 1) none = some 0 ∧ 0 + 10000000 = s.ao) ∧
    (let s := { ready with plat := { ready.plat with boundaries := 1000 } }
     unitStarved s 1 0 = true ∧ unitStarved s 11 1 = true ∧ s.safety.staging.length < 32) := by decide +kernel
theorem test_slice_moves_on : (match exec (.sliceDone []) (testing 11 0) with
    | .next t => (t.safety.selfNext, t.safety.rotations, t.safety.selfRun.isSome) | _ => ((0, 0), 0, true)) =
      (ready.safety.selfNext, ready.safety.rotations + 1, false) := by decide +kernel
theorem test_not_starved_at_999 : unitStarved { ready with plat := { ready.plat with boundaries := 999 } } 1 0 = false := by decide +kernel

/-! ### Memory upkeep and spare tiles -/

def napping : State := atAo { ready with plat := { ready.plat with banks := [(64 * 255 + 45, 1)], waking := [(64 * 255 + 45, 0)] } } 8
def sparing : State :=
  { ready with plat := { ready.plat with spares := ready.plat.spares.set 15 { Spare.reset with begun := some 255 } } }
theorem witness_MemoryUpkeepAndSparesComplete :
    (let s := napping
     s.boot.inReset = false ∧ wakeDone s (64 * 255 + 45) = true ∧ bankState s (64 * 255 + 45) = 1 ∧
       mapWf (fun _ => s.plat.bankBase) s.plat.banks = true) ∧
    wakeDone (atAo napping 7) (64 * 255 + 45) = false ∧
    (∀ x ∈ [(2, 559, 0x3FFFFF), (3, 578, 0), (6, 582, 0)], scrubbed ready x.1 x.2.1 x.2.2 = true) ∧ (recentCe ready 2).length ≠ 64 ∧
    (let s := atAo { ready with plat := { ready.plat with gddrTrained := true, retrainAt := [(23, 0)] } } 10000000
     retrainDue s 23 = true ∧ retrainDue s 0 = true) ∧
    (sparing.plat.spares.getD 15 .reset).begun = some 255 ∧ 255 / 16 = 15 ∧ 15 < sparing.plat.spares.length := by decide +kernel
theorem witness_Spare_inv : Inv sparing := ⟨by decide +kernel, by decide +kernel, by decide +kernel⟩
theorem test_scrub_corrects : (match exec (.patrolScrub 2 559 8 false) ready with
    | .next t => regOf t 0x3150 | _ => 0) = 1 := by decide +kernel
theorem test_bank_wakes : (match exec (.bankWake 255 45) napping with
    | .next t => (bankState t (64 * 255 + 45), t.plat.waking.length) | _ => (9, 9)) = (0, 0) := by decide +kernel

/-! ### Boot, clock and temperature -/

def atStage (n : Nat) : State := { ready with boot := { ready.boot with stage := n } }
theorem witness_BootClockAndThermalComplete :
    (∀ n ∈ [1, 4, 6], (atStage n).boot.inReset = false ∧ (atStage n).boot.stage = n) ∧ (atStage 6).safety.selfRun = none ∧
    15 < clusterCount (atStage 6) ∧ 15 < (atStage 6).plat.spares.length ∧ ((atStage 6).plat.spares.getD 15 .reset).st = 0 ∧
    ready.plat.refclkOk = true ∧ ({ ready.plat with refclkOk := false }).refclkOk = false ∧
    ready.disp.trip = false ∧ sensorPresent ready 0 = true ∧ sensorPresent ready 19 = true ∧ 1840 ≤ (1840 : Half).toInt ∧
    allCool (List.replicate 20 1679) = true ∧ allCool (List.replicate 20 0xFFFF) = true ∧ allCool (List.replicate 20 1680) = false ∧
    ({ ready.disp with trip := true }).trip = true := by decide +kernel
theorem test_trip_slows_every_island : (match exec (.thermalTrip 19 1840) { ready with safety := latched.safety } with
    | .next t => (t.disp.trip, t.disp.islands.all fun i => decide (i.opp = 1)) | _ => (false, false)) = (true, true) := by decide +kernel
theorem test_no_trip_below : (match exec (.thermalTrip 19 1839) ready with
    | .next t => t.disp.trip | _ => true) = false := by decide +kernel

end Sys2Proof.Tests
end

section
/-! PROOFS. What work on one running task leaves alone: reports, corrections and the DMA engines keep the dispatcher's
instances and tokens. From that, what an issued descriptor finds, and that an aborted task has ended. -/

namespace Sys2Proof.Machine

/-! ### Frames of the dispatcher's state -/

/-- What one step of a fold leaves alone, the fold leaves alone. -/
theorem foldl_frame {β γ : Type} (g : State → γ) (f : State → β → State) (h : ∀ s x, g (f s x) = g s) (l : List β)
    (s : State) : g (l.foldl f s) = g s :=
  List.foldlRecOn l f (motive := fun t => g t = g s) rfl fun t ht x _ => (h t x).trans ht

@[simp] theorem ringSend_disp (s : State) (r : Nat) (minor : Byte) (opcode corr : Nat) (payload : Bytes) :
    (ringSend s r minor opcode corr payload).disp = s.disp := by
  unfold ringSend
  dsimp only
  split <;> rfl

@[simp] theorem sendEvent_disp (s : State) (code : Nat) (data : Bytes) : (sendEvent s code data).disp = s.disp := by
  unfold sendEvent
  split
  · exact ringSend_disp ..
  · exact foldl_frame (·.disp) _ (fun _ _ => ringSend_disp ..) _ s

@[simp] theorem logNow_disp (s : State) (code source : Nat) (data : Bytes) : (logNow s code source data).disp = s.disp := by
  unfold logNow logTake
  simp

@[simp] theorem traceRec_disp (s : State) (tp src arg16 a b : Nat) : (traceRec s tp src arg16 a b).disp = s.disp := by
  unfold traceRec
  split <;> rfl

theorem corrected_disp (s : State) (c : Nat) : (corrected s c).disp = s.disp := by
  unfold corrected
  dsimp only
  split
  · exact sendEvent_disp ..
  · rfl

theorem correctRead_disp (s : State) (a n : Nat) : (correctRead s a n).disp = s.disp := by
  have hl := foldl_frame (·.disp) (fun t _ => corrected t (classOfKey a)) (fun _ _ => corrected_disp ..) (softIn s a n) s
  unfold correctRead
  dsimp only
  split <;> exact hl

/-- Over any base b: a tile's base is too large a number for the kernel to compute with. -/
theorem correctReads_disp (b : Nat) (s : State) (l : List (Nat × Nat)) :
    (l.foldl (fun t r => correctRead t (b + r.1) r.2) s).disp = s.disp :=
  foldl_frame (·.disp) (fun t r => correctRead t (b + r.1) r.2) (fun _ _ => correctRead_disp ..) l s

@[simp] theorem correctAccess_disp (s : State) (tile : Nat) (a : Access) : (correctAccess s tile a).disp = s.disp := by
  rw [correctAccess]
  exact correctReads_disp ..

@[simp] theorem dropHold_disp (s : State) (n : Nat) : (dropHold s n).disp = s.disp := by
  simp [dropHold, reapEpochs]

theorem dropSweepHolds_disp (s : State) (i : Inst) : (dropSweepHolds s i).disp = s.disp := by
  unfold dropSweepHolds
  exact foldl_frame (·.disp) _ (fun s w => by split <;> simp) _ s

theorem scrambleOutputs_running (s : State) (i : Inst) : (scrambleOutputs s i).disp.running = s.disp.running := by
  unfold scrambleOutputs
  exact foldl_frame (·.disp.running) _ (fun _ _ => by rfl) _ s

/-! ### The DMA engines keep the dispatcher's state -/

@[simp] theorem stopReading_disp (s : State) (key : Nat) (r : RegSet) : (stopReading s key r).disp = s.disp := by
  unfold stopReading
  split <;> rfl

@[simp] theorem endSet_disp (s : State) (key status done : Nat) : (endSet s key status done).disp = s.disp := by
  unfold endSet
  dsimp only
  split
  · exact stopReading_disp ..
  · rfl

@[simp] theorem endWaiting_disp (s : State) (key status : Nat) : (endWaiting s key status).disp = s.disp := rfl

@[simp] theorem endBoth_disp (s : State) (key status done : Nat) : (endBoth s key status done).disp = s.disp := by
  unfold endBoth
  split <;> simp

@[simp] theorem landWords_disp (s : State) (r : RegSet) (w : List (Bytes × Nat)) : (landWords s r w).disp = s.disp := rfl

@[simp] theorem advanceRead_disp (s : State) (r : RegSet) (n : Nat) : (advanceRead s r n).disp = s.disp := by
  unfold advanceRead
  split <;> rfl

@[simp] theorem landSides_disp (s : State) (key : Nat) (w : List (Bytes × Nat)) : (landSides s key w).disp = s.disp := by
  unfold landSides
  split
  · rfl
  · dsimp only
    split <;> simp

/-- A transfer cut short draws a free count and touches nothing else of the dispatcher's. -/
@[simp] theorem cutTransfer_running (s : State) (key status : Nat) :
    (cutTransfer s key status).disp.running = s.disp.running := by
  unfold cutTransfer
  dsimp only
  split
  · rfl
  · split <;> simp

theorem disarm_running (s : State) (key : Nat) : (disarm s key).disp.running = s.disp.running := by
  unfold disarm
  dsimp only
  split <;> simp

theorem abortChannel_running (i : Inst) (s : State) (key : Nat) :
    (abortChannel i s key).disp.running = s.disp.running := by
  have hd : (if (chanGet s key).armed && armedBy (chanGet s key).shadow i s.cyc.seq then disarm s key else s).disp.running =
      s.disp.running := by
    split
    · exact disarm_running s key
    · rfl
  unfold abortChannel
  dsimp only
  split
  · split
    · exact (cutTransfer_running ..).trans hd
    · exact hd
  · exact hd

theorem abortSets_running (s : State) (i : Inst) : (abortSets s i).disp.running = s.disp.running := by
  unfold abortSets
  exact foldl_frame (·.disp.running) _ (abortChannel_running i) _ s

/-! ### Reading instances -/

theorem instOf_congr {s t : State} (h : t.disp.running = s.disp.running) (tile ctx : Nat) :
    instOf t tile ctx = instOf s tile ctx := by
  unfold instOf
  rw [h]

/-- What `instOf` reads on a context names that context. -/
theorem instOf_place {s : State} {tile ctx : Nat} {i : Inst} (h : instOf s tile ctx = some i) : i.tile = tile ∧ i.ctx = ctx := by
  simpa using List.find?_some h

/-! ### What an issue leaves -/

theorem noteIssue_running (s : State) (i : Inst) (d : Bytes) (holds : Bool) (writes : List (Nat × Nat)) :
    (noteIssue s i d holds writes).disp.running = (setInst s { i with
      pc := i.pc + 1, ended := dLast d, wrote := i.wrote ++ writes,
      inflight := if holds then i.inflight ++ [(i.pc, opUnit (dOpcode d))] else i.inflight }).disp.running := by
  unfold noteIssue
  rw [traceRec_disp]
  split <;> rfl

theorem noteIssue_tokens (s : State) (i : Inst) (d : Bytes) (holds : Bool) (writes : List (Nat × Nat)) :
    (noteIssue s i d holds writes).disp.tokens = s.disp.tokens := by
  unfold noteIssue
  rw [traceRec_disp]
  split <;> rfl

@[simp] theorem issued_tokens (s : State) (tile : Nat) (r : DescRun) (i : Inst) :
    (issued s tile r i).disp.tokens = s.disp.tokens := by
  rw [issued, correctAccess_disp, noteIssue_tokens]

theorem instOf_issued {s : State} {tile ctx : Nat} {i : Inst} (h : instOf s tile ctx = some i) (r : DescRun) :
    instOf (issued s tile r i) tile ctx = some (issuedInst s r i) := by
  obtain ⟨ht, hc⟩ := instOf_place h
  have hr : (issued s tile r i).disp.running = (setInst s (issuedInst s r i)).disp.running := by
    rw [issued, correctAccess_disp, noteIssue_running]
    rfl
  rw [instOf_congr hr]
  exact instOf_setInst h ht hc

/-- A descriptor that issues does its class's work on the state after the issue (R84). -/
theorem issueDesc_of_issues {s : State} {tile ctx op : Nat} {r : DescRun} {i : Inst} (h : Issues s tile ctx op r i) :
    issueDesc s tile ctx op r = ofAttempt (r.run (issued s tile r i) (issuedInst s r i) (descBytes s i i.pc) i.pc) := by
  have hacc : withListLine i (r.access s i (descBytes s i i.pc)) = accessAt s r i := rfl
  have hiss : correctAccess (noteIssue s i (descBytes s i i.pc) r.holds (accessAt s r i).writes) tile (accessAt s r i) =
      issued s tile r i := rfl
  have hpc : ¬8192 ≤ i.pc := Nat.not_le.mpr h.pc
  simp [issueDesc, hacc, hiss, hpc, h.up, h.inst, h.line, h.code, h.may, h.grant, h.header, h.body, h.access, h.rests,
    h.clean, instOf_issued h.inst]

/-- A descriptor that may not issue leaves everything as it is (R84). -/
theorem issueDesc_of_not_mayIssue {s : State} {tile ctx op : Nat} {r : DescRun} {i : Inst} (hi : instOf s tile ctx = some i)
    (hl : listLineBad s i = false) (hm : mayIssue s i (descBytes s i i.pc) = false) :
    issueDesc s tile ctx op r = .next s := by
  simp [issueDesc, hi, hl, hm]

/-- WAIT may issue only while its counter holds its amount (R89). -/
theorem waitHolds_of_mayIssue {s : State} {i : Inst} {d : Bytes} (hop : dOpcode d = 0x50) (hm : mayIssue s i d = true) :
    waitHolds s i d = true := by
  simp only [mayIssue, hop, Bool.and_eq_true] at hm
  obtain ⟨⟨_, hw⟩, _⟩ := hm
  simpa using hw

theorem waitHolds_iff {s : State} {i : Inst} {d : Bytes} :
    waitHolds s i d = true ↔ fieldAt d 0x12 2 ≤ (tokenOf s i.tile (fieldAt d 0x10 1)).toNat := decide_eq_true_iff

/-! ### An aborted task has ended -/

theorem finishInst_running (s : State) (i : Inst) (status : Nat) : (finishInst s i status).disp.running =
    (setInst s { i with finished := true, inflight := [], sweeps := [], solve := none, mm := none }).disp.running := by
  unfold finishInst
  dsimp only
  rw [traceRec_disp]
  split
  · rfl
  · rw [logNow_disp]
    rfl

theorem instOf_finishInst {s : State} {i j : Inst} (h : instOf s i.tile i.ctx = some j) (status : Nat) :
    ∃ k, instOf (finishInst s i status) i.tile i.ctx = some k ∧ k.finished = true := by
  rw [instOf_congr (finishInst_running s i status)]
  exact ⟨_, instOf_setInst h rfl rfl, rfl⟩

theorem instOf_endStream {s : State} {i j : Inst} (h : instOf s i.tile i.ctx = some j) (status : Nat) :
    ∃ k, instOf (endStream s i status) i.tile i.ctx = some k := by
  unfold endStream
  split
  · exact ⟨_, instOf_setInst (i := { i with stream := [] }) h rfl rfl⟩
  · exact ⟨j, h⟩

/-- An aborted task still stands on its context, ended (R86). -/
theorem instOf_abortInst {s : State} {i j : Inst} (h : instOf s i.tile i.ctx = some j) (status : Nat) :
    ∃ k, instOf (abortInst s i status) i.tile i.ctx = some k ∧ k.finished = true := by
  obtain ⟨k, hk⟩ := instOf_endStream ((instOf_congr (abortSets_running s i) _ _).trans h) status
  unfold abortInst
  dsimp only
  generalize hu : dropSweepHolds (endStream (abortSets s i) i status) i = u
  have hk : instOf u i.tile i.ctx = some k := by
    rw [← hk, ← hu]
    exact instOf_congr (congrArg (·.running) (dropSweepHolds_disp ..)) _ _
  obtain ⟨ht, hc⟩ := instOf_place hk
  rw [hk, Option.getD_some, ← ht, ← hc]
  have hs : (addFact (scrambleOutputs u i) (abortFact i status)).disp.running = u.disp.running := scrambleOutputs_running u i
  refine instOf_finishInst (j := k) ?_ status
  rw [instOf_congr hs, ht, hc, hk]

@[simp] theorem stageFault_disp (s : State) (source code : Nat) (data : Bytes) : (stageFault s source code data).disp = s.disp := by
  unfold stageFault
  dsimp only
  split
  · rfl
  · split <;> rfl

/-- REIN_OVERRUN is no cause of the safe state (R323, R324). -/
theorem faultReact_reinOverrun (s : State) : faultReact s fReinOverrun = s := rfl

theorem reinOverrun_disp (s : State) (tile ctx task : Nat) : (reinOverrun s tile ctx task).disp = s.disp := by
  rw [reinOverrun, raiseFault, faultReact_reinOverrun, stageFault_disp, bumpReg_disp]

/-- A running task whose time is used up ends at REIN_EXPIRY (R298, R299). -/
theorem reinExpiry_ends {s : State} {tile ctx : Nat} {i : Inst} (hr : s.boot.inReset = false)
    (hi : instOf s tile ctx = some i) (hf : i.finished = false) (hb : 10 * i.task.reinBudget ≤ i.acc) (hp : 0 < i.acc) :
    ∃ u, exec (.reinExpiry tile ctx) s = .next u ∧ ∃ j, instOf u tile ctx = some j ∧ j.finished = true := by
  obtain ⟨rfl, rfl⟩ := instOf_place hi
  have hx : exec (.reinExpiry i.tile i.ctx) s =
      .next (abortInst (reinOverrun s i.tile i.ctx i.task.taskId) i csReinOverrun) := by
    change execReinExpiry i.tile i.ctx s = _
    simp [execReinExpiry, hi, hf, hb, hp, hr]
  have hkept := instOf_congr (congrArg (·.running) (reinOverrun_disp s i.tile i.ctx i.task.taskId)) i.tile i.ctx
  exact ⟨_, hx, instOf_abortInst (hkept.trans hi) csReinOverrun⟩

/-! ### Moves and tokens -/

/-- WAIT takes its amount from the counter in the step in which it issues (R89). -/
theorem wait_issues {s : State} {tile ctx : Nat} {i : Inst} (h : Issues s tile ctx 0x50 waitRun i) :
    let d := descBytes s i i.pc
    fieldAt d 0x12 2 ≤ (tokenOf s tile (fieldAt d 0x10 1)).toNat ∧
      exec (.wait tile ctx) s = .next (takeToken (issued s tile waitRun i) tile (fieldAt d 0x10 1) (fieldAt d 0x12 2)) := by
  obtain ⟨rfl, rfl⟩ := instOf_place h.inst
  exact ⟨waitHolds_iff.mp (waitHolds_of_mayIssue h.code h.may), issueDesc_of_issues h⟩

/-- WAIT does not issue while its counter holds less than its amount (R89). -/
theorem wait_stalls {s : State} {tile ctx : Nat} {i : Inst} (hi : instOf s tile ctx = some i) (hl : listLineBad s i = false)
    (hop : dOpcode (descBytes s i i.pc) = 0x50)
    (hn : (tokenOf s tile (fieldAt (descBytes s i i.pc) 0x10 1)).toNat < fieldAt (descBytes s i i.pc) 0x12 2) :
    exec (.wait tile ctx) s = .next s := by
  obtain ⟨rfl, rfl⟩ := instOf_place hi
  have hm : mayIssue s i (descBytes s i i.pc) = false :=
    Bool.eq_false_iff.mpr fun hm => Nat.not_le.mpr hn (waitHolds_iff.mp (waitHolds_of_mayIssue hop hm))
  exact issueDesc_of_not_mayIssue hi hl hm

/-- An increment under way reaches its counter (R88). -/
theorem tokenIncrement_arrives {s : State} {tile c n k : Nat} (hr : s.boot.inReset = false)
    (hk : s.disp.inbound.findIdx? (fun p => decide (p.1 = 32 * tile + c ∧ p.2.1.toNat = n)) = some k) :
    exec (.tokenIncrement tile c n) s =
      .next (addToken { s with disp := { s.disp with inbound := listDel s.disp.inbound k } } tile c n) := by
  change execTokenIncrement tile c n s = _
  unfold execTokenIncrement
  rw [hk]
  exact onlyIf_true hr

/-- Settles O43: each class's work is read off the issue; WAIT's condition is part of it. -/
theorem movesAndTokensComplete : Obligations.MovesAndTokensComplete := by
  intro s tile ctx i d
  refine ⟨fun h => issueDesc_of_issues h, fun h => issueDesc_of_issues h, fun h => ?copy, fun h => ?fill, fun h => ?wait,
    fun _ hi hl hop hn => wait_stalls hi hl hop hn, fun hr hi hf _ _ hb hp => reinExpiry_ends hr hi hf hb hp,
    fun h => ?signal, fun hr c n k hk => tokenIncrement_arrives hr hk⟩
  case copy | fill | signal =>
    obtain ⟨rfl, rfl⟩ := instOf_place h.inst
    exact issueDesc_of_issues h
  case wait =>
    obtain ⟨hle, hx⟩ := wait_issues h
    refine ⟨_, hx, hle, ?_⟩
    simp [takeToken, tokenOf, d]

end Sys2Proof.Machine
end

section
/-! PROOFS. The ledger's windows, the operating points of the islands, wake tokens and VDD_T's setpoint (R267 to R269, R27,
R478, R483): what a window start leaves each island, what a raise, a gating and a wake do, and when they wait. -/

namespace Sys2Proof.Machine

/-! ### Ledger windows -/

/-- Scaling grants down to the cap raises none of them (R268). -/
theorem getD_scaled_le {l : List Nat} {cap : Nat} (h : cap < l.sum) (c : Nat) :
    (l.map fun g => g * cap / l.sum).getD c 0 ≤ l.getD c 0 := by
  have hmap := List.getD_map l 0 (n := c) fun g => g * cap / l.sum
  rw [Nat.zero_mul, Nat.zero_div] at hmap
  rw [hmap]
  exact Nat.div_le_of_le_mul (by rw [Nat.mul_comm]; exact Nat.mul_le_mul_right _ h.le)

/-- The limiter raises no grant by more than 500 µJ over the last window's; what scales to the cap only lowers it (R268). -/
theorem limitWindow_grant_le {s : State} {c : Nat} (n : LedgerNext) (hc : c < clusterCount s) :
    (limitWindow s n).1.getD c 0 ≤ (s.disp.islands.getD c .reset).grant + 500 := by
  unfold limitWindow
  dsimp only
  split
  case isTrue hcap => exact (getD_scaled_le hcap c).trans (by simp [List.getD_eq_getElem?_getD, hc])
  case isFalse => simp [List.getD_eq_getElem?_getD, hc]

/-- PMC's values come into force on the part's clusters, through the limiter (R267, R268). -/
theorem windowValues_island {s : State} {n : LedgerNext} {c : Nat} (hn : s.disp.next = some n) (hc : c < s.disp.islands.length) :
    (windowValues s).disp.islands.getD c .reset = if c < clusterCount s then
      { s.disp.islands.getD c .reset with
        grant := (limitWindow s n).1.getD c 0, reserve := (limitWindow s n).2.1.getD c 0, scale := n.scales.getD c 0 }
    else s.disp.islands.getD c .reset := by
  simp [windowValues, hn, List.getD_eq_getElem?_getD, hc]

theorem windowValues_balance {s : State} {c : Nat} (hc : c < s.disp.islands.length) :
    ((windowValues s).disp.islands.getD c .reset).balance = (s.disp.islands.getD c .reset).balance := by
  cases hn : s.disp.next with
  | none => simp [windowValues, hn]
  | some n =>
    rw [windowValues_island hn hc]
    split <;> rfl

theorem windowValues_grant_le {s : State} {c : Nat} (hn : s.disp.next ≠ none) (hc : c < s.disp.islands.length)
    (hp : c < clusterCount s) :
    ((windowValues s).disp.islands.getD c .reset).grant ≤ (s.disp.islands.getD c .reset).grant + 500 := by
  obtain ⟨n, hn⟩ := Option.ne_none_iff_exists'.mp hn
  rw [windowValues_island hn hc, if_pos hp]
  exact limitWindow_grant_le n hp

/-- Without PMC's values the last ones stay in force, frozen (R267). -/
theorem windowValues_frozen {s : State} (hn : s.disp.next = none) :
    windowValues s = { s with disp := { s.disp with frozen := true, limited := false } } := by
  simp only [windowValues, hn]

/-- Bringing the values into force counts no window and moves no list entry and no running task. -/
theorem windowValues_frame (s : State) : (windowValues s).disp.window = s.disp.window ∧
    (windowValues s).disp.ready = s.disp.ready ∧ (windowValues s).disp.running = s.disp.running := by
  unfold windowValues
  split <;> exact ⟨rfl, rfl, rfl⟩

theorem windowStart_island (s : State) (c : Nat) :
    (windowStart s).disp.islands.getD c .reset = restartIsland ((windowValues s).disp.islands.getD c .reset) := by
  have hmap := List.getD_map (windowValues s).disp.islands Island.reset (n := c) restartIsland
  have hreset : restartIsland .reset = .reset := by decide
  rwa [hreset] at hmap

/-- A window starts 100 µs after the last: the new values, each balance its grant with the old debt, POOL full (R267 to
R269). -/
theorem ledgerWindowStart_starts {s : State} (hr : s.boot.inReset = false) (hd : s.disp.windowAt + 10000 ≤ s.ao) :
    exec .ledgerWindowStart s = .next (windowStart s) := by
  change execLedgerWindowStart s = _
  simp [execLedgerWindowStart, hr, hd]

/-! ### Operating points -/

theorem getD_listUpd_self {α : Type} {l : List α} {c : Nat} (h : c < l.length) (f : α → α) (d : α) :
    (listUpd l c f).getD c d = f (l.getD c d) := by
  induction l generalizing c with
  | nil => cases h
  | cons x t ih =>
    cases c with
    | zero => rfl
    | succ c => simpa [listUpd] using ih (by simpa using h)

theorem oppOf_setOpp {s : State} {c : Nat} (h : c < s.disp.islands.length) (v : Nat) : oppOf (setOpp s c v) c = v := by
  rw [oppOf, setOpp_islands, getD_listUpd_self h]

@[simp] theorem bankState_setOpp (s : State) (c v k : Nat) : bankState (setOpp s c v) k = bankState s k := rfl

/-- PMC lowers an island's point at a window start, by as many steps as it likes (R27). -/
theorem oppSwitch_lowers {s : State} {c v : Nat} (hr : s.boot.inReset = false) (hp : presentCluster s c = true)
    (hrun : procRuns s 1 = true) (hao : s.ao = s.disp.windowAt) (h0 : 0 < v) (hv : v < oppOf s c) (h3 : v ≤ 3) :
    exec (.oppSwitch c v) s = .next (setOpp s c v) := by
  have hlegal : ¬(oppOf s c = 0 ∨ v = 0 ∨ 3 < v ∨ v = oppOf s c) := by omega
  change execOppSwitch c v s = _
  simp [execOppSwitch, hr, hp, hrun, hlegal, hv, hao]

/-- A raise goes one step at a window start, when VDD_T stands high enough: it spends four tokens or waits for them (R27,
R478, R483). -/
theorem oppSwitch_raises {s : State} {c : Nat} (hr : s.boot.inReset = false) (hp : presentCluster s c = true)
    (hrun : procRuns s 1 = true) (hao : s.ao = s.disp.windowAt) (ht : s.disp.trip = false) (h0 : 0 < oppOf s c)
    (h3 : oppOf s c < 3) (hv : setpointOf s (oppOf s c + 1) ≤ s.plat.vddtSet) :
    exec (.oppSwitch c (oppOf s c + 1)) s = (spendTokens s (4, 16 + c) 4).elim
      (.next (waitTokens s (4, 16 + c) 4)) fun t => .next (setOpp t c (oppOf s c + 1)) := by
  have hlegal : ¬(oppOf s c = 0 ∨ 3 ≤ oppOf s c) := by omega
  change execOppSwitch c (oppOf s c + 1) s = _
  cases hs : spendTokens s (4, 16 + c) 4 <;> simp [execOppSwitch, hr, hp, hrun, hlegal, hao, ht, hv.not_gt, hs]

/-- No raise goes before VDD_T stands at the higher point's setpoint (R478). -/
theorem oppSwitch_stays_below_setpoint {s : State} {c v : Nat} (hv : oppOf s c < v) (hset : s.plat.vddtSet < setpointOf s v) :
    exec (.oppSwitch c v) s = .next s := by
  change execOppSwitch c v s = _
  simp [execOppSwitch, hset, hv.not_gt]

/-! ### Tokens -/

theorem spendTokens_granted {s : State} {w : Nat × Nat} {n : Nat} (h : n ≤ (s.disp.granted.filter (· = w)).length) :
    spendTokens s w n = some { s with disp := { s.disp with granted := s.disp.granted.filter (· ≠ w) } } := by
  simp only [spendTokens, if_pos h]

theorem spendTokens_short {s : State} {w : Nat × Nat} {n : Nat} (hg : s.disp.granted = []) (h : s.disp.tokensHeld < n) :
    spendTokens s w n = none := by
  have h0 : n ≠ 0 := by omega
  simp [spendTokens, hg, h, h0]

/-- The first request waits, and TOKEN_WAITS counts it. -/
theorem waitTokens_first {s : State} (hg : s.disp.granted = []) (hw : s.disp.waiters = []) (w : Nat × Nat) (n : Nat) :
    waitTokens s w n = bumpReg { s with disp := { s.disp with waiters := List.replicate n w } } offTokenWaits := by
  simp [waitTokens, hg, hw]

/-- A gated island with a token of its own wakes to 420 MHz (R27, R483, log entry 27). -/
theorem islandWake_granted {s : State} {c : Nat} (hr : s.boot.inReset = false) (hp : presentCluster s c = true)
    (h0 : oppOf s c = 0) (hg : (4, c) ∈ s.disp.granted) : exec (.islandWake c) s =
      .next (setOpp { s with disp := { s.disp with granted := s.disp.granted.filter (· ≠ (4, c)) } } c 1) := by
  have hone : 1 ≤ (s.disp.granted.filter (· = (4, c))).length := List.length_pos_of_mem (List.mem_filter.mpr ⟨hg, by simp⟩)
  change execIslandWake c s = _
  simp [execIslandWake, hr, hp, h0, spendTokens_granted hone]

/-! ### Gating -/

/-- A bank that is ON enters retention. -/
def retainBank (s : State) (k : Nat) : State := if bankState s k = 0 then setBank s k 1 else s

/-- The banks' power states are held in canonical form. -/
def BanksWf (s : State) : Prop := mapWf (fun _ => s.plat.bankBase) s.plat.banks = true

theorem retainBank_wf {s : State} (h : BanksWf s) (k : Nat) : BanksWf (retainBank s k) := by
  unfold retainBank
  split
  · exact mapWf_mapSet _ h k 1
  · exact h

theorem bankState_retainBank {s : State} (h : BanksWf s) (k j : Nat) :
    bankState (retainBank s k) j = if j = k ∧ bankState s j = 0 then 1 else bankState s j := by
  unfold retainBank
  split
  case isTrue h0 =>
    have hset : bankState (setBank s k 1) j = if j = k then 1 else bankState s j := mapGet_mapSet _ h k j 1
    rw [hset]
    by_cases hj : j = k
    · simp [hj, h0]
    · simp [hj]
  case isFalse h0 =>
    rw [if_neg]
    rintro ⟨rfl, hj⟩
    exact h0 hj

/-- Retention reaches every ON bank of the list, and no other. -/
theorem bankState_retainBanks {s : State} (h : BanksWf s) (l : List Nat) (j : Nat) :
    bankState (l.foldl retainBank s) j = if j ∈ l ∧ bankState s j = 0 then 1 else bankState s j := by
  induction l generalizing s with
  | nil => simp
  | cons k t ih =>
    rw [List.foldl_cons, ih (retainBank_wf h k), bankState_retainBank h]
    by_cases h0 : bankState s j = 0
    · by_cases hj : j = k
      · subst hj
        simp [h0]
      · simp [h0, hj]
    · simp [h0]

/-- The keys of the banks of a cluster's tiles. -/
def clusterBanks (c : Nat) : List Nat := ((List.range 16).map fun m => (List.range 46).map fun b => 64 * (16 * c + m) + b).flatten

/-- Every ON bank of the cluster's tiles enters retention (R360). -/
theorem bankState_retainCluster {s : State} {c j : Nat} (h : BanksWf s) (hj : j ∈ clusterBanks c) (hon : bankState s j = 0) :
    bankState (retainCluster s c) j = 1 :=
  (bankState_retainBanks h (clusterBanks c) j).trans (if_pos ⟨hj, hon⟩)

/-- The 46 banks of each of the sixteen tiles, in one count. -/
theorem mem_clusterBanks {c k : Nat} (hk : k < 736) : 1024 * c + 64 * (k / 46) + k % 46 ∈ clusterBanks c := by
  simp only [clusterBanks, List.mem_flatten, List.mem_map, List.mem_range, exists_exists_and_eq_and]
  exact ⟨k / 46, by omega, k % 46, by omega, by omega⟩

theorem retainCluster_disp (s : State) (c : Nat) : (retainCluster s c).disp = s.disp :=
  foldl_frame (·.disp) retainBank (fun s k => by unfold retainBank; split <;> rfl) (clusterBanks c) s

theorem islandGate_gates {s : State} {c : Nat} (hr : s.boot.inReset = false) (hp : presentCluster s c = true)
    (h0 : oppOf s c ≠ 0) (hi : islandIdle s c = true) :
    exec (.islandGate c) s = .next (setOpp (retainCluster s c) c 0) := by
  change execIslandGate c s = _
  simp [execIslandGate, onlyIf, hr, hp, h0, hi]

/-! ### Idle tiles and VDD_T -/

theorem tileRested_of_counted {s : State} {tile : Nat}
    (h : ∀ p, s.disp.busyTo.find? (·.1 = tile) = some p → 320 ≤ tileRate s tile * (s.ao - p.2)) : tileRested s tile = true := by
  unfold tileRested
  split
  next p hp => exact decide_eq_true (.inr (h p hp))
  next => rfl

theorem tileIdle_rests {s : State} {tile : Nat} (hr : s.boot.inReset = false) (hp : presentTile s tile = true)
    (h0 : instOf s tile 0 = none) (h1 : instOf s tile 1 = none)
    (hb : ∀ p, s.disp.busyTo.find? (·.1 = tile) = some p → 320 ≤ tileRate s tile * (s.ao - p.2))
    (hl : s.lat.running = true → tile ∉ latigoTiles s) :
    exec (.tileIdle tile) s = .next { s with disp := { s.disp with idleTiles := addOnce s.disp.idleTiles tile } } := by
  have hlat : (s.lat.running && decide (tile ∈ latigoTiles s)) = false := by simpa using hl
  change execTileIdle tile s = _
  simp only [execTileIdle, hp, h0, h1, tileRested_of_counted hb, hlat]
  exact onlyIf_true hr

theorem setpointDue_iff {s : State} {v : Nat} :
    setpointDue s v = true ↔ ∃ k, 1 ≤ k ∧ k ≤ 3 ∧ topOpp s ≤ k ∧ setpointOf s k = v := by
  simp only [setpointDue, List.any_eq_true, decide_eq_true_eq]
  have hmem : ∀ k, k ∈ [1, 2, 3] ↔ 1 ≤ k ∧ k ≤ 3 := fun k => by simp; omega
  simp only [hmem, and_assoc]

/-! ### The obligation -/

/-- Settles O40: each event of the ledger and of power is read off its rule above. -/
theorem ledgerAndPowerEventsComplete : Obligations.LedgerAndPowerEventsComplete := by
  intro s c hr hc
  refine ⟨fun hd => ⟨_, ledgerWindowStart_starts hr hd, ?window⟩,
    fun hp hrun hao v h0 hv h3 => oppSwitch_lowers hr hp hrun hao h0 hv h3,
    fun hp hrun hao ht h0 h3 hv => ?raise, fun hp h0 hi => ⟨_, islandGate_gates hr hp h0 hi, ?gate⟩,
    fun hp h0 hg => islandWake_granted hr hp h0 hg, fun hw => ?held, fun w hw => ?token,
    fun v hv hset => oppSwitch_stays_below_setpoint hv hset,
    fun tile hp h0 h1 hb hl => tileIdle_rests hr hp h0 h1 hb hl,
    fun k h1 h3 htop hrun h5 hlo hhi => ?move, fun v hv => ?keep⟩
  case window =>
    obtain ⟨hwindow, hready, hrunning⟩ := windowValues_frame s
    rw [windowStart_island]
    refine ⟨rfl, congrArg (· + 1) hwindow, rfl, ?_, fun hn => ?_, fun hn hp => windowValues_grant_le hn hc hp,
      hready, hrunning⟩
    · rw [← windowValues_balance hc]
      rfl
    · rw [windowStart, windowValues_frozen hn]
      exact ⟨rfl, rfl⟩
  case raise =>
    rw [oppSwitch_raises hr hp hrun hao ht h0 h3 hv]
    refine ⟨fun h4 => ?_, fun hg hheld hw => ?_⟩
    · rw [spendTokens_granted h4]
      rfl
    · rw [spendTokens_short hg hheld, waitTokens_first hg hw]
      rfl
  case gate =>
    refine ⟨oppOf_setOpp (by rwa [retainCluster_disp]) 0, fun hwf k hk hon => ?_⟩
    rw [bankState_setOpp]
    exact bankState_retainCluster hwf (mem_clusterBanks hk) hon
  case held | token =>
    change execWakeToken s = _
    simp [execWakeToken, hw, bestWaiter, hr]
  case move =>
    have hdue : setpointDue s (setpointOf s k) = true := setpointDue_iff.mpr ⟨k, h1, h3, htop, rfl⟩
    change execAvsbusSetpointChange (setpointOf s k) s = _
    simp [execAvsbusSetpointChange, onlyIf, hr, hrun, hdue, h5, hlo, hhi]
  case keep =>
    have hdue : setpointDue s v = false := Bool.eq_false_iff.mpr fun h =>
      let ⟨k, _, _, htop, hk⟩ := setpointDue_iff.mp h
      hv k htop hk
    change execAvsbusSetpointChange v s = _
    simp [execAvsbusSetpointChange, hdue]

end Sys2Proof.Machine
end

section
/-! PROOFS. The whole machine: what every step keeps (the invariant, the fuses, the queue of waiting commands), how the safe
state ends, what internal reset lets pass, and what reset leaves (R12, R328, R466, R487, R489). Each is one case split
over the commands, and each command's case is its own law. -/

namespace Sys2Proof.Machine

/-! ### Steps and commands -/

/-- What holds of every command's outcome and of a passing AO cycle holds of every step. -/
theorem step_cases {s t : State} (h : step s = .next t) :
    (s.pending = [] ∧ t = tickAo s) ∨
    ∃ c rest, s.pending = c :: rest ∧ exec c { s with pending := rest } = .next t := by
  unfold step at h
  split at h
  case h_1 hp => exact .inl ⟨hp, by simpa using h.symm⟩
  case h_2 c rest hp => exact .inr ⟨c, rest, hp, h⟩

theorem exec_inv (c : Instr) {s : State} (h : Inv s) : InvR (exec c s) := by cases c <;> simp [exec, h]

theorem exec_keeps (c : Instr) {s : State} {q : Fuses} (hq : Grown q s.fuses) : Keeps s.pending q (exec c s) := by
  cases c <;> simp [exec, hq]

theorem exec_latched {c : Instr} {s : State} (h : Latched s) :
    LatchedR (exec c s) ∨ c = .safeClear ∨ c = .boundary ∨ c = .powerOnReset ∨ c = .resetPin ∨ c = .resetRelease ∨
    (∃ d, c = .aoResetGo d) ∨ (∃ r, c = .railOutOfWindow r) ∨ ∃ i w, c = .criticalTemp i w := by
  cases c <;> simp [exec, h]

/-- The invariant does not speak of the queue. -/
theorem inv_withPending {s : State} (h : Inv s) (l : List Instr) : Inv { s with pending := l } := ⟨h.mem, h.regs, h.lines⟩

/-! ### Internal reset -/

theorem onlyIf_inReset {s t : State} {c : Bool} (h : s.boot.inReset = true) : onlyIf s c t = .next s := by simp [onlyIf, h]

theorem withFront_inReset {s : State} {o : Owner} {isIt : Msg → Bool} {f : Msg → State → Result}
    (h : s.boot.inReset = true) : withFront s o isIt f = .next s := by
  unfold withFront
  split <;> simp [h]

theorem issueDesc_inReset {s : State} {tile ctx op : Nat} {r : DescRun} (h : s.boot.inReset = true) :
    issueDesc s tile ctx op r = .next s := by
  unfold issueDesc
  split <;> simp [h]

/-- Events, messages and descriptors are guarded alike; the reset sources, the release and the end of a trip are not (R487). -/
theorem exec_inReset (c : Instr) {s : State} (h : s.boot.inReset = true) :
    exec c s = .next s ∨ c = .powerOnReset ∨ c = .resetPin ∨ c = .resetRelease ∨ (∃ r, c = .railOutOfWindow r) ∨
    (∃ i w, c = .criticalTemp i w) ∨ ∃ l, c = .thermalTripEnd l := by
  cases c
  case powerOnReset | resetPin | resetRelease | railOutOfWindow | criticalTemp | thermalTripEnd => simp
  case nop | fence | moveCopy | moveFill | moveFetch | movePut | matmul | matmulConv | vectBin | vectUn | vectNorm |
      vectCvt | reduce | genprim | topk | topkMerge | knn | solveAssemble | solveFactor | solveSubst | solveUpdate |
      dmareq | wait | signal | emit =>
    exact .inl (issueDesc_inReset h)
  case aoRead | aoLogRead | aoSafeRequest | aoResetArm | aoResetGo | cmdDoorbell | hostQueueWra | mainbandDown |
      mainbandUp | ntf | hostLossExpiry | syncTimeout | fpSyncEdge | syncLostClear | phaseRelease | cut | deadline |
      ledgerWindowStart | islandGate | cacheFill | vlLinkChange | vlRxFrame | fpToggle | fpReadback | stopInputActive
      | stopInputInactive | faultEvent | logRecord | worldBankRepair | queueReset | queueReadTimeout | frameReceived |
      frameHashDone | gptpSyncRx | gptpSyncTimeout | lkLinkChange | watchdogExpiry | fwReloadDone |
      plannedRestartBegin | plannedRestartDone | selftestSlice | selftestLate | selftestStarved | bankWake |
      patrolScrub | gddr6Retrain | refclkLoss | refclkReturn | romStageDone | gddr6TrainingDone | bootSelftestDone |
      thermalTrip | fwMemEcc | internalFatalException | dmaErrEcc | tileIdle | phyRstNRelease | sensorLinkChange |
      sidebandLinkChange | gptpSyncTx | avsbusSetpointChange =>
    exact .inl (onlyIf_inReset h)
  case hello | helloReattach | heartbeat | queryDevice | queryFacts | queryCkptRead | queryWeightDir | readCounters |
      loadFirmware | fuseRequest | restartProcessor | attest | loadTaskImage | loadWeights | profileSet | cycleConfig
      | selftestConfig | worldDelta | start | stop | pause | resume | resumeCheckpoint | save | ckptPut | replay |
      replayData | safeClear | safeRequest =>
    simp [exec, withFront_inReset h, queryRun, secPiece, execHello, execHelloReattach, execHeartbeat, execQueryDevice,
      execQueryFacts, execQueryCkptRead, execQueryWeightDir, execReadCounters, execLoadFirmware, execFuseRequest,
      execRestartProcessor, execAttest, execLoadTaskImage, execLoadWeights, execProfileSet, execCycleConfig,
      execSelftestConfig, execWorldDelta, execStart, execStop, execPause, execResume, execResumeCheckpoint, execSave,
      execCkptPut, execReplay, execReplayData, execSafeClear, execSafeRequest]
  all_goals
    refine .inl ?_
    simp only [exec, mdioCommand, execHeadWrite, execHostLossCfgWrite, execRegisterWrite, execMdioC22Read,
      execMdioC22Write, execMdioC45Read, execMdioC45Write, execMdioDone, execPhyResetWrite, execStopEnWrite,
      execFlitReceive, execCycleStart, execBoundary, execSpareIn, execReplayCycleStart, execDispatch, execSteal,
      execListCopyDone, execCompletionRecord, execInstanceComplete, execOppSwitch, execIslandWake, execWakeToken,
      execPutTimeout, execSweep, execSweepPairDone, execSweepStartReport, execSolveReport, execTokenIncrement,
      execDescriptorComplete, execWeightChunkWrite, execFlowRelease, execFlowAckPoll, execReleaseRequest,
      execLatigoComplete, execVlFrameSend, execPhyIntFall, execSignatureRecord, execReinExpiry, execFaultDrain,
      execWorldBatchTake, execBatchApply, execEpochPublish, execDmaTransferStart, execDmaComplete, execDmaTimeout,
      execFrameAccept, execCollFrameRx, execCollTimeout, execImageVerifyDone, execFwVerifyDone, execSliceDone]
    (repeat' split) <;> simp_all [onlyIf_inReset h, issueDesc_inReset h]

/-! ### The obligations -/

/-- Settles O1: a step on a queue with a front is that command's. -/
theorem stepRunsTheFrontCommand : Obligations.StepRunsTheFrontCommand := by
  intro c rest s h
  simp only [step, h]

/-- Settles O3: each value is read off the reset state; memory lists the two bytes of epoch 0's root alone. -/
theorem resetValues : Obligations.ResetValues := by
  refine ⟨rfl, rfl, rfl, rfl, rfl, rfl, rfl, rfl, rfl, rfl, rfl, rfl, fun p hp => ?procs, rfl, fun _ => rfl,
    fun a h6 h7 => ?mem⟩
  case procs =>
    rw [List.eq_of_mem_replicate hp]
    rfl
  case mem => simp [memGet, State.reset, epochZeroRootCells, mapGet, h6, h7, memDefault]

/-- Settles O4. -/
theorem invariantHoldsAtReset : Obligations.InvariantHoldsAtReset where
  mem := by decide
  regs := rfl
  lines := rfl

/-- Settles O5: a passing AO cycle and every command keep the invariant. -/
theorem everyStepKeepsTheInvariant : Obligations.EveryStepKeepsTheInvariant := by
  intro s t hs h
  obtain ⟨-, rfl⟩ | ⟨c, rest, -, hc⟩ := step_cases h
  · exact tickAo_inv s hs
  · have hinv := exec_inv c (inv_withPending hs rest)
    rwa [hc] at hinv

/-- Settles O6: a passing AO cycle keeps the fuses, and from a command's fuses they only grow. -/
theorem noStepUndoesAFuse : Obligations.NoStepUndoesAFuse := by
  intro s t h
  obtain ⟨-, rfl⟩ | ⟨c, rest, -, hc⟩ := step_cases h
  · rw [(tickAo_kept s).2]
    exact .rfl' _
  · have hkeeps := exec_keeps c (s := { s with pending := rest }) (.rfl' s.fuses)
    rw [hc] at hkeeps
    exact hkeeps.2

/-- Settles O7. -/
theorem noCommandTouchesTheQueue : Obligations.NoCommandTouchesTheQueue := by
  intro c s t h
  have hkeeps := exec_keeps c (.rfl' s.fuses)
  rw [h] at hkeeps
  exact hkeeps.1

/-- Settles O8: every other command keeps the latch. -/
theorem onlyTheseEndTheSafeState : Obligations.OnlyTheseEndTheSafeState := by
  intro c s t hl h
  have hlatched := exec_latched (c := c) hl
  rwa [h] at hlatched

/-- Settles O9. -/
theorem internalResetHoldsTheBlock : Obligations.InternalResetHoldsTheBlock := fun c _ h => exec_inReset c h

end Sys2Proof.Machine
end

section
/-! PROOFS. The device rings and what reports leave alone; entry into the safe state; the host's session, queries, sideband and
safe-state requests (R324 to R329, R380, R381, R385 to R389, R395 to R401). -/

namespace Sys2Proof.Machine

/-! ### What two states that differ in reports share -/

section Unreported
variable {t v : State} (h : unreported t = unreported v)
include h
theorem unreported_cyc : t.cyc = v.cyc := congrArg (·.cyc) h
theorem unreported_lat : t.lat = v.lat := congrArg (·.lat) h
theorem unreported_outp : t.outp = v.outp := congrArg (·.outp) h
theorem unreported_world : t.world = v.world := congrArg (·.world) h
theorem unreported_load : t.load = v.load := congrArg (·.load) h
theorem unreported_plat : t.plat = v.plat := congrArg (·.plat) h
theorem unreported_ing : t.ing = v.ing := congrArg (·.ing) h
theorem unreported_boot : t.boot = v.boot := congrArg (·.boot) h
theorem unreported_running : t.disp.running = v.disp.running := congrArg (·.disp.running) h
theorem unreported_safe : t.safety.safe = v.safety.safe := congrArg (·.safety.safe) h
theorem unreported_cause : t.safety.cause = v.safety.cause := congrArg (·.safety.cause) h
theorem unreported_present : t.safety.present = v.safety.present := congrArg (·.safety.present) h
theorem unreported_queues : t.host.queues = v.host.queues := congrArg (·.host.queues) h
end Unreported

/-- In a canonical map, the entries of some keys alone read as those keys did. -/
theorem mapGet_filter {β : Type} [DecidableEq β] (d : Nat → β) (p : Nat → Bool) {lo : Nat} {m : List (Nat × β)} {k : Nat}
    (h : mapWfFrom d lo m = true) (hk : p k = true) : mapGet d (m.filter fun q => p q.1) k = mapGet d m k := by
  induction m generalizing lo with
  | nil => rfl
  | cons q t ih =>
    obtain ⟨j, v⟩ := q
    simp only [mapWfFrom, Bool.and_eq_true, decide_eq_true_eq] at h
    obtain ⟨-, ht⟩ := h
    cases hj : p j with
    | true => simp only [List.filter_cons, hj, if_true, mapGet, ih ht]
    | false =>
      have hne : k ≠ j := fun he => by simp [he, hj] at hk
      simp only [List.filter_cons, hj, Bool.false_eq_true, if_false, ih ht, mapGet, hne]
      split
      case isTrue hlt => exact mapGet_below d ht (by omega)
      case isFalse => rfl

/-- A register that reporting does not move reads alike. -/
theorem unreported_regOf {t v : State} (ht : Inv t) (hv : Inv v) (h : unreported t = unreported v) {off : Nat}
    (hoff : isRingReg off = false) : regOf t off = regOf v off := by
  have hk : (!isRingReg off) = true := by simp [hoff]
  have hf : t.regs.filter (fun q => !isRingReg q.1) = v.regs.filter fun q => !isRingReg q.1 := congrArg (·.regs) h
  have ht' := mapGet_filter resetVal (fun k => !isRingReg k) ht.regs hk
  have hv' := mapGet_filter resetVal (fun k => !isRingReg k) hv.regs hk
  exact ht'.symm.trans ((congrArg (mapGet resetVal · off) hf).trans hv')

/-! ### The rings -/

/-- A range that a write does not meet reads as before. -/
theorem memRead_memWrite_outside {m : Mem} (hm : memWf m = true) {a b n : Nat} {bs : Bytes}
    (h : b + n ≤ a ∨ a + bs.length ≤ b) : memRead (memWrite m a bs) b n = memRead m b n := by
  induction n generalizing b with
  | zero => rfl
  | succ n ih => rw [memRead, memRead, memGet_memWrite_outside hm (by omega), ih (by omega)]

/-- An entry written at a ring's position is read there, around the ring's end too (R385). -/
theorem ringRead_ringWrite {m : Mem} (hm : memWf m = true) {base size pos : Nat} {bs : Bytes} (hl : bs.length ≤ size)
    (hs : 0 < size) : ringRead (ringWrite m base size pos bs) base size pos bs.length = bs := by
  have hp := Nat.mod_lt pos hs
  have hend : (bs.take (size - pos % size)).length = min bs.length (size - pos % size) := by simp [Nat.min_comm]
  have hstart : (bs.drop (size - pos % size)).length = bs.length - min bs.length (size - pos % size) := by simp; omega
  have hm' := memWrite_wf hm (base + pos % size) (bs.take (size - pos % size))
  unfold ringRead ringWrite
  dsimp only
  rw [memRead_memWrite_outside hm' (by omega), ← hend, memRead_memWrite hm _ _ (Nat.le_refl _), hend, ← hstart,
    memRead_memWrite hm' _ _ (Nat.le_refl _), List.take_length, ← hend, List.take_length, List.take_append_drop]

/-- An entry that fits stands at TAIL, and TAIL passes it (R387). -/
theorem ringSend_fits {s : State} {r : Nat} {minor : Byte} {opcode corr : Nat} {payload : Bytes}
    (h : ringFits s r (msgBytes minor opcode (s.host.seqs.getD r 0).toNat corr payload).length = true) :
    ringSend s r minor opcode corr payload =
      let bs := msgBytes minor opcode (s.host.seqs.getD r 0).toNat corr payload
      { s with
        mem := ringWrite s.mem (ringBase r) (ringSize r) (regNat s (offTail r)) bs
        regs := mapSet resetVal s.regs (offTail r) (regOf s (offTail r) + BitVec.ofNat 32 bs.length)
        host := { s.host with seqs := s.host.seqs.set r (s.host.seqs.getD r 0 + 1), ntfDue := addOnce s.host.ntfDue r } } := by
  simp only [ringSend, h, if_true]

/-- An entry that does not fit is dropped and counted (R387). -/
theorem ringSend_drops {s : State} {r : Nat} {minor : Byte} {opcode corr : Nat} {payload : Bytes}
    (h : ringFits s r (msgBytes minor opcode (s.host.seqs.getD r 0).toNat corr payload).length = false) :
    ringSend s r minor opcode corr payload =
      bumpReg { s with host := { s.host with seqs := s.host.seqs.set r (s.host.seqs.getD r 0 + 1) } } (offDropped r) := by
  simp only [ringSend, h, Bool.false_eq_true, if_false]

theorem mem_addOnce {α : Type} [DecidableEq α] (l : List α) (x : α) : x ∈ addOnce l x := by
  unfold addOnce
  split <;> simp [*]

/-- A reply that is not sent leaves all as it is (R389). -/
theorem replyInfo_unsent (s : State) {m : Msg} (h : m.flags.toNat % 2 = 1) (info : Nat) (data : Bytes) :
    replyInfo s m 0 info data = s := by simp [replyInfo, h]

theorem replyInfo_sent (s : State) {m : Msg} (h : m.flags.toNat % 2 = 0) (status info : Nat) (data : Bytes) :
    replyInfo s m status info data =
      ringSend s 0 s.host.agreedMinor (m.opcode.toNat ||| 0x8000) m.seq.toNat (replyPayload status info data) := by
  simp [replyInfo, h]

theorem replyData_length_le (data : Bytes) (h : data.length ≤ 65488) : (replyPayload 0 0 data).length ≤ 65504 := by
  simp [replyPayload]
  omega

theorem flatten_map_length {α : Type} {f : α → Bytes} {n : Nat} (l : List α) (h : ∀ x, (f x).length = n) :
    (l.map f).flatten.length = l.length * n := by
  simp [List.length_flatten, Function.comp_def, h]

theorem counterImage_length (s : State) : (counterImage s).length = 36864 := by
  rw [counterImage, flatten_map_length _ fun _ => toLe_length 4 _, List.length_range]

/-! ### Entry into the safe state (R324 to R326) -/

/-- The registers that a hand-over to the vehicle link counts in (R436, R439). -/
def isHandOverReg (off : Nat) : Bool := decide (off = offVlCounter ∨ off = offVlDrop)

/-- A state without what an entry into the safe state changes: the latch's record, the lines, the vehicle link's queue and
counters, Latigo's mode, the record released in its place, and reports. -/
def unentered (s : State) : State :=
  { unreported s with
    regs := (unreported s).regs.filter fun p => !isHandOverReg p.1
    outp := .reset
    lat := .reset
    safety := .reset
    cyc := { s.cyc with record := none, earlyRecord := none, lastResult := [], lateAbort := false, lateAbortNext := false } }

theorem unentered_of_unreported {t v : State} (h : unreported t = unreported v) : unentered t = unentered v := by
  have hcyc := unreported_cyc h
  unfold unentered
  rw [h, hcyc]

/-- A counter of the hand-over is no part of it. -/
theorem bumpReg_unentered (s : State) {off : Nat} (h : isHandOverReg off = true) : unentered (bumpReg s off) = unentered s := by
  have hring : isRingReg off = false := by
    simp only [isHandOverReg, decide_eq_true_eq] at h
    rcases h with rfl | rfl <;> decide
  have hregs : (unreported (bumpReg s off)).regs.filter (fun p => !isHandOverReg p.1) =
      (unreported s).regs.filter fun p => !isHandOverReg p.1 := by
    simp only [unreported, List.filter_filter]
    exact filter_mapSet resetVal (fun k => !isHandOverReg k && !isRingReg k) off _ (by simp [h]) s.regs
  unfold unentered
  rw [hregs]
  rfl

theorem vlHandOver_unentered (s : State) (bs : Bytes) : unentered (vlHandOver s bs) = unentered s := by
  have hcounter := bumpReg_unentered s (off := offVlCounter) (by decide)
  unfold vlHandOver
  dsimp only
  split
  · exact hcounter
  · exact (bumpReg_unentered _ (by decide)).trans hcounter

theorem vlHandOver_safety (s : State) (bs : Bytes) : (vlHandOver s bs).safety = s.safety := by
  unfold vlHandOver
  dsimp only
  split <;> rfl

theorem releaseLines_unentered (s : State) (st : Nat) : unentered (releaseLines s st) = unentered s := by
  unfold releaseLines
  (repeat' split) <;> rfl

theorem releaseLines_safety (s : State) (st : Nat) : (releaseLines s st).safety = s.safety := by
  unfold releaseLines
  (repeat' split) <;> rfl

/-- A record that goes out: hand-over and lines, but in replay. -/
def handOut (s : State) (r : Released) : State :=
  if s.cyc.dev = .replay then s else releaseLines (vlHandOver s r.bytes) r.state

theorem handOut_unentered (s : State) (r : Released) : unentered (handOut s r) = unentered s := by
  unfold handOut
  split
  · rfl
  · rw [releaseLines_unentered, vlHandOver_unentered]

theorem handOut_safety (s : State) (r : Released) : (handOut s r).safety = s.safety := by
  unfold handOut
  split
  · rfl
  · rw [releaseLines_safety, vlHandOver_safety]

theorem releaseRecord_unentered (s : State) (r : Released) : unentered (releaseRecord s r) = unentered s := by
  refine Eq.trans ?_ (handOut_unentered s r)
  unfold releaseRecord
  dsimp only
  split <;> rfl

theorem releaseRecord_safety (s : State) (r : Released) : (releaseRecord s r).safety = s.safety := by
  refine Eq.trans ?_ (handOut_safety s r)
  unfold releaseRecord
  dsimp only
  split <;> rfl

theorem entryRecord_unentered (s : State) : unentered (entryRecord s) = unentered s := by
  unfold entryRecord
  (repeat' split) <;> try rfl
  · exact releaseRecord_unentered ..
  · exact releaseRecord_unentered ..
  · exact vlHandOver_unentered ..

/-- A register that an entry into the safe state does not move reads alike. -/
theorem unentered_regOf {t v : State} (ht : Inv t) (hv : Inv v) (h : unentered t = unentered v) {off : Nat}
    (hoff : isRingReg off = false) (hvl : isHandOverReg off = false) : regOf t off = regOf v off := by
  have hk : (!isHandOverReg off && !isRingReg off) = true := by simp [hoff, hvl]
  have hregs : ∀ s, (unentered s).regs = s.regs.filter fun q => !isHandOverReg q.1 && !isRingReg q.1 := fun s =>
    List.filter_filter ..
  have hf := congrArg State.regs h
  rw [hregs, hregs] at hf
  have ht' := mapGet_filter resetVal (fun k => !isHandOverReg k && !isRingReg k) ht.regs hk
  have hv' := mapGet_filter resetVal (fun k => !isHandOverReg k && !isRingReg k) hv.regs hk
  exact ht'.symm.trans ((congrArg (mapGet resetVal · off) hf).trans hv')

theorem entryRecord_safety (s : State) : (entryRecord s).safety = s.safety := by
  unfold entryRecord
  (repeat' split) <;> try rfl
  · exact releaseRecord_safety ..
  · exact releaseRecord_safety ..
  · exact vlHandOver_safety ..

/-- The latch set with cause bits mask, the lines static (R324, R325). -/
def latchSafe (s : State) (mask : Nat) : State :=
  linesStatic { s with
    safety := { s.safety with
      safe := true, cause := s.safety.cause ||| BitVec.ofNat 16 mask,
      present := s.safety.present ||| BitVec.ofNat 16 (mask &&& lastingCauses), clearPending := false,
      entries := min 255 (s.safety.entries + 1), entrySeq := s.cyc.seq, entryAt := s.ao, causeAt := some s.ao }
    lat := { s.lat with stopMode := true } }

/-- A later cause only adds its bit (R325). -/
theorem enterSafe_of_latched {s : State} (h : s.safety.safe = true) (mask : Nat) :
    enterSafe s mask = { s with safety := { s.safety with
      cause := s.safety.cause ||| BitVec.ofNat 16 mask,
      present := s.safety.present ||| BitVec.ofNat 16 (mask &&& lastingCauses), clearPending := false, causeAt := some s.ao } } := by
  simp only [enterSafe, h, if_true]

theorem setSafe_of_safe {t : State} (h : t.safety.safe = true) : { t with safety := { t.safety with safe := true } } = t := by
  rw [← h]

/-- The first cause sets the latch; one event and one INVALID record follow (R325). -/
theorem enterSafe_of_clear {s : State} (h : s.safety.safe = false) (mask : Nat) :
    enterSafe s mask = entryRecord (sendOpenEvent (latchSafe s mask) 0x000C) := by
  have hs : (entryRecord (sendOpenEvent (latchSafe s mask) 0x000C)).safety.safe = true := by
    rw [entryRecord_safety, unreported_safe (sendOpenEvent_unreported ..)]
    rfl
  refine Eq.trans ?_ (setSafe_of_safe hs)
  simp only [enterSafe, h, Bool.false_eq_true, if_false]
  rfl

theorem enterSafe_unentered (s : State) (mask : Nat) : unentered (enterSafe s mask) = unentered s := by
  cases h : s.safety.safe with
  | true => rw [enterSafe_of_latched h]; rfl
  | false =>
    rw [enterSafe_of_clear h, entryRecord_unentered, unentered_of_unreported (sendOpenEvent_unreported ..)]
    rfl

theorem enterSafe_safe (s : State) (mask : Nat) : (enterSafe s mask).safety.safe = true := by
  cases h : s.safety.safe with
  | true => rw [enterSafe_of_latched h]; exact h
  | false =>
    rw [enterSafe_of_clear h, entryRecord_safety, unreported_safe (sendOpenEvent_unreported ..)]
    rfl

theorem enterSafe_cause (s : State) (mask : Nat) :
    (enterSafe s mask).safety.cause = s.safety.cause ||| BitVec.ofNat 16 mask := by
  cases h : s.safety.safe with
  | true => rw [enterSafe_of_latched h]
  | false =>
    rw [enterSafe_of_clear h, entryRecord_safety, unreported_cause (sendOpenEvent_unreported ..)]
    rfl

theorem enterSafe_present (s : State) (mask : Nat) :
    (enterSafe s mask).safety.present = s.safety.present ||| BitVec.ofNat 16 (mask &&& lastingCauses) := by
  cases h : s.safety.safe with
  | true => rw [enterSafe_of_latched h]
  | false =>
    rw [enterSafe_of_clear h, entryRecord_safety, unreported_present (sendOpenEvent_unreported ..)]
    rfl

/-- With the latch set the lines are static and low, and FP_DEGRADED is high (R325). -/
theorem lines_of_safe {s : State} (h : Inv s) (hs : s.safety.safe = true) :
    s.outp.toggling = false ∧ s.outp.validA = false ∧ s.outp.validB = false ∧ s.outp.degraded = true := by
  have hl := h.lines
  rw [hs] at hl
  cases ht : s.outp.toggling <;> simp_all [linesOf]

/-! ### Safe-state requests -/

/-- What a request for the safe state leaves: the latch with cause bit 6, static lines, all else of the run (R324, R325). -/
structure RequestedSafe (s t : State) : Prop where
  safe : t.safety.safe = true
  cause : t.safety.cause = s.safety.cause ||| 64
  lines : t.outp.toggling = false ∧ t.outp.validA = false ∧ t.outp.validB = false ∧ t.outp.degraded = true
  dev : t.cyc.dev = s.cyc.dev
  seq : t.cyc.seq = s.cyc.seq
  running : t.disp.running = s.disp.running
  world : t.world = s.world
  load : t.load = s.load
  queues : t.host.queues = s.host.queues

/-- Whatever is reported of the entry. -/
theorem requestedSafe_of_unreported {s t : State} (hi : Inv s) (h : unreported t = unreported (enterSafe s 64)) :
    RequestedSafe s t := by
  have hu := (unentered_of_unreported h).trans (enterSafe_unentered s 64)
  refine
    { safe := (unreported_safe h).trans (enterSafe_safe ..)
      cause := (unreported_cause h).trans (enterSafe_cause ..)
      lines := ?_
      dev := congrArg (·.cyc.dev) hu
      seq := congrArg (·.cyc.seq) hu
      running := congrArg (·.disp.running) hu
      world := congrArg (·.world) hu
      load := congrArg (·.load) hu
      queues := congrArg (·.host.queues) hu }
  rw [unreported_outp h]
  exact lines_of_safe (enterSafe_inv _ _ hi) (enterSafe_safe ..)

/-! ### Replies -/

/-- A reply is one entry of the REPLY ring: it stands at TAIL, or is dropped and counted; with NO_REPLY there is none (R387,
R389). -/
theorem replyData_stands {s : State} {m : Msg} {data : Bytes} (hi : Inv s) (hl : data.length ≤ 65488) :
    let bs := msgBytes s.host.agreedMinor (m.opcode.toNat ||| 0x8000) (s.host.seqs.getD 0 0).toNat m.seq.toNat
      (replyPayload 0 0 data)
    let t := replyData s m data
    (m.flags.toNat % 2 = 1 → t = s) ∧
    (m.flags.toNat % 2 = 0 → (regOf s 0x14 + BitVec.ofNat 32 bs.length - regOf s 0x10).toNat ≤ 0x20000 →
      ringRead t.mem 0x200000080000 0x20000 (regOf s 0x14).toNat bs.length = bs ∧
      regOf t 0x14 = regOf s 0x14 + BitVec.ofNat 32 bs.length ∧
      t.host.seqs = s.host.seqs.set 0 (s.host.seqs.getD 0 0 + 1) ∧ 0 ∈ t.host.ntfDue) ∧
    (m.flags.toNat % 2 = 0 → 0x20000 < (regOf s 0x14 + BitVec.ofNat 32 bs.length - regOf s 0x10).toNat →
      t.mem = s.mem ∧ regOf t 0x14 = regOf s 0x14 ∧ regOf t 0x30 = regOf s 0x30 + 1) := by
  intro bs t
  have hlen : bs.length ≤ ringSize 0 := (msgBytes_length_le _ _ _ _ _ (replyData_length_le _ hl)).trans (by decide)
  have hfit : ringFits s 0 bs.length = decide ((regOf s 0x14 + BitVec.ofNat 32 bs.length - regOf s 0x10).toNat ≤ 0x20000) :=
    rfl
  refine ⟨fun h1 => replyInfo_unsent s h1 0 _, fun h0 hfits => ?fits, fun h0 hfull => ?full⟩
  case fits =>
    have ht : t = _ := (replyInfo_sent s h0 0 0 data).trans (ringSend_fits (by rw [hfit, decide_eq_true hfits]))
    rw [ht]
    exact ⟨ringRead_ringWrite hi.mem hlen (by decide), (mapGet_mapSet _ hi.regs _ _ _).trans (if_pos rfl), rfl, mem_addOnce ..⟩
  case full =>
    have ht : t = _ := (replyInfo_sent s h0 0 0 data).trans
      (ringSend_drops (by rw [hfit, decide_eq_false (Nat.not_le.mpr hfull)]))
    rw [ht]
    exact ⟨rfl, (regOf_bumpReg hi.regs _ _).trans (if_neg (by decide)), (regOf_bumpReg hi.regs _ _).trans (if_pos rfl)⟩

theorem replyPiece_unreported (s : State) (m : Msg) (off : Nat) (obj : Bytes) :
    unreported (replyPiece s m off obj) = unreported s := by
  refine replyData_unreported _ _ _ ?_
  simp [pieceHeader, sliceOf]
  omega

theorem memRead_length (m : Mem) (a n : Nat) : (memRead m a n).length = n := by
  induction n generalizing a with
  | zero => rfl
  | succ n ih => simp [memRead, ih]

theorem replyMemPiece_unreported (s : State) (m : Msg) (addr total : Nat) :
    unreported (replyMemPiece s m addr total) = unreported s := by
  refine replyData_unreported _ _ _ ?_
  simp [pieceHeader, devRead, memRead_length]
  omega

/-- A mailbox command runs on its owner's front message when that is the command meant. -/
theorem withFront_takes {s : State} {o : Owner} {code : Nat} {m : Msg} {rest : List Msg} {isIt : Msg → Bool}
    {f : Msg → State → Result} (h : Front s o code m rest) (hm : isIt m = true) :
    withFront s o isIt f = f m (setOwnerQueue s o rest) := by
  obtain ⟨hq, -, hruns, haway, hreset⟩ := h
  simp [withFront, hq, hm, hruns, haway, hreset]

theorem aoAnswer_unreported (s : State) (v : Nat) : unreported (aoAnswer s v) = unreported s := rfl

/-! ### HELLO -/

/-- With no entry before the tail the router has nothing to take (R386). -/
theorem routeRun_idle {s : State} (h : s.host.cmdTail = regOf s 0x0C) : routeRun s = s := by
  have hc : canTake s (readEntry s) = false := by
    have h0 : (s.host.cmdTail - regOf s offCmdHead).toNat = 0 := by rw [h]; simp [offCmdHead]
    unfold canTake
    dsimp only
    rw [h0]
    simp
  unfold routeRun
  split
  · rw [routeAll, hc]
    rfl
  · rfl

/-- Registers set to 0, one after the other. -/
def clearRegs (s : State) (l : List Nat) : State := l.foldl (fun t off => setReg t off 0) s

theorem regOf_clearRegs {s : State} (h : mapWf resetVal s.regs = true) (l : List Nat) (off : Nat) :
    regOf (clearRegs s l) off = if off ∈ l then 0 else regOf s off := by
  induction l generalizing s with
  | nil => rfl
  | cons k t ih =>
    rw [clearRegs, List.foldl_cons, ← clearRegs, ih (mapWf_mapSet _ h k 0), regOf_setReg h]
    by_cases hk : off = k <;> simp [hk]

theorem clearRegs_frame (s : State) (l : List Nat) : clearRegs s l = { s with regs := (clearRegs s l).regs } := by
  induction l generalizing s with
  | nil => rfl
  | cons k t ih =>
    rw [clearRegs, List.foldl_cons, ← clearRegs, ih]
    rfl

/-- The ring pointers and DROPPED registers at 0, nothing pending in the rings (R400). -/
theorem clearRings_eq (s : State) : clearRings s =
    { s with
      regs := (clearRegs s [0x10, 0x14, 0x30, 0x18, 0x1C, 0x34, 0x20, 0x24, 0x38, 0x0C]).regs
      host := { s.host with cmdTail := 0, helloDrops := [0, 0, 0], ntfDue := [] } } := by
  have hr : clearRings s = { clearRegs s [0x10, 0x14, 0x30, 0x18, 0x1C, 0x34, 0x20, 0x24, 0x38, 0x0C] with
      host := { (clearRegs s [0x10, 0x14, 0x30, 0x18, 0x1C, 0x34, 0x20, 0x24, 0x38, 0x0C]).host with
        cmdTail := 0, helloDrops := [0, 0, 0], ntfDue := [] } } := by
    unfold clearRings
    rfl
  rw [hr, clearRegs_frame]

/-- Every pointer and DROPPED register of the rings, and CMD_HEAD, is 0; the other registers stay (R400). -/
theorem regOf_clearRings {s : State} (h : mapWf resetVal s.regs = true) (off : Nat) :
    regOf (clearRings s) off =
      if off ∈ [0x10, 0x14, 0x30, 0x18, 0x1C, 0x34, 0x20, 0x24, 0x38, 0x0C] then 0 else regOf s off := by
  have hregs := regOf_clearRegs h [0x10, 0x14, 0x30, 0x18, 0x1C, 0x34, 0x20, 0x24, 0x38, 0x0C] off
  rw [clearRings_eq]
  generalize clearRegs s [0x10, 0x14, 0x30, 0x18, 0x1C, 0x34, 0x20, 0x24, 0x38, 0x0C] = c at hregs ⊢
  exact hregs

/-- The session that an accepted HELLO opens or takes up again (R392, R398). -/
def withSession (s : State) (m : Msg) : State :=
  { s with host := { s.host with session := true, agreedMinor := m.minor, hbAt := some s.ao, timerAt := s.ao } }

theorem withSession_unreported {t v : State} (h : unreported t = unreported v) (m : Msg) :
    unreported (withSession t m) = unreported (withSession v m) := by
  have hcomm : ∀ s, unreported (withSession s m) = withSession (unreported s) m := fun _ => rfl
  rw [hcomm, hcomm, h]

/-- An accepted HELLO is logged, and opens the session. -/
theorem helloCommon_eq (s : State) (m : Msg) :
    helloCommon s m = withSession (tickFree (logHost s lcHello (sliceOf m.payload 4 4))) m := by
  unfold helloCommon
  generalize tickFree (logHost s lcHello (sliceOf m.payload 4 4)) = a
  rfl

theorem helloCommon_unreported (s : State) (m : Msg) : unreported (helloCommon s m) = unreported (withSession s m) := by
  rw [helloCommon_eq]
  exact withSession_unreported ((tickFree_unreported _).trans (logNow_unreported ..)) m

theorem helloData_length (s : State) (m : Msg) : (helloData s m).length = 32 := by simp [helloData]

/-- HELLO's reply takes 128 bytes. -/
theorem helloReply_length (minor : Byte) (opcode seq corr : Nat) (s : State) (m : Msg) :
    (msgBytes minor opcode seq corr (replyPayload 0 0 (helloData s m))).length = 128 := by
  simp [msgBytes, padMul, replyPayload, helloData_length]

/-! ### The obligations -/

/-- Settles O13: both requests enter the safe state, and report it. -/
theorem safeRequestsSetTheLatch : Obligations.SafeRequestsSetTheLatch := by
  intro s m rest hi
  refine ⟨fun hf => ?mailbox, fun hr hsb => ?sideband⟩
  case mailbox =>
    have h := requestedSafe_of_unreported (setOwnerQueue_inv s .island rest hi)
      ((reply_unreported (logIsland (enterSafe (setOwnerQueue s .island rest) 64)
        (Config.logCode lcSafeRequest) []) m stOk).trans (logIsland_unreported ..))
    obtain ⟨htog, hA, hB, hdeg⟩ := h.lines
    refine ⟨_, ?_, h.safe, h.cause, htog, hA, hB, hdeg, ?_, h.dev, h.seq, h.running, h.world, h.load⟩
    · change execSafeRequest s = _
      rw [execSafeRequest, withFront_front hf]
    · unfold ownerQueue
      rw [h.queues]
      exact ownerQueue_setOwnerQueue s .island rest
  case sideband =>
    have h := requestedSafe_of_unreported hi ((aoAnswer_unreported
      (logIsland (enterSafe s 64) (Config.logCode lcAoSafeRequest) []) 1).trans (logIsland_unreported ..))
    obtain ⟨htog, hA, hB, hdeg⟩ := h.lines
    refine ⟨_, ?_, h.safe, h.cause, htog, hA, hB, hdeg, rfl, h.dev, h.seq, h.running, h.world, h.load⟩
    change execAoSafeRequest s = _
    rw [execAoSafeRequest, hsb]
    exact onlyIf_true hr

/-- Settles O14: the three outcomes of `safeClearRun`. -/
theorem safeClearEndsTheSafeState : Obligations.SafeClearEndsTheSafeState := by
  intro s m rest hf u
  have hx : exec .safeClear s = .next (safeClearRun u m) := by
    change execSafeClear s = _
    rw [execSafeClear, withFront_front hf]
  have hsafe : u.safety.safe = s.safety.safe := rfl
  have hdev : u.cyc.dev = s.cyc.dev := rfl
  refine ⟨fun hs hb hc hd => ?_, fun hs hb hc hd => ?_, fun h => ?_⟩ <;> rw [hx]
  · simp [safeClearRun, hsafe, hs, hb, hc, hdev, hd]
    rfl
  · simp [safeClearRun, hsafe, hs, hb, hc, hdev, hd]
    rfl
  · have hcond : ¬u.safety.safe = true ∨ safeBlock u ≠ 0 ∨ causeNow u = true := by simpa [hsafe] using h
    simp only [safeClearRun, if_pos hcond]
    rfl

/-- Settles O15: each answer of the responder is its own arm. -/
theorem sidebandAnswers : Obligations.SidebandAnswers := by
  intro s hr hsb
  have hans : ∀ t, onlyIf s s.host.sbUp t = .next t := fun t => by rw [hsb]; exact onlyIf_true hr
  refine ⟨fun a => hans _, fun i w => hans _, hans _, fun d hd => ?_, fun d hd => ?_⟩
  · have hd : d ≠ resetKey := hd
    exact (hans _).trans (by rw [if_neg hd]; rfl)
  · have hd : ¬(d = resetKey ∧ resetArmed s = true) := by
      rintro ⟨rfl, ha⟩
      rcases hd with hd | hd | ⟨n, hn, hlt⟩
      · exact hd rfl
      · simp [resetArmed, hd] at ha
      · simp [resetArmed, hn] at ha
        omega
    exact (hans _).trans (by rw [if_neg hd]; rfl)

/-- Settles O12: READ_COUNTERS' reply is such an entry, its data the counters of the last boundary. -/
theorem repliesStandInTheRing : Obligations.RepliesStandInTheRing := by
  intro s m rest hf hi u bs tail
  refine ⟨replyData u m (counterImage s), ?_, replyData_stands (setOwnerQueue_inv s .sch rest hi)
    (by rw [counterImage_length]; decide)⟩
  change execReadCounters s = _
  rw [execReadCounters, withFront_front hf]
  rfl

/-- Settles O11: each query's data come from the state, and its reply changes reports alone. -/
theorem queriesAnswerAndChangeNothing : Obligations.QueriesAnswerAndChangeNothing := by
  intro s m rest u
  refine ⟨fun hf hr => ?query, fun hf => ?counters⟩
  case query =>
    have hrun : ∀ (isIt : Msg → Bool) f, isIt m = true → queryRun s isIt f = .next (f m u) := fun isIt f h => by
      rw [queryRun, withFront_takes hf h, if_pos hr]
    have hop : isOp 3 m = true := decide_eq_true hf.2.1
    refine ⟨fun hk => ⟨?_, replyPiece_unreported ..⟩, fun hk ha => ⟨?_, replyMemPiece_unreported ..⟩,
      fun hk => ⟨?_, replyMemPiece_unreported ..⟩, fun hk => ⟨?_, replyPiece_unreported ..⟩⟩
    · change execQueryDevice s = _
      rw [execQueryDevice, hrun _ _ (by simp [hop, hk]), if_pos hk]
    · change execQueryFacts s = _
      have ha : queryArg m ∈ u.cyc.factsSlots := ha
      rw [execQueryFacts, hrun _ _ (by simp [isQuery, hop, hk]), if_pos ha]
      rfl
    · change execQueryCkptRead s = _
      rw [execQueryCkptRead, hrun _ _ (by simp [isQuery, hop, hk])]
      rfl
    · change execQueryWeightDir s = _
      rw [execQueryWeightDir, hrun _ _ (by simp [isQuery, hop, hk])]
      rfl
  case counters =>
    refine ⟨?_, replyData_unreported _ _ _ (by rw [counterImage_length]; decide)⟩
    change execReadCounters s = _
    rw [execReadCounters, withFront_front hf]
    rfl

/-- The session that an accepted HELLO without REATTACH begins. -/
theorem freshReply_unreported (s u : State) (m : Msg) :
    { unreported (replyData (clearRings (helloCommon u m)) m (helloData s m)) with regs := [] } =
      { unreported u with regs := [], host := { (unreported u).host with
        session := true, agreedMinor := m.minor, hbAt := some u.ao, timerAt := u.ao, cmdTail := 0, helloDrops := [0, 0, 0] } } := by
  have hcommon := helloCommon_unreported u m
  rw [replyData_unreported _ _ _ (by rw [helloData_length]; decide), clearRings_eq]
  generalize helloCommon u m = a at hcommon ⊢
  have hclear : ∀ (b : State) (r : RegFile),
      { unreported { b with regs := r, host := { b.host with cmdTail := 0, helloDrops := [0, 0, 0], ntfDue := [] } } with regs := [] } =
        { unreported b with regs := [], host := { (unreported b).host with cmdTail := 0, helloDrops := [0, 0, 0] } } :=
    fun _ _ => rfl
  rw [hclear, hcommon]
  rfl

/-- The registers after a fresh HELLO and its reply (R387, R400). -/
theorem regOf_freshReply {s : State} (hi : Inv s) (m : Msg) (d : State) (off : Nat) :
    regOf (replyData (clearRings (helloCommon s m)) m (helloData d m)) off =
      if off = 0x14 then (if m.flags.toNat % 2 = 1 then 0 else 128)
      else if off ∈ [0x10, 0x30, 0x18, 0x1C, 0x34, 0x20, 0x24, 0x38, 0x0C] then 0 else regOf (helloCommon s m) off := by
  have hc : Inv (helloCommon s m) := helloCommon_inv _ _ hi
  have hw : Inv (clearRings (helloCommon s m)) := clearRings_inv _ hc
  have hreg := regOf_clearRings hc.regs
  generalize clearRings (helloCommon s m) = w at hw hreg
  have ht : regOf w (offTail 0) = 0 := (hreg _).trans (if_pos (by decide))
  have hh : regOf w (offHead 0) = 0 := (hreg _).trans (if_pos (by decide))
  by_cases hno : m.flags.toNat % 2 = 1
  · rw [replyData, replyInfo_unsent w hno, hreg, if_pos hno]
    by_cases h14 : off = 0x14 <;> simp [h14]
  · have hlen := helloReply_length w.host.agreedMinor (m.opcode.toNat ||| 0x8000) (w.host.seqs.getD 0 0).toNat m.seq.toNat d m
    have hfit : ringFits w 0 128 = true := by
      unfold ringFits
      rw [ht, hh]
      decide
    rw [replyData, replyInfo_sent w (by omega), ringSend_fits (by rw [hlen]; exact hfit), if_neg hno]
    dsimp only
    rw [hlen, ht]
    refine (mapGet_mapSet _ hw.regs _ _ _).trans ?_
    change (if off = 0x14 then _ else regOf w off) = _
    rw [hreg]
    by_cases h14 : off = 0x14 <;> simp [h14]

/-- The loss of a host that has not yet been lost sets HOST_LOST with the policy (R399). -/
theorem loseHost_unentered (s : State) : unentered (loseHost s) = unentered { s with host := { s.host with
    hostLost := true, lostPolicy := lossPolicy s, lostAtSeq := s.cyc.seq } } := by
  have hevent := unentered_of_unreported (sendOpenEvent_unreported { s with host := { s.host with
    hostLost := true, lostPolicy := lossPolicy s, lostAtSeq := s.cyc.seq } } 0x000D)
  unfold loseHost
  split
  · exact (enterSafe_unentered ..).trans hevent
  · exact hevent

/-- SAFE_AFTER sets the latch with cause HOST_LOSS (R399). -/
theorem loseHost_safe {s : State} (h : lossPolicy s = 2) :
    (loseHost s).safety.safe = true ∧ (loseHost s).safety.cause = s.safety.cause ||| 256 := by
  rw [loseHost, if_pos h]
  exact ⟨enterSafe_safe .., (enterSafe_cause ..).trans (by rw [unreported_cause (sendOpenEvent_unreported ..)]; rfl)⟩

/-- A HELLO in the AO cycle of the expiry meets the loss first; no time passes, and nothing is taken (R401). -/
theorem meetExpiry_frame (s : State) : (meetExpiry s).ao = s.ao ∧ (meetExpiry s).host.cmdTail = s.host.cmdTail ∧
    (Inv s → regOf (meetExpiry s) 0x0C = regOf s 0x0C) := by
  unfold meetExpiry
  split
  · have hun := loseHost_unentered s
    refine ⟨congrArg (·.ao) hun, congrArg (·.host.cmdTail) hun, fun hi => ?_⟩
    exact unentered_regOf (v := { s with host := { s.host with
      hostLost := true, lostPolicy := lossPolicy s, lostAtSeq := s.cyc.seq } }) (loseHost_inv s hi)
      ⟨hi.mem, hi.regs, hi.lines⟩ hun (by decide) (by decide)
  · exact ⟨rfl, rfl, fun _ => rfl⟩

/-- The host is back: HOST_LOST is clear and its cause has ceased, the DROPPED counts are noted (R400). -/
def reattached (s : State) (m : Msg) : State :=
  { withSession s m with
    host := { (withSession s m).host with
      hostLost := false, helloDrops := [regOf s 0x30, regOf s 0x34, regOf s 0x38] }
    safety := { s.safety with present := s.safety.present &&& ~~~0x100#16 } }

theorem helloReattached_unreported (s : State) (m : Msg) :
    unreported (helloReattached s m) = unreported (reattached s m) := by
  have hcommon := helloCommon_unreported s m
  rw [helloReattached, replyData_unreported _ _ _ (by rw [helloData_length]; decide)]
  generalize helloCommon s m = a at hcommon ⊢
  have hcomm : ∀ (b : State) (l : List Word),
      unreported (ceaseCause { b with host := { b.host with hostLost := false, helloDrops := l } } 8) =
        { unreported b with
          host := { (unreported b).host with hostLost := false, helloDrops := l }
          safety := { (unreported b).safety with present := (unreported b).safety.present &&& ~~~0x100#16 } } := fun _ _ => rfl
  rw [hcomm, hcommon]
  rfl

theorem hello_runs {s : State} {m : Msg} {rest : List Msg} (hf : Front s .router 1 m rest) (hre : isReattach m = false)
    (hrs : helloRsvd m = true) : exec .hello s = .next (routeRun (helloFresh (setOwnerQueue s .router rest) m)) := by
  change execHello s = _
  rw [execHello, withFront_takes hf (by simp [isOp, hf.2.1, hre]), if_pos hrs]

/-- Settles O10. -/
theorem sessionCommandsComplete : Obligations.SessionCommandsComplete := by
  intro s m rest u reports
  refine ⟨fun hf hre hrs => ⟨fun hopen hi => ?fresh, fun hs hd => ?active⟩, fun hf hre hrs => ?reattach, fun hf hrs => ?beat⟩
  case fresh =>
    have hx := hello_runs hf hre hrs
    have hnot : ¬(u.host.session = true ∧ u.cyc.dev ≠ .stopped) := fun ⟨hs, hd⟩ =>
      hopen.elim (fun hc => Bool.false_ne_true (hc.symm.trans hs)) hd
    have hiu : Inv u := setOwnerQueue_inv s .router rest hi
    rw [helloFresh, if_neg hnot] at hx
    have hun := freshReply_unreported u u m
    have hregs := regOf_freshReply hiu m u
    generalize replyData (clearRings (helloCommon u m)) m (helloData u m) = v at hx hun hregs
    have htail : v.host.cmdTail = 0 := congrArg (·.host.cmdTail) hun
    rw [routeRun_idle (by rw [htail, hregs]; rfl)] at hx
    refine ⟨v, hx, hun, fun off hoff => ?_, hregs _, fun off h1 h2 => ?_⟩
    · rw [hregs]
      fin_cases hoff <;> rfl
    · have hring : isRingReg off = false := by simpa [reports, isRingReg] using h2
      rw [hregs, if_neg, if_neg]
      · exact unreported_regOf (v := withSession u m) (helloCommon_inv _ _ hiu) ⟨hiu.mem, hiu.regs, hiu.lines⟩
          (helloCommon_unreported u m) hring
      all_goals simp [reports] at h1 h2 ⊢; tauto
  case active =>
    have hact : u.host.session = true ∧ u.cyc.dev ≠ .stopped := ⟨hs, hd⟩
    rw [hello_runs hf hre hrs, helloFresh, if_pos hact]
    rfl
  case reattach =>
    have hx : exec .helloReattach s = .next (routeRun (helloReattached (meetExpiry u) m)) := by
      change execHelloReattach s = _
      rw [execHelloReattach, withFront_takes hf (by simp [isOp, hf.2.1, hre]), if_pos hrs]
    have hun := helloReattached_unreported (meetExpiry u) m
    obtain ⟨hao, htail, hreg⟩ := meetExpiry_frame u
    refine ⟨_, hx, fun hi hidle => ?_, congrArg (·.host.hostLost) hun, congrArg (·.host.session) hun,
      congrArg (·.host.agreedMinor) hun, ?_, ?_, ?_, fun hl => ?_, fun hl => ?_⟩
    · have hie : Inv (meetExpiry u) := meetExpiry_inv _ (setOwnerQueue_inv s .router rest hi)
      refine routeRun_idle ?_
      rw [unreported_regOf (v := reattached (meetExpiry u) m) (helloReattached_inv _ _ hie) ⟨hie.mem, hie.regs, hie.lines⟩
        hun (by decide)]
      exact (congrArg (·.host.cmdTail) hun).trans ((htail.trans hidle).trans (hreg (setOwnerQueue_inv s .router rest hi)).symm)
    · exact (congrArg (·.host.hbAt) hun).trans (congrArg some hao)
    · exact (congrArg (·.host.timerAt) hun).trans hao
    · rw [unreported_present hun, reattached, BitVec.and_assoc, show ~~~0x100#16 &&& 0x100#16 = 0#16 from by decide,
        BitVec.and_zero]
      rfl
    · have hm : meetExpiry u = u := by
        have hl : lossBy u u.ao = false := hl
        rw [meetExpiry, hl]
        rfl
      rw [hm] at hun ⊢
      exact hun
    · have hm : meetExpiry u = loseHost u := by
        have hl : lossBy u u.ao = true := hl
        rw [meetExpiry, hl]
        rfl
      rw [hm] at hun ⊢
      have hlost := loseHost_unentered u
      refine ⟨(congrArg (·.host.lostAtSeq) hun).trans (congrArg (·.host.lostAtSeq) hlost),
        (congrArg (·.host.lostPolicy) hun).trans (congrArg (·.host.lostPolicy) hlost), fun hp => ?_⟩
      obtain ⟨hsafe, hcause⟩ := loseHost_safe (s := u) hp
      exact ⟨(unreported_safe hun).trans hsafe, (unreported_cause hun).trans hcause⟩
  case beat =>
    have hx : exec .heartbeat s = .next (reply (restartTimer (logHost u lcHeartbeat (m.payload.take 8))) m stOk) := by
      change execHeartbeat s = _
      rw [execHeartbeat, withFront_front hf, if_pos hrs]
    have hlog : unreported (logHost u lcHeartbeat (m.payload.take 8)) = unreported u := logNow_unreported ..
    refine ⟨_, hx, (reply_unreported ..).trans ?_⟩
    have hcomm : ∀ b, unreported (restartTimer b) = restartTimer (unreported b) := fun _ => rfl
    rw [hcomm, hlog]
    rfl

end Sys2Proof.Machine
end

section
/-! PROOFS. FP_SYNC edges and the AO cycle that passes on an empty queue (R7, R231, R447): an ignored edge changes its count and
reports alone, and of what happens without a command only free values remain (log entry 55). -/

namespace Sys2Proof.Machine

/-! ### FP_SYNC edges -/

/-- Edges ignored within the second before now. -/
def recentEdges (s : State) : List Nat := s.outp.ignoredAt.filter fun t => decide (s.ao < t + aoSecond)

/-- An ignored edge is noted and counted; with sixteen more within the second SYNC_LOST is set (R447). -/
def edgeIgnored (s : State) : State :=
  bumpReg { s with outp := { s.outp with
    ignoredAt := s.ao :: recentEdges s, syncLost := s.outp.syncLost || decide (16 ≤ (recentEdges s).length) } } offSyncIgnored

theorem loseSync_unreported (s : State) :
    unreported (loseSync s) = unreported { s with outp := { s.outp with syncLost := true } } :=
  (sendEvent_unreported ..).trans (logIsland_unreported ..)

theorem ignoreEdge_unreported (s : State) : unreported (ignoreEdge s) = unreported (edgeIgnored s) := by
  unfold ignoreEdge
  dsimp only
  rw [← recentEdges, List.length_cons]
  split
  case isTrue h =>
    have hl : decide (16 ≤ (recentEdges s).length) = true := decide_eq_true (by omega)
    rw [loseSync_unreported, edgeIgnored, hl, Bool.or_true]
    rfl
  case isFalse h =>
    have hl : (s.outp.syncLost || decide (16 ≤ (recentEdges s).length)) = s.outp.syncLost := by
      cases hs : s.outp.syncLost with
      | true => rfl
      | false =>
        rw [hs] at h
        simp at h ⊢
        omega
    rw [edgeIgnored, hl]

theorem edgeIgnored_inv {s : State} (h : Inv s) : Inv (edgeIgnored s) := ⟨h.mem, mapWf_mapSet _ h.regs _ _, h.lines⟩

/-- Settles O34: an edge is accepted, or ignored, by its distance from the last accepted one. -/
theorem syncEdgesAreFiltered : Obligations.SyncEdgesAreFiltered := by
  intro s hr accepted early recent
  have hx : exec .fpSyncEdge s = .next (if (match s.outp.acceptAt with
      | some t => decide (t + 50000 ≤ s.ao)
      | none => true) && !s.outp.syncLost then acceptEdge s else ignoreEdge s) := onlyIf_true hr
  refine ⟨fun hlost hsp => ?accept, fun hi hign => ?ignore, fun hlost hrec => ?clear⟩
  case accept =>
    have hspaced : (match s.outp.acceptAt with
        | some t => decide (t + 50000 ≤ s.ao)
        | none => true) = true := by
      split
      next t ht => exact decide_eq_true (hsp t ht)
      next => rfl
    have hearly : (decide (s.cyc.dev = .running) && nextSync s && edgeEarly s) = true ↔ early := by
      simp [early, edgeEarly, and_assoc]
    rw [hx, hspaced, hlost]
    refine ⟨fun he => ?_, fun he => ?_⟩
    · simp only [acceptEdge, hearly.mpr he]
      rfl
    · simp only [acceptEdge, Bool.eq_false_iff.mpr fun h => he (hearly.mp h)]
      rfl
  case ignore =>
    have hno : ((match s.outp.acceptAt with
        | some t => decide (t + 50000 ≤ s.ao)
        | none => true) && !s.outp.syncLost) = false := by
      rcases hign with hlost | ⟨t, ht, hlt⟩
      · simp [hlost]
      · simp [ht, hlt]
    have hun := ignoreEdge_unreported s
    refine ⟨ignoreEdge s, by rw [hx, hno]; rfl, unreported_outp hun, ?_,
      (unreported_cyc hun).trans rfl, (unreported_cause hun).trans rfl⟩
    exact unreported_regOf (ignoreEdge_inv _ hi) (edgeIgnored_inv hi) hun (by decide)
  case clear =>
    have hall : (s.outp.ignoredAt.all fun t => decide (t + aoSecond ≤ s.ao)) = true := by
      simp only [List.all_eq_true, decide_eq_true_eq]
      intro t ht
      have := List.filter_eq_nil_iff.mp hrec t ht
      simpa [aoSecond] using this
    change execSyncLostClear s = _
    rw [execSyncLostClear, hlost, hall]
    exact onlyIf_true hr

/-! ### What happens without a command (log entry 55) -/

theorem shortPulse_cases (s : State) : shortPulse s = s ∨ s.ao % 100 = 0 ∧ shortPulse s = ignoreEdge s := by
  unfold shortPulse
  split
  case isTrue h => exact .inr ⟨h.1, rfl⟩
  case isFalse => exact .inl rfl

theorem upset_only (s : State) : ∃ l, upset s = { s with plat := { s.plat with softWords := l } } := by
  unfold upset
  dsimp only
  split
  · exact ⟨_, rfl⟩
  · exact ⟨_, rfl⟩

theorem retryBursts_only (s : State) (h : mapWf resetVal s.regs = true) : ∃ r, retryBursts s = { s with regs := r } ∧
    ∀ off, off ≠ 0x3190 → mapGet resetVal r off = regOf s off := by
  unfold retryBursts
  split
  · exact ⟨_, rfl, fun off hoff => (regOf_setReg h _ _ _).trans (if_neg hoff)⟩
  · exact ⟨_, rfl, fun _ _ => rfl⟩

theorem comparePins_only (s : State) : ∃ b p,
    comparePins s = { s with outp := { s.outp with readbackBad := b }, safety := { s.safety with present := p } } ∧
    (s.outp.readbackBad = true → b = true) ∧ p &&& ~~~0x800#16 = s.safety.present &&& ~~~0x800#16 := by
  unfold comparePins
  split
  · refine ⟨_, _, rfl, fun _ => rfl, ?_⟩
    ext i hi
    simp only [BitVec.getElem_and, BitVec.getElem_or, BitVec.getElem_not]
    cases (0x800#16)[i] <;> simp
  · exact ⟨_, _, rfl, id, rfl⟩

theorem samplePins_only (s : State) : ∃ raw l,
    samplePins s = { s with outp := { s.outp with stopRaw := raw }, ing := { s.ing with intLow := l } } ∧
    (s.ao % 100 ≠ 0 → raw = s.outp.stopRaw) ∧ ∀ k ∈ l, k ∈ s.ing.intLow :=
  ⟨_, _, rfl, fun h => if_neg h, fun _ hk => (List.mem_filter.mp hk).1⟩

theorem sampleTemps_only (s : State) : ∃ l, sampleTemps s = { s with plat := { s.plat with temps := l } } := by
  unfold sampleTemps
  dsimp only
  split
  · exact ⟨_, rfl⟩
  · exact ⟨_, rfl⟩

/-- After the pulse, words in error, the retry count, the pins and the samples may change; the free counter moves on. -/
theorem unbidden_only (s : State) (h : mapWf resetVal (shortPulse s).regs = true) : ∃ soft temps b raw l p r,
    unbidden s = { shortPulse s with
      disp := { (shortPulse s).disp with freeCtr := (shortPulse s).disp.freeCtr + 1 }
      outp := { (shortPulse s).outp with readbackBad := b, stopRaw := raw }
      ing := { (shortPulse s).ing with intLow := l }
      safety := { (shortPulse s).safety with present := p }
      plat := { (shortPulse s).plat with softWords := soft, temps := temps }
      regs := r } ∧
    ((shortPulse s).outp.readbackBad = true → b = true) ∧
    ((shortPulse s).ao % 100 ≠ 0 → raw = (shortPulse s).outp.stopRaw) ∧ (∀ k ∈ l, k ∈ (shortPulse s).ing.intLow) ∧
    p &&& ~~~0x800#16 = (shortPulse s).safety.present &&& ~~~0x800#16 ∧
    ∀ off, off ≠ 0x3190 → mapGet resetVal r off = regOf (shortPulse s) off := by
  unfold unbidden
  generalize shortPulse s = a at h ⊢
  obtain ⟨soft, hsoft⟩ := upset_only a
  generalize upset a = a1 at hsoft ⊢
  subst hsoft
  obtain ⟨r, hretry, hr⟩ := retryBursts_only { a with plat := { a.plat with softWords := soft } } h
  generalize retryBursts { a with plat := { a.plat with softWords := soft } } = a2 at hretry ⊢
  obtain ⟨b, p, hpins, hb, hp⟩ := comparePins_only a2
  generalize comparePins a2 = a3 at hpins ⊢
  obtain ⟨raw, l, hsample, hraw, hl⟩ := samplePins_only a3
  generalize samplePins a3 = a4 at hsample ⊢
  obtain ⟨temps, htemps⟩ := sampleTemps_only a4
  generalize sampleTemps a4 = a5 at htemps ⊢
  subst hretry hpins hsample htemps
  exact ⟨soft, temps, b, raw, l, p, r, rfl, hb, hraw, hl, hp, hr⟩

/-- A retraining ends with its microsecond (R366). -/
theorem endRetrain_eq (s : State) : endRetrain s = { s with plat := { s.plat with
    retraining := s.plat.retraining.filter fun c => s.plat.retrainAt.any fun e => decide (e.1 = c ∧ s.ao < e.2 + 100) } } := by
  unfold endRetrain
  split
  next hn => rw [hn, Option.filter_none, ← hn]
  next c hc =>
    rw [hc, Option.filter_some]
    cases hw : s.plat.retrainAt.any fun e => decide (e.1 = c ∧ s.ao < e.2 + 100) with
    | true => rw [if_pos rfl, if_pos rfl, ← hc]
    | false => rw [if_neg (by decide), if_neg (by decide)]

/-- Nothing waits for the end of the AO cycle. -/
theorem settleAo_idle {s : State} (hitem : ∀ item, s.cyc.item ≠ .waiting item) (hlat : s.lat.running = false) : settleAo s = s := by
  have hjudge : judgeIfWaiting s = s := by
    unfold judgeIfWaiting
    split
    next item h => exact absurd h (hitem item)
    next => rfl
  simp [settleAo, hjudge, settleIfDue, hlat]

theorem ignoreEdge_frame {s : State} (h : Inv s) : (ignoreEdge s).ao = s.ao ∧
    (ignoreEdge s).host.cmdTail = s.host.cmdTail ∧ regOf (ignoreEdge s) 0x0C = regOf s 0x0C := by
  have hun := ignoreEdge_unreported s
  refine ⟨congrArg (·.ao) hun, congrArg (·.host.cmdTail) hun, ?_⟩
  rw [unreported_regOf (ignoreEdge_inv _ h) (edgeIgnored_inv h) hun (by decide)]
  exact (regOf_bumpReg h.regs _ _).trans (if_neg (by decide))

/-- Settles O2: the tick's parts in turn, and the router idle at its end. -/
theorem idleStepPassesOneAoCycle : Obligations.IdleStepPassesOneAoCycle := by
  intro s hp
  have hstep : step s = .next (tickAo s) := by simp only [step, hp]
  refine ⟨fun hr => ?held, fun hr hi hidle hitem hlat => ?free, _, hstep, by rw [(tickAo_kept s).1, hp]⟩
  case held => rw [hstep, tickAo, if_pos hr]
  case free =>
    have hpulse : (shortPulse s).ao = s.ao ∧ (shortPulse s).host.cmdTail = s.host.cmdTail ∧
        regOf (shortPulse s) 0x0C = regOf s 0x0C ∧ (shortPulse s = s ∨ s.ao % 100 = 0 ∧ shortPulse s = ignoreEdge s) := by
      rcases shortPulse_cases s with h | ⟨h0, h⟩
      · simp [h]
      · obtain ⟨h1, h2, h3⟩ := ignoreEdge_frame hi
        rw [h]
        exact ⟨h1, h2, h3, .inr ⟨h0, rfl⟩⟩
    obtain ⟨hao, htail, hreg, hcases⟩ := hpulse
    obtain ⟨soft, temps, b, raw, l, p, r, hun, hb, hraw, hl, hpres, hr'⟩ := unbidden_only s (shortPulse_inv s hi).regs
    rw [tickAo, if_neg (by simp [hr]), settleAo_idle hitem hlat] at hstep
    dsimp only at hstep
    rw [hun, endRetrain_eq, routeRun_idle] at hstep
    · generalize shortPulse s = s0 at hstep hao hcases hb hraw hl hpres hr'
      rw [hao] at hraw
      exact ⟨s0, _, hcases, hstep, congrArg (· + 1) hao, rfl, rfl, hb, hraw, rfl, hl, rfl, hpres, rfl, rfl, hr', rfl⟩
    · exact (htail.trans hidle).trans (hreg.symm.trans (hr' _ (by decide)).symm)

end Sys2Proof.Machine
end

section
/-! PROOFS. What issuing a descriptor leaves alone (R76, R84, R85, R362): the errors it corrects are counted and reported, and
nothing else but the instance, its unit and the trace port moves. -/

namespace Sys2Proof.Machine

/-- The state without what a corrected error counts and reports (R362). -/
def uncounted (s : State) : State :=
  { s with mem := [], regs := [], host := State.reset.host, plat := State.reset.plat, out := [] }

theorem ringSend_uncounted (s : State) (r : Nat) (minor : Byte) (opcode corr : Nat) (payload : Bytes) :
    uncounted (ringSend s r minor opcode corr payload) = uncounted s := by
  unfold ringSend
  dsimp only
  split <;> rfl

theorem sendEvent_uncounted (s : State) (code : Nat) (data : Bytes) : uncounted (sendEvent s code data) = uncounted s := by
  unfold sendEvent
  split
  · exact ringSend_uncounted ..
  · exact foldl_frame uncounted _ (fun _ _ => ringSend_uncounted ..) _ s

theorem corrected_uncounted (s : State) (c : Nat) : uncounted (corrected s c) = uncounted s := by
  unfold corrected
  dsimp only
  split
  · exact sendEvent_uncounted ..
  · rfl

/-- What a step of counting corrections leaves alone, a read that corrects leaves alone, if the platform's record is no part of it. -/
theorem correctRead_frame {γ : Type} (g : State → γ) (hc : ∀ s c, g (corrected s c) = g s)
    (hp : ∀ s p, g { s with plat := p } = g s) (s : State) (a n : Nat) : g (correctRead s a n) = g s := by
  have hl := foldl_frame g (fun t _ => corrected t (classOfKey a)) (fun t _ => hc t _) (softIn s a n) s
  unfold correctRead
  dsimp only
  split
  · exact hl
  · exact (hp _ _).trans hl

theorem correctReads_frame {γ : Type} (g : State → γ) (hc : ∀ s c, g (corrected s c) = g s)
    (hp : ∀ s p, g { s with plat := p } = g s) (b : Nat) (s : State) (l : List (Nat × Nat)) :
    g (l.foldl (fun t r => correctRead t (b + r.1) r.2) s) = g s :=
  foldl_frame g (fun t r => correctRead t (b + r.1) r.2) (fun t _ => correctRead_frame g hc hp t _ _) l s

theorem correctAccess_frame {γ : Type} (g : State → γ) (hc : ∀ s c, g (corrected s c) = g s)
    (hp : ∀ s p, g { s with plat := p } = g s) (s : State) (tile : Nat) (a : Access) : g (correctAccess s tile a) = g s := by
  rw [correctAccess]
  exact correctReads_frame g hc hp ..

theorem correctAccess_uncounted (s : State) (tile : Nat) (a : Access) : uncounted (correctAccess s tile a) = uncounted s :=
  correctAccess_frame uncounted corrected_uncounted (fun _ _ => rfl) s tile a

/-- Without words in error a read corrects nothing. -/
theorem correctRead_good {s : State} (h : s.plat.softWords = []) (a n : Nat) : correctRead s a n = s := by
  have hl : softIn s a n = [] := by rw [softIn, h]; rfl
  unfold correctRead
  rw [hl]
  simp only [List.foldl_nil, h, List.filter_nil, ite_eq_left_iff]
  intro _
  rw [← h]

theorem correctReads_good {s : State} (h : s.plat.softWords = []) (b : Nat) (l : List (Nat × Nat)) :
    l.foldl (fun t r => correctRead t (b + r.1) r.2) s = s := by
  induction l with
  | nil => rfl
  | cons r l ih => rw [List.foldl_cons, correctRead_good h, ih]

theorem correctAccess_good {s : State} (h : s.plat.softWords = []) (tile : Nat) (a : Access) : correctAccess s tile a = s := by
  rw [correctAccess]
  exact correctReads_good h ..

/-- Memory outside the device rings reads alike where the rings alone differ. -/
theorem memRead_of_memClear {m m' : Mem} (hm : memWf m = true) (hm' : memWf m' = true) {b k a n : Nat}
    (h : memClear m b k = memClear m' b k) (ha : b + k ≤ a) : memRead m a n = memRead m' a n := by
  induction n generalizing a with
  | zero => rfl
  | succ n ih =>
    have hp : (decide (a < b) || decide (b + k ≤ a)) = true := by simp [ha]
    have h1 := mapGet_filter memDefault (fun c => decide (c < b) || decide (b + k ≤ c)) hm hp
    have h2 := mapGet_filter memDefault (fun c => decide (c < b) || decide (b + k ≤ c)) hm' hp
    have hget : memGet m a = memGet m' a := h1.symm.trans ((congrArg (mapGet memDefault · a) h).trans h2)
    rw [memRead, memRead, hget, ih (by omega)]

theorem sendEvent_memClear (s : State) (code : Nat) (data : Bytes) :
    memClear (sendEvent s code data).mem ringsBase 0x40000 = memClear s.mem ringsBase 0x40000 :=
  congrArg State.mem (sendEvent_unreported s code data)

theorem corrected_memClear (s : State) (c : Nat) :
    memClear (corrected s c).mem ringsBase 0x40000 = memClear s.mem ringsBase 0x40000 := by
  unfold corrected
  dsimp only
  split
  · rw [sendEvent_memClear]
    simp only [bumpReg_mem]
  · simp only [bumpReg_mem]

theorem traceRec_only (s : State) (tp src arg16 a b : Nat) : ∃ o, traceRec s tp src arg16 a b = { s with out := o } := by
  unfold traceRec
  split
  · exact ⟨_, rfl⟩
  · exact ⟨_, rfl⟩

/-- An issue moves the dispatcher's record and the outputs. -/
theorem noteIssue_only (s : State) (i : Inst) (d : Bytes) (holds : Bool) (writes : List (Nat × Nat)) :
    ∃ x o, noteIssue s i d holds writes = { s with disp := x, out := o } := by
  unfold noteIssue
  dsimp only
  split
  · exact ⟨_, traceRec_only ..⟩
  · exact ⟨_, traceRec_only ..⟩

/-- Settles O41: the issue moves its instance alone; the reads it makes count corrections. -/
theorem issueMovesTheInstanceOn : Obligations.IssueMovesTheInstanceOn := by
  intro s tile ctx op r i h u
  obtain ⟨rfl, rfl⟩ := instOf_place h.inst
  obtain ⟨x, o, hnote⟩ := noteIssue_only s i (descBytes s i i.pc) r.holds (accessAt s r i).writes
  have hu : uncounted u = uncounted (noteIssue s i (descBytes s i i.pc) r.holds (accessAt s r i).writes) :=
    correctAccess_uncounted ..
  have hrun : u.disp.running = (setInst s (issuedInst s r i)).disp.running := by
    rw [show u = issued s i.tile r i from rfl, issued, correctAccess_disp, noteIssue_running]
    rfl
  refine ⟨instOf_issued h.inst r, fun hsoft => ?good, fun hi t a n => ?read, issued_tokens .., ?_, ?_, ?_, ?_, ?_, fun t c hne => ?other⟩
  case good =>
    have hu' : u = noteIssue s i (descBytes s i i.pc) r.holds (accessAt s r i).writes :=
      correctAccess_good ((congrArg (·.plat.softWords) hnote).trans hsoft) ..
    rw [hu']
    exact ⟨congrArg (·.mem) hnote, congrArg (·.regs) hnote, congrArg (·.plat) hnote⟩
  case read =>
    have hclear := correctAccess_frame (fun s => memClear s.mem ringsBase 0x40000) corrected_memClear (fun _ _ => rfl)
      (noteIssue s i (descBytes s i i.pc) r.holds (accessAt s r i).writes) i.tile (accessAt s r i)
    have hmem := congrArg (·.mem) hnote
    refine memRead_of_memClear (correctAccess_inv _ _ _ (noteIssue_inv _ _ _ _ _ hi)).mem hi.mem (hclear.trans ?_) ?_
    · exact congrArg (memClear · ringsBase 0x40000) hmem
    · simp only [ringsBase, tileBase]
      omega
  case other =>
    rw [instOf_congr hrun]
    exact instOf_setInst_other s (issuedInst s r i) hne
  · exact (congrArg (·.cyc) hu).trans (congrArg (·.cyc) hnote)
  · exact (congrArg (·.world) hu).trans (congrArg (·.world) hnote)
  · exact (congrArg (·.chans) hu).trans (congrArg (·.chans) hnote)
  · exact (congrArg (·.flows) hu).trans (congrArg (·.flows) hnote)
  · exact (congrArg (·.safety) hu).trans (congrArg (·.safety) hnote)

end Sys2Proof.Machine
end

section
/-! PROOFS. The flows' releases (R262 to R264, R277), the judgement of a release request (R241, R250, R305) and the end of Latigo
(R242, R317, R320). -/

namespace Sys2Proof.Machine

/-! ### Flows -/

/-- What is read for a flow is that flow's. -/
theorem flowOf_flowId (s : State) (f : Nat) : (flowOf s f).flowId = f := by
  unfold flowOf
  cases h : s.flows.find? (·.flowId = f) with
  | none => rfl
  | some x => simpa using List.find?_some h

theorem flowOf_setFlow_self (s : State) {x : Flow} {f : Nat} (h : x.flowId = f) : flowOf (setFlow s x) f = x := by
  rw [flowOf_setFlow, if_pos h]

theorem flowOf_setFlow_other (s : State) {x : Flow} {f g : Nat} (h : x.flowId = f) (hg : g ≠ f) :
    flowOf (setFlow s x) g = flowOf s g := by
  rw [flowOf_setFlow, if_neg fun he => hg (he.symm.trans h)]

theorem flowOf_congr {s t : State} (h : t.flows = s.flows) (f : Nat) : flowOf t f = flowOf s f := by
  unfold flowOf
  rw [h]

/-- An item released to a ring moves its flow, the ring's bytes and the consumer's counter (R264). -/
theorem releaseToRing_moves (s : State) (c : FlowCfg) {x : Flow} {f : Nat} (seq : Word) (item : Bytes) (rest : List FlowItem)
    (h : x.flowId = f) :
    let u := releaseToRing s c x seq item rest
    flowOf u f = { x with items := rest, released := x.released + 1, nextSeq := seq + 1, blocked := false } ∧
      (∀ g, g ≠ f → flowOf u g = flowOf s g) ∧ u.disp.tokens = (addToken s c.consTile c.consCounter 1).disp.tokens ∧
      u.regs = s.regs ∧ u.cyc = s.cyc := by
  unfold releaseToRing
  dsimp only
  generalize hs1 : devWrite s _ _ = s1
  generalize hs2 : devWrite s1 _ _ = s2
  have hd : s2.disp = s.disp := by rw [← hs2, ← hs1]; rfl
  refine ⟨flowOf_setFlow_self _ h, fun g hg => ?_, ?_, ?_, ?_⟩
  · rw [flowOf_setFlow_other (f := f) _ (by exact h) hg]
    exact flowOf_congr (by rw [addToken_flows, ← hs2, ← hs1]; rfl) g
  · simp only [setFlow_disp, addToken, tokenOf, hd]
  · rw [setFlow_regs, addToken_regs, ← hs2, ← hs1]
    rfl
  · rw [setFlow_cyc, addToken_cyc, ← hs2, ← hs1]
    rfl

/-- The item at NEXT_SEQ of a flow that is not blocked leaves it (R264). -/
theorem flowRelease_releases {s : State} {f : Nat} {p : FlowItem} {rest : List FlowItem} (hr : s.boot.inReset = false)
    (hn : nextItem (flowOf s f) = some (p, rest)) (hb : (flowOf s f).blocked = false) :
    exec (.flowRelease f) s = ofAttempt (releaseItem s f (flowOf s f) p rest) := by
  change execFlowRelease f s = _
  simp [execFlowRelease, hn, hb, hr]

/-- At a sink it goes where the sink sends it. -/
theorem releaseItem_sink (s : State) {f : Nat} (hf : isSink f = true) (x : Flow) (p : FlowItem) (rest : List FlowItem) :
    releaseItem s f x p rest = toSink (setFlow s { x with items := rest, nextSeq := p.seq + 1 }) f p := if_pos hf

/-! ### Collectives issued from their sink keep the flows -/

@[simp] theorem sendLink_flows (s : State) (l : Nat) (g : State → Bytes) : (sendLink s l g).flows = s.flows := by
  unfold sendLink
  split <;> rfl

@[simp] theorem broadcastColl_flows (s : State) (c : Coll) (dst : Nat) (bs : Bytes) :
    (broadcastColl s c dst bs).flows = s.flows := by
  unfold broadcastColl
  refine foldl_frame (·.flows) _ (fun t l => ?_) _ s
  split
  · rfl
  · exact foldl_frame (·.flows) _ (fun _ _ => sendLink_flows ..) _ t

@[simp] theorem fillMissing_flows (s : State) (c : Coll) : (fillMissing s c).flows = s.flows := by
  unfold fillMissing
  dsimp only
  split
  · exact foldl_frame (·.flows) _ (fun _ _ => by rfl) _ s
  · split
    · exact foldl_frame (·.flows) _ (fun _ _ => by rfl) _ s
    · rfl

@[simp] theorem completeColl_flows (s : State) (c : Coll) (status epoch : Nat) : (completeColl s c status epoch).flows = s.flows := by
  unfold completeColl
  dsimp only
  rw [addToken_flows, setColl_flows, devWrite_flows, fillMissing_flows]

@[simp] theorem advanceColl_flows (s : State) (c : Coll) : (advanceColl s c).flows = s.flows := by
  unfold advanceColl
  (repeat' split) <;> simp [submitColl]

/-- A collective whose frames have not come early starts, and no flow moves (R457). -/
theorem issueColl_starts {s : State} {item : Bytes} (h : collItemOk s item = true) (he : s.links.early = []) :
    ∃ u, issueColl s item = .ok u ∧ u.flows = s.flows := by
  unfold issueColl
  simp only [h, he, List.foldl_nil, Bool.not_true, Bool.false_eq_true, if_false]
  refine ⟨_, rfl, ?_⟩
  rw [advanceColl_flows]
  split
  · rw [broadcastColl_flows]
    split <;> rfl
  · split
    · rw [broadcastColl_flows]
      split <;> rfl
    · split <;> rfl

/-- Settles O50: by the flow the item leaves, and by the room its ring has. -/
theorem flowsReleaseInOrder : Obligations.FlowsReleaseInOrder := by
  intro s f hr x
  have hrelease : ∀ p rest, nextItem x = some (p, rest) → x.blocked = false →
      exec (.flowRelease f) s = ofAttempt (releaseItem s f x p rest) := fun p rest hn hb => flowRelease_releases hr hn hb
  refine ⟨fun p rest hn hb => ⟨fun c hs hc hok => ⟨fun hroom => ⟨_, ?ring, rfl,
    releaseToRing_moves s c p.seq p.bytes rest (flowOf_flowId s f)⟩, fun hroom => ?block⟩,
    ?batch, ?badBatch, ?dup, ?item, ?coll⟩, fun c hc hb hd => ?poll⟩
  case poll =>
    change execFlowAckPoll f s = _
    simp [execFlowAckPoll, hc, onlyIf, hr, show flowOf s f = x from rfl, hb, hd]
  case ring | block => simp [hrelease p rest hn hb, releaseItem, hs, hc, hok, hroom, blockFlow, ofAttempt]
  case batch | badBatch =>
    rintro rfl hok
    have hok' : taskItemOk (setFlow s { x with items := rest, nextSeq := p.seq + 1 }) p.bytes = _ := hok
    rw [hrelease p rest hn hb, releaseItem_sink s (by decide), toSink, if_pos (by decide), toWorldSink, hok']
    rfl
  case dup | item =>
    rintro rfl hseen
    have hseen' : (setFlow s { x with items := rest, nextSeq := p.seq + 1 }).cyc.planSeen = _ := hseen
    rw [hrelease p rest hn hb, releaseItem_sink s (by decide), toSink, if_neg (by decide), if_pos (by decide), toPlanSink, hseen']
    simp +contextual [ofAttempt]
  case coll =>
    rintro rfl hok he
    obtain ⟨u, hu, hflows⟩ := issueColl_starts (s := setFlow s { x with items := rest, nextSeq := p.seq + 1 }) hok he
    refine ⟨u, hu, ?_, hflows⟩
    rw [hrelease p rest hn hb, releaseItem_sink s (by decide), toSink, if_neg (by decide), if_neg (by decide), hu]
    rfl

/-! ### Release requests -/

@[simp] theorem traceRec_safety (s : State) (tp src arg16 a b : Nat) : (traceRec s tp src arg16 a b).safety = s.safety := by
  unfold traceRec
  split <;> rfl

/-- A judgement is traced, and the trace port is all that moves. -/
theorem traceGrant_only (s : State) (granted : Bool) : ∃ o, traceGrant s granted = { s with out := o } := traceRec_only ..

/-- A hand-over to the vehicle link moves its counters and its queue. -/
theorem vlHandOver_only (s : State) (bs : Bytes) : ∃ r i q, vlHandOver s bs =
    { s with regs := r, outp := { s.outp with ident := i, txq := q } } := by
  unfold vlHandOver
  dsimp only
  split
  · exact ⟨_, _, _, rfl⟩
  · exact ⟨_, _, _, rfl⟩

/-- A record released outside replay is the cycle's, and the lines follow its STATE (R243, R443, R444). -/
theorem releaseRecord_released {s : State} (h : s.cyc.dev ≠ .replay) (r : Released) :
    let u := releaseRecord s r
    u.cyc = { s.cyc with record := some r, lastResult := r.digest, lateAbort := false } ∧ u.disp = s.disp ∧ u.mem = s.mem ∧
      u.safety = s.safety ∧ (r.state = 0 → u.outp.toggling = true ∧ u.outp.degraded = false) ∧
      (r.state ≠ 0 → u.outp.degraded = true) ∧
      u.lat = if r.source = 0 then { s.lat with fallbackT := 0, incumbentAge := 0, stopMode := s.safety.safe }
        else { s.lat with fallbackT := fallbackNext s, incumbentAge := ageNext s } := by
  obtain ⟨g, i, q, hv⟩ := vlHandOver_only s r.bytes
  simp only [releaseRecord, h, if_false, hv, releaseLines]
  by_cases hs : r.state = 0 <;> by_cases hc : r.source = 0 <;> by_cases ht : s.outp.toggling = true <;> simp [hs, hc, ht]

/-- A primary that is refused while Latigo has not ended, or in the safe state, changes nothing else (R242). -/
theorem refuseItem_waits {s : State} (h : s.safety.safe = true ∨ latigoEnded s = false) :
    refuseItem s = { s with cyc := { s.cyc with item := .refused } } := by
  unfold refuseItem latigoIfDue
  rw [if_neg]
  rcases h with h | h
  · simp [h]
  · have he : latigoEnded { s with cyc := { s.cyc with item := .refused } } = false := h
    simp [he]

/-- Settles O51: the request waits, or is judged. -/
theorem releaseRequestsAreJudged : Obligations.ReleaseRequestsAreJudged := by
  intro s item hr hc hitem opens
  have hx : exec .releaseRequest s = .next (if inTime s && (stitchOpen s || mayMismatch s) then
      { s with cyc := { s.cyc with item := .waiting item } } else judgeRelease s item) := by
    change execReleaseRequest s = _
    rw [execReleaseRequest, hitem]
    simp [onlyIf, hc, hr]
  have hjudge : inTime s = false ∨ ¬opens → exec .releaseRequest s = .next (judgeRelease s item) := fun h => by
    rw [hx, if_neg]
    simpa [opens, or_iff_not_imp_left] using h
  refine ⟨fun ht ho => ?wait, fun hg ho hsafe hdev => ?grant, fun hg ho hsafe => ?safe, fun hg ho hlat => ?refuse⟩
  case wait =>
    rw [hx, if_pos]
    simpa [ht, opens] using ho
  case grant =>
    rw [hjudge (.inr ho), judgeRelease, hg, hsafe]
    simp only [Bool.not_true, Bool.false_eq_true, if_false]
    obtain ⟨o, htrace⟩ := traceGrant_only { s with safety := { s.safety with primaryOk := true } } true
    rw [htrace]
    have hstate : (primaryRecord { s with safety := { s.safety with primaryOk := true } } item).state =
        if s.host.hostLost ∧ s.host.lostPolicy = 1 then 1 else 0 := rfl
    have hsource : (primaryRecord { s with safety := { s.safety with primaryOk := true } } item).source = 0 := rfl
    have htraj : (primaryRecord { s with safety := { s.safety with primaryOk := true } } item).trajectory = item.drop 0x20 := rfl
    generalize primaryRecord { s with safety := { s.safety with primaryOk := true } } item = r at hstate hsource htraj ⊢
    obtain ⟨hcyc, hdisp, hmem, hsafety, hvalid, hdegraded, hlat⟩ :=
      releaseRecord_released (s := { s with safety := { s.safety with primaryOk := true }, out := o }) (by simp [hdev]) r
    rw [if_pos hsource] at hlat
    exact ⟨_, r, rfl, by rw [hcyc], hsource, hstate, htraj, rfl, by rw [hcyc], by rw [hlat], by rw [hsafety], hvalid,
      fun h1 => hdegraded (by omega), hdisp, hmem⟩
  case safe =>
    obtain ⟨o, htrace⟩ := traceGrant_only { s with safety := { s.safety with primaryOk := true } } false
    have hrecord : s.cyc.record = none := by simp_all [grantable]
    rw [hjudge (.inr ho), judgeRelease, hg, hsafe]
    simp only [Bool.not_true, Bool.false_eq_true, if_false, if_true, htrace]
    rw [refuseItem_waits (.inl (by exact hsafe))]
    exact ⟨_, rfl, rfl, hrecord, rfl⟩
  case refuse =>
    obtain ⟨o, htrace⟩ := traceGrant_only s false
    rw [hjudge ho, judgeRelease, hg]
    simp only [Bool.not_false, if_true, htrace]
    rw [refuseItem_waits (.inr (by exact hlat))]
    exact ⟨_, rfl, rfl, rfl⟩

/-! ### What aborting an instance leaves alone (R86, R340) -/

/-- The state without what the DMA engines change as they end a set: memory, channels and queues, and free values (R340). -/
def unmoved (s : State) : State :=
  { s with
    mem := [], chans := [], ing := State.reset.ing, plat := State.reset.plat
    disp := { s.disp with freeCtr := 0 }
    cyc := { s.cyc with queueBytes := [] } }

theorem drainQueue_unmoved (s : State) (q : Nat) : unmoved (drainQueue s q) = unmoved s := by
  unfold drainQueue drainWhere
  rfl

theorem stopReading_unmoved (s : State) (key : Nat) (r : RegSet) : unmoved (stopReading s key r) = unmoved s := by
  unfold stopReading
  split <;> rfl

theorem endSet_unmoved (s : State) (key status done : Nat) : unmoved (endSet s key status done) = unmoved s := by
  unfold endSet
  dsimp only
  split
  · exact stopReading_unmoved ..
  · rfl

theorem endBoth_unmoved (s : State) (key status done : Nat) : unmoved (endBoth s key status done) = unmoved s := by
  unfold endBoth
  split
  · rw [endSet_unmoved, endSet_unmoved]
  · exact endSet_unmoved s key status done
  · exact endSet_unmoved s key status done

theorem advanceRead_unmoved (s : State) (r : RegSet) (n : Nat) : unmoved (advanceRead s r n) = unmoved s := by
  have hp : ∀ (t : State) q n, unmoved (passWords t q n) = unmoved t := fun t q n => drainQueue_unmoved ..
  unfold advanceRead
  split
  · rw [hp, hp]
  · rfl

theorem landSides_unmoved (s : State) (key : Nat) (w : List (Bytes × Nat)) : unmoved (landSides s key w) = unmoved s := by
  unfold landSides
  split
  · rfl
  · dsimp only
    split <;> exact advanceRead_unmoved ..

theorem cutTransfer_unmoved (s : State) (key status : Nat) : unmoved (cutTransfer s key status) = unmoved s := by
  unfold cutTransfer
  dsimp only
  split
  · rfl
  · split
    · exact endBoth_unmoved ..
    · exact (endBoth_unmoved ..).trans (landSides_unmoved ..)

theorem disarm_unmoved (s : State) (key : Nat) : unmoved (disarm s key) = unmoved s := by
  unfold disarm
  dsimp only
  split
  · exact cutTransfer_unmoved ..
  · rfl
  · rfl

theorem abortChannel_unmoved (i : Inst) (s : State) (key : Nat) : unmoved (abortChannel i s key) = unmoved s := by
  have hd : unmoved (if (chanGet s key).armed && armedBy (chanGet s key).shadow i s.cyc.seq then disarm s key else s) =
      unmoved s := by
    split
    · exact disarm_unmoved ..
    · rfl
  unfold abortChannel
  dsimp only
  split
  · split
    · exact (cutTransfer_unmoved ..).trans hd
    · exact hd
  · exact hd

theorem abortSets_unmoved (s : State) (i : Inst) : unmoved (abortSets s i) = unmoved s := by
  unfold abortSets
  exact foldl_frame unmoved _ (abortChannel_unmoved i) _ s

/-- The state without what the abort of an instance changes: memory, the dispatcher's record, channels and queues, the holds on
epochs, the facts, what is queued for the comparator, and reports. -/
def unaborted (s : State) : State :=
  { s with
    mem := [], regs := [], host := State.reset.host, chans := [], ing := State.reset.ing, plat := State.reset.plat, out := []
    disp := { s.disp with running := [], full := [], compQ := [], quarantined := [], freeCtr := 0 }
    world := { s.world with table := [], freed := [] }
    cyc := { s.cyc with facts := [], queueBytes := [] }
    safety := { s.safety with sigQ := [], tail := [], logSeq := 0 } }

theorem unaborted_of_unreported {t v : State} (h : unreported t = unreported v) : unaborted t = unaborted v := by
  have hu : ∀ s, unaborted s = unaborted (unreported s) := fun _ => rfl
  rw [hu t, hu v, h]

theorem devScramble_unaborted (s : State) (a n : Nat) : unaborted (devScramble s a n) = unaborted s := rfl

theorem dropHold_unaborted (s : State) (n : Nat) : unaborted (dropHold s n) = unaborted s := rfl

theorem abortSets_unaborted (s : State) (i : Inst) : unaborted (abortSets s i) = unaborted s := by
  have hu : ∀ t, unaborted t = unaborted (unmoved t) := fun _ => rfl
  rw [hu, abortSets_unmoved, ← hu]

theorem scrambleOutputs_unaborted (s : State) (i : Inst) : unaborted (scrambleOutputs s i) = unaborted s := by
  unfold scrambleOutputs
  exact foldl_frame unaborted _ (fun _ _ => devScramble_unaborted ..) _ s

theorem dropSweepHolds_unaborted (s : State) (i : Inst) : unaborted (dropSweepHolds s i) = unaborted s := by
  unfold dropSweepHolds
  exact foldl_frame unaborted _ (fun t w => by split <;> rfl) _ s

theorem endStream_unaborted (s : State) (i : Inst) (status : Nat) : unaborted (endStream s i status) = unaborted s := by
  unfold endStream
  split <;> rfl

theorem finishInst_unaborted (s : State) (i : Inst) (status : Nat) : unaborted (finishInst s i status) = unaborted s := by
  unfold finishInst
  dsimp only
  rw [unaborted_of_unreported (traceRec_unreported ..)]
  split
  · exact (dropHold_unaborted ..).trans rfl
  · rw [unaborted_of_unreported (logNow_unreported ..)]
    exact (dropHold_unaborted ..).trans rfl

theorem abortInst_unaborted (s : State) (i : Inst) (status : Nat) : unaborted (abortInst s i status) = unaborted s := by
  unfold abortInst
  dsimp only
  rw [finishInst_unaborted]
  refine (scrambleOutputs_unaborted _ i).trans ?_
  rw [dropSweepHolds_unaborted, endStream_unaborted, abortSets_unaborted]

theorem abortAt_unaborted (s : State) (tile ctx status : Nat) : unaborted (abortAt s tile ctx status) = unaborted s := by
  unfold abortAt
  split
  · split
    · rfl
    · exact abortInst_unaborted ..
  · rfl

theorem quarantineCore_unaborted (s : State) (t : Nat) : unaborted (quarantineCore s t) = unaborted s := by
  unfold quarantineCore
  dsimp only
  exact (abortAt_unaborted ..).trans (abortAt_unaborted ..)

/-! ### The end of Latigo -/

/-- Latigo's record apart from what a released record or an entry into the safe state sets. -/
def unreleased (l : Latigo) : Latigo := { l with fallbackT := 0, incumbentAge := 0, stopMode := false }

theorem unreleased_failed (l : Latigo) : (unreleased l).failed = l.failed := rfl

theorem vlHandOver_lat (s : State) (bs : Bytes) : (vlHandOver s bs).lat = s.lat := by
  obtain ⟨r, i, q, h⟩ := vlHandOver_only s bs
  rw [h]

theorem releaseLines_lat (s : State) (st : Nat) : (releaseLines s st).lat = s.lat := by
  unfold releaseLines
  (repeat' split) <;> rfl

theorem releaseRecord_unreleased (s : State) (r : Released) : unreleased (releaseRecord s r).lat = unreleased s.lat := by
  have hl : (if s.cyc.dev = .replay then s else releaseLines (vlHandOver s r.bytes) r.state).lat = s.lat := by
    split
    · rfl
    · rw [releaseLines_lat, vlHandOver_lat]
  refine Eq.trans ?_ (congrArg unreleased hl)
  unfold releaseRecord
  dsimp only
  split <;> rfl

theorem entryRecord_unreleased (s : State) : unreleased (entryRecord s).lat = unreleased s.lat := by
  unfold entryRecord
  (repeat' split) <;> try rfl
  · exact releaseRecord_unreleased ..
  · exact releaseRecord_unreleased ..
  · exact congrArg unreleased (vlHandOver_lat ..)

theorem enterSafe_unreleased (s : State) (mask : Nat) : unreleased (enterSafe s mask).lat = unreleased s.lat := by
  cases h : s.safety.safe with
  | true => rw [enterSafe_of_latched h]
  | false =>
    rw [enterSafe_of_clear h, entryRecord_unreleased, unreported_lat (sendOpenEvent_unreported ..)]
    rfl

theorem countCore_unreleased (s : State) (tiles : List Nat) : unreleased (countCore s tiles).lat = unreleased s.lat := by
  unfold countCore
  dsimp only
  split
  · rw [enterSafe_unreleased]
    refine congrArg unreleased ((congrArg (·.lat) (foldl_frame unaborted _ quarantineCore_unaborted _ _)).trans rfl)
  · rfl

/-- A pair that is no match has failed (R320). -/
theorem latigoFails_failed (s : State) (off : Nat) : (latigoFails s off).lat.failed = true := by
  unfold latigoFails
  dsimp only
  generalize logIsland (logIsland _ _ _) _ _ = v
  rw [← unreleased_failed, countCore_unreleased]
  rfl

theorem endLatigo_failed (s : State) : (endLatigo s).lat.failed = s.lat.failed := rfl

theorem missForced_of_not_replay {s : State} (h : inReplay s = false) : missForced s = false := by
  have hd : decide (s.cyc.dev = .replay) = false := h
  unfold missForced
  split
  · split
    · rw [hd, Bool.false_and]
    · rfl
  · rfl

/-- Outside replay, Latigo's end comes to a record only where the primary has left one due (R242, R250). -/
theorem afterLatigo_eq {s : State} (h : inReplay s = false) : afterLatigo s =
    if s.cyc.record.isNone && !s.safety.safe && (s.cyc.deadlineDone || s.cyc.inCycle && decide (s.cyc.item = .refused) && latigoEnded s)
    then latigoDue s else s := by
  unfold afterLatigo latigoIfDue
  rw [if_neg (by simp [missForced_of_not_replay h])]
  cases s.cyc.record.isNone <;> cases s.safety.safe <;> cases s.cyc.deadlineDone <;> cases s.cyc.inCycle <;> simp

/-- A pair that matches leaves the copies' common result, with the cycle and the safe state's record as they were (R320). -/
structure Matched (s v : State) (r : Option Bytes × Bool) : Prop where
  cyc : v.cyc = s.cyc
  safety : v.safety = s.safety
  running : v.lat.running = false
  complete : v.lat.complete = r.1.isSome
  blocked : v.lat.blocked = r.1.isNone
  failed : v.lat.failed = s.lat.failed
  traj : v.lat.traj = r.1.getD []
  stopMode : v.lat.stopMode = (s.lat.stopMode || r.2)

theorem endLatigo_matched (s : State) (r : Option Bytes × Bool) : Matched s (endLatigo (latigoMatch s r)) r :=
  ⟨rfl, rfl, rfl, rfl, rfl, rfl, rfl, rfl⟩

theorem latigoEnded_of_matched {s v : State} {r : Option Bytes × Bool} (h : Matched s v r) : latigoEnded v = true := by
  rw [latigoEnded, h.complete, h.blocked]
  cases r.1 <;> simp

theorem latigoDue_unreleased (s : State) : unreleased (latigoDue s).lat = unreleased s.lat := by
  unfold latigoDue
  split
  · exact releaseRecord_unreleased ..
  · split <;> exact enterSafe_unreleased ..

/-- With a plan, Latigo's record goes out DEGRADED (R242). -/
theorem latigoDue_releases {s : State} (hc : s.lat.complete = true) (hf : s.lat.failed = false) (hb : s.lat.blocked = false)
    (hd : s.cyc.dev ≠ .replay) : ∃ r, (latigoDue s).cyc.record = some r ∧ r.state = 1 ∧ r.source = 1 ∧ r.trajectory = s.lat.traj ∧
      (latigoDue s).outp.degraded = true ∧ (latigoDue s).lat.stopMode = s.lat.stopMode := by
  have hdue : latigoDue s = releaseRecord s (latigoRecord s) := by simp [latigoDue, hc, hf, hb]
  have hstate : (latigoRecord s).state = 1 := rfl
  have hsource : (latigoRecord s).source = 1 := rfl
  have htraj : (latigoRecord s).trajectory = s.lat.traj := rfl
  rw [hdue]
  generalize latigoRecord s = r at hstate hsource htraj ⊢
  obtain ⟨hcyc, -, -, -, -, hdegraded, hlat⟩ := releaseRecord_released hd r
  rw [if_neg (by omega)] at hlat
  exact ⟨r, by rw [hcyc], hstate, hsource, htraj, hdegraded (by omega), by rw [hlat]⟩

/-- BLOCKED, Latigo's failure is a cause: the safe state, whose entry releases INVALID (R320, R325, R326). -/
theorem latigoDue_blocked {s : State} (hc : s.lat.complete = false) (hf : s.lat.failed = false) (hb : s.lat.blocked = true)
    (hd : s.cyc.dev = .running) (hin : s.cyc.inCycle = true) (hr : s.cyc.record = none) (hs : s.safety.safe = false) :
    (latigoDue s).safety.safe = true ∧ (latigoDue s).safety.cause = s.safety.cause ||| 8 ∧
      ∃ r, (latigoDue s).cyc.record = some r ∧ r.state = 2 := by
  have hdue : latigoDue s = enterSafe s 8 := by simp [latigoDue, hc, hf, hb]
  rw [hdue]
  refine ⟨enterSafe_safe .., enterSafe_cause .., ?_⟩
  rw [enterSafe_of_clear hs]
  have hcyc : (sendOpenEvent (latchSafe s 8) 0x000C).cyc = s.cyc :=
    (unreported_cyc (sendOpenEvent_unreported (latchSafe s 8) _)).trans rfl
  generalize sendOpenEvent (latchSafe s 8) 0x000C = v at hcyc ⊢
  have hentry : entryRecord v = releaseRecord v (invalidRecord v) := by simp [entryRecord, hcyc, hd, hin, hr]
  have hstate : (invalidRecord v).state = 2 := rfl
  rw [hentry]
  generalize invalidRecord v = r at hstate ⊢
  obtain ⟨hrec, -⟩ := releaseRecord_released (s := v) (by simp [hcyc, hd]) r
  exact ⟨r, by rw [hrec], hstate⟩

/-- Settles O52: by whether the copies run and agree, and by what Latigo's end makes due. -/
theorem latigoCompletes : Obligations.LatigoCompletes := by
  intro s hr hrep hrun a b
  have hx : exec .latigoComplete s = if !copiesRun s then .next (startCopies s)
      else if !latigoGuarded s then .fault (.unguarded "R159") else .next (completeLatigo s) := by
    change execLatigoComplete s = _
    have hnot : replayLatigoDue s = false := by simp [replayLatigoDue, hrep]
    simp [execLatigoComplete, hnot, hr, hrun]
  refine ⟨fun hc => by rw [hx, hc]; rfl, fun hc hg => by rw [hx, hc, hg]; rfl, fun hc hg => ?done⟩
  have hx' : exec .latigoComplete s = .next (completeLatigo s) := by rw [hx, hc, hg]; rfl
  refine ⟨hx', (endLatigo_failed _).trans (latigoFails_failed ..), fun hab => ?agree⟩
  have hdone : completeLatigo s = afterLatigo (endLatigo (latigoMatch s a)) :=
    congrArg (fun t => afterLatigo (endLatigo t)) (if_pos hab)
  rw [hx', hdone]
  have hm := endLatigo_matched s a
  generalize endLatigo (latigoMatch s a) = v at hm
  refine ⟨_, rfl, rfl, ?_⟩
  rw [afterLatigo_eq (by rw [inReplay, hm.cyc]; exact hrep), hm.cyc, hm.safety, latigoEnded_of_matched hm]
  refine ⟨?_, fun hno hdl => ?_, fun hi hin hrec hsafe hdev hf => ?_⟩
  · split
    · exact (congrArg Latigo.running (latigoDue_unreleased v)).trans hm.running
    · exact hm.running
  · rw [if_neg]
    · exact ⟨hm.cyc, hm.traj, hm.safety⟩
    · cases hrec : s.cyc.record <;> simp_all
  · rw [if_pos (by simp [hi, hin, hrec, hsafe])]
    refine ⟨fun traj ha => ?_, fun ha => ?_⟩
    · obtain ⟨r, hr1, hst, hso, htr, hdeg, hstop⟩ := latigoDue_releases (s := v) (by rw [hm.complete, ha]; rfl)
        (by rw [hm.failed, hf]) (by rw [hm.blocked, ha]; rfl) (by simp [hm.cyc, hdev])
      exact ⟨r, hr1, hst, hso, by rw [htr, hm.traj, ha]; rfl, hdeg, by rw [hstop, hm.stopMode]⟩
    · rw [← hm.safety]
      exact latigoDue_blocked (by rw [hm.complete, ha]; rfl) (by rw [hm.failed, hf]) (by rw [hm.blocked, ha]; rfl)
        (by rw [hm.cyc, hdev]) (by rw [hm.cyc, hin]) (by rw [hm.cyc, hrec]) (by rw [hm.safety, hsafe])

end Sys2Proof.Machine
end

section
/-! PROOFS. The release of a phase (R233, R254), and the cut and the deadline (R236, R244, R307). -/

namespace Sys2Proof.Machine

/-! ### The release of a phase -/

/-- The state without what the holds of a release change: epochs and their slots, batches' marks, phases held, the trace. -/
def unheld (s : State) : State :=
  { s with
    world := { s.world with table := [], freed := [], hostQ := [], taskQ := [], staged := [] }
    cyc := { s.cyc with phaseHeld := [] }
    out := [] }

theorem dropHold_unheld (s : State) (n : Nat) : unheld (dropHold s n) = unheld s := rfl

theorem endPhaseHolds_unheld (s : State) : unheld (endPhaseHolds s) = unheld s := by
  unfold endPhaseHolds
  exact foldl_frame unheld (fun t (h : Nat × Nat) => dropHold t h.2) (fun _ _ => dropHold_unheld ..) _ s

theorem holdForPhase_unheld (s : State) (p : Nat) : unheld (holdForPhase s p) = unheld s := by
  unfold holdForPhase
  split <;> rfl

theorem traceRec_unheld (s : State) (tp src arg16 a b : Nat) : unheld (traceRec s tp src arg16 a b) = unheld s := by
  unfold traceRec
  split <;> rfl

/-- A release places the phase on the lists of a state that differs from the one before in holds alone. -/
theorem releasePhase_places (s : State) (p : Nat) :
    ∃ v, unheld v = unheld s ∧ unheld (releasePhase s p) = unheld (placePhase v p) := by
  refine ⟨if p = 1 then releaseHeld (endPhaseHolds s) else endPhaseHolds s, ?_, ?_⟩
  · split
    · exact endPhaseHolds_unheld s
    · exact endPhaseHolds_unheld s
  · unfold releasePhase
    dsimp only
    rw [traceRec_unheld, holdForPhase_unheld]

/-- Every entry placed is of a task given, on the copy's tile. -/
theorem mem_placeAll {s : State} {p : Nat} {e : Ready} {l : List Task} {n : Nat} (h : e ∈ placeAll s p n l) :
    e.task ∈ l ∧ e.tile = if e.copy = 0 then e.task.home else e.task.twin := by
  induction l generalizing n with
  | nil => cases h
  | cons t l ih =>
    rcases List.mem_append.mp h with h | h
    · obtain ⟨hm, -⟩ := List.mem_filter.mp h
      rcases List.mem_cons.mp hm with rfl | hm
      · exact ⟨List.mem_cons_self, rfl⟩
      · split at hm
        · rw [List.mem_singleton.mp hm]
          exact ⟨List.mem_cons_self, rfl⟩
        · cases hm
    · obtain ⟨ht, htile⟩ := ih h
      exact ⟨List.mem_cons_of_mem _ ht, htile⟩

theorem forced_of_not_replay {s : State} (h : inReplay s = false) (kind : Nat) : forced s kind = [] := by
  have hd : s.cyc.dev ≠ .replay := of_decide_eq_false h
  have hp : curPkg s = none := by
    unfold curPkg
    split
    · exact if_neg hd
    · rfl
  rw [forced, hp]

theorem thinnedUnits_of_kept {s : State} (h : inReplay s = false) (p : Nat) {t : Task} (ht : t.thinOk = false) :
    thinnedUnits s p t = t.units := by
  simp [thinnedUnits, forced_of_not_replay h, ht]

theorem readyEntry_pending {s : State} (h : inReplay s = false) {t : Task} (hu : 0 < t.units) (copy placed : Nat) :
    (readyEntry s t t.units copy placed).pending = List.range t.units := by
  simp [readyEntry, rangeOut, forced_of_not_replay h, hu.ne']

/-- A due task that may not be thinned is placed, each copy with every unit. -/
theorem placeAll_places {s : State} (h : inReplay s = false) (p : Nat) {t : Task} (ht : t.thinOk = false) (hu : 0 < t.units)
    {copy : Nat} (hc : copy < copies t) {l : List Task} (hl : t ∈ l) (n : Nat) :
    ∃ e ∈ placeAll s p n l, e.task = t ∧ e.copy = copy ∧ e.pending = List.range t.units := by
  induction l generalizing n with
  | nil => cases hl
  | cons t' l ih =>
    rcases List.mem_cons.mp hl with rfl | hl
    · have hne : List.range t.units ≠ [] := by simpa using hu.ne'
      have hmem : ∃ e ∈ readyEntries s t (thinnedUnits s p t) n, e.task = t ∧ e.copy = copy ∧ e.pending = List.range t.units := by
        rw [thinnedUnits_of_kept h p ht]
        have hp := readyEntry_pending h hu
        match copy, hc with
        | 0, _ => exact ⟨readyEntry s t t.units 0 (2 * n), by simp [readyEntries, hp, hne], rfl, rfl, hp ..⟩
        | 1, hc =>
          have hsafe : t.safe = true := by
            by_contra hs
            simp [copies, hs] at hc
          exact ⟨readyEntry s t t.units 1 (2 * n + 1), by simp [readyEntries, hp, hne, hsafe], rfl, rfl, hp ..⟩
        | k + 2, hc =>
          unfold copies at hc
          split at hc <;> omega
      obtain ⟨e, he, hrest⟩ := hmem
      exact ⟨e, List.mem_append_left _ he, hrest⟩
    · obtain ⟨e, he, hrest⟩ := ih hl (n + 1)
      exact ⟨e, List.mem_append_right _ he, hrest⟩

theorem dueIn_of_unheld {s v : State} (h : unheld v = unheld s) (p : Nat) : dueIn v p = dueIn s p := by
  change dueIn (unheld v) p = dueIn (unheld s) p
  rw [h]

/-- Settles O35: the lists gain what `placeAll` places, and it places due tasks alone. -/
theorem phaseReleasePlacesTheDueTasks : Obligations.PhaseReleasePlacesTheDueTasks := by
  intro s p hr hp
  obtain ⟨v, hv, hu⟩ := releasePhase_places s p
  have hdue : dueIn v p = dueIn s p := dueIn_of_unheld hv p
  have hready : (releasePhase s p).disp.ready = s.disp.ready ++ placeAll v p v.disp.placedCnt (dueIn s p) := by
    rw [← hdue]
    exact (congrArg (·.disp.ready) hu).trans (congrArg (· ++ _) (congrArg (·.disp.ready) hv))
  have hnewest : v.world.newest = s.world.newest := congrArg (·.world.newest) hv
  refine ⟨releasePhase s p, ?_, ?_, ?_, ?_, ?_, ?_, fun e he => ?_, fun e he => ?_, fun hrep t ht hthin hunits copy hc => ?_⟩
  · change execPhaseRelease p s = _
    rw [execPhaseRelease, hp]
    exact onlyIf_true hr
  · exact (congrArg (·.cyc.released) hu).trans (congrArg (p :: ·) (congrArg (·.cyc.released) hv))
  · exact (congrArg (·.disp.running) hu).trans (congrArg (·.disp.running) hv)
  · rw [← hnewest]
    exact (congrArg (·.cyc.phaseEpoch) hu).trans (congrArg (_ :: ·) (congrArg (·.cyc.phaseEpoch) hv))
  · exact (congrArg (·.mem) hu).trans (congrArg (·.mem) hv)
  · exact (congrArg (·.regs) hu).trans (congrArg (·.regs) hv)
  · rw [hready]
    exact List.mem_append_left _ he
  · rw [hready] at he
    refine (List.mem_append.mp he).imp id fun hnew => ?_
    obtain ⟨ht, htile⟩ := mem_placeAll hnew
    simp only [dueIn, dueTasks, List.mem_filter, decide_eq_true_eq] at ht
    obtain ⟨⟨hact, hdiv⟩, hphase⟩ := ht
    exact ⟨hact, hphase, hdiv, htile⟩
  · have hrep' : inReplay v = false := (congrArg inReplay hv).trans hrep
    obtain ⟨e, he, hrest⟩ := placeAll_places hrep' p hthin hunits hc ht v.disp.placedCnt
    exact ⟨e, by rw [hready]; exact List.mem_append_right _ he, hrest⟩

/-! ### The course of a cycle -/

/-- The cycle's record without what work, reports and records of the cycle change: its course. -/
def course (s : State) : Cycle :=
  { s.cyc with
    counts := .reset, facts := [], item := .none, noPlan := false, stitchBad := false, stitchRefuse := false, lateAbort := false
    lateAbortNext := false, refineDropped := false, cutActed := false, miss := false, record := none, earlyRecord := none
    lastResult := [], queueBytes := [] }

/-- An eraser that keeps the course carries it from state to state. -/
theorem course_of_erased {e : State → State} (he : ∀ s, course (e s) = course s) {t v : State} (h : e t = e v) :
    course t = course v :=
  (he t).symm.trans ((congrArg course h).trans (he v))

theorem course_of_unreported {t v : State} (h : unreported t = unreported v) : course t = course v :=
  course_of_erased (e := unreported) (fun _ => rfl) h

theorem course_of_unentered {t v : State} (h : unentered t = unentered v) : course t = course v :=
  course_of_erased (e := unentered) (fun _ => rfl) h

theorem course_of_unaborted {t v : State} (h : unaborted t = unaborted v) : course t = course v :=
  course_of_erased (e := unaborted) (fun _ => rfl) h

theorem course_of_uncounted {t v : State} (h : uncounted t = uncounted v) : course t = course v :=
  course_of_erased (e := uncounted) (fun _ => rfl) h

theorem enterSafe_course (s : State) (mask : Nat) : course (enterSafe s mask) = course s :=
  course_of_unentered (enterSafe_unentered ..)

theorem releaseRecord_course (s : State) (r : Released) : course (releaseRecord s r) = course s :=
  course_of_unentered (releaseRecord_unentered ..)

theorem latigoDue_course (s : State) : course (latigoDue s) = course s := by
  unfold latigoDue
  split
  · exact releaseRecord_course ..
  · split <;> exact enterSafe_course ..

theorem markMiss_course (s : State) : course (markMiss s) = course s := by
  unfold markMiss
  dsimp only
  split
  · exact enterSafe_course ..
  · rfl

theorem afterLatigo_course (s : State) : course (afterLatigo s) = course s := by
  have hm : course (if s.cyc.miss then s else markMiss s) = course s := by
    split
    · rfl
    · exact markMiss_course s
  unfold afterLatigo latigoIfDue
  dsimp only
  generalize (if s.cyc.miss then s else markMiss s) = v at hm
  split
  · split
    · exact hm
    · split
      · exact (releaseRecord_course ..).trans hm
      · exact (latigoDue_course _).trans hm
  · split
    · exact latigoDue_course s
    · split
      · exact latigoDue_course s
      · rfl

theorem stageFault_course (s : State) (source code : Nat) (data : Bytes) : course (stageFault s source code data) = course s := by
  unfold stageFault
  dsimp only
  split
  · rfl
  · split <;> rfl

theorem faultReact_course (s : State) (code : Nat) : course (faultReact s code) = course s := by
  unfold faultReact worldFullRaised
  dsimp only
  split
  · exact enterSafe_course ..
  split
  · exact enterSafe_course ..
  split
  · exact enterSafe_course ..
  split
  · exact enterSafe_course ..
  split
  · split
    · exact enterSafe_course ..
    · rfl
  · rfl

theorem raiseFault_course (s : State) (source code : Nat) (data : Bytes) : course (raiseFault s source code data) = course s := by
  rw [raiseFault, faultReact_course, stageFault_course]

theorem countCore_course (s : State) (tiles : List Nat) : course (countCore s tiles) = course s := by
  unfold countCore
  dsimp only
  split
  · rw [enterSafe_course, course_of_unaborted (foldl_frame unaborted _ quarantineCore_unaborted _ _)]
    rfl
  · rfl

theorem logIsland_course (s : State) (code : Nat) (data : Bytes) : course (logIsland s code data) = course s :=
  course_of_unreported (logIsland_unreported ..)

theorem latigoFails_course (s : State) (off : Nat) : course (latigoFails s off) = course s := by
  unfold latigoFails
  dsimp only
  have hl : ∀ t : State, course { t with lat := { t.lat with failed := true } } = course t := fun _ => rfl
  rw [countCore_course, hl, logIsland_course, logIsland_course, raiseFault_course]
  rfl

theorem latigoIncomplete_course (s : State) : course (latigoIncomplete s) = course s := by
  have he : ∀ t, course (endLatigo t) = course t := fun _ => rfl
  unfold latigoIncomplete
  split
  · rw [afterLatigo_course, he, latigoFails_course]
  · rfl

/-! ### The cut -/

theorem raiseOpenFault_course (s : State) (source code : Nat) : course (raiseOpenFault s source code) = course s := by
  have ht : ∀ t, course (tickFree t) = course t := fun _ => rfl
  rw [raiseOpenFault, ht, raiseFault_course]

theorem gddrUe_course (s : State) (a : Nat) : course (gddrUe s a) = course s := by
  unfold gddrUe
  rw [raiseOpenFault_course]
  rfl

theorem correctRead_course (s : State) (a n : Nat) : course (correctRead s a n) = course s :=
  correctRead_frame course (fun _ _ => course_of_uncounted (corrected_uncounted ..)) (fun _ _ => rfl) s a n

/-- The state without what starting Latigo's copies moves: the copies started, idle tiles, tokens and their count. -/
def uncopied (s : State) : State :=
  { s with
    regs := []
    lat := { s.lat with copies := [] }
    disp := { s.disp with granted := [], tokensHeld := 0, waiters := [], idleTiles := [] } }

theorem waitTokens_uncopied (s : State) (w : Nat × Nat) (n : Nat) : uncopied (waitTokens s w n) = uncopied s := by
  unfold waitTokens
  split <;> rfl

theorem spendTokens_uncopied {s t : State} {w : Nat × Nat} {n : Nat} (h : spendTokens s w n = some t) : uncopied t = uncopied s := by
  unfold spendTokens at h
  dsimp only at h
  split at h
  · cases h
    rfl
  · split at h
    · cases h
      rfl
    · cases h

theorem startCopy_uncopied (s : State) (t : Nat) : uncopied (startCopy s t) = uncopied s := by
  unfold startCopy
  split
  · rfl
  · split
    · split
      next u hu => exact show uncopied u = uncopied s from spendTokens_uncopied hu
      next => exact waitTokens_uncopied ..
    · rfl

theorem startCopies_uncopied (s : State) : uncopied (startCopies s) = uncopied s := by
  unfold startCopies
  exact foldl_frame uncopied _ startCopy_uncopied _ s

theorem startCopies_course (s : State) : course (startCopies s) = course s :=
  course_of_erased (e := uncopied) (fun _ => rfl) (startCopies_uncopied s)

theorem startLatigo_course (s : State) (epoch cutT : Nat) : course (startLatigo s epoch cutT) = course s := by
  unfold startLatigo
  split
  · rfl
  · dsimp only
    split
    · rw [latigoBlind, latigoIncomplete_course, gddrUe_course, gddrUe_course]
      rfl
    · rw [startCopies_course, foldl_frame course _ (fun _ _ => correctRead_course ..)]
      rfl

/-- With inputs free of errors Latigo's start moves no instance and no list entry, and where its tiles work it runs (R317). -/
theorem startLatigo_starts {s : State} (epoch cutT : Nat) (hg : ∀ r ∈ latigoReads s, badRead s r.1 r.2 = false) :
    let u := startLatigo s epoch cutT
    u.disp.running = s.disp.running ∧ u.disp.ready = s.disp.ready ∧
      ((latigoTiles s).all (tileWorks s) = true → u.lat.running = true ∧ u.lat.epoch = epoch ∧ u.lat.startAo = s.ao) := by
  unfold startLatigo
  dsimp only
  split
  case isTrue h => exact ⟨rfl, rfl, fun hw => by simp [hw] at h⟩
  case isFalse h =>
    have hnone : ((latigoReads s).find? fun r => badRead s r.1 r.2) = none := by
      simpa using fun a b h => by simpa using hg (a, b) h
    rw [hnone]
    dsimp only
    generalize hs1 : holdEpoch _ epoch = s1
    have hread := foldl_frame uncounted (fun t (r : Nat × Nat) => correctRead t r.1 r.2)
      (fun _ _ => correctRead_frame uncounted corrected_uncounted (fun _ _ => rfl) ..) (latigoReads s) s1
    generalize (latigoReads s).foldl (fun t r => correctRead t r.1 r.2) s1 = s2 at hread ⊢
    have hcopies := startCopies_uncopied s2
    have hs : s1.disp.running = s.disp.running ∧ s1.disp.ready = s.disp.ready ∧ s1.lat.running = true ∧ s1.lat.epoch = epoch ∧
        s1.lat.startAo = s.ao := by
      rw [← hs1]
      exact ⟨rfl, rfl, rfl, rfl, rfl⟩
    obtain ⟨hrun, hready, hlat, hepoch, hstart⟩ := hs
    exact ⟨(congrArg (·.disp.running) hcopies).trans ((congrArg (·.disp.running) hread).trans hrun),
      (congrArg (·.disp.ready) hcopies).trans ((congrArg (·.disp.ready) hread).trans hready),
      fun _ => ⟨(congrArg (·.lat.running) hcopies).trans ((congrArg (·.lat.running) hread).trans hlat),
        (congrArg (·.lat.epoch) hcopies).trans ((congrArg (·.lat.epoch) hread).trans hepoch),
        (congrArg (·.lat.startAo) hcopies).trans ((congrArg (·.lat.startAo) hread).trans hstart)⟩⟩

/-- The state without the cycle's record. -/
def uncycled (s : State) : State := { s with cyc := .reset }

theorem leaveCopy_only (s : State) (t : Task) (copy : Nat) (l : List Nat) :
    ∃ f, leaveCopy s t copy l = { s with cyc := { s.cyc with facts := f } } := by
  unfold leaveCopy
  split
  · exact ⟨_, rfl⟩
  · exact ⟨_, rfl⟩

theorem leaveTask_only (s : State) (t : Task) : ∃ f, leaveTask s t = { s with cyc := { s.cyc with facts := f } } := by
  obtain ⟨f, hf⟩ := leaveCopy_only s t 0 (List.range t.units)
  unfold leaveTask
  dsimp only
  split
  · rw [hf]
    exact leaveCopy_only { s with cyc := { s.cyc with facts := f } } t 1 _
  · exact ⟨f, hf⟩

theorem leaveTask_uncycled (s : State) (t : Task) : uncycled (leaveTask s t) = uncycled s := by
  obtain ⟨f, h⟩ := leaveTask_only s t
  rw [h]
  rfl

theorem leaveTask_course (s : State) (t : Task) : course (leaveTask s t) = course s := by
  obtain ⟨f, h⟩ := leaveTask_only s t
  rw [h]
  rfl

theorem cutEntry_uncycled (s : State) (e : Ready) : uncycled (cutEntry s e) = uncycled s := by
  obtain ⟨f, h⟩ := leaveCopy_only s e.task e.copy (stoppedBatches s e)
  unfold cutEntry
  dsimp only
  split
  · rfl
  · rw [h]
    rfl

theorem cutEntry_course (s : State) (e : Ready) : course (cutEntry s e) = course s := by
  obtain ⟨f, h⟩ := leaveCopy_only s e.task e.copy (stoppedBatches s e)
  unfold cutEntry
  dsimp only
  split
  · rfl
  · rw [h]
    rfl

/-- The ready lists as the cut leaves them (R236). -/
def listsAfterCut (s : State) : List Ready :=
  (s.disp.ready.map fun e => { e with pending := e.pending.filter fun b => decide (b ∉ stoppedBatches s e) }).filter
    fun e => decide (e.pending ≠ [])

theorem cutLists_uncycled (s : State) :
    uncycled (cutLists s) = uncycled { s with disp := { s.disp with ready := listsAfterCut s } } := by
  have h := foldl_frame uncycled _ cutEntry_uncycled s.disp.ready s
  unfold cutLists
  dsimp only
  generalize s.disp.ready.foldl cutEntry s = s1 at h ⊢
  have hv : ∀ (v : State) (l : List Ready), uncycled { v with disp := { v.disp with ready := l } } =
      { uncycled v with disp := { (uncycled v).disp with ready := l } } := fun _ _ => rfl
  rw [hv, hv, h]
  rfl

theorem cutLists_course (s : State) : course (cutLists s) = course s := by
  unfold cutLists
  dsimp only
  exact foldl_frame course _ cutEntry_course s.disp.ready s

theorem cutPhases_uncycled (s : State) : uncycled (cutPhases s) = uncycled s := by
  unfold cutPhases
  exact foldl_frame uncycled leaveTask leaveTask_uncycled _ s

theorem cutPhases_course (s : State) : course (cutPhases s) = course s := by
  unfold cutPhases
  exact foldl_frame course leaveTask leaveTask_course _ s

/-- A batch of CHECK or REFINE that the cut leaves has its other copy dispatched (R304). -/
theorem mem_listsAfterCut {s : State} {e : Ready} (h : e ∈ listsAfterCut s) (hp : isCutPhase e.task.phase = true) {b : Nat}
    (hb : b ∈ e.pending) : ∃ o ∈ s.disp.openSafe, o.1 = e.task.taskId ∧ o.2.1 = b := by
  simp only [listsAfterCut, List.mem_filter, List.mem_map] at h
  obtain ⟨⟨x, -, rfl⟩, -⟩ := h
  obtain ⟨hmem, hn⟩ := List.mem_filter.mp hb
  simp only [decide_eq_true_eq] at hn
  by_contra hno
  refine hn ?_
  rw [stoppedBatches, if_pos hp]
  refine List.mem_filter.mpr ⟨hmem, ?_⟩
  rw [Bool.not_eq_true', List.any_eq_false]
  exact fun o ho hd => hno ⟨o, ho, of_decide_eq_true hd⟩

/-- Entries of other phases stay (R236). -/
theorem listsAfterCut_keeps {s : State} {e : Ready} (h : e ∈ s.disp.ready) (hp : isCutPhase e.task.phase = false)
    (hne : e.pending ≠ []) : e ∈ listsAfterCut s := by
  refine List.mem_filter.mpr ⟨List.mem_map.mpr ⟨e, h, ?_⟩, by simpa using hne⟩
  have hs : stoppedBatches s e = [] := by simp [stoppedBatches, hp]
  simp [hs]

/-! ### The cut at a running instance -/

theorem countSweep_course (s : State) (i : Inst) (f : CycleCounts → CycleCounts) : course (countSweep s i f) = course s := by
  unfold countSweep
  split <;> rfl

theorem takeCut_course (s : State) (i : Inst) (d : Bytes) (w : SweepRun) : course (takeCut s i d w).1 = course s := by
  have ha : ∀ t f, course (addFact t f) = course t := fun _ _ => rfl
  unfold takeCut
  dsimp only
  rw [ha, countSweep_course]
  exact foldl_frame course _ (fun _ _ => by rfl) _ s

theorem askLines_course (s : State) (tile : Nat) (lines : List Nat) : course (askLines s tile lines) = course s := by
  unfold askLines
  exact foldl_frame course (fun t l => correctRead t (cacheKey tile l) 64) (fun _ _ => correctRead_course ..) lines s

theorem takePair_course (s : State) (i : Inst) (d : Bytes) (w : SweepRun) (c k : Nat) (rest : List (Nat × Nat)) :
    course (takePair s i d w c k rest).1 = course s := by
  unfold takePair
  dsimp only
  split
  · rw [countSweep_course, askLines_course]
  · exact askLines_course ..

theorem fillLanes_course (i : Inst) (d : Bytes) (n : Nat) (s : State) (w : SweepRun) :
    course (fillLanes i d n s w).1 = course s := by
  induction n generalizing s w with
  | zero => rfl
  | succ n ih =>
    unfold fillLanes
    split
    · rw [ih, takeCut_course]
    · split
      · rfl
      · split
        · rw [ih]
          rfl
        · split
          · rfl
          · split
            · rfl
            · rw [ih, takePair_course]

theorem closeRows_course (s : State) (i : Inst) (d : Bytes) (w : SweepRun) : course (closeRows s i d w).1 = course s := by
  unfold closeRows
  exact foldl_frame course _ (fun _ _ => by rfl) _ s

theorem sweepGo_course (s : State) (i : Inst) (d : Bytes) (w : SweepRun) : course (sweepGo s i d w) = course s := by
  have hq := (closeRows_course (fillLanes i d (2 * w.pairs.length + 2) s w).1 i d
    (fillLanes i d (2 * w.pairs.length + 2) s w).2).trans (fillLanes_course ..)
  unfold sweepGo
  dsimp only
  generalize closeRows (fillLanes i d (2 * w.pairs.length + 2) s w).1 i d (fillLanes i d (2 * w.pairs.length + 2) s w).2 = q at hq ⊢
  split
  · split
    · exact hq
    · exact hq
  · exact hq

theorem takeSolveCut_course (s : State) (i : Inst) (c : Solve) : course (takeSolveCut s i c) = course s := by
  have hd : ∀ t a n, course (devScramble t a n) = course t := fun _ _ _ => rfl
  have ht : ∀ t tile a bs, course (tileWrite t tile a bs) = course t := fun _ _ _ _ => rfl
  have hf : ∀ (t : State) (f : Fact), course (if f ∈ t.cyc.facts then t else addFact t f) = course t := fun t f => by
    split <;> rfl
  unfold takeSolveCut
  dsimp only
  split
  · rfl
  · rw [hd, hd, hd, hd, hf, ht]
    rfl

theorem cutSolve_course (s : State) (i : Inst) : course (cutSolve s i) = course s := by
  unfold cutSolve
  split
  · rfl
  · dsimp only
    split
    · exact takeSolveCut_course ..
    · rfl

theorem cutInstance_course (s : State) (i : Inst) : course (cutInstance s i) = course s := by
  unfold cutInstance
  dsimp only
  split
  · rw [cutSolve_course]
    rfl
  · split
    · rfl
    · rw [sweepGo_course]
      rfl

/-- The cut's lists and phases, its mark in the cycle (R236). -/
def cutMarked (s : State) : State := cutPhases (cutLists { s with cyc := { s.cyc with cutDone := true, cutT := some (cutTime s) } })

theorem cutMarked_course (s : State) : course (cutMarked s) =
    course { s with cyc := { s.cyc with cutDone := true, cutT := some (cutTime s) } } := by
  rw [cutMarked, cutPhases_course, cutLists_course]

theorem cutMarked_uncycled (s : State) :
    uncycled (cutMarked s) = uncycled { s with disp := { s.disp with ready := listsAfterCut s } } := by
  rw [cutMarked, cutPhases_uncycled, cutLists_uncycled]
  rfl

theorem cutNow_course (s : State) :
    course (cutNow s) = course { s with cyc := { s.cyc with cutDone := true, cutT := some (cutTime s) } } := by
  rw [← cutMarked_course]
  unfold cutNow
  dsimp only
  rw [startLatigo_course, course_of_unreported (traceRec_unreported ..)]
  exact foldl_frame course cutInstance cutInstance_course _ (cutMarked s)

theorem latigoReads_congr {s t : State} (h : t.cyc.params = s.cyc.params) : latigoReads t = latigoReads s := by
  unfold latigoReads
  rw [h]

theorem badRead_congr {s t : State} (h : t.plat = s.plat) (a n : Nat) : badRead t a n = badRead s a n := by
  unfold badRead
  rw [h]

theorem latigoTiles_work_of_uncycled {s v : State} {l : List Ready} {o : List Out}
    (h : uncycled v = uncycled { s with disp := { s.disp with ready := l } }) (hw : (latigoTiles s).all (tileWorks s) = true) :
    (latigoTiles { v with out := o }).all (tileWorks { v with out := o }) = true := by
  change (latigoTiles (uncycled v)).all (tileWorks (uncycled v)) = true
  rw [h]
  exact hw

theorem marked_of_course {s v : State} {x : Option Nat}
    (h : course v = course { s with cyc := { s.cyc with cutDone := true, cutT := x } }) :
    v.cyc.cutDone = true ∧ v.cyc.cutT = x ∧ v.cyc.params = s.cyc.params :=
  ⟨congrArg Cycle.cutDone h, congrArg Cycle.cutT h, (congrArg Cycle.params h).trans rfl⟩

/-- With no instance for the cut to reach it goes from the lists to Latigo's start. -/
theorem cutNow_eq {s : State} (h : s.disp.running.all (fun i => i.finished || !isCutPhase i.task.phase) = true) :
    ∃ o, cutNow s = startLatigo { cutMarked s with out := o } s.world.newest (cutTime { cutMarked s with out := o }) := by
  have hu := cutMarked_uncycled s
  have hrun : (cutMarked s).disp.running = s.disp.running := congrArg (·.disp.running) hu
  have hnew : (cutMarked s).world.newest = s.world.newest := congrArg (·.world.newest) hu
  have hlive : ((cutMarked s).disp.running.filter fun i => !i.finished && isCutPhase i.task.phase) = [] := by
    rw [hrun, List.filter_eq_nil_iff]
    intro i hi
    have := List.all_eq_true.mp h i hi
    simpa [or_iff_not_imp_left] using this
  obtain ⟨o, ho⟩ := traceRec_only (cutMarked s) 6 0 0 (cutMarked s).cyc.seq.toNat (cutMarked s).cyc.counts.candChecked
  refine ⟨o, ?_⟩
  unfold cutNow
  dsimp only
  rw [← cutMarked, hlive, List.foldl_nil, ho, hnew]

/-- The first clause of O36. -/
theorem cut_ends_the_work {s : State} (hr : s.boot.inReset = false) (hdev : s.cyc.dev = .running) (hin : s.cyc.inCycle = true)
    (hdl : s.cyc.deadlineDone = false) (hc : s.cyc.cutDone = false)
    (ht : s.cyc.startAo + 100 * (s.cyc.params.deadline - s.cyc.params.emitMargin) ≤ s.ao) :
    ∃ u, exec .cut s = .next u ∧ u = cutNow s ∧ u.cyc.cutDone = true ∧ u.cyc.cutT = some (cutTime s) ∧
      (s.disp.running.all (fun i => i.finished || !isCutPhase i.task.phase) = true →
        (∀ r ∈ latigoReads s, badRead s r.1 r.2 = false) → u.disp.running = s.disp.running ∧
        (∀ e ∈ u.disp.ready, isCutPhase e.task.phase = true →
          ∀ b ∈ e.pending, ∃ o ∈ s.disp.openSafe, o.1 = e.task.taskId ∧ o.2.1 = b) ∧
        (∀ e ∈ s.disp.ready, isCutPhase e.task.phase = false → e.pending ≠ [] → e ∈ u.disp.ready) ∧
        ((latigoTiles s).all (tileWorks s) = true → u.lat.running = true ∧ u.lat.epoch = s.world.newest ∧ u.lat.startAo = s.ao)) := by
  obtain ⟨hdone, hcutT, -⟩ := marked_of_course (cutNow_course s)
  refine ⟨cutNow s, ?_, rfl, hdone, hcutT, fun hlive hgood => ?_⟩
  · change execCut s = _
    simp [execCut, onlyIf, hdev, hin, hc, hdl, cutAo, ht, hr]
  · obtain ⟨o, hcut⟩ := cutNow_eq hlive
    have hu := cutMarked_uncycled s
    obtain ⟨-, -, hparams⟩ := marked_of_course (cutMarked_course s)
    have hreads := latigoReads_congr (t := { cutMarked s with out := o }) hparams
    have hplat : (cutMarked s).plat = s.plat := congrArg (·.plat) hu
    obtain ⟨hrun, hready, hlat⟩ := startLatigo_starts (s := { cutMarked s with out := o }) s.world.newest
      (cutTime { cutMarked s with out := o }) fun r hr' => (badRead_congr hplat ..).trans (hgood r (hreads ▸ hr'))
    rw [hcut]
    have hrun' : (cutMarked s).disp.running = s.disp.running := congrArg (·.disp.running) hu
    have hready' : (cutMarked s).disp.ready = listsAfterCut s := congrArg (·.disp.ready) hu
    have hao : (cutMarked s).ao = s.ao := congrArg (·.ao) hu
    refine ⟨hrun.trans hrun', fun e he => ?_, fun e he hp hne => ?_, fun hw => ?_⟩
    · rw [hready, hready'] at he
      exact fun hp b hb => mem_listsAfterCut he hp hb
    · rw [hready, hready']
      exact listsAfterCut_keeps he hp hne
    · rw [← hao]
      exact hlat (latigoTiles_work_of_uncycled hu hw)

/-! ### The deadline: aborts -/

theorem instOf_endStream_task {s : State} {i : Inst} (h : instOf s i.tile i.ctx = some i) (status : Nat) :
    ∃ k, instOf (endStream s i status) i.tile i.ctx = some k ∧ k.task = i.task := by
  unfold endStream
  split
  · exact ⟨_, instOf_setInst (i := { i with stream := [] }) h rfl rfl, rfl⟩
  · exact ⟨i, h, rfl⟩

theorem instOf_endStream_other {s : State} {i : Inst} {tile ctx : Nat} (h : tile ≠ i.tile ∨ ctx ≠ i.ctx) (status : Nat) :
    instOf (endStream s i status) tile ctx = instOf s tile ctx := by
  unfold endStream
  split
  · exact instOf_setInst_other { s with disp := _ } { i with stream := [] } h
  · rfl

/-- An abort begins with its sets, its stream and its holds. -/
theorem instOf_beforeFinish (s : State) (i : Inst) (status tile ctx : Nat) :
    instOf (dropSweepHolds (endStream (abortSets s i) i status) i) tile ctx = instOf (endStream (abortSets s i) i status) tile ctx :=
  instOf_congr (congrArg (·.running) (dropSweepHolds_disp ..)) _ _

/-- An aborted instance is the same task's, ended (R86). -/
theorem instOf_abortInst_self {s : State} {i : Inst} (h : instOf s i.tile i.ctx = some i) (status : Nat) :
    ∃ k, instOf (abortInst s i status) i.tile i.ctx = some k ∧ k.task = i.task ∧ k.finished = true := by
  obtain ⟨k, hk, htask⟩ := instOf_endStream_task ((instOf_congr (abortSets_running s i) _ _).trans h) status
  rw [← instOf_beforeFinish] at hk
  unfold abortInst
  dsimp only
  generalize dropSweepHolds (endStream (abortSets s i) i status) i = u at hk ⊢
  obtain ⟨ht, hc⟩ := instOf_place hk
  have hs : (addFact (scrambleOutputs u i) (abortFact i status)).disp.running = u.disp.running := scrambleOutputs_running u i
  rw [hk, Option.getD_some, instOf_congr (finishInst_running ..)]
  exact ⟨_, instOf_setInst ((instOf_congr hs _ _).trans hk) ht hc, htask, rfl⟩

/-- An abort leaves the other contexts alone. -/
theorem instOf_abortInst_other {s : State} {i : Inst} {tile ctx : Nat} (h : tile ≠ i.tile ∨ ctx ≠ i.ctx) (status : Nat) :
    instOf (abortInst s i status) tile ctx = instOf s tile ctx := by
  have hk := (instOf_beforeFinish s i status tile ctx).trans
    ((instOf_endStream_other h status).trans (instOf_congr (abortSets_running s i) tile ctx))
  unfold abortInst
  dsimp only
  generalize dropSweepHolds (endStream (abortSets s i) i status) i = u at hk ⊢
  have hj : ((instOf u i.tile i.ctx).getD i).tile = i.tile ∧ ((instOf u i.tile i.ctx).getD i).ctx = i.ctx := by
    cases hu : instOf u i.tile i.ctx with
    | none => exact ⟨rfl, rfl⟩
    | some k => exact instOf_place hu
  generalize (instOf u i.tile i.ctx).getD i = j at hj ⊢
  obtain ⟨ht, hc⟩ := hj
  have hs : (addFact (scrambleOutputs u i) (abortFact i status)).disp.running = u.disp.running := scrambleOutputs_running u i
  rw [instOf_congr (finishInst_running ..), instOf_setInst_other, instOf_congr hs, hk]
  simpa [ht, hc] using h

/-- What a context runs, after an abort on some context: the same task, ended where it had ended or where the abort is. -/
theorem instOf_abortAt {s : State} {tile ctx : Nat} {i : Inst} (h : instOf s tile ctx = some i) (t c status : Nat) :
    ∃ j, instOf (abortAt s t c status) tile ctx = some j ∧ j.task = i.task ∧
      (i.finished = true ∨ (t = tile ∧ c = ctx) → j.finished = true) := by
  unfold abortAt
  split
  case h_2 hn =>
    refine ⟨i, h, rfl, fun hf => hf.elim id ?_⟩
    rintro ⟨rfl, rfl⟩
    rw [hn] at h
    cases h
  case h_1 k hk =>
    obtain ⟨rfl, rfl⟩ := instOf_place hk
    by_cases hhere : k.tile = tile ∧ k.ctx = ctx
    · obtain ⟨rfl, rfl⟩ := hhere
      obtain rfl : k = i := Option.some.inj (hk.symm.trans h)
      split
      case isTrue hf => exact ⟨k, h, rfl, fun _ => hf⟩
      case isFalse =>
        obtain ⟨j, hj, htask, hfin⟩ := instOf_abortInst_self h status
        exact ⟨j, hj, htask, fun _ => hfin⟩
    · have hkept : instOf (if k.finished then s else abortInst s k status) tile ctx = some i := by
        split
        · exact h
        · rw [instOf_abortInst_other (by tauto), h]
      exact ⟨i, hkept, rfl, fun hf => hf.elim id fun he => absurd he hhere⟩

/-- After aborts on the contexts of a list of instances (R244). -/
theorem instOf_abortEach {s : State} {tile ctx : Nat} {i : Inst} (h : instOf s tile ctx = some i) (l : List Inst) (status : Nat) :
    ∃ j, instOf (l.foldl (fun t x => abortAt t x.tile x.ctx status) s) tile ctx = some j ∧ j.task = i.task ∧
      (i.finished = true ∨ (∃ x ∈ l, x.tile = tile ∧ x.ctx = ctx) → j.finished = true) := by
  induction l generalizing s i with
  | nil => exact ⟨i, h, rfl, fun hf => hf.elim id fun ⟨x, hx, _⟩ => nomatch hx⟩
  | cons x l ih =>
    obtain ⟨k, hk, hktask, hkfin⟩ := instOf_abortAt h x.tile x.ctx status
    obtain ⟨j, hj, htask, hfin⟩ := ih hk
    refine ⟨j, hj, htask.trans hktask, fun hf => hfin ?_⟩
    rcases hf with hf | ⟨y, hy, hplace⟩
    · exact .inl (hkfin (.inl hf))
    · rcases List.mem_cons.mp hy with rfl | hy
      · exact .inl (hkfin (.inr hplace))
      · exact .inr ⟨y, hy, hplace⟩

/-- The instances that still run. -/
def liveOf (s : State) : List Inst := s.disp.running.filter fun i => !i.finished

/-- Every instance that runs is on the list: after the aborts each has ended. -/
theorem instOf_abortLive {s : State} {tile ctx : Nat} {i : Inst} (h : instOf s tile ctx = some i) (status : Nat) :
    ∃ j, instOf ((liveOf s).foldl (fun t x => abortAt t x.tile x.ctx status) s) tile ctx = some j ∧ j.finished = true ∧
      j.task = i.task := by
  obtain ⟨j, hj, htask, hfin⟩ := instOf_abortEach h (liveOf s) status
  refine ⟨j, hj, hfin ?_, htask⟩
  cases hf : i.finished with
  | true => exact .inl rfl
  | false => exact .inr ⟨i, List.mem_filter.mpr ⟨List.mem_of_find?_eq_some h, by simp [hf]⟩, instOf_place h⟩

/-! ### The deadline: what follows the aborts -/

/-- What the end of the deadline leaves: instances, lists, flows, time and the cycle's course. -/
def afterWork (s : State) : List Inst × List Ready × List Flow × Nat × Cycle :=
  (s.disp.running, s.disp.ready, s.flows, s.ao, course s)

theorem afterWork_of_unentered {t v : State} (h : unentered t = unentered v) : afterWork t = afterWork v := by
  have he : ∀ s, afterWork s = afterWork (unentered s) := fun _ => rfl
  rw [he t, he v, h]

theorem latigoDue_afterWork (s : State) : afterWork (latigoDue s) = afterWork s := by
  unfold latigoDue
  split
  · exact afterWork_of_unentered (releaseRecord_unentered ..)
  · split <;> exact afterWork_of_unentered (enterSafe_unentered ..)

theorem markMiss_afterWork (s : State) : afterWork (markMiss s) = afterWork s := by
  unfold markMiss
  dsimp only
  split
  · exact (afterWork_of_unentered (enterSafe_unentered ..)).trans rfl
  · rfl

theorem markMiss_unreleased (s : State) : unreleased (markMiss s).lat = unreleased s.lat := by
  unfold markMiss
  dsimp only
  split
  · exact enterSafe_unreleased ..
  · rfl

theorem stopLatigo_afterWork (s : State) : afterWork (stopLatigo s) = afterWork s := by
  unfold stopLatigo
  split <;> rfl

theorem deadlineRecord_afterWork (s : State) : afterWork (deadlineRecord s) = afterWork s := by
  unfold deadlineRecord
  split
  · rfl
  · split
    · exact afterWork_of_unentered (releaseRecord_unentered ..)
    · exact latigoDue_afterWork s

theorem settleDeadline_afterWork (s : State) : afterWork (settleDeadline s) = afterWork s :=
  (deadlineRecord_afterWork _).trans (stopLatigo_afterWork s)

theorem releaseRecord_record (s : State) (r : Released) : (releaseRecord s r).cyc.record = some r := rfl

/-- Entering the safe state in a running cycle, its INVALID record goes out where none has (R326). -/
theorem enterSafe_record {s : State} (hs : s.safety.safe = false) (hd : s.cyc.dev = .running) (hin : s.cyc.inCycle = true)
    (hr : s.cyc.record = none) (mask : Nat) : (enterSafe s mask).cyc.record.isSome = true := by
  rw [enterSafe_of_clear hs]
  have hcyc : (sendOpenEvent (latchSafe s mask) 0x000C).cyc = s.cyc :=
    (unreported_cyc (sendOpenEvent_unreported (latchSafe s mask) _)).trans rfl
  generalize sendOpenEvent (latchSafe s mask) 0x000C = v at hcyc ⊢
  have hentry : entryRecord v = releaseRecord v (invalidRecord v) := by simp [entryRecord, hcyc, hd, hin, hr]
  rw [hentry, releaseRecord_record]
  rfl

theorem latigoDue_record {s : State} (hs : s.safety.safe = false) (hd : s.cyc.dev = .running) (hin : s.cyc.inCycle = true)
    (hr : s.cyc.record = none) : (latigoDue s).cyc.record.isSome = true := by
  unfold latigoDue
  split
  · rw [releaseRecord_record]
    rfl
  · split <;> exact enterSafe_record hs hd hin hr _

/-- The deadline of a running cycle leaves it with its record (R242, R243, R326). -/
theorem settleDeadline_record {s : State} (hd : s.cyc.dev = .running) (hin : s.cyc.inCycle = true) :
    (settleDeadline s).cyc.record.isSome = true := by
  have hcyc : (stopLatigo s).cyc = s.cyc := by
    unfold stopLatigo
    split <;> rfl
  unfold settleDeadline
  generalize stopLatigo s = v at hcyc ⊢
  unfold deadlineRecord
  split
  case isTrue h => exact h
  case isFalse h =>
    split
    · rw [releaseRecord_record]
      rfl
    case isFalse hs =>
      exact latigoDue_record (by simpa using hs) (by rw [hcyc, hd]) (by rw [hcyc, hin]) (by simpa using h)

/-! ### The deadline: the lists -/

theorem leaveCopy_uncycled (s : State) (t : Task) (copy : Nat) (l : List Nat) : uncycled (leaveCopy s t copy l) = uncycled s := by
  obtain ⟨f, h⟩ := leaveCopy_only s t copy l
  rw [h]
  rfl

theorem leaveCopy_course (s : State) (t : Task) (copy : Nat) (l : List Nat) : course (leaveCopy s t copy l) = course s := by
  obtain ⟨f, h⟩ := leaveCopy_only s t copy l
  rw [h]
  rfl

/-- Nothing stays on the lists, and nothing else of the work moves. -/
theorem clearLists_afterWork (s : State) : afterWork (clearLists s) = (s.disp.running, [], s.flows, s.ao, course s) ∧
    (clearLists s).lat = s.lat := by
  have h1 := foldl_frame uncycled (fun t (e : Ready) => leaveCopy t e.task e.copy e.pending) (fun _ _ => leaveCopy_uncycled ..)
    s.disp.ready s
  have h2 := foldl_frame course (fun t (e : Ready) => leaveCopy t e.task e.copy e.pending) (fun _ _ => leaveCopy_course ..)
    s.disp.ready s
  unfold clearLists
  dsimp only
  generalize s.disp.ready.foldl (fun t e => leaveCopy t e.task e.copy e.pending) s = s1 at h1 h2 ⊢
  generalize (dueTasks s).filter _ = skip
  have h3 := (foldl_frame uncycled leaveTask leaveTask_uncycled skip s1).trans h1
  have h4 := (foldl_frame course leaveTask leaveTask_course skip s1).trans h2
  generalize skip.foldl leaveTask s1 = s2 at h3 h4 ⊢
  refine ⟨?_, congrArg (·.lat) h3⟩
  have hrun : s2.disp.running = s.disp.running := congrArg (·.disp.running) h3
  have hflows : s2.flows = s.flows := congrArg (·.flows) h3
  have hao : s2.ao = s.ao := congrArg (·.ao) h3
  change (s2.disp.running, [], s2.flows, s2.ao, course s2) = _
  rw [hrun, hflows, hao, h4]

theorem abortLive_unaborted (s : State) :
    unaborted ((liveOf s).foldl (fun t x => abortAt t x.tile x.ctx csDeadlineAbort) s) = unaborted s :=
  foldl_frame unaborted (fun t (x : Inst) => abortAt t x.tile x.ctx csDeadlineAbort) (fun _ _ => abortAt_unaborted ..) _ s

/-- Every instance is aborted and what it handed over discarded; lists, time and the cycle's course stay (R244). -/
theorem abortAll_ends (s : State) :
    (∀ tile ctx i, instOf s tile ctx = some i → ∃ j, instOf (abortAll s) tile ctx = some j ∧ j.finished = true ∧ j.task = i.task) ∧
      (∀ x ∈ (abortAll s).flows, ∀ p ∈ x.items, madeBy (liveOf s) p.owner = false) ∧
      (abortAll s).disp.ready = s.disp.ready ∧ (abortAll s).ao = s.ao ∧ course (abortAll s) = course s ∧ (abortAll s).lat = s.lat := by
  have hu := abortLive_unaborted s
  have hinst := fun tile ctx i (h : instOf s tile ctx = some i) => instOf_abortLive h csDeadlineAbort
  unfold abortAll
  dsimp only
  rw [← liveOf]
  generalize (liveOf s).foldl (fun t x => abortAt t x.tile x.ctx csDeadlineAbort) s = v at hu hinst ⊢
  have hflows : ∀ x ∈ (discardOutputs v (liveOf s)).flows, ∀ p ∈ x.items, madeBy (liveOf s) p.owner = false := by
    intro x hx p hp
    obtain ⟨y, -, rfl⟩ := List.mem_map.mp hx
    simpa using (List.mem_filter.mp hp).2
  have hready : v.disp.ready = s.disp.ready := congrArg (·.disp.ready) hu
  have hao : v.ao = s.ao := congrArg (·.ao) hu
  have hlat : v.lat = s.lat := congrArg (·.lat) hu
  have hcourse : course v = course s := course_of_unaborted hu
  have hd : course (discardOutputs v (liveOf s)) = course v := rfl
  split
  · exact ⟨hinst, hflows, hready, hao, hd.trans hcourse, hlat⟩
  · split
    · exact ⟨hinst, hflows, hready, hao, hd.trans hcourse, hlat⟩
    · exact ⟨hinst, hflows, hready, hao, hd.trans hcourse, hlat⟩

theorem lapseItem_only (s : State) : ∃ i, lapseItem s = { s with cyc := { s.cyc with item := i } } := by
  unfold lapseItem
  split
  · exact ⟨_, rfl⟩
  · exact ⟨_, rfl⟩
  · exact ⟨_, rfl⟩

/-- The state at the deadline before what it finds missing (R244, R307). -/
def deadlineWork (s : State) : State := lapseItem (abortAll (clearLists { s with cyc := { s.cyc with deadlineDone := true } }))

structure DeadlineWork (s v : State) : Prop where
  insts : ∀ tile ctx i, instOf s tile ctx = some i → ∃ j, instOf v tile ctx = some j ∧ j.finished = true ∧ j.task = i.task
  flows : ∀ x ∈ v.flows, ∀ p ∈ x.items, madeBy (liveOf s) p.owner = false
  ready : v.disp.ready = []
  ao : v.ao = s.ao
  course : course v = course { s with cyc := { s.cyc with deadlineDone := true } }
  lat : v.lat = s.lat

theorem deadlineWork_ends (s : State) : DeadlineWork s (deadlineWork s) := by
  obtain ⟨hclear, hlat⟩ := clearLists_afterWork { s with cyc := { s.cyc with deadlineDone := true } }
  unfold deadlineWork
  generalize clearLists { s with cyc := { s.cyc with deadlineDone := true } } = w at hclear hlat ⊢
  obtain ⟨hinst, hflows, hready, hao, hcourse, hlat'⟩ := abortAll_ends w
  generalize abortAll w = v at hinst hflows hready hao hcourse hlat' ⊢
  obtain ⟨i, hi⟩ := lapseItem_only v
  rw [hi]
  simp only [afterWork, Prod.mk.injEq] at hclear
  obtain ⟨hwrun, hwready, hwflows, hwao, hwcourse⟩ := hclear
  have hlive : liveOf w = liveOf s := by rw [liveOf, hwrun]; rfl
  refine ⟨fun tile ctx j hj => hinst tile ctx j ((instOf_congr hwrun tile ctx).trans hj), ?_, hready.trans hwready, hao.trans hwao,
    ?_, hlat'.trans hlat⟩
  · rw [← hlive]
    exact hflows
  · exact Eq.trans rfl (hcourse.trans hwcourse)

theorem deadlineAo_of_course {s v : State} (h : course v = course { s with cyc := { s.cyc with deadlineDone := true } }) :
    deadlineAo v = s.cyc.startAo + 100 * s.cyc.params.deadline :=
  (congrArg (fun c : Cycle => c.startAo + 100 * c.params.deadline) h).trans rfl

/-- What follows keeps the work ended, and leaves the record or Latigo to bring it (R250, R307). -/
theorem deadlineNow_ends {s : State} (hd : s.cyc.dev = .running) (hin : s.cyc.inCycle = true) :
    ∃ v, DeadlineWork s v ∧ afterWork (deadlineNow s) = afterWork v ∧
      (s.lat.running = false ∨ s.ao ≠ s.cyc.startAo + 100 * s.cyc.params.deadline → (deadlineNow s).cyc.record.isSome = true) ∧
      ((deadlineNow s).cyc.record.isSome = true ∨ (deadlineNow s).lat.running = true) := by
  have hv := deadlineWork_ends s
  refine ⟨deadlineWork s, hv, ?_⟩
  unfold deadlineNow
  dsimp only
  rw [← deadlineWork]
  generalize deadlineWork s = v at hv ⊢
  have hmiss : afterWork (if missed v then markMiss v else v) = afterWork v := by
    split
    · exact markMiss_afterWork v
    · rfl
  have hlat : (if missed v then markMiss v else v).lat.running = s.lat.running := by
    rw [← hv.lat]
    split
    · exact (congrArg Latigo.running (markMiss_unreleased v)).trans rfl
    · rfl
  generalize (if missed v then markMiss v else v) = w at hmiss hlat ⊢
  have hparts := hmiss
  simp only [afterWork, Prod.mk.injEq] at hparts
  obtain ⟨-, -, -, hao, hcourse⟩ := hparts
  have hcw := hcourse.trans hv.course
  have hdev : w.cyc.dev = .running := (congrArg Cycle.dev hcw).trans hd
  have hin' : w.cyc.inCycle = true := (congrArg Cycle.inCycle hcw).trans hin
  have hdue : deadlineAo w = s.cyc.startAo + 100 * s.cyc.params.deadline := deadlineAo_of_course hcw
  split
  case isTrue h =>
    simp only [Bool.and_eq_true, decide_eq_true_eq, hlat, hao.trans hv.ao, hdue] at h
    obtain ⟨hrun, ht⟩ := h
    exact ⟨hmiss, fun hno => by simp [hrun, ht] at hno, .inr (hlat.trans hrun)⟩
  case isFalse =>
    have hrec := settleDeadline_record hdev hin'
    exact ⟨(settleDeadline_afterWork w).trans hmiss, fun _ => hrec, .inl hrec⟩

/-- Settles O36: the cut and the deadline in turn. -/
theorem cutAndDeadlineEndTheWork : Obligations.CutAndDeadlineEndTheWork := by
  intro s hr hdev hin hdl
  refine ⟨fun hc ht => cut_ends_the_work hr hdev hin hdl hc ht, fun ht => ?deadline⟩
  have hx : exec .deadline s = .next (deadlineNow s) := by
    change execDeadline s = _
    simp [execDeadline, onlyIf, hdev, hin, hdl, deadlineAo, ht, hr]
  obtain ⟨v, hv, hw, hrec, hend⟩ := deadlineNow_ends hdev hin
  refine ⟨deadlineNow s, hx, ?_, ?_, hrec, hend, fun tile ctx i hi => ?_, fun x hx p hp i hi hf => ?_⟩
  all_goals
    simp only [afterWork, Prod.mk.injEq] at hw
    obtain ⟨hrunning, hready, hflows, -, hcourse⟩ := hw
  · exact congrArg Cycle.deadlineDone (hcourse.trans hv.course)
  · rw [hready, hv.ready]
  · obtain ⟨j, hj, hfin, htask⟩ := hv.insts tile ctx i hi
    exact ⟨j, (instOf_congr hrunning tile ctx).trans hj, hfin, htask⟩
  · rw [hflows] at hx
    intro ho
    have hlive : i ∈ liveOf s := List.mem_filter.mpr ⟨hi, by simp [hf]⟩
    have hmade : madeBy (liveOf s) p.owner = true := List.any_eq_true.mpr ⟨i, hlive, by simp [ho]⟩
    rw [hv.flows x hx p hp] at hmade
    cases hmade

end Sys2Proof.Machine
end

section
/-! PROOFS. The boundary of a cycle (R245, R279, R286): what each of its steps leaves of the cycle, and how the next one begins. -/

namespace Sys2Proof.Machine

/-- What the boundary's claims read of a state. -/
structure BoundaryView where
  dev : DevState
  seq : Word
  inCycle : Bool
  startAo : Nat
  earlyStart : Option Nat
  stopMsg : Option Msg
  pauseMsg : Option Msg
  factsSlots : List Nat
  prevDigest : Bytes
  tokens : List (Nat × Half)
  inbound : List (Nat × Half × Nat × Nat × Nat)
  full : List (Nat × Bool)
  leftover : List Inst
  stitch : List StitchEntry
  boundaries : Nat
  rep : Option Replay

def boundaryView (s : State) : BoundaryView :=
  { dev := s.cyc.dev, seq := s.cyc.seq, inCycle := s.cyc.inCycle, startAo := s.cyc.startAo, earlyStart := s.cyc.earlyStart
    stopMsg := s.cyc.stopMsg, pauseMsg := s.cyc.pauseMsg, factsSlots := s.cyc.factsSlots, prevDigest := s.cyc.prevDigest
    tokens := s.disp.tokens, inbound := s.disp.inbound, full := s.disp.full, leftover := s.disp.leftover
    stitch := s.safety.stitch, boundaries := s.plat.boundaries, rep := s.rep }

theorem boundaryView_of_unreported {t v : State} (h : unreported t = unreported v) : boundaryView t = boundaryView v := by
  have he : ∀ s, boundaryView s = boundaryView (unreported s) := fun _ => rfl
  rw [he t, he v, h]

theorem boundaryView_of_fold {β : Type} (f : State → β → State) (h : ∀ s x, boundaryView (f s x) = boundaryView s) (l : List β)
    (s : State) : boundaryView (l.foldl f s) = boundaryView s := foldl_frame boundaryView f h l s

/-! ### Holds, counters and flows -/

theorem rejoinAll_view (s : State) : boundaryView (rejoinAll s) = boundaryView s := by
  have hrun : ∀ s p, boundaryView (runProc s p) = boundaryView s := fun s p => by
    unfold runProc pmcResumes
    dsimp only
    split
    · rfl
    split
    · rfl
    split
    · rfl
    · rfl
  unfold rejoinAll
  exact boundaryView_of_fold runProc hrun _ s

theorem endHolds_view (s : State) : boundaryView (endHolds s) = boundaryView s := rfl

theorem emptyFlow_view (s : State) (x : Flow) : boundaryView (emptyFlow s x) = boundaryView s := by
  unfold emptyFlow
  dsimp only
  split
  · rfl
  · exact (boundaryView_of_unreported (sendEvent_unreported ..)).trans rfl

theorem clearTokens_view (s : State) : boundaryView (clearTokens s) =
    { boundaryView s with tokens := [], inbound := [], full := [], leftover := [] } := by
  have hr : ∀ s, boundaryView (retainBanks s) = boundaryView s := fun _ => rfl
  rw [clearTokens, hr, emptyFlows, boundaryView_of_fold emptyFlow emptyFlow_view]
  rfl

theorem clearStitch_view (s : State) : boundaryView (clearStitch s) = { boundaryView s with stitch := [] } := rfl

/-! ### The incumbent and the facts -/

theorem devWrite_view (s : State) (a : Nat) (bs : Bytes) : boundaryView (devWrite s a bs) = boundaryView s := rfl

theorem keepIncumbent_view (s : State) (r : Released) : boundaryView (keepIncumbent s r) = boundaryView s := by
  unfold keepIncumbent
  split
  · exact devWrite_view ..
  · rfl

/-- The facts record's slot is the cycle's (R279). -/
theorem keepFacts_view (s : State) (r : Released) : ∃ l, boundaryView (keepFacts s r) = { boundaryView s with
    factsSlots := s.cyc.seq.toNat :: l } := by
  unfold keepFacts
  dsimp only
  generalize cycleFacts s r = bs
  exact ⟨_, rfl⟩

/-! ### Settings -/

theorem recheckLost_view (s : State) : boundaryView (recheckLost s) = boundaryView s := by
  unfold recheckLost
  split <;> rfl

theorem devScramble_view (s : State) (a n : Nat) : boundaryView (devScramble s a n) = boundaryView s := rfl

theorem setReg_view (s : State) (off : Nat) (v : Word) : boundaryView (setReg s off v) = boundaryView s := rfl

theorem resetRings_view (s : State) : boundaryView (resetRings s) = boundaryView s := by
  have hring : ∀ s c, boundaryView (resetRing s c) = boundaryView s := fun s c => by
    rw [resetRing, boundaryView_of_fold _ fun _ _ => devWrite_view .., devWrite_view]
  unfold resetRings
  split
  · rfl
  · exact boundaryView_of_fold resetRing hring _ _

theorem activateDue_view (s : State) : boundaryView (activateDue s) = boundaryView s := by
  have hb : ∀ s, boundaryView (switchBanks s) = boundaryView s := fun _ => rfl
  unfold activateDue
  split
  · unfold activateImage
    dsimp only
    split
    · dsimp only
      rw [recheckLost_view, hb, resetRings_view]
      rfl
    · dsimp only
      rw [boundaryView_of_unreported (sendEvent_unreported ..)]
      rfl
  · rfl

theorem applySetting_view (s : State) (off : Nat) (v : Word) : boundaryView (applySetting s off v) = boundaryView s := by
  unfold applySetting
  dsimp only
  split
  · rfl
  split
  · rfl
  split
  · rw [scrambleTiles, boundaryView_of_fold, setReg_view]
    intro t m
    split
    · exact devScramble_view ..
    · rfl
  · rfl

theorem applyWritten_view (s : State) : boundaryView (applyWritten s) = boundaryView s := by
  unfold applyWritten
  exact (boundaryView_of_fold (fun t (p : Nat × Word) => applySetting t p.1 p.2) (fun _ _ => applySetting_view ..) _ _).trans rfl

theorem latigoListsDue_view (s : State) : boundaryView (latigoListsDue s) = boundaryView s := by
  unfold latigoListsDue
  split <;> rfl

theorem profilesInForce_view (s : State) : boundaryView (profilesInForce s) = boundaryView s := by
  unfold profilesInForce
  exact (boundaryView_of_fold writeProfile (fun _ _ => by rfl) _ _).trans rfl

theorem settingsInForce_view (s : State) : boundaryView (settingsInForce s) = boundaryView s := by
  have hp : ∀ s, boundaryView (paramsInForce s) = boundaryView s := fun _ => rfl
  have hw : ∀ s, boundaryView (weightsInForce s) = boundaryView s := fun _ => rfl
  rw [settingsInForce, recheckLost_view, latigoListsDue_view, applyWritten_view, hp, activateDue_view, hw, profilesInForce_view]

/-! ### Substitutions -/

theorem enterSafe_stitch (s : State) (mask : Nat) : (enterSafe s mask).safety.stitch = s.safety.stitch := by
  cases h : s.safety.safe with
  | true => rw [enterSafe_of_latched h]
  | false =>
    rw [enterSafe_of_clear h, entryRecord_safety]
    exact (congrArg (·.safety.stitch) (sendOpenEvent_unreported (latchSafe s mask) _)).trans rfl

theorem enterSafe_view (s : State) (mask : Nat) : boundaryView (enterSafe s mask) = boundaryView s := by
  have hu := enterSafe_unentered s mask
  have he : ∀ s, boundaryView s = { boundaryView (unentered s) with stitch := s.safety.stitch } := fun _ => rfl
  rw [he (enterSafe s mask), he s, hu, enterSafe_stitch]

theorem raiseFault_view (s : State) (source code : Nat) (data : Bytes) :
    boundaryView (raiseFault s source code data) = boundaryView s := by
  have hf : ∀ e y, (foldEvent e y).stitch = y.stitch := fun e y => by
    unfold foldEvent
    dsimp only
    split <;> rfl
  have hstage : boundaryView (stageFault s source code data) = boundaryView s := by
    unfold stageFault
    dsimp only
    split
    · rfl
    · split <;> simp only [boundaryView, hf]
  unfold raiseFault
  rw [← hstage]
  generalize stageFault s source code data = v
  unfold faultReact worldFullRaised
  dsimp only
  split
  · exact enterSafe_view ..
  split
  · exact enterSafe_view ..
  split
  · exact enterSafe_view ..
  split
  · exact enterSafe_view ..
  split
  · split
    · exact (enterSafe_view ..).trans rfl
    · rfl
  · rfl

theorem raiseOpenFault_view (s : State) (source code : Nat) : boundaryView (raiseOpenFault s source code) = boundaryView s := by
  have ht : ∀ t, boundaryView (tickFree t) = boundaryView t := fun _ => rfl
  rw [raiseOpenFault, ht, raiseFault_view]

theorem substTile_view (s : State) (t : Nat) : boundaryView (substTile s t) = boundaryView s := by
  have hl : boundaryView (loseTile s t) = boundaryView s := by
    unfold loseTile
    dsimp only
    rw [recheckLost_view, enterSafe_view, raiseOpenFault_view]
    rfl
  unfold substTile
  dsimp only
  split
  · rfl
  split
  · exact hl
  split
  · rfl
  · rfl

theorem substitute_view (s : State) : boundaryView (substitute s) = boundaryView s := by
  unfold substitute
  exact boundaryView_of_fold substTile substTile_view _ s

/-! ### The ended cycle -/

theorem clearIfDue_view (s : State) : boundaryView (clearIfDue s) = boundaryView s := by
  unfold clearIfDue
  split <;> rfl

theorem endCycle_view (s : State) (r : Released) : ∃ l, boundaryView (endCycle s r) = { boundaryView s with
    tokens := [], inbound := [], full := [], leftover := [], stitch := [], factsSlots := s.cyc.seq.toNat :: l
    boundaries := s.plat.boundaries + 1 } := by
  have h1 : boundaryView (keepIncumbent (clearStitch (clearTokens (endHolds (rejoinAll s)))) r) = { boundaryView s with
      tokens := [], inbound := [], full := [], leftover := [], stitch := [] } := by
    rw [keepIncumbent_view, clearStitch_view, clearTokens_view, endHolds_view, rejoinAll_view]
  unfold endCycle
  dsimp only
  generalize keepIncumbent (clearStitch (clearTokens (endHolds (rejoinAll s)))) r = s1 at h1 ⊢
  obtain ⟨l, h2⟩ := keepFacts_view s1 r
  have hseq : s1.cyc.seq = s.cyc.seq := congrArg BoundaryView.seq h1
  refine ⟨l, ?_⟩
  have h3 : boundaryView (substitute (settingsInForce (keepFacts s1 r))) = { boundaryView s with
      tokens := [], inbound := [], full := [], leftover := [], stitch := [], factsSlots := s.cyc.seq.toNat :: l } := by
    rw [substitute_view, settingsInForce_view, h2, h1, hseq]
  have h4 : ∀ s, boundaryView (shiftCounts s) = { boundaryView s with boundaries := (boundaryView s).boundaries + 1 } := fun _ => rfl
  rw [clearIfDue_view, h4, h3]
  rfl

/-! ### STOP, PAUSE and the next cycle -/

theorem updateReach_view (s : State) : boundaryView (updateReach s) = boundaryView s := rfl

theorem nextSeq_view (s : State) (r : Released) : boundaryView (nextSeq s r) = { boundaryView s with
    seq := s.cyc.seq + 1, inCycle := false, prevDigest := r.digest } := rfl

theorem answerMsg_view (s : State) (m : Option Msg) (st : Nat) : boundaryView (answerMsg s m st) = boundaryView s := by
  unfold answerMsg
  split
  · exact boundaryView_of_unreported (reply_unreported ..)
  · rfl

theorem stopNow_view (s : State) : boundaryView (stopNow s) = { boundaryView s with dev := .stopped } := rfl

/-- STOP, or else PAUSE, as the view shows it; STOP wins (R286). -/
def BoundaryView.stopped (v : BoundaryView) : BoundaryView :=
  if v.stopMsg.isSome then { v with dev := .stopped, earlyStart := none, stopMsg := none, pauseMsg := none }
  else if v.pauseMsg.isSome then { v with dev := .paused, earlyStart := none, stopMsg := none, pauseMsg := none }
  else { v with stopMsg := none, pauseMsg := none }

theorem stopOrPause_view (s : State) : boundaryView (stopOrPause s) = (boundaryView s).stopped := by
  have hstop : (boundaryView s).stopMsg = s.cyc.stopMsg := rfl
  have hpause : (boundaryView s).pauseMsg = s.cyc.pauseMsg := rfl
  unfold stopOrPause BoundaryView.stopped
  dsimp only
  rw [hstop, hpause]
  split_ifs
  · rw [answerMsg_view, answerMsg_view, stopNow_view]
    rfl
  · rw [answerMsg_view]
    rfl
  · rfl

theorem snapCounters_view (s : State) : boundaryView (snapCounters s) = boundaryView s := by
  unfold snapCounters
  generalize windowWords s = w
  rfl

theorem releasePhase_view (s : State) (p : Nat) : boundaryView (releasePhase s p) = boundaryView s := by
  have he : ∀ s, boundaryView s = boundaryView (unheld s) := fun _ => rfl
  have hp : ∀ s p, boundaryView (placePhase s p) = boundaryView s := fun _ _ => rfl
  obtain ⟨v, hv, hu⟩ := releasePhase_places s p
  rw [he (releasePhase s p), hu, ← he, hp, he v, hv, ← he]

/-- A cycle's record as it begins at a start, before START's answer and INGEST's release (R231, R245). -/
def begun (s : State) (start : Nat) : State :=
  { s with
    cyc := { s.cyc with
      inCycle := true, prevPeriod := s.cyc.params.period, prevSync := s.cyc.params.sync, startAo := start, everStarted := true
      resumedGrid := false, earlyStart := none, cutDone := false, cutT := none, deadlineDone := false, released := []
      phaseEpoch := [], counts := .reset, item := .none, planSeen := false, noPlan := false, refusedItem := false
      stitchBad := false, stitchRefuse := false, lateAbort := s.cyc.lateAbortNext, lateAbortNext := false, refineDropped := false
      thinned := false, cutActed := false, miss := false, record := s.cyc.earlyRecord, earlyRecord := none, startMsg := none }
    lat := { s.lat with
      running := false, runStop := false, complete := false, failed := false, blocked := false, epoch := 0, state := none, traj := []
      fallbackT := if s.cyc.earlyRecord.isSome then fallbackNext s else s.lat.fallbackT
      incumbentAge := if s.cyc.earlyRecord.isSome then ageNext s else s.lat.incumbentAge }
    safety := { s.safety with primaryOk := false } }

/-- A START that waited for its first cycle is answered. -/
def startAnswered (s : State) (start : Nat) : State :=
  match s.cyc.startMsg with
  | some m => reply (begun s start) m stOk
  | none => begun s start

theorem beginCycle_eq (s : State) (start : Nat) : beginCycle s start =
    if (startAnswered s start).disp.schRun then releasePhase (startAnswered s start) 0 else startAnswered s start := rfl

theorem startAnswered_unreported (s : State) (start : Nat) : unreported (startAnswered s start) = unreported (begun s start) := by
  unfold startAnswered
  split
  · exact reply_unreported ..
  · rfl

/-- A cycle that begins has the given start (R231, R245). -/
theorem beginCycle_view (s : State) (start : Nat) : boundaryView (beginCycle s start) = { boundaryView s with
    inCycle := true, startAo := start, earlyStart := none } := by
  have hb : boundaryView (startAnswered s start) = { boundaryView s with inCycle := true, startAo := start, earlyStart := none } :=
    (boundaryView_of_unreported (startAnswered_unreported ..)).trans rfl
  rw [beginCycle_eq]
  split
  · rw [releasePhase_view, hb]
  · exact hb

/-- The next cycle's start has come before the boundary (R245). -/
def BoundaryView.started (v : BoundaryView) : BoundaryView :=
  match v.earlyStart with
  | some t => if v.dev = .running then { v with inCycle := true, startAo := t, earlyStart := none } else v
  | none => v

theorem startEarly_view (s : State) : boundaryView (startEarly s) = (boundaryView s).started := by
  have hv : (boundaryView s).earlyStart = s.cyc.earlyStart := rfl
  unfold startEarly BoundaryView.started
  rw [hv]
  cases s.cyc.earlyStart with
  | none => rfl
  | some t =>
    dsimp only
    split
    · exact (beginCycle_view ..).trans (if_pos ‹_›).symm
    · exact (if_neg ‹_›).symm

/-- How the view reads once STOP, PAUSE and an early start have taken effect. -/
structure BoundaryView.Next (v w : BoundaryView) : Prop where
  kept : w = { v with
    dev := w.dev, inCycle := w.inCycle, startAo := w.startAo, earlyStart := w.earlyStart, stopMsg := w.stopMsg, pauseMsg := w.pauseMsg }
  stop : v.stopMsg.isSome = true → w.dev = .stopped ∧ w.inCycle = v.inCycle ∧ w.stopMsg = none ∧ w.pauseMsg = none
  pause : v.stopMsg = none → v.pauseMsg.isSome = true → w.dev = .paused ∧ w.inCycle = v.inCycle ∧ w.pauseMsg = none
  goes : v.stopMsg = none → v.pauseMsg = none → w.dev = .running ∧
    (v.earlyStart = none → w.inCycle = v.inCycle) ∧ ∀ t, v.earlyStart = some t → w.inCycle = true ∧ w.startAo = t

theorem BoundaryView.next {v : BoundaryView} (h : v.dev = .running) : v.Next v.stopped.started := by
  obtain ⟨dev, seq, inCycle, startAo, earlyStart, stopMsg, pauseMsg⟩ := v
  subst h
  cases stopMsg with
  | some m => exact ⟨rfl, fun _ => ⟨rfl, rfl, rfl, rfl⟩, nofun, nofun⟩
  | none =>
    cases pauseMsg with
    | some m => exact ⟨rfl, nofun, fun _ _ => ⟨rfl, rfl, rfl⟩, nofun⟩
    | none =>
      cases earlyStart with
      | none => exact ⟨rfl, nofun, nofun, fun _ _ => ⟨rfl, fun _ => rfl, nofun⟩⟩
      | some t => exact ⟨rfl, nofun, nofun, fun _ _ => ⟨rfl, nofun, fun _ ht => ⟨rfl, Option.some.inj ht⟩⟩⟩

/-- What the boundary leaves before STOP and PAUSE. -/
def afterEnd (v : BoundaryView) (l : List Nat) (r : Released) : BoundaryView :=
  { v with
    tokens := [], inbound := [], full := [], leftover := [], stitch := [], factsSlots := v.seq.toNat :: l
    boundaries := v.boundaries + 1, seq := v.seq + 1, inCycle := false, prevDigest := r.digest }

theorem passBoundary_view {s : State} (h : s.rep = none) (r : Released) : ∃ v l,
    boundaryView v = afterEnd (boundaryView s) l r ∧ passBoundary s r = startEarly (snapCounters (stopOrPause v)) := by
  obtain ⟨l, hl⟩ := endCycle_view s r
  unfold passBoundary
  dsimp only
  generalize endCycle s r = e at hl ⊢
  have hseq : e.cyc.seq = s.cyc.seq := congrArg BoundaryView.seq hl
  have hv : boundaryView (updateReach (nextSeq e r)) = afterEnd (boundaryView s) l r := by
    rw [updateReach_view, nextSeq_view, hl, hseq]
    rfl
  have hrep : (updateReach (nextSeq e r)).rep = none := (congrArg BoundaryView.rep hv).trans h
  exact ⟨_, l, hv, by rw [hrep]⟩

theorem boundary_passes {s : State} {r : Released} (hr : s.boot.inReset = false) (hd : s.cyc.dev = .running) (hrep : s.rep = none)
    (hin : s.cyc.inCycle = true) (hrec : s.cyc.record = some r) (hb : boundaryReady s = true) :
    exec .boundary s = .next (passBoundary s r) := by
  have hclose : closeReplayed s = s := by simp [closeReplayed, stealStuck, inReplay, hd]
  change execBoundary s = _
  simp [execBoundary, hr, hin, atOnce, hd, hclose, factError, hrep, hrec, hb]

/-- Settles O37: the view of the passed boundary, by what STOP and PAUSE had asked. -/
theorem boundaryEndsTheCycle : Obligations.BoundaryEndsTheCycle := by
  intro s r hr hd hrep hin hrec hb
  obtain ⟨v, l, hv, hpass⟩ := passBoundary_view hrep r
  refine ⟨passBoundary s r, boundary_passes hr hd hrep hin hrec hb, ?_⟩
  have hview : boundaryView (passBoundary s r) = (afterEnd (boundaryView s) l r).stopped.started := by
    rw [hpass, startEarly_view, snapCounters_view, stopOrPause_view, hv]
  generalize passBoundary s r = u at hview ⊢
  have hn : (afterEnd (boundaryView s) l r).Next (boundaryView u) := hview ▸ BoundaryView.next hd
  have hk := hn.kept
  refine ⟨congrArg BoundaryView.seq hk, congrArg BoundaryView.tokens hk, congrArg BoundaryView.inbound hk,
    congrArg BoundaryView.full hk, congrArg BoundaryView.leftover hk, congrArg BoundaryView.stitch hk, ?_,
    congrArg BoundaryView.prevDigest hk, congrArg BoundaryView.boundaries hk, hn.stop, hn.pause, hn.goes⟩
  rw [show u.cyc.factsSlots = s.cyc.seq.toNat :: l from congrArg BoundaryView.factsSlots hk]
  exact List.mem_cons_self

end Sys2Proof.Machine
end

section
/-! PROOFS. Dispatch and stealing (R256, R257, R260, R270, R273): what a start leaves of its context, its list and the ledger. -/

namespace Sys2Proof.Machine

/-! ### A context tested -/

/-- The state with what testing a context moves: the contexts freed, and the pointers (R257, R273). -/
def tested (s : State) (f : List (Nat × Nat)) (c p : List (Nat × Nat)) : State :=
  { s with disp := { s.disp with freedAt := f, ctxPtr := c, stealPtr := p } }

theorem noteTested_tested (s : State) (key : Nat) : ∃ f c p, noteTested s key = tested s f c p := by
  unfold noteTested
  split
  · exact ⟨_, _, _, rfl⟩
  · exact ⟨_, _, _, rfl⟩

theorem noteThief_tested (s : State) (key : Nat) (e : Ready) : ∃ f c p, noteThief s key e = tested s f c p := by
  unfold noteThief
  split
  · exact ⟨_, _, _, rfl⟩
  · exact ⟨_, _, _, rfl⟩

theorem forcedFor_of_not_replay {s : State} (h : inReplay s = false) (kind taskId copy batch : Nat) :
    forcedFor s kind taskId copy batch = none := by
  rw [forcedFor, forced_of_not_replay h]
  rfl

theorem ownPending_of_not_replay {s : State} (h : inReplay s = false) (e : Ready) : ownPending s e = e.pending := by
  simp [ownPending, forcedFor_of_not_replay h]

/-- A free context that goes first in the pointers' order takes its tile's chosen entry (R257). -/
theorem dispatch_tries {s : State} {tile ctx : Nat} {e : Ready} (hr : s.boot.inReset = false) (ho : contextOpen s tile ctx = true)
    (hrep : inReplay s = false) (he : chooseEntry s tile = some e) (hp : pointerHolds s (2 * tile + ctx) = false)
    (hc : creditHolds s (2 * tile + ctx) e = false) :
    exec (.dispatch tile ctx) s = tryStart (noteTested s (2 * tile + ctx)) e tile ctx (e.pending.headD 0) true := by
  have hsteal : stealDue s tile = none := by
    rw [stealDue, forced_of_not_replay hrep]
    rfl
  change execDispatch tile ctx s = _
  simp [execDispatch, hr, ho, he, ownPending_of_not_replay hrep, forcedAbort, forcedFor_of_not_replay hrep, hsteal, hp, hc]

/-- A thief takes the victim's highest batch that its home does not take (R260, R273). -/
theorem steal_tries {s : State} {tile ctx b : Nat} {e : Ready} (hr : s.boot.inReset = false) (ho : contextOpen s tile ctx = true)
    (hrep : inReplay s = false) (ht : s.cyc.tack = false) (hn : chooseEntry s tile = none) (he : victim s (tile / 16) = some e)
    (hb : stolenBatch s e = some b) (hm : mayTake s e b (tile / 16) = true) (hp : thiefHolds s (2 * tile + ctx) e = false)
    (hc : creditHolds s (2 * tile + ctx) e = false) :
    exec (.steal tile ctx) s = tryStart (noteThief s (2 * tile + ctx) e) e tile ctx b false := by
  change execSteal tile ctx s = _
  simp [execSteal, hr, ht, ho, hrep, hn, he, hb, hm, hp, hc]

/-! ### What a start leaves -/

/-- The state without what opening a batch's entries and holds changes. -/
def unopened (s : State) : State :=
  { s with disp := { s.disp with openSafe := [] }, world := .reset, safety := .reset, cyc := .reset }

theorem openStitch_unopened (s : State) (t : Task) (b : Nat) : unopened (openStitch s t b) = unopened s := by
  unfold openStitch
  split <;> rfl

theorem takeHold_unopened (s : State) (e : Ready) (b n : Nat) : unopened (takeHold s e b n) = unopened s := by
  unfold takeHold
  dsimp only
  split
  · rfl
  split
  · rfl
  · rfl

theorem holdFact_unopened (s : State) (e : Ready) (b n : Nat) : unopened (holdFact s e b n) = unopened s := by
  unfold holdFact
  split <;> rfl

/-- The lists once a batch has left its entry. -/
def listsWithout (s : State) (e : Ready) (b n : Nat) (own : Bool) : List Ready := (takeBatch s e b n own).disp.ready

theorem not_mem_listsWithout {s : State} {e x : Ready} {b n : Nat} {own : Bool} (h : x ∈ listsWithout s e b n own)
    (hp : x.placed = e.placed) : b ∉ x.pending := by
  obtain ⟨hm, -⟩ := List.mem_filter.mp h
  obtain ⟨y, -, rfl⟩ := List.mem_map.mp hm
  intro hb
  by_cases hy : y.placed = e.placed
  · rw [if_pos hy] at hb
    simpa using (List.mem_filter.mp hb).2
  · rw [if_neg hy] at hp
    exact hy hp

/-- A write makes no word bad. -/
theorem badRead_of_healed {s w : State} {tile x l : Nat} (h : w.plat = healed (wakeUsed s tile).plat x l) {a k : Nat}
    (hgood : badRead s a k = false) : badRead w a k = false := by
  rw [badRead, h]
  simp only [badRead, healed, wakeUsed, Bool.or_eq_false_iff, List.any_eq_false, List.mem_filter] at hgood ⊢
  exact ⟨fun y hy => hgood.1 y hy.1, fun y hy => hgood.2 y hy.1⟩

/-- A start adds its instance, takes its batch off the list and writes its block; the ledger and the rest stay. -/
theorem startInst_leaves (s : State) (e : Ready) (tile ctx b n charge : Nat) (own : Bool) :
    let u := startInst s e tile ctx b n charge own
    u.disp.running = s.disp.running ++ [newInst s e tile ctx b n charge] ∧ u.disp.pool = s.disp.pool ∧
      u.disp.islands = s.disp.islands ∧ u.disp.ready = listsWithout s e b n own ∧ u.boot = s.boot ∧
      u.mem = memWrite s.mem (tileBase tile + 64 * (e.task.listLine - 1)) (instanceBlock s e b n) ∧
      u.load = s.load ∧ ∀ a k, badRead s a k = false → badRead u a k = false := by
  unfold startInst
  dsimp only
  generalize instanceBlock s e b n = block
  have hopen : unopened (holdFact (takeHold (openStitch (tileWrite (wakeUsed s tile) tile (64 * (e.task.listLine - 1)) block)
      e.task b) e b n) e b n) = unopened (tileWrite (wakeUsed s tile) tile (64 * (e.task.listLine - 1)) block) := by
    rw [holdFact_unopened, takeHold_unopened, openStitch_unopened]
  generalize holdFact (takeHold (openStitch (tileWrite (wakeUsed s tile) tile (64 * (e.task.listLine - 1)) block)
    e.task b) e b n) e b n = v at hopen ⊢
  have hrun : v.disp.running = s.disp.running := congrArg (·.disp.running) hopen
  have hpool : v.disp.pool = s.disp.pool := congrArg (·.disp.pool) hopen
  have hisl : v.disp.islands = s.disp.islands := congrArg (·.disp.islands) hopen
  have hready : v.disp.ready = s.disp.ready := congrArg (·.disp.ready) hopen
  have hboot : v.boot = s.boot := congrArg (·.boot) hopen
  have hmem : v.mem = memWrite s.mem (tileBase tile + 64 * (e.task.listLine - 1)) block :=
    (congrArg State.mem hopen).trans (tileWrite_mem ..)
  rw [(traceRec_only ..).choose_spec]
  have hload : v.load = s.load := (congrArg State.load hopen).trans rfl
  have hplat : v.plat = healed (wakeUsed s tile).plat (tileBase tile + 64 * (e.task.listLine - 1)) block.length :=
    (congrArg State.plat hopen).trans (tileWrite_plat ..)
  refine ⟨?_, hpool, hisl, ?_, hboot, hmem, hload, fun a k hgood => badRead_of_healed hplat hgood⟩
  · exact congrArg (· ++ _) hrun
  · simp only [listsWithout, takeBatch, hready]

/-- What a start hands on: a thief's STEAL entry stands in the facts. -/
def handedOn (s v : State) (e : Ready) (tile b : Nat) (own : Bool) : State :=
  if own then v else traceRec (addFact v (stealFact s e tile b)) 9 tile e.task.taskId b tile

theorem handedOn_only (s v : State) (e : Ready) (tile b : Nat) (own : Bool) :
    ∃ f o, handedOn s v e tile b own = { v with cyc := { v.cyc with facts := f }, out := o } := by
  unfold handedOn
  split
  · exact ⟨_, _, rfl⟩
  · exact ⟨_, traceRec_only ..⟩

/-- Reading a good stream only corrects words. -/
theorem streamRead_good {s v : State} {tile ctx : Nat} {t : Task} (hl : v.load = s.load)
    (hb : ∀ a k, badRead s a k = false → badRead v a k = false)
    (hgood : badRead s (streamRange s t).1 (streamRange s t).2 = false) :
    streamRead v tile ctx t = correctRead v (streamRange s t).1 (streamRange s t).2 := by
  have hrange : streamRange v t = streamRange s t := by rw [streamRange, hl]; rfl
  rw [streamRead, hrange, hb _ _ hgood]
  rfl

/-- With the ledger covering its charge, no token owed and its stream readable, the batch starts (R257, R270). -/
theorem tryStart_starts {s : State} {e : Ready} {tile ctx b n charge : Nat} {own : Bool} {d : Int × Nat}
    (hroom : stitchRoom s e.task b = true) (hwin : windowDue s = false) (hn : dispatchEpoch s e b (!own) = n)
    (hep : (epochOf s n).isSome = true) (hcharge : chargeOf (energyOf e.task (e.first && own)) (scaleOf s tile) = charge)
    (hcov : ledgerCovers s (tile / 16) charge e.task.safe = some d)
    (hidle : tile ∉ s.disp.idleTiles) (hblock : blockOk s tile e.task = true)
    (hgood : badRead s (streamRange s e.task).1 (streamRange s e.task).2 = false) :
    ∃ u, tryStart s e tile ctx b own = .next u ∧
      u.disp = (startInst (debit s (tile / 16) d) e tile ctx b n charge own).disp ∧
      memClear u.mem ringsBase 0x40000 =
        memClear (startInst (debit s (tile / 16) d) e tile ctx b n charge own).mem ringsBase 0x40000 := by
  have hnone : (epochOf s n).isNone = false := Option.isNone_eq_false_iff.mpr hep
  obtain ⟨-, -, -, -, -, -, hload, hbad⟩ := startInst_leaves (debit s (tile / 16) d) e tile ctx b n charge own
  obtain ⟨f, o, hh⟩ := handedOn_only s (startInst (debit s (tile / 16) d) e tile ctx b n charge own) e tile b own
  have hexec : tryStart s e tile ctx b own = .next (streamRead
      (handedOn s (startInst (debit s (tile / 16) d) e tile ctx b n charge own) e tile b own) tile ctx e.task) := by
    unfold tryStart
    simp only [hroom, hwin, hn, hnone, hcharge, hcov, hidle, hblock, if_false, if_true, Bool.not_true, Bool.false_eq_true,
      Bool.or_self]
    rfl
  generalize startInst (debit s (tile / 16) d) e tile ctx b n charge own = v at hload hbad hh hexec ⊢
  rw [hh, streamRead_good (s := s) (v := { v with cyc := { v.cyc with facts := f }, out := o }) hload hbad hgood] at hexec
  exact ⟨_, hexec, correctRead_disp .., correctRead_frame (fun s => memClear s.mem ringsBase 0x40000) corrected_memClear
    (fun _ _ => rfl) ..⟩

/-- What a started instance's tile reads at the line of its block (R86). -/
theorem instanceBlock_stands {s : State} (hs : Inv s) {u : State} (hu : Inv u) {e : Ready} {tile b n x : Nat}
    (h : memClear u.mem ringsBase 0x40000 = memClear (memWrite s.mem (tileBase tile + x) (instanceBlock s e b n)) ringsBase 0x40000) :
    tileRead u tile x 64 = instanceBlock s e b n := by
  have hl : (instanceBlock s e b n).length = 64 := by
    simp [instanceBlock, toLe_length, zeros]
  have hb : ringsBase + 0x40000 ≤ tileBase tile + x := by
    simp only [ringsBase, tileBase]
    omega
  rw [tileRead, memRead_of_memClear hu.1 (memWrite_wf hs.1 ..) h hb,
    memRead_memWrite hs.1 _ _ (Nat.le_of_eq hl.symm), List.take_of_length_le (Nat.le_of_eq hl)]

/-- The instance that a start on an open context adds is the one read there. -/
theorem instOf_added {s u : State} {tile ctx : Nat} {i : Inst} (ho : contextOpen s tile ctx = true)
    (h : u.disp.running = s.disp.running ++ [i]) (ht : i.tile = tile) (hc : i.ctx = ctx) : instOf u tile ctx = some i := by
  have hnone : instOf s tile ctx = none := by
    simp only [contextOpen, Bool.and_eq_true, Option.isNone_iff_eq_none] at ho
    tauto
  rw [instOf] at hnone ⊢
  rw [h, List.find?_append, hnone]
  simp [ht, hc]

/-- A tried start on a tested context: the three outcomes of R257. -/
theorem dispatchOrSteal_tries {s : State} {tile ctx b : Nat} {e : Ready} {own : Bool} {c : Instr} (hr : s.boot.inReset = false)
    (ho : contextOpen s tile ctx = true) (hrep : inReplay s = false)
    (hway : (own = true ∧ c = .dispatch tile ctx ∧ chooseEntry s tile = some e ∧ b = e.pending.headD 0 ∧
        pointerHolds s (2 * tile + ctx) = false) ∨
      (own = false ∧ c = .steal tile ctx ∧ s.cyc.tack = false ∧ chooseEntry s tile = none ∧ victim s (tile / 16) = some e ∧
        stolenBatch s e = some b ∧ mayTake s e b (tile / 16) = true ∧ thiefHolds s (2 * tile + ctx) e = false))
    (hc : creditHolds s (2 * tile + ctx) e = false) :
    ∃ f q p, exec c s = tryStart (tested s f q p) e tile ctx b own := by
  rcases hway with ⟨rfl, rfl, he, rfl, hp⟩ | ⟨rfl, rfl, ht, hn, he, hb, hm, hp⟩
  · obtain ⟨f, q, p, h⟩ := noteTested_tested s (2 * tile + ctx)
    exact ⟨f, q, p, by rw [dispatch_tries hr ho hrep he hp hc, h]⟩
  · obtain ⟨f, q, p, h⟩ := noteThief_tested s (2 * tile + ctx) e
    exact ⟨f, q, p, by rw [steal_tries hr ho hrep ht hn he hb hm hp hc, h]⟩

/-- Settles O38: a covered start leaves its instance, its block, its debit and its list; another leaves the state but for the
pointers and the note of the starved context. -/
theorem dispatchAndStealStartInstances : Obligations.DispatchAndStealStartInstances := by
  unfold Obligations.DispatchAndStealStartInstances
  intro s tile ctx b e own c hr ho hrep hroom hway hcred charge n hep
  obtain ⟨f, q, p, hexec⟩ := dispatchOrSteal_tries hr ho hrep hway hcred
  refine ⟨fun d hwin hcov hidle hblock hgood => ?_, fun hwin hcov => ?_, fun hwin => ?_⟩
  · obtain ⟨u, hstart, hdisp, hclear⟩ := tryStart_starts (s := tested s f q p) (ctx := ctx) hroom hwin
      (show dispatchEpoch s e b (!own) = n from rfl) hep (charge := charge) rfl hcov hidle hblock hgood
    obtain ⟨hrun, hpool, hisl, hready, -, hmem, -, -⟩ := startInst_leaves (debit (tested s f q p) (tile / 16) d) e tile ctx b n
      charge own
    have hstep := hexec.trans hstart
    have hrunu : u.disp.running = s.disp.running ++ [newInst s e tile ctx b n charge] := by rw [hdisp]; exact hrun
    refine ⟨u, newInst s e tile ctx b n charge, hstep, instOf_added ho hrunu rfl rfl, rfl, rfl, rfl, rfl, rfl, rfl, rfl, rfl,
      rfl, rfl, hrunu, ?_, ?_, fun hs => ?_, fun x hx hpl => ?_⟩
    · rw [hdisp]
      exact hpool
    · rw [hdisp]
      exact hisl
    · have hu : InvR (exec c s) := exec_inv c hs
      rw [hstep] at hu
      exact instanceBlock_stands hs hu (hclear.trans (congrArg (memClear · ringsBase 0x40000) hmem))
    · rw [hdisp, hready] at hx
      exact not_mem_listsWithout hx hpl
  · have hnone : (epochOf (tested s f q p) n).isNone = false := Option.isNone_eq_false_iff.mpr hep
    have hstarve : tryStart (tested s f q p) e tile ctx b own = .next (traceRec (noteStarved (tested s f q p) (2 * tile + ctx))
        0x0A tile (tile / 16) charge (ofSigned 32 (s.disp.islands.getD (tile / 16) .reset).balance)) := by
      have hcov' : ledgerCovers (tested s f q p) (tile / 16) charge e.task.safe = none := hcov
      have hroom' : stitchRoom (tested s f q p) e.task b = true := hroom
      have hwin' : windowDue (tested s f q p) = false := hwin
      unfold tryStart
      simp only [hroom', hwin', show dispatchEpoch (tested s f q p) e b (!own) = n from rfl, hnone,
        show chargeOf (energyOf e.task (e.first && own)) (scaleOf (tested s f q p) tile) = charge from rfl, hcov', if_false,
        Bool.not_true, Bool.false_eq_true, Bool.or_self]
      rfl
    obtain ⟨o, htr⟩ := traceRec_only (noteStarved (tested s f q p) (2 * tile + ctx)) 0x0A tile (tile / 16) charge
      (ofSigned 32 (s.disp.islands.getD (tile / 16) .reset).balance)
    rw [htr] at hstarve
    exact ⟨_, hexec.trans hstarve, List.mem_cons_self .., rfl⟩
  · have hwin' : windowDue (tested s f q p) = true := hwin
    have hwait : tryStart (tested s f q p) e tile ctx b own = .next (tested s f q p) := by
      unfold tryStart
      simp [hwin']
    exact ⟨_, hexec.trans hwait, rfl⟩

end Sys2Proof.Machine
end

section
/-! PROOFS. The mailbox router (R386, R391 to R393): what taking an entry moves, and CMD_DOORBELL. -/

namespace Sys2Proof.Machine

/-- What the router's next decision rests on: the doorbell's tail, the owners' queues and CMD_HEAD. -/
def routed (s : State) : Word × List (Owner × List Msg) × RegFile :=
  (s.host.cmdTail, s.host.queues, s.regs.filter fun p => decide (p.1 = offCmdHead))

theorem routed_of_unreported {t v : State} (h : unreported t = unreported v) : routed t = routed v := by
  have hfilter : ∀ s : State, s.regs.filter (fun p => decide (p.1 = offCmdHead)) =
      (unreported s).regs.filter fun p => decide (p.1 = offCmdHead) := fun s => by
    have hp : ∀ p : Nat × Word, (decide (p.1 = offCmdHead) && !isRingReg p.1) = decide (p.1 = offCmdHead) := fun p => by
      by_cases hk : p.1 = offCmdHead
      · rw [hk]; rfl
      · simp [hk]
    simp only [unreported, List.filter_filter, hp]
  have htail : t.host.cmdTail = v.host.cmdTail := congrArg (·.host.cmdTail) h
  rw [routed, routed, htail, unreported_queues h, hfilter t, hfilter v, h]

theorem setReg_routed (s : State) {off : Nat} (h : off ≠ offCmdHead) (v : Word) : routed (setReg s off v) = routed s := by
  have hr := filter_mapSet resetVal (fun k => decide (k = offCmdHead)) off v (by simp [h]) s.regs
  exact congrArg (fun r => (s.host.cmdTail, s.host.queues, r)) hr

theorem regOf_of_routed {t v : State} (ht : Inv t) (hv : Inv v) (h : routed t = routed v) :
    regOf t offCmdHead = regOf v offCmdHead := by
  have hf : t.regs.filter (fun p => decide (p.1 = offCmdHead)) = v.regs.filter fun p => decide (p.1 = offCmdHead) :=
    congrArg (·.2.2) h
  have ht' := mapGet_filter resetVal (fun k => decide (k = offCmdHead)) ht.regs (k := offCmdHead) (by simp)
  have hv' := mapGet_filter resetVal (fun k => decide (k = offCmdHead)) hv.regs (k := offCmdHead) (by simp)
  exact ht'.symm.trans ((congrArg (mapGet resetVal · offCmdHead) hf).trans hv')

/-! ### Faults of the router and corrections -/

theorem stageFault_routed (s : State) (source code : Nat) (data : Bytes) : routed (stageFault s source code data) = routed s := by
  unfold stageFault
  dsimp only
  split
  · rfl
  · split <;> rfl

theorem raiseOpenFault_routed (s : State) (source : Nat) {code : Nat} (h : ∀ u, faultReact u code = u) :
    routed (raiseOpenFault s source code) = routed s := by
  rw [raiseOpenFault, raiseFault, h]
  exact stageFault_routed ..

theorem eccReport_routed (s : State) (cls unit addr : Nat) (h : offEccUe cls ≠ offCmdHead) :
    routed (eccReport s cls unit addr) = routed s := by
  unfold eccReport
  dsimp only
  rw [setReg_routed _ (by decide), setReg_routed _ (by decide), setReg_routed _ (by decide), bumpReg, setReg_routed _ h]

theorem mailboxUe_routed (s : State) (off : Nat) : routed (mailboxUe s off) = routed s := by
  rw [mailboxUe, raiseOpenFault_routed _ _ fun _ => rfl, eccReport_routed _ _ _ _ (by decide)]

theorem corrected_routed (s : State) (c : Nat) : routed (corrected s c) = routed s := by
  have hbump : ∀ p : Platform, routed { bumpReg s (offEccCe c) with plat := p } = routed s := fun p =>
    setReg_routed s (by unfold offEccCe offCmdHead; omega) _
  unfold corrected
  dsimp only
  split
  · rw [routed_of_unreported (sendEvent_unreported ..)]
    exact hbump _
  · exact hbump _

theorem entryEcc_routed (s : State) (h : CmdHeader) : routed (entryEcc s h) = routed s := by
  have hfold := foldl_frame routed (fun t (r : Nat × Nat) => correctRead t r.1 r.2)
    (fun _ _ => correctRead_frame routed corrected_routed (fun _ _ => rfl) ..) (entryPieces s h) s
  unfold entryEcc
  dsimp only
  split
  · rw [mailboxUe_routed, hfold]
  · exact hfold

theorem routeRefuse_routed (s : State) (m : Msg) (st : Nat) : routed (routeRefuse s m st) = routed s := by
  unfold routeRefuse
  split_ifs
  · rw [routed_of_unreported (reply_unreported ..), raiseOpenFault_routed _ _ fun _ => rfl, bumpReg,
      setReg_routed _ (by decide)]
  · exact routed_of_unreported (ringSend_unreported _ _ _ _ _ _ (by decide) (by simp [replyPayload]))
  · exact routed_of_unreported (reply_unreported ..)

theorem entryEcc_good {s : State} (hs : s.plat.softWords = []) (hb : s.plat.badWords = []) (hp : s.plat.poison = [])
    (h : CmdHeader) : entryEcc s h = s := by
  have hfold : (entryPieces s h).foldl (fun t r => correctRead t r.1 r.2) s = s :=
    List.foldlRecOn (entryPieces s h) _ (motive := fun t => t = s) rfl fun t ht r _ => by rw [ht, correctRead_good hs]
  have hbad : ∀ a n, badRead s a n = false := fun a n => by rw [badRead, hb, hp]; rfl
  have hfind : (entryPieces s h).find? (fun r => badRead s r.1 r.2) = none := by
    rw [List.find?_eq_none]
    intro r _
    simp [hbad]
  rw [entryEcc, hfold, hfind]

/-! ### Entries -/

/-- The state once an entry is passed: CMD_HEAD and the last SEQUENCE. -/
def passed (s : State) (h : CmdHeader) (tail : Word) : State :=
  let v := entryEcc s h
  { setReg v 0x0C tail with host := { v.host with lastCmdSeq := h.msg.seq } }

/-- Whether a message was routed or refused, every queue only grows and the tail stays. -/
def onlyGrown (s t : State) : Prop :=
  t.host.cmdTail = s.host.cmdTail ∧ ∀ o, ∃ l, ownerQueue t o = ownerQueue s o ++ l

theorem onlyGrown_of_same {s t : State} (ht : t.host.cmdTail = s.host.cmdTail) (hq : t.host.queues = s.host.queues) :
    onlyGrown s t := ⟨ht, fun o => ⟨[], by rw [ownerQueue, hq, ownerQueue, List.append_nil]⟩⟩

theorem onlyGrown_trans {s t u : State} (h1 : onlyGrown s t) (h2 : onlyGrown t u) : onlyGrown s u := by
  refine ⟨h2.1.trans h1.1, fun o => ?_⟩
  obtain ⟨l, hl⟩ := h1.2 o
  obtain ⟨k, hk⟩ := h2.2 o
  exact ⟨l ++ k, by rw [hk, hl, List.append_assoc]⟩

theorem routeEntry_onlyGrown (s : State) (h : CmdHeader) : onlyGrown s (routeEntry s h) := by
  have hecc := entryEcc_routed s h
  have htake : onlyGrown s (takeEntry (entryEcc s h) h) :=
    onlyGrown_of_same (congrArg (·.1) hecc) (congrArg (·.2.1) hecc)
  unfold routeEntry
  dsimp only
  split
  · have href := routeRefuse_routed (takeEntry (entryEcc s h) h) h.msg (routeStatus s h)
    exact onlyGrown_trans htake (onlyGrown_of_same (congrArg (·.1) href) (congrArg (·.2.1) href))
  · split
    · exact onlyGrown_of_same rfl rfl
    next o _ =>
      refine ⟨htake.1, fun p => ?_⟩
      by_cases hp : p = o
      · rw [hp, ownerQueue_setOwnerQueue]
        exact ⟨_, rfl⟩
      · rw [ownerQueue_setOwnerQueue_other _ hp]
        exact htake.2 p

theorem routeAll_onlyGrown (n : Nat) (s : State) : onlyGrown s (routeAll n s) := by
  induction n generalizing s with
  | zero => exact onlyGrown_of_same rfl rfl
  | succ n ih =>
    rw [routeAll]
    split
    · exact onlyGrown_trans (routeEntry_onlyGrown ..) (ih _)
    · exact onlyGrown_of_same rfl rfl

theorem routeRun_onlyGrown (s : State) : onlyGrown s (routeRun s) := by
  unfold routeRun
  split
  · exact routeAll_onlyGrown ..
  · exact onlyGrown_of_same rfl rfl

/-! ### One entry up to the tail -/

theorem routeAll_idle {s : State} (h : s.host.cmdTail = regOf s offCmdHead) (n : Nat) : routeAll n s = s := by
  cases n with
  | zero => rfl
  | succ n =>
    have hc : canTake s (readEntry s) = false := by
      have h0 : (s.host.cmdTail - regOf s offCmdHead).toNat = 0 := by rw [h]; simp
      simp [canTake, h0]
    simp [routeAll, hc]

theorem routeRun_helloWaits {s : State} (h : helloWaits s = true) : routeRun s = s := by
  have hc : canTake s (readEntry s) = false := by simp [canTake, h]
  unfold routeRun
  split
  · simp [routeAll, hc]
  · rfl

theorem regOf_passed {s : State} (hi : Inv s) (h : CmdHeader) (tail : Word) : regOf (passed s h tail) offCmdHead = tail := by
  have hr := regOf_setReg (entryEcc_inv s h hi).regs 0x0C offCmdHead tail
  exact hr.trans (if_pos rfl)

/-- A whole entry up to the tail: taking it moves CMD_HEAD to the tail. -/
theorem takeEntry_wholeEntry {s : State} (hi : Inv s) {h : CmdHeader}
    (hsize : s.host.cmdTail - regOf s 0x0C = BitVec.ofNat 32 (entrySize s h)) :
    takeEntry (entryEcc s h) h = passed s h s.host.cmdTail := by
  have hecc := entryEcc_routed s h
  have htail : (entryEcc s h).host.cmdTail = s.host.cmdTail := congrArg (·.1) hecc
  have hhead : regOf (entryEcc s h) offCmdHead = regOf s offCmdHead := regOf_of_routed (entryEcc_inv s h hi) hi hecc
  have hnew : regOf (entryEcc s h) offCmdHead + BitVec.ofNat 32 (entrySize (entryEcc s h) h) = s.host.cmdTail := by
    have hsz : entrySize (entryEcc s h) h = entrySize s h := by rw [entrySize, htail, hhead, entrySize]
    rw [hsz, ← hsize, hhead]
    simp [offCmdHead]
  rw [takeEntry, hnew]
  rfl

theorem canTake_wholeEntry {s : State} {h : CmdHeader} (hwait : helloWaits s = false) (hne : s.host.cmdTail ≠ regOf s 0x0C)
    (hsize : s.host.cmdTail - regOf s 0x0C = BitVec.ofNat 32 (entrySize s h))
    (hroom : routeStatus s h ≠ stOk ∨ ∃ o, opcodeOwner h.msg.opcode.toNat = some o ∧ (ownerQueue s o).length < 256) :
    canTake s h = true := by
  have hpos : (s.host.cmdTail - regOf s offCmdHead).toNat ≠ 0 := by
    simp only [offCmdHead]
    bv_omega
  have hle : entrySize s h ≤ (s.host.cmdTail - regOf s offCmdHead).toNat := by
    by_cases hl : h.len ≤ 65504
    · have hn : entrySize s h < 2 ^ 32 := by
        rw [entrySize, if_pos hl, ceilDiv]
        omega
      rw [show offCmdHead = 0x0C from rfl, hsize, BitVec.toNat_ofNat, Nat.mod_eq_of_lt hn]
    · rw [entrySize, if_neg hl]
  have hlast : (decide (routeStatus s h ≠ stOk) || (match opcodeOwner h.msg.opcode.toNat with
      | some o => decide ((ownerQueue s o).length < 256)
      | none => true)) = true := by
    rcases hroom with hst | ⟨o, ho, hq⟩
    · simp [hst]
    · simp [ho, hq]
  simp only [canTake, hwait, Bool.not_false, Bool.and_true, Bool.and_eq_true, decide_eq_true_eq]
  exact ⟨⟨hpos, hle⟩, hlast⟩

/-- With one whole entry up to the tail the router takes that entry and stops. -/
theorem routeRun_wholeEntry {s t : State} {h : CmdHeader} (hlow : 2 ≤ s.boot.stage) (hhigh : s.boot.stage ≤ 7)
    (hread : readEntry s = h) (hc : canTake s h = true) (hentry : routeEntry s h = t)
    (hend : t.host.cmdTail = regOf t offCmdHead) : routeRun s = t := by
  rw [routeRun, if_pos ⟨hlow, hhigh⟩, routeAll, hread, if_pos hc, hentry, routeAll_idle hend]

theorem execCmdDoorbell_of_ok {s : State} {tail : Word} (hr : s.boot.inReset = false) (hl : s.host.linkUp = true)
    (hok : doorbellOk s tail = true) :
    exec (.cmdDoorbell tail) s = .next (routeRun { s with host := { s.host with cmdTail := tail } }) := by
  change execCmdDoorbell tail s = _
  simp [execCmdDoorbell, onlyIf, hr, hl, hok]

/-- Settles O16: the doorbell counts a bad value; a good one lets the router go through the ring, and one whole entry goes to its
owner or is refused. -/
theorem doorbellRoutesTheMessage : Obligations.DoorbellRoutesTheMessage := by
  unfold Obligations.DoorbellRoutesTheMessage
  intro s tail hr hl
  refine ⟨fun hbad => ?_, fun hok => ?_, fun hok => ?_, fun hs hb hp h => entryEcc_good hs hb hp h⟩
  · change execCmdDoorbell tail s = _
    simp [execCmdDoorbell, onlyIf, hr, hl, hbad, bumpReg, offBadAccess]
  · obtain ⟨htail, hq⟩ := routeRun_onlyGrown { s with host := { s.host with cmdTail := tail } }
    exact ⟨_, execCmdDoorbell_of_ok hr hl hok, htail, hq⟩
  · have hexec := execCmdDoorbell_of_ok hr hl hok
    intro u h v w
    refine ⟨fun hidle => ?_, fun hi hlow hhigh hwait hne hsize => ?_⟩
    · rw [hexec]
      congr 1
      rcases hidle with heq | hwaits | hearly | hlate
      · exact routeRun_idle heq
      · exact routeRun_helloWaits hwaits
      · exact if_neg (by simp only [not_and]; omega)
      · exact if_neg (by simp only [not_and]; omega)
    · have hiu : Inv u := ⟨hi.mem, hi.regs, hi.lines⟩
      have htake : takeEntry (entryEcc u h) h = w := takeEntry_wholeEntry hiu hsize
      have hw : regOf w offCmdHead = tail := regOf_passed hiu h tail
      have hwtail : w.host.cmdTail = tail := congrArg (·.1) (entryEcc_routed u h)
      have hiw : Inv w := htake ▸ takeEntry_inv _ _ (entryEcc_inv _ _ hiu)
      refine ⟨fun o ho hst hroom => ?_, fun hst => ?_⟩
      · have hentry : routeEntry u h = setOwnerQueue w o (ownerQueue s o ++ [h.msg]) := by
          rw [routeEntry]
          simp only [hst, htake, ho, ne_eq, not_true_eq_false, if_false]
          rfl
        have hc : canTake u h = true := canTake_wholeEntry (s := u) hwait hne hsize (.inr ⟨o, ho, hroom⟩)
        exact hexec.trans (congrArg _ (routeRun_wholeEntry hlow hhigh rfl hc hentry (hwtail.trans hw.symm)))
      · have hentry : routeEntry u h = routeRefuse w h.msg (routeStatus u h) := by
          rw [routeEntry]
          simp only [htake]
          exact if_pos hst
        have hc : canTake u h = true := canTake_wholeEntry (s := u) hwait hne hsize (.inl hst)
        have href := routeRefuse_routed w h.msg (routeStatus u h)
        have hend : (routeRefuse w h.msg (routeStatus u h)).host.cmdTail =
            regOf (routeRefuse w h.msg (routeStatus u h)) offCmdHead := by
          rw [regOf_of_routed (routeRefuse_inv _ _ _ hiw) hiw href, hw]
          exact (congrArg (·.1) href).trans hwtail
        exact hexec.trans (congrArg _ (routeRun_wholeEntry hlow hhigh rfl hc hentry hend))

end Sys2Proof.Machine
end

section
/-! PROOFS. Stirrup (R375 to R379): flits, their transactions, and replays. -/

namespace Sys2Proof.Machine

/-! ### What a transaction leaves of the bytes received -/

theorem sendTrans_rxBytes (s : State) (o : Out) : (sendTrans s o).host.rxBytes = s.host.rxBytes := by
  have hflits : ∀ (n : Nat) (bs : Bytes) (h : HostPort), (sendFlits n bs h).rxBytes = h.rxBytes := fun n => by
    induction n with
    | zero => exact fun _ _ => rfl
    | succ n ih => exact fun bs h => ih _ _
  exact hflits ..

theorem flushCpls_rxBytes (l : List HeldWra) (s : State) : (flushCpls l s).host.rxBytes = s.host.rxBytes := by
  induction l generalizing s with
  | nil => rfl
  | cons h t ih =>
    rw [flushCpls]
    split
    · rw [ih, sendTrans_rxBytes]
    · rfl

theorem closeBurst_host (s : State) (q : Nat) (frame : Bytes) (dropped : Bool) : (closeBurst s q frame dropped).1.host = s.host := by
  unfold closeBurst
  split
  · rfl
  · split <;> rfl

theorem hostWra_rxBytes (s : State) (q off tag : Nat) (data : Bytes) : (hostWra s q off tag data).host.rxBytes = s.host.rxBytes := by
  unfold hostWra
  dsimp only
  split
  · rw [answerWra, flushCpls_rxBytes, closeBurst_host]
    rfl
  · rw [answerWra, flushCpls_rxBytes]
    rfl

/-! ### Transactions in a flit -/

/-- A field that lies in the first bytes is read from them alone. -/
theorem fieldAt_take {bs : Bytes} {k off n : Nat} (h : off + n ≤ k) : fieldAt (bs.take k) off n = fieldAt bs off n := by
  rw [fieldAt, fieldAt, sliceOf, sliceOf, List.drop_take, List.take_take, Nat.min_eq_left (by omega)]

theorem sliceOf_take {bs : Bytes} {k off n : Nat} (h : off + n ≤ k) : sliceOf (bs.take k) off n = sliceOf bs off n := by
  rw [sliceOf, sliceOf, List.drop_take, List.take_take, Nat.min_eq_left (by omega)]

theorem byteAt_of_fieldAt {bs : Bytes} {v : Nat} (h : fieldAt bs 0 1 = v) (hv : v ≠ 0) : byteAt bs 0 = BitVec.ofNat 8 v := by
  cases bs with
  | nil => exact absurd h.symm hv
  | cons b t =>
    simp only [fieldAt, sliceOf, List.drop_zero, List.take_succ_cons, List.take_zero, leNat] at h
    simp [byteAt, ← h]

/-- Bytes that are not a whole transaction wait for the next flit. -/
theorem transactions_waits {n : Nat} {bs : Bytes} {s : State} (hn : n = 0 → s.host.rxBytes = bs)
    (h : bs.length < 16 ∨ bs.length < 16 + 8 * ceilDiv (transactionData bs) 8) :
    transactions n bs s = .next { s with host := { s.host with rxBytes := bs } } := by
  cases n with
  | zero => rw [← hn rfl]; rfl
  | succ n => rw [transactions, if_pos h]

/-- A whole transaction is taken, and the bytes behind it go on. -/
theorem transactions_takes {n : Nat} {bs : Bytes} {s t : State} (hn : n ≠ 0) (h16 : 16 ≤ bs.length)
    (h : 16 + 8 * ceilDiv (transactionData bs) 8 ≤ bs.length)
    (ht : transaction (bs.take 16) (sliceOf bs 16 (transactionData bs)) s = .next t) :
    transactions n bs s = transactions (n - 1) (bs.drop (16 + 8 * ceilDiv (transactionData bs) 8)) t := by
  cases n with
  | zero => exact absurd rfl hn
  | succ n =>
    rw [transactions]
    simp only [ht]
    rw [if_neg (by omega)]
    rfl

/-- One whole transaction and nothing behind it. -/
theorem transactions_whole {bs : Bytes} {s t : State} (h : bs.length = 16 + 8 * ceilDiv (transactionData bs) 8)
    (ht : transaction (bs.take 16) (sliceOf bs 16 (transactionData bs)) s = .next t) (hrx : t.host.rxBytes = []) :
    transactions bs.length bs s = .next t := by
  rw [transactions_takes (by omega) (by omega) (by omega) ht, ← h, List.drop_length,
    transactions_waits (fun _ => hrx) (.inl (by decide)), ← hrx]

/-- The data of a whole transaction have their full length. -/
theorem sliceOf_data_length {bs : Bytes} {len : Nat} (h : bs.length = 16 + 8 * ceilDiv len 8) :
    (sliceOf bs 16 len).length = len := by
  simp only [sliceOf, List.length_take, List.length_drop, h, ceilDiv]
  omega

/-! ### The transactions of R377 to R379 -/

/-- A posted write into the COMMAND ring stands there. -/
theorem transaction_ringWrite {h data : Bytes} {s : State} (hty : fieldAt h 0 1 = 1) (hz : allZero (sliceOf h 8 8) = true)
    (hlow : 0x100000 ≤ fieldAt h 4 4) (hend : fieldAt h 4 4 + data.length ≤ 0x180000) (ha : fieldAt h 4 4 % 4 = 0)
    (hd : data.length % 4 = 0) (hl : data.length ≤ 256) (hhit : hitsTaken s (fieldAt h 4 4 - 0x100000) data.length = false) :
    transaction h data s = .next (devWrite (returnCredit s 1 0) (0x200000000000 + (fieldAt h 4 4 - 0x100000)) data) := by
  have hhit' : hitsTaken (returnCredit s 1 0) (fieldAt h 4 4 - 0x100000) data.length = false := hhit
  rw [transaction]
  simp only [hty, hz]
  rw [if_neg (by decide), if_pos trivial, stirrupWrite, if_neg (by omega), if_pos ⟨hlow, hend, ha, hd, hl⟩, hhit']
  rfl

/-- An acknowledged write goes to its host queue port. -/
theorem transaction_wra {h data : Bytes} {s : State} (hty : fieldAt h 0 1 = 2) (hz : allZero (sliceOf h 8 8) = true)
    (hlow : 0x1C0000 ≤ fieldAt h 4 4) (hhigh : fieldAt h 4 4 < 0x1C2000) (hin : fieldAt h 4 4 % 0x1000 + data.length ≤ 0x1000)
    (hd : data.length % 8 = 0) (hl : data.length ≤ 256) :
    transaction h data s = .next (hostWra s (12 + (fieldAt h 4 4 - 0x1C0000) / 0x1000) (fieldAt h 4 4 % 0x1000)
      (fieldAt h 1 1) data) := by
  rw [transaction]
  simp only [hty, hz]
  rw [if_neg (by decide), if_neg (by decide), if_pos trivial, stirrupWra, if_pos ⟨hlow, hhigh, hin, hd, hl⟩]

/-- The state with other WRA and read credits. -/
def withCredits (s : State) (c : Nat × Nat × Nat) : State := { s with host := { s.host with credits := c } }

/-- No register shows the credits. -/
theorem regRead_credits (s : State) (c : Nat × Nat × Nat) (a : Nat) : regRead (withCredits s c) a = regRead s a := by
  have hHost : readHost (withCredits s c) = readHost s := funext fun _ => by unfold readHost; rfl
  have hTileMap : readTileMap (withCredits s c) = readTileMap s := funext fun _ => by unfold readTileMap; rfl
  have hWorld : readWorld (withCredits s c) = readWorld s := funext fun _ => by unfold readWorld; rfl
  have hDispatch : readDispatch (withCredits s c) = readDispatch s := funext fun _ => by unfold readDispatch; rfl
  have hSafety : readSafety (withCredits s c) = readSafety s := funext fun _ => by unfold readSafety; rfl
  have hDma : readDma (withCredits s c) = readDma s := funext fun _ => by unfold readDma; rfl
  have hQueues : readQueues (withCredits s c) = readQueues s := funext fun _ => by unfold readQueues; rfl
  have hMemory : readMemory (withCredits s c) = readMemory s := funext fun _ => by unfold readMemory; rfl
  have hFirmware : readFirmware (withCredits s c) = readFirmware s := funext fun _ => by unfold readFirmware; rfl
  have hIngress : readIngress (withCredits s c) = readIngress s := funext fun _ => by unfold readIngress; rfl
  have hVehicle : readVehicle (withCredits s c) = readVehicle s := funext fun _ => by unfold readVehicle; rfl
  have hLinks : readLinks (withCredits s c) = readLinks s := funext fun _ => by unfold readLinks; rfl
  have hBoot : readBoot (withCredits s c) = readBoot s := funext fun _ => by unfold readBoot; rfl
  have hPower : readPower (withCredits s c) = readPower s := funext fun _ => by unfold readPower; rfl
  unfold regRead
  rw [hHost, hTileMap, hWorld, hDispatch, hSafety, hDma, hQueues, hMemory, hFirmware, hIngress, hVehicle, hLinks, hBoot, hPower]

/-- A read of a register is answered by a CPL with what it reads. -/
theorem transaction_regRead {h data : Bytes} {s : State} (hty : fieldAt h 0 1 = 3) (hlen : fieldAt h 2 2 = 4)
    (hz : allZero (sliceOf h 8 8) = true) (hwin : fieldAt h 4 4 < 0x10000) (ha : fieldAt h 4 4 % 4 = 0) :
    transaction h data s =
      .next (sendTrans (returnCredit s 0 1) (.cpl 0 (fieldAt h 1 1) (toLe 4 (regRead s (fieldAt h 4 4))))) := by
  have hreg : regRead (returnCredit s 0 1) (fieldAt h 4 4) = regRead s (fieldAt h 4 4) := regRead_credits ..
  rw [transaction]
  simp only [hty, hz, hlen]
  rw [if_neg (by decide), if_neg (by decide), if_neg (by decide), if_pos trivial, stirrupRead, if_pos ⟨hwin, rfl, ha⟩, hreg]

/-! ### Flits -/

/-- The state in which a good flit's transactions run (R376). -/
def flitTaken (s : State) (flit : Bytes) : State :=
  let a := takeAck s flit
  { a with host := { a.host with rxFseq := s.host.rxFseq + 1, rxReplay := false, rxFails := 0, rxBytes := [] } }

theorem takeAck_rx (s : State) (flit : Bytes) :
    (takeAck s flit).host.rxFseq = s.host.rxFseq ∧ (takeAck s flit).host.rxBytes = s.host.rxBytes := by
  unfold takeAck
  dsimp only
  split
  · exact ⟨rfl, rfl⟩
  · exact ⟨rfl, rfl⟩

theorem flitReceive_good {s : State} {flit : Bytes} (hr : s.boot.inReset = false) (hl : s.host.linkUp = true)
    (hg : flitGood flit = true) (hseq : BitVec.ofNat 16 (fieldAt flit 0 2) = s.host.rxFseq) :
    exec (.flitReceive flit) s = transactions (s.host.rxBytes ++ sliceOf flit 8 244).length
      (s.host.rxBytes ++ sliceOf flit 8 244) (flitTaken s flit) := by
  obtain ⟨hfseq, hrx⟩ := takeAck_rx s flit
  change execFlitReceive flit s = _
  rw [execFlitReceive, hr, hl, hg]
  simp only [Bool.not_true, Bool.or_false, Bool.false_eq_true, if_false]
  rw [if_neg (by rw [flitSeq, hseq]; exact not_not_intro rfl), hrx, hfseq]
  rfl

theorem flitReceive_discards {s : State} {flit : Bytes} (hr : s.boot.inReset = false) (hl : s.host.linkUp = true)
    (h : flitGood flit = false ∨ BitVec.ofNat 16 (fieldAt flit 0 2) ≠ s.host.rxFseq) :
    exec (.flitReceive flit) s = .next (discardFlit s (flitSeq flit) (!flitGood flit)) := by
  change execFlitReceive flit s = _
  rw [execFlitReceive, hr, hl]
  cases hg : flitGood flit with
  | false => simp
  | true =>
    rw [hg] at h
    simp [flitSeq, h.resolve_left (by decide)]

theorem discardFlit_expected {s : State} {fseq : Half} (h : s.host.rxReplay = false ∨ fseq = s.host.rxFseq) :
    discardFlit s fseq true = if 16 ≤ s.host.rxFails + 1 then dropTransactions s else
      { s with host := { s.host with rxReplay := true, rxFails := s.host.rxFails + 1 }, out := .replayRequest s.host.rxFseq :: s.out } := by
  have hf : (true && (!s.host.rxReplay || decide (fseq = s.host.rxFseq))) = true := by
    rcases h with h | h <;> simp [h]
  unfold discardFlit
  simp only [hf, if_true, Bool.true_or]

theorem discardFlit_outOfPlace {s : State} (fseq : Half) (h : s.host.rxFails < 16) :
    discardFlit s fseq false = if s.host.rxReplay then s else
      { s with host := { s.host with rxReplay := true }, out := .replayRequest s.host.rxFseq :: s.out } := by
  unfold discardFlit
  simp only [Bool.false_and, Bool.false_eq_true, if_false, Bool.false_or, if_neg (Nat.not_le.mpr h)]
  cases s.host.rxReplay <;> rfl

/-- Settles O19: a good flit's transactions one by one; a damaged flit or one out of sequence by what its discard requests. -/
theorem flitsCarryTransactions : Obligations.FlitsCarryTransactions := by
  unfold Obligations.FlitsCarryTransactions
  intro s flit hr hl bs len whole a u expected
  refine ⟨fun hg hseq => ?_, fun hg hexp hfails => ?_, fun hg hexp hfails => ?_, fun hg hseq hfails => ?_⟩
  · have hexec : exec (.flitReceive flit) s = transactions bs.length bs u := flitReceive_good hr hl hg hseq
    have hlen : transactionData bs = len := rfl
    refine ⟨fun hshort => ?_, fun hw hty hz hlow hend ha hd hln hhit => ?_, fun hw hty hz hlow hhigh hin hd hln => ?_,
      fun hd hdl hty hfour hwin ha hz tl hbs htl htt hshort => ?_⟩
    · exact hexec.trans (transactions_waits (fun h => (List.eq_nil_of_length_eq_zero h).symm) (.inr hshort))
    · have hdata := sliceOf_data_length hw
      have ht := transaction_ringWrite (h := bs.take 16) (data := sliceOf bs 16 len) (s := u)
      rw [fieldAt_take (by decide), fieldAt_take (by decide), sliceOf_take (by decide), hdata] at ht
      exact hexec.trans (transactions_whole hw (ht hty hz hlow hend ha hd hln hhit) rfl)
    · have hdata := sliceOf_data_length hw
      have ht := transaction_wra (h := bs.take 16) (data := sliceOf bs 16 len) (s := u)
      rw [fieldAt_take (by decide), fieldAt_take (by decide), fieldAt_take (by decide), sliceOf_take (by decide), hdata] at ht
      exact hexec.trans (transactions_whole hw (ht hty hz hlow hhigh hin hd hln) (hostWra_rxBytes ..))
    · have htake : bs.take 16 = hd := by rw [hbs, ← hdl, List.take_left]
      have hdrop : bs.drop 16 = tl := by rw [hbs, ← hdl, List.drop_left]
      have hty' : fieldAt bs 0 1 = 3 := by rw [← fieldAt_take (k := 16) (by decide), htake, hty]
      have hzero : transactionData bs = 0 := by
        rw [transactionData, byteAt_of_fieldAt hty' (by decide)]
        rfl
      have hbl : bs.length = 16 + tl.length := by rw [hbs, List.length_append, hdl]
      have ht := transaction_regRead (data := sliceOf bs 16 (transactionData bs)) (s := u) hty hfour hz hwin ha
      have htlData : transactionData tl = fieldAt tl 2 2 := by
        rw [transactionData, if_neg]
        intro h3
        refine htt ?_
        cases htl' : tl with
        | nil => rw [htl'] at htl; simp at htl
        | cons b r =>
          rw [htl', byteAt, List.getD_cons_zero] at h3
          simp [fieldAt, sliceOf, leNat, h3]
      rw [← htake] at ht
      rw [hexec, transactions_takes (by omega) (by omega) (by rw [hzero, ceilDiv]; omega) ht, hzero]
      rw [show 16 + 8 * ceilDiv 0 8 = 16 from rfl, hdrop, htake]
      refine transactions_waits (fun h => by omega) (.inr ?_)
      rw [htlData, ceilDiv]
      omega
  · rw [flitReceive_discards hr hl (.inl hg), hg]
    exact congrArg _ ((discardFlit_expected hexp).trans (if_neg (by omega)))
  · refine ⟨dropTransactions s, ?_, rfl, rfl, rfl, rfl, fun hw => ?_⟩
    · rw [flitReceive_discards hr hl (.inl hg), hg]
      exact congrArg _ ((discardFlit_expected hexp).trans (if_pos (by omega)))
    · rw [dropTransactions, hw]
      rfl
  · have hexec := flitReceive_discards hr hl (flit := flit) (.inr hseq)
    rw [hg, Bool.not_true, discardFlit_outOfPlace _ hfails] at hexec
    refine ⟨fun hrep => ?_, fun hrep => ?_⟩
    · rw [hexec, hrep]
      rfl
    · rw [hexec, hrep]
      rfl

end Sys2Proof.Machine
end

section
/-! PROOFS. Sensor ingress (R417 to R431): buffers, acceptance, host bursts, and gPTP. -/

namespace Sys2Proof.Machine

/-! ### Frame buffers -/

theorem frameReceived_takes {s : State} {port : Nat} {carrier : Bytes} (hr : s.boot.inReset = false) (hp : port < 12)
    (hrec : portReceives s port = true) (hg : isGptpCarrier port carrier = false) (stamp : Nat) :
    exec (.frameReceived port carrier stamp) s = .next (if s.cyc.dev = .replay then bumpReg s (0x5104 + 16 * port)
      else bufferFrame (setQueue s port fun x => { x with rxAt := some s.ao }) port
        ((weltOf s port carrier).bind fun w => weltCheck s port w stamp)) := by
  change execFrameReceived port carrier stamp s = _
  simp only [execFrameReceived, onlyIf, hr, hp, hrec, hg, decide_true, Bool.and_true, Bool.not_false, if_true,
    show offPortCnt port 1 = 0x5104 + 16 * port from by rw [offPortCnt]; omega]
  rfl

theorem bufferFrame_none (s : State) (q : Nat) : bufferFrame s q none = bumpReg s (0x5104 + 16 * q) := by
  rw [bufferFrame, show offPortCnt q 1 = 0x5104 + 16 * q from by rw [offPortCnt]; omega]

theorem bufferFrame_some (s : State) (q : Nat) (f : RxFrame) : bufferFrame s q (some f) =
    if buffered (queueOf s q) + f.bytes.length ≤ bufferSize q then setQueue s q fun x => { x with buffer := x.buffer ++ [f] }
    else bumpReg s (0x5108 + 16 * q) := by
  rw [bufferFrame, show offPortCnt q 2 = 0x5108 + 16 * q from by rw [offPortCnt]; omega]

/-! ### The CPLs of WRAs -/

theorem sendTrans_wraHeld (s : State) (o : Out) : (sendTrans s o).host.wraHeld = s.host.wraHeld := by
  have hflits : ∀ (n : Nat) (bs : Bytes) (h : HostPort), (sendFlits n bs h).wraHeld = h.wraHeld := fun n => by
    induction n with
    | zero => exact fun _ _ => rfl
    | succ n ih => exact fun bs h => ih _ _
  exact hflits ..

/-- With none before it, the CPL of a WRA that need not wait goes out. -/
theorem answerWra_ready {v : State} {h : HeldWra} (hv : v.host.wraHeld = []) (hh : h.ready = true) :
    answerWra v h = sendTrans { v with host := { v.host with
      credits := (v.host.credits.1, v.host.credits.2.1 + 1, v.host.credits.2.2) } } (.cpl h.status h.tag []) := by
  have hempty := (sendTrans_wraHeld { v with host := { v.host with
      credits := (v.host.credits.1, v.host.credits.2.1 + 1, v.host.credits.2.2) } } (.cpl h.status h.tag [])).trans hv
  rw [answerWra, hv, List.nil_append, flushCpls, if_pos hh, flushCpls, ← hempty]

/-- Behind a withheld CPL, and of a WRA that waits itself, nothing goes out. -/
theorem answerWra_withheld {v : State} {h : HeldWra} (hv : ∀ g ∈ v.host.wraHeld, g.ready = false)
    (hh : v.host.wraHeld ≠ [] ∨ h.ready = false) :
    answerWra v h = { v with host := { v.host with wraHeld := v.host.wraHeld ++ [h] } } := by
  rw [answerWra]
  cases hl : v.host.wraHeld with
  | nil => rw [List.nil_append, flushCpls, hh.resolve_left (not_not_intro hl)]; rfl
  | cons g t =>
    rw [List.cons_append, flushCpls, hv g (hl ▸ List.mem_cons_self ..)]
    rfl

theorem hostQueueWra_takes {s : State} {q : Nat} (hr : s.boot.inReset = false) (hl : s.host.linkUp = true)
    (hq : q = 12 ∨ q = 13) (off tag : Nat) (data : Bytes) :
    exec (.hostQueueWra q off tag data) s = .next (hostWra s q off tag data) := by
  change execHostQueueWra q off tag data s = _
  simp [execHostQueueWra, onlyIf, hr, hl, hq]

/-- Settles O22: a frame by its port's checks and room, a WRA by whether it closes its burst. -/
theorem framesEnterTheBuffers : Obligations.FramesEnterTheBuffers := by
  unfold Obligations.FramesEnterTheBuffers
  intro s hr
  refine ⟨fun port carrier stamp hp hrec hg => ?_, fun port carrier stamp hno => ?_,
    fun q tag data off hl hq => ?_, fun v h hv hh => answerWra_ready hv hh, fun v h hv hh => answerWra_withheld hv hh⟩
  · intro kept v
    have hexec := frameReceived_takes hr hp hrec hg stamp
    refine ⟨fun hrep => ?_, fun hrep hk => ?_, fun hrep f hk => ⟨fun hroom => ?_, fun hfull => ?_⟩⟩
    · rw [hexec, if_pos hrep]
    · rw [hexec, if_neg hrep, show (weltOf s port carrier).bind _ = none from hk, bufferFrame_none]
    · rw [hexec, if_neg hrep, show (weltOf s port carrier).bind _ = some f from hk, bufferFrame_some, if_pos hroom]
    · rw [hexec, if_neg hrep, show (weltOf s port carrier).bind _ = some f from hk, bufferFrame_some,
        if_neg (Nat.not_le.mpr hfull)]
  · change execFrameReceived port carrier stamp s = _
    have hc : (decide (port < 12) && portReceives s port && !isGptpCarrier port carrier) = false := by
      rcases hno with h | h | h
      · simp [Nat.not_lt.mpr h]
      · simp [h]
      · simp [h]
    rw [execFrameReceived, hc, onlyIf, Bool.and_false]
    rfl
  · intro bytes drop v wra
    rw [hostQueueWra_takes hr hl hq]
    refine ⟨fun hoff => ?_, fun hoff => ?_⟩
    · rw [hostWra]
      dsimp only
      rw [if_neg (Nat.not_le.mpr hoff)]
      rfl
    · have hclose : hostWra s q off tag data = answerWra (closeBurst v q bytes drop).1
          (wra true (!(closeBurst v q bytes drop).2)) := by
        rw [hostWra]
        dsimp only
        rw [if_pos hoff]
        rfl
      rw [hclose]
      refine ⟨fun hd => ?_, fun hd hw => ?_, fun hd f hw => ?_⟩
      · rw [closeBurst, if_pos hd]
        rfl
      · rw [closeBurst, hd, hw, show offPortCnt q 1 = 0x5104 + 16 * q from by rw [offPortCnt]; omega]
        rfl
      · intro waits hrep
        have hrep' : decide (v.cyc.dev = .replay) = false := decide_eq_false hrep
        rw [closeBurst, hd, hw, hrep', Bool.or_false]
        rfl

/-! ### Acceptance -/

/-- The queues and the references of the sources. -/
def intake (s : State) : List Queue × List SrcRef := (s.ing.queues, s.ing.refs)

theorem flagFault_intake (s : State) (p : Prop) [Decidable p] (source : Nat) {code : Nat} (h : ∀ u, faultReact u code = u) :
    intake (if p then raiseOpenFault s source code else s) = intake s := by
  split
  · rw [raiseOpenFault, raiseFault, h, stageFault]
    split
    · rfl
    · split <;> rfl
  · rfl

theorem sendEvent_intake (s : State) (code : Nat) (data : Bytes) : intake (sendEvent s code data) = intake s := by
  have hing : (sendEvent s code data).ing = s.ing := unreported_ing (sendEvent_unreported ..)
  rw [intake, hing, intake]

theorem frameFlagged_intake (s : State) (q flags source counter : Nat) :
    intake (frameFlagged s q flags source counter) = intake s := by
  unfold frameFlagged
  dsimp only
  split
  · rw [flagFault_intake _ _ _ fun _ => rfl, flagFault_intake _ _ _ fun _ => rfl, flagFault_intake _ _ _ fun _ => rfl]
    rfl
  · rw [sendEvent_intake]
    refine Eq.trans (b := intake (if flags &&& 0x30 ≠ 0 then _ else _)) rfl ?_
    rw [flagFault_intake _ _ _ fun _ => rfl, flagFault_intake _ _ _ fun _ => rfl, flagFault_intake _ _ _ fun _ => rfl]
    rfl

theorem flushCpls_only (l : List HeldWra) (s : State) : ∃ h o, flushCpls l s = { s with host := h, out := o } := by
  induction l generalizing s with
  | nil => exact ⟨_, _, rfl⟩
  | cons g t ih =>
    rw [flushCpls]
    split
    · obtain ⟨h, o, hf⟩ := ih (sendTrans { s with host := { s.host with
        credits := (s.host.credits.1, s.host.credits.2.1 + 1, s.host.credits.2.2) } } (.cpl g.status g.tag []))
      exact ⟨h, o, hf⟩
    · exact ⟨_, _, rfl⟩

theorem getD_listUpd_other {α : Type} {i j : Nat} (h : j ≠ i) (l : List α) (f : α → α) (d : α) :
    (listUpd l i f).getD j d = l.getD j d := by
  induction l generalizing i j with
  | nil => rfl
  | cons x t ih =>
    cases i with
    | zero =>
      cases j with
      | zero => exact absurd rfl h
      | succ j => rfl
    | succ i =>
      cases j with
      | zero => rfl
      | succ j => simpa [listUpd] using ih (by omega)

/-- What acceptance leaves of the queues and the references. -/
theorem acceptFrame_intake (s : State) (q : Nat) (f : RxFrame) (rest : List RxFrame) :
    let chk := counterCheck (s.ing.refs.getD f.entry { counter := 0, valid := false })
      (decide (regOf s (offSrcCfg f.entry) = f.entryCfg)) (BitVec.ofNat 32 (fieldBe f.bytes 4 4)) (!bitOf f.flags.toNat 0)
    ∃ g : QFrame, intake (acceptFrame s q f rest) = (listUpd s.ing.queues q fun x =>
      { queuePush s.ao (withIngressRecord f.bytes (f.flags.toNat ||| chk.1) q f.age chk.2.1) x with
        buffer := rest, frames := x.frames ++ [g] }, listUpd s.ing.refs f.entry fun _ => chk.2.2) := by
  intro chk
  refine ⟨QFrame.mk (toLe 1 q ++ toLe 1 (f.flags.toNat ||| chk.1) ++ toLe 2 (fieldBe f.bytes 0 2) ++
      toLe 4 (BitVec.ofNat 32 (fieldBe f.bytes 4 4)).toNat)
    (ceilDiv (withIngressRecord f.bytes (f.flags.toNat ||| chk.1) q f.age chk.2.1).length 64)
    (withIngressRecord f.bytes (f.flags.toNat ||| chk.1) q f.age chk.2.1) none, ?_⟩
  unfold acceptFrame
  dsimp only
  split
  · rw [frameFlagged_intake]
    rfl
  · rfl

/-- A frame without a flag is accepted without a report. -/
theorem acceptFrame_unflagged {s : State} {q : Nat} {f : RxFrame} (rest : List RxFrame)
    (h : (f.flags.toNat ||| (counterCheck (s.ing.refs.getD f.entry { counter := 0, valid := false })
      (decide (regOf s (offSrcCfg f.entry) = f.entryCfg)) (BitVec.ofNat 32 (fieldBe f.bytes 4 4)) (!bitOf f.flags.toNat 0)).1)
        &&& 0x3F = 0) :
    let t := acceptFrame s q f rest
    t.ing.flagged = s.ing.flagged ∧ t.mem = s.mem ∧ t.safety = s.safety ∧ t.cyc = s.cyc ∧
      t.regs = (bumpReg s (0x5100 + 16 * q)).regs := by
  unfold acceptFrame
  dsimp only
  rw [if_neg (not_not_intro h)]
  exact ⟨rfl, rfl, rfl, rfl, by rw [offPortCnt, Nat.mul_zero, Nat.add_zero]; rfl⟩

theorem frameAccept_takes {s : State} {q : Nat} {f : RxFrame} {rest : List RxFrame} (hr : s.boot.inReset = false)
    (hb : (queueOf s q).buffer = f :: rest) (hroom : ceilDiv f.bytes.length 64 ≤ queueFree s q) (hrep : s.cyc.dev ≠ .replay) :
    ∃ h o, exec (.frameAccept q) s = .next { acceptFrame s q f rest with host := h, out := o } := by
  obtain ⟨h, o, hf⟩ := flushCpls_only (readyFirst q (acceptFrame s q f rest).host.wraHeld) (acceptFrame s q f rest)
  refine ⟨h, o, ?_⟩
  change execFrameAccept q s = _
  rw [execFrameAccept, hb]
  simp [onlyIf, hr, hroom, hrep, releaseHeldCpls, hf]

theorem frameAccept_waits {s : State} {q : Nat} (h : (queueOf s q).buffer = [] ∨ s.cyc.dev = .replay ∨
    ∃ f rest, (queueOf s q).buffer = f :: rest ∧ queueFree s q < ceilDiv f.bytes.length 64) :
    exec (.frameAccept q) s = .next s := by
  change execFrameAccept q s = _
  unfold execFrameAccept
  split
  · rfl
  next f rest hb =>
    have hc : (decide (ceilDiv f.bytes.length 64 ≤ queueFree s q) && decide (s.cyc.dev ≠ .replay)) = false := by
      rcases h with h | h | ⟨g, r, hg, hfull⟩
      · rw [h] at hb
        cases hb
      · simp [h]
      · rw [hg] at hb
        obtain ⟨rfl, rfl⟩ := List.cons.inj hb
        simp [Nat.not_le.mpr hfull]
    rw [hc, onlyIf, Bool.and_false]
    rfl

/-- Settles O23: acceptance by what it leaves of queues and references, then the three other events. -/
theorem acceptedFramesStandInTheQueue : Obligations.AcceptedFramesStandInTheQueue := by
  unfold Obligations.AcceptedFramesStandInTheQueue
  intro s q hr hq hlen
  have hin : q < s.ing.queues.length := hlen ▸ hq
  refine ⟨fun f rest hb hroom hrep => ?_, frameAccept_waits, fun hh => ?_, fun hfired hun hdue => ?_⟩
  · intro ref c chk flags w
    obtain ⟨h, o, hexec⟩ := frameAccept_takes hr hb hroom hrep
    obtain ⟨fr, hintake⟩ := acceptFrame_intake s q f rest
    have hqueues : (acceptFrame s q f rest).ing.queues = _ := congrArg (·.1) hintake
    have hrefs : (acceptFrame s q f rest).ing.refs = _ := congrArg (·.2) hintake
    have hself : queueOf { acceptFrame s q f rest with host := h, out := o } q = _ :=
      (congrArg (·.getD q .reset) hqueues).trans (getD_listUpd_self hin _ _)
    refine ⟨_, hexec, ?_, ?_, ?_, ?_, ?_, fun p hp => ?_, hrefs, fun hflag => ?_⟩
    · rw [hself]; rfl
    · rw [hself]; rfl
    · rw [hself]; rfl
    · rw [hself]; rfl
    · rw [hself]
    · exact (congrArg (·.getD p .reset) hqueues).trans (getD_listUpd_other hp _ _ _)
    · exact acceptFrame_unflagged rest hflag
  · change execFrameHashDone q s = _
    simp only [execFrameHashDone, onlyIf, hr, hh]
    rfl
  · have hunread : queueUnread (queueOf s q) ≠ 0 := by
      simp only [queueUnread]
      bv_omega
    change execQueueReadTimeout q s = _
    simp [execQueueReadTimeout, onlyIf, hr, hfired, hq, hunread, readTimeout, offQCfg, hdue]

/-! ### gPTP -/

/-- A Sync of the slave port (R419, R420). -/
theorem gptpSyncRx_takes {s : State} {port : Nat} (hr : s.boot.inReset = false) (hs : gptpSlave s = some port) (off : Int) :
    let n := if decide (-100 ≤ off ∧ off ≤ 100) then s.ing.inRange + 1 else 0
    exec (.gptpSyncRx port off) s = .next (tickFree { s with ing := { s.ing with
      syncAt := s.ao, inRange := min 8 n, synced := s.ing.synced || decide (8 ≤ n), offset := off,
      timeBase := Config.freeNat 1 s.disp.freeCtr } }) := by
  intro n
  change execGptpSyncRx port off s = _
  rw [execGptpSyncRx, onlyIf, hr, decide_eq_true hs]
  rfl

/-- A port sends its Sync when it is MASTER, has link and its interval has passed (R419). -/
theorem execGptpSyncTx_iff (s : State) (port : Nat) : ∃ link due : Bool,
    exec (.gptpSyncTx port) s = onlyIf s (decide (gptpRole s port = 1) && link && due) { s with
        ing := { s.ing with syncTxAt := (port, s.ao) :: s.ing.syncTxAt.filter (·.1 ≠ port) }
        out := .gptpSync port :: s.out } ∧
      (link = true ↔ (port = 14 → s.outp.linkUp = true ∧ s.outp.txq = [] ∧ s.boot.stage = 7) ∧ (port ≠ 14 → port ∈ s.ing.linkUp)) ∧
      (due = true ↔ ∀ p, s.ing.syncTxAt.find? (·.1 = port) = some p → p.2 + syncInterval s ≤ s.ao) := by
  refine ⟨_, _, rfl, ?_, ?_⟩
  · split
    next h => simp [h]
    next h => simp [h]
  · split
    next p hp => simp [hp]
    next hp => simp [hp]

/-- Settles O24: a Sync by whether its offset is near, its absence, and the Syncs sent. -/
theorem gptpEventsComplete : Obligations.GptpEventsComplete := by
  unfold Obligations.GptpEventsComplete
  intro s port hr
  refine ⟨fun hslave off => ?_, fun hs hdue => ?_, fun hrole h14 hlink hdue => ?_, fun hno => ?_⟩
  · have hexec := gptpSyncRx_takes hr hslave off
    refine ⟨_, hexec, rfl, rfl, fun hnear => ?_, fun hfar => ?_, rfl, rfl⟩
    · simp only [tickFree, hnear, decide_true, and_self, if_true, Bool.or_eq_true, decide_eq_true_eq, true_and]
      exact or_congr_right (by omega)
    · have hn : ¬(-100 ≤ off ∧ off ≤ 100) := by omega
      simp [tickFree, hn]
  · change execGptpSyncTimeout s = _
    simp [execGptpSyncTimeout, onlyIf, hr, hs, hdue]
  · obtain ⟨link, due, hexec, hl, hd⟩ := execGptpSyncTx_iff s port
    rw [hexec, hl.mpr ⟨h14, hlink⟩, hd.mpr hdue, hrole, onlyIf, hr]
    rfl
  · obtain ⟨link, due, hexec, hl, -⟩ := execGptpSyncTx_iff s port
    have hoff : (decide (gptpRole s port = 1) && link) = false := by
      rcases hno with hrole | hrest
      · rw [decide_eq_false hrole, Bool.false_and]
      · have hlink : link = false := by
          rw [Bool.eq_false_iff, ne_eq, hl]
          rintro ⟨h14, hother⟩
          rcases hrest with ⟨hp, hn⟩ | ⟨hp, hn⟩
          · obtain ⟨h1, h2, h3⟩ := h14 hp
            simp [h1, h2, h3] at hn
          · exact hn (hother hp)
        rw [hlink, Bool.and_false]
    rw [hexec, hoff, onlyIf, Bool.false_and, Bool.and_false]
    rfl

end Sys2Proof.Machine
end

section
/-! PROOFS. START, STOP, PAUSE, RESUME (R286, R287) and checkpoints (R288 to R291): what each command leaves. -/

namespace Sys2Proof.Machine

/-! ### The world's table under the settings -/

theorem world_of_fold {β : Type} (f : State → β → State) (h : ∀ s x, (f s x).world = s.world) (l : List β) (s : State) :
    (l.foldl f s).world = s.world := foldl_frame (·.world) f h l s

theorem devScramble_world (s : State) (a n : Nat) : (devScramble s a n).world = s.world := rfl

theorem applySetting_world (s : State) (off : Nat) (v : Word) : (applySetting s off v).world = s.world := by
  unfold applySetting
  dsimp only
  split
  · rfl
  split
  · rfl
  split
  · rw [scrambleTiles, world_of_fold]
    · rfl
    · intro t m
      split
      · exact devScramble_world ..
      · rfl
  · rfl

/-- The state without what a write and the flows' rings change. -/
def unringed (s : State) : State := { s with mem := [], plat := .reset, flows := [] }

theorem devWrite_unringed (s : State) (a : Nat) (bs : Bytes) : unringed (devWrite s a bs) = unringed s := rfl

theorem eq_of_unringed {t s : State} (h : unringed t = unringed s) :
    t = { s with mem := t.mem, plat := t.plat, flows := t.flows } :=
  calc t = { unringed t with mem := t.mem, plat := t.plat, flows := t.flows } := rfl
    _ = { unringed s with mem := t.mem, plat := t.plat, flows := t.flows } := by rw [h]
    _ = _ := rfl

theorem resetRings_unringed (s : State) : unringed (resetRings s) = unringed s := by
  have hring : ∀ s c, unringed (resetRing s c) = unringed s := fun s c => by
    rw [resetRing, foldl_frame unringed _ (fun _ _ => devWrite_unringed ..), devWrite_unringed]
  unfold resetRings
  split
  · rfl
  · exact foldl_frame unringed resetRing hring _ _

theorem sendEvent_world (s : State) (code : Nat) (data : Bytes) : (sendEvent s code data).world = s.world :=
  unreported_world (sendEvent_unreported ..)

theorem activateDue_world (s : State) : (activateDue s).world = s.world := by
  have hl : ∀ s, (recheckLost s).world = s.world := fun s => by unfold recheckLost; split <;> rfl
  have hb : ∀ s, (switchBanks s).world = s.world := fun _ => rfl
  unfold activateDue
  split
  next i _ =>
    unfold activateImage
    dsimp only
    split
    · dsimp only
      rw [hl, hb]
      exact (congrArg (·.world) (resetRings_unringed
        { setStaged s .none with load := { (setStaged s .none).load with active := some i } })).trans rfl
    · dsimp only
      rw [sendEvent_world]
      rfl
  · rfl

theorem settingsInForce_world (s : State) : (settingsInForce s).world = s.world := by
  have hl : ∀ s, (recheckLost s).world = s.world := fun s => by unfold recheckLost; split <;> rfl
  have hd : ∀ s, (latigoListsDue s).world = s.world := fun s => by unfold latigoListsDue; split <;> rfl
  have ha : ∀ s, (applyWritten s).world = s.world := fun s => by
    unfold applyWritten
    exact world_of_fold (fun t (p : Nat × Word) => applySetting t p.1 p.2) (fun _ _ => applySetting_world ..) _ _
  have hp : ∀ s, (paramsInForce s).world = s.world := fun _ => rfl
  have hw : ∀ s, (weightsInForce s).world = s.world := fun _ => rfl
  have hr : ∀ s, (profilesInForce s).world = s.world := fun s => by
    unfold profilesInForce
    exact world_of_fold writeProfile (fun _ _ => by rfl) _ _
  rw [settingsInForce, hl, hd, ha, hp, activateDue_world, hw, hr]

/-! ### START -/

theorem start_runs {s : State} {m : Msg} {rest : List Msg} (hf : Front s .sch 0x40 m rest)
    (hrs : rsvdZero m.payload [(1, 15)] = true) : exec .start s = .next (startCommand (setOwnerQueue s .sch rest) m) := by
  change execStart s = _
  rw [execStart, withFront_takes hf (by simp [isOp, hf.2.1]), if_pos hrs]

/-- In STOPPED, with a mode that exists, START goes by what there is to run. -/
theorem startCommand_stopped {s : State} {m : Msg} (hd : s.cyc.dev = .stopped) (hm : fieldAt m.payload 0 1 ≤ 1) :
    startCommand s m = if (startStatus s).2 = stOk then startRun (startStatus s).1 m (decide (fieldAt m.payload 0 1 = 1))
      else reply (startStatus s).1 m (startStatus s).2 := by
  rw [startCommand, if_neg (not_not_intro hd), if_neg (Nat.not_lt.mpr hm)]

theorem startStatus_notReady {s : State} (h : s.boot.stage ≠ 7) : startStatus s = (s, 14) := by
  rw [startStatus, deviceReady, decide_eq_false h]
  rfl

theorem startStatus_noneStaged {s : State} (h : s.boot.stage = 7) (hs : s.load.staged = .none) :
    startStatus s = (s, if s.load.active.isSome then 0 else 15) := by
  rw [startStatus, deviceReady, decide_eq_true h, hs]
  rfl

/-- What a run from cycle 0 starts from (R286, R395). -/
theorem startRun_leaves {s : State} (hd : s.cyc.dev = .stopped) (m : Msg) (tack : Bool) :
    ∃ mem plat flows hq, startRun s m tack = { s with
      mem := mem, plat := plat, flows := flows, host := { s.host with timerAt := s.ao }
      world := { s.world with hostQ := hq }, lat := { s.lat with prevTraj := [], usedStamp := 0 }
      cyc := { s.cyc with
        dev := .running, effectAo := s.ao, everStarted := false, resumedGrid := false, earlyStart := none, tack := tack, seq := 0,
        seqRun := true, startMsg := some m, prevDigest := zeros 48, facts := [], earlyRecord := none } } := by
  have h := eq_of_unringed ((resetRings_unringed (devWrite (devWrite s incumbentBase [0]) latigoStateBase (zeros 64))).trans
    ((devWrite_unringed ..).trans (devWrite_unringed ..)))
  unfold startRun
  dsimp only
  generalize resetRings (devWrite (devWrite s incumbentBase [0]) latigoStateBase (zeros 64)) = v at h ⊢
  rw [h]
  simp only [enterRun, hd, if_true]
  cases tack
  · exact ⟨v.mem, v.plat, v.flows, s.world.hostQ, rfl⟩
  · exact ⟨v.mem, v.plat, v.flows, _, rfl⟩

/-! ### STOP and RESUME -/

theorem stop_runs {s : State} {m : Msg} {rest : List Msg} (hf : Front s .sch 0x41 m rest) (hn : s.cyc.stopMsg = none) :
    exec .stop s = .next (stopCommand (setOwnerQueue s .sch rest) m) := by
  change execStop s = _
  rw [execStop, hn, withFront_takes hf (by simp [isOp, hf.2.1])]
  rfl

/-- No host batch is held any more. -/
theorem unholdHost_free (s : State) : ∀ b ∈ (unholdHost s).world.hostQ, b.host = true → b.held = false := by
  intro b hb hh
  obtain ⟨x, -, rfl⟩ := List.mem_map.mp hb
  by_cases hx : x.host = true
  · rw [if_pos hx]
  · rw [if_neg hx] at hh
    exact absurd hh hx

theorem answerMsg_unreported (s : State) (m : Option Msg) (st : Nat) : unreported (answerMsg s m st) = unreported s := by
  unfold answerMsg
  split
  · exact reply_unreported ..
  · rfl

/-- What the end of a replay leaves (R291). -/
theorem endReplay_leaves (s : State) : let t := endReplay s
    t.cyc.dev = .stopped ∧ t.rep = none ∧ t.cyc.stopMsg = none ∧ t.outp.toggling = false ∧ t.cyc.seq = s.cyc.seq ∧
      t.world.table = s.world.table := by
  have h := answerMsg_unreported (stopNow { s with rep := none, cyc := { s.cyc with stopMsg := none, earlyStart := none } })
    s.cyc.stopMsg stOk
  refine ⟨congrArg (·.cyc.dev) h, congrArg State.rep h, congrArg (·.cyc.stopMsg) h, congrArg (·.outp.toggling) h, ?_, ?_⟩
  · exact (congrArg (·.cyc.seq) h).trans rfl
  · exact (congrArg (·.world.table) h).trans rfl

theorem resume_runs {s : State} {m : Msg} {rest : List Msg} (hf : Front s .sch 0x43 m rest) (hrs : resumeRsvd m = true)
    (hc : resumeCkpt m = false) : exec .resume s = .next (resumeCommand (setOwnerQueue s .sch rest) m) := by
  change execResume s = _
  rw [execResume, withFront_takes hf (by simp [isOp, hf.2.1, hc]), if_pos hrs]

/-- The state in which RESUME is answered (R287). -/
def resumed (s : State) : State :=
  let s2 := { enterRun s .running with cyc := { (enterRun s .running).cyc with resumedGrid := !s.cyc.params.sync } }
  if s.cyc.tack then s2 else unholdHost s2

theorem resumeCommand_paused {s : State} (hd : s.cyc.dev = .paused) (m : Msg) :
    resumeCommand s m = replyData (resumed s) m (toLe 4 0) := by
  rw [resumeCommand, if_neg (not_not_intro hd)]
  rfl

/-- What RESUME leaves of a pause (R287). -/
theorem resumed_leaves {s : State} (hd : s.cyc.dev = .paused) : let t := resumed s
    t.cyc.dev = .running ∧ t.cyc.effectAo = s.ao ∧ t.cyc.seq = s.cyc.seq ∧ t.cyc.tack = s.cyc.tack ∧
      t.cyc.resumedGrid = !s.cyc.params.sync ∧ (s.cyc.tack = false → ∀ b ∈ t.world.hostQ, b.host = true → b.held = false) ∧
      (s.cyc.tack = true → t.world = s.world) ∧ t.load = s.load ∧ t.disp.running = s.disp.running := by
  have hne : ¬s.cyc.dev = .stopped := by rw [hd]; decide
  unfold resumed enterRun
  simp only [if_neg hne]
  cases ht : s.cyc.tack with
  | true => exact ⟨rfl, rfl, rfl, rfl, rfl, fun h => absurd h (by decide), fun _ => rfl, rfl, rfl⟩
  | false => exact ⟨rfl, rfl, rfl, rfl, rfl, fun _ => unholdHost_free _, fun h => absurd h (by decide), rfl, rfl⟩

/-- Settles O30: each command by the device state it finds. -/
theorem lifecycleCommandsComplete : Obligations.LifecycleCommandsComplete := by
  unfold Obligations.LifecycleCommandsComplete
  intro s m rest u
  refine ⟨fun hf hrs => ?start, fun hf hn => ?stop, fun hf hn => ?pause, fun hf hrs hc => ?resume⟩
  case start =>
    have hexec : exec .start s = .next (startCommand u m) := start_runs hf hrs
    refine ⟨fun hd => ?_, fun hd hm hst => ?_, fun hd hm hst hsg ha => ?_, fun hd hm hst hsg ha => ?_⟩
    · rw [hexec, startCommand, if_pos (show u.cyc.dev ≠ .stopped from hd)]
      rfl
    · rw [hexec, startCommand_stopped (s := u) hd hm, startStatus_notReady (s := u) hst]
      exact congrArg _ (if_neg (show ¬14 = stOk from by decide))
    · have hstat : startStatus u = (u, 15) := by
        rw [startStatus_noneStaged (s := u) hst hsg, show u.load.active = none from ha]
        rfl
      rw [hexec, startCommand_stopped (s := u) hd hm, hstat]
      exact congrArg _ (if_neg (show ¬15 = stOk from by decide))
    · have hstat : startStatus u = (u, 0) := by
        rw [startStatus_noneStaged (s := u) hst hsg, if_pos (show u.load.active.isSome = true from ha)]
      obtain ⟨mem, plat, flows, hq, hrun⟩ := startRun_leaves (s := u) hd m (decide (fieldAt m.payload 0 1 = 1))
      rw [startCommand_stopped (s := u) hd hm, hstat] at hexec
      refine ⟨_, hexec.trans (congrArg _ ((if_pos rfl).trans hrun)), rfl, rfl, rfl, rfl, rfl, rfl, rfl, rfl, rfl, ?_, rfl, rfl, rfl,
        rfl, rfl, rfl, rfl⟩
      exact ownerQueue_setOwnerQueue s .sch rest
  case stop =>
    have hexec : exec .stop s = .next (stopCommand u m) := stop_runs hf hn
    have hstop : ∀ d, s.cyc.dev = d → u.cyc.dev = d := fun _ h => h
    refine ⟨fun hd => ?_, fun hd => ?_, fun hd => ?_, fun hd hin => ?_, fun hd hin => ?_⟩
    · rw [hexec, stopCommand, hstop _ hd]
      rfl
    · rw [stopCommand, hstop _ hd] at hexec
      have hun : unreported (reply (stopNow u) m stOk) = unreported (stopNow u) := reply_unreported ..
      refine ⟨_, hexec, ?_⟩
      have hworld : (reply (stopNow u) m stOk).world = (stopNow u).world := unreported_world hun
      have houtp : (reply (stopNow u) m stOk).outp = (stopNow u).outp := unreported_outp hun
      refine ⟨congrArg (·.cyc.dev) hun, ?_, ?_, ?_, ?_, ?_, ?_, ?_, ?_⟩
      · rw [houtp]; rfl
      · rw [houtp]; rfl
      · rw [houtp]; rfl
      · rw [hworld]
        exact unholdHost_free _
      · exact (congrArg (·.cyc.seq) hun).trans rfl
      · exact (congrArg (·.safety.safe) hun).trans rfl
      · exact (congrArg State.load hun).trans rfl
      · rw [hworld]; rfl
    · rw [hexec, stopCommand, hstop _ hd]
    · rw [hexec, stopCommand, hstop _ hd, stopReplay, if_pos (show u.cyc.inCycle = true from hin)]
    · rw [stopCommand, hstop _ hd] at hexec
      have hend := endReplay_leaves (settingsInForce { u with cyc := { u.cyc with stopMsg := some m } })
      obtain ⟨hdev, hrep, hmsg, htog, hseq, htab⟩ := hend
      have hstop2 : stopReplay u m = endReplay (settingsInForce { u with cyc := { u.cyc with stopMsg := some m } }) := by
        rw [stopReplay, if_neg (by rw [show u.cyc.inCycle = false from hin]; decide)]
      refine ⟨_, hexec.trans (congrArg _ hstop2), hdev, hrep, hmsg, htog, hseq.trans ?_, htab.trans ?_⟩
      · exact (congrArg (·.seq) (settingsInForce_view _)).trans rfl
      · exact (congrArg (·.table) (settingsInForce_world _)).trans rfl
  case pause =>
    have hexec : exec .pause s = .next (pauseCommand u m) := by
      change execPause s = _
      rw [execPause, hn, withFront_takes hf (by simp [isOp, hf.2.1])]
      rfl
    refine ⟨fun hd => ?_, fun hd => ?_⟩
    · rw [hexec, pauseCommand, if_pos (show u.cyc.dev = .running from hd)]
    · rw [hexec, pauseCommand, if_neg (show ¬u.cyc.dev = .running from hd)]
      rfl
  case resume =>
    have hexec : exec .resume s = .next (resumeCommand u m) := resume_runs hf hrs hc
    refine ⟨fun hd => ?_, fun hd => ?_⟩
    · rw [hexec, resumeCommand, if_pos (show u.cyc.dev ≠ .paused from hd)]
      rfl
    · rw [resumeCommand_paused (s := u) hd] at hexec
      have hun : unreported (replyData (resumed u) m (toLe 4 0)) = unreported (resumed u) := replyData_unreported _ _ _ (by simp)
      obtain ⟨hdev, hao, hseq, htack, hgrid, hfree, hworld, hload, hrun⟩ := resumed_leaves (s := u) hd
      have hcyc : (replyData (resumed u) m (toLe 4 0)).cyc = (resumed u).cyc := unreported_cyc hun
      have hw : (replyData (resumed u) m (toLe 4 0)).world = (resumed u).world := unreported_world hun
      refine ⟨_, hexec, ?_⟩
      rw [hcyc, hw]
      exact ⟨hdev, hao, hseq, htack, hgrid, hfree, hworld, (unreported_load hun).trans hload,
        (unreported_running hun).trans hrun⟩

/-! ### Checkpoints -/

/-- The state without what a restore writes besides the run's own values. -/
def unrestored (s : State) : State := { unringed s with world := .reset }

theorem devWrite_unrestored (s : State) (a : Nat) (bs : Bytes) : unrestored (devWrite s a bs) = unrestored s := rfl

theorem writeSlots_unrestored (s : State) (f : FreeMap) (l : List (Nat × Nat)) : unrestored (writeSlots s f l) = unrestored s := by
  have hl := foldl_frame unrestored (fun t (p : Nat × Nat) => devWrite t (bankBase + 8 * p.1) (toLe 8 p.2))
    (fun _ _ => devWrite_unrestored ..) l s
  exact Eq.trans rfl hl

/-- The state with no tree and no batch (R289). -/
def worldEmptied (s : State) : State :=
  { s with world := { s.world with table := [], nextSlot := 0, freed := [], hostQ := [], taskQ := [], staged := [], built := none,
                                   chains := [], cached := [], filling := [] } }

/-- The rebuilt tree is the newest epoch; all but world and memory stays (R289). -/
theorem restoreTree_leaves {s t : State} {bs : Bytes} {tree : List Bytes} (h : restoreTree s bs tree = some t) :
    unrestored t = unrestored s ∧ t.world.newest = fieldAt bs 0x10 4 := by
  unfold restoreTree at h
  dsimp only at h
  split at h
  · cases h
  next n root f l _ =>
    cases h
    have hw := writeSlots_unrestored (worldEmptied s) f l
    exact ⟨(congrArg (fun v : State => { v with world := .reset }) hw).trans rfl, rfl⟩

/-- The state in which the sections of a checkpoint stand in memory. -/
def sectionsWritten (s : State) (l : List Bytes) : State :=
  devWrite (devWrite (devWrite (devWrite
    ((List.range 8).foldl (fun t i => devWrite t (profileBase + 512 * i) (sliceOf (l.getD 1 []) (320 * i) 320)) s)
    incumbentBase (l.getD 2 [])) latigoStateBase (zeros 64)) flowBase (l.getD 3 [])) persistBase (l.getD 4 [])

theorem sectionsWritten_unringed (s : State) (l : List Bytes) : unringed (sectionsWritten s l) = unringed s := by
  rw [sectionsWritten, devWrite_unringed, devWrite_unringed, devWrite_unringed, devWrite_unringed,
    foldl_frame unringed _ fun _ _ => devWrite_unringed ..]

theorem takeUpRings_unringed (s : State) : unringed (takeUpRings s) = unringed s := by
  unfold takeUpRings
  split <;> rfl

/-- What the header's values leave: the run's mode, CYCLE_SEQ, parameters and counts (R289). -/
def headerInForce (s : State) (bs : Bytes) (l : List Bytes) : State :=
  { s with
    load := { s.load with profilesNext := [] }
    cyc := { s.cyc with
      tack := decide (fieldAt bs 5 1 = 1), seq := BitVec.ofNat 32 (fieldAt bs 8 4), seqRun := true, params := parseConfig (l.getD 0 []),
      paramsNext := none, prevDigest := sliceOf bs 0xE0 48, facts := [] }
    lat := { s.lat with fallbackT := fieldAt bs 0x110 4, incumbentAge := fieldAt (l.getD 2 []) 12 4, prevTraj := [], usedStamp := 0 }
    safety := { s.safety with missRun := fieldAt bs 0x14 1, mismatchMask := BitVec.ofNat 64 (fieldAt bs 0x18 8), mismatchNow := 0,
                              counted := [] } }

theorem headerInForce_unringed {t s : State} (h : unringed t = unringed s) (bs : Bytes) (l : List Bytes) :
    unringed (headerInForce t bs l) = unringed (headerInForce s bs l) := by
  rw [eq_of_unringed h]
  rfl

theorem restoreRest_unringed (s : State) (bs : Bytes) (l : List Bytes) :
    unringed (restoreRest s bs l) = unringed (headerInForce s bs l) := by
  have h : restoreRest s bs l = takeUpRings (headerInForce (sectionsWritten s l) bs l) := rfl
  rw [h, takeUpRings_unringed, headerInForce_unringed (sectionsWritten_unringed s l)]

theorem headerInForce_unrestored {t s : State} (h : unrestored t = unrestored s) (bs : Bytes) (l : List Bytes) :
    unrestored (headerInForce t bs l) = unrestored (headerInForce s bs l) := by
  have ht : t = { s with mem := t.mem, plat := t.plat, flows := t.flows, world := t.world } :=
    calc t = { unrestored t with mem := t.mem, plat := t.plat, flows := t.flows, world := t.world } := rfl
      _ = { unrestored s with mem := t.mem, plat := t.plat, flows := t.flows, world := t.world } := by rw [h]
      _ = _ := rfl
  rw [ht]
  rfl

/-- A restore that every check passes brings back the run's values from the checkpoint that stands in its area (R289). -/
theorem restoreCkpt_leaves {s : State} (h : (restoreCkpt s).1 = 0) : ∃ l,
    unrestored (restoreCkpt s).2 = unrestored (headerInForce s (ckptStored s) l) ∧
      (restoreCkpt s).2.world.newest = fieldAt (ckptStored s) 0x10 4 := by
  revert h
  unfold restoreCkpt
  dsimp only
  split
  next hst => exact fun h => absurd h hst
  · split
    · exact fun h => absurd h (show ¬stBadCheckpoint = 0 from by decide)
    next l _ =>
      split
      · exact fun h => absurd h (show ¬stBadCheckpoint = 0 from by decide)
      next t ht =>
        intro _
        obtain ⟨hun, hnew⟩ := restoreTree_leaves ht
        have hr := restoreRest_unringed t (ckptStored s) l
        have hworld : (restoreRest t (ckptStored s) l).world = t.world := (congrArg State.world hr).trans rfl
        refine ⟨l, (congrArg (fun v : State => { v with world := .reset }) hr).trans (headerInForce_unrestored hun _ _), ?_⟩
        rw [hworld, hnew]

/-- What RESUME and REPLAY take from a restored checkpoint. -/
theorem restoreCkpt_fields {s : State} (h : (restoreCkpt s).1 = 0) : let r := (restoreCkpt s).2
    r.ao = s.ao ∧ r.cyc.seq = BitVec.ofNat 32 (fieldAt (ckptStored s) 8 4) ∧
      r.cyc.tack = decide (fieldAt (ckptStored s) 5 1 = 1) ∧ r.safety.missRun = fieldAt (ckptStored s) 0x14 1 ∧
      r.world.newest = fieldAt (ckptStored s) 0x10 4 ∧ r.load.active = s.load.active ∧ r.fuses = s.fuses ∧ r.ing = s.ing := by
  obtain ⟨l, hun, hnew⟩ := restoreCkpt_leaves h
  clear h
  intro r
  change unrestored r = _ at hun
  change r.world.newest = _ at hnew
  clear_value r
  generalize ckptStored s = bs at hun hnew ⊢
  exact ⟨(congrArg State.ao hun).trans rfl, (congrArg (·.cyc.seq) hun).trans rfl, (congrArg (·.cyc.tack) hun).trans rfl,
    (congrArg (·.safety.missRun) hun).trans rfl, hnew, (congrArg (·.load.active) hun).trans rfl,
    (congrArg State.fuses hun).trans rfl, (congrArg State.ing hun).trans rfl⟩

/-- A run entered keeps all but the state of the device and the host-loss timer. -/
theorem enterRun_keeps (s : State) (d : DevState) : let t := enterRun s d
    t.cyc.dev = d ∧ t.cyc.effectAo = s.ao ∧ t.cyc.seq = s.cyc.seq ∧ t.cyc.tack = s.cyc.tack ∧ t.safety = s.safety ∧
      t.world = s.world ∧ t.load = s.load ∧ t.fuses = s.fuses ∧ t.ing = s.ing := by
  unfold enterRun
  dsimp only
  split
  · exact ⟨rfl, rfl, rfl, rfl, rfl, rfl, rfl, rfl, rfl⟩
  · exact ⟨rfl, rfl, rfl, rfl, rfl, rfl, rfl, rfl, rfl⟩

theorem save_runs {s : State} {m : Msg} {rest : List Msg} (hf : Front s .sch 0x44 m rest) :
    exec .save s = .next (saveCommand (setOwnerQueue s .sch rest) m) := by
  change execSave s = _
  rw [execSave, withFront_takes hf (by simp [isOp, hf.2.1])]

theorem resumeCheckpoint_runs {s : State} {m : Msg} {rest : List Msg} (hf : Front s .sch 0x43 m rest)
    (hrs : resumeRsvd m = true) (hc : resumeCkpt m = true) (hi : worldIdle s = true) :
    exec .resumeCheckpoint s = .next (resumeCkptCommand (setOwnerQueue s .sch rest) m) := by
  change execResumeCheckpoint s = _
  rw [execResumeCheckpoint, hi, withFront_takes hf (by simp [isOp, hf.2.1, hc]), if_pos hrs]
  simp

theorem replay_runs {s : State} {m : Msg} {rest : List Msg} (hf : Front s .sch 0x46 m rest)
    (hrs : rsvdZero m.payload [(1, 15)] = true) (hi : worldIdle s = true) :
    exec .replay s = .next (replayCommand (setOwnerQueue s .sch rest) m) := by
  change execReplay s = _
  rw [execReplay, hi, withFront_takes hf (by simp [isOp, hf.2.1]), if_pos hrs]
  simp

theorem resumeCkptCommand_atRest {s : State} (hd : s.cyc.dev = .stopped ∨ s.cyc.dev = .paused) (hb : s.boot.stage = 7) (m : Msg) :
    resumeCkptCommand s m = if (restoreCkpt s).1 = 0 then
      replyData (enterRun (restoreCkpt s).2 .running) m (toLe 4 (heldBatches s)) else reply s m (restoreCkpt s).1 := by
  rw [resumeCkptCommand, if_neg (not_not_intro hd.symm), deviceReady, decide_eq_true hb]
  generalize restoreCkpt s = r
  rfl

/-- The state in which REPLAY is answered (R290, R291). -/
def replayBegun (s : State) (n : Nat) : State :=
  let s0 := enterRun (emptyQueues s) .replay
  { s0 with cyc := { s0.cyc with lateAbortNext := false }
            rep := some { cycles := n, index := 0, packages := [], stopReq := false, factError := false } }

theorem replayCommand_stopped {s : State} {m : Msg} (hd : s.cyc.dev = .stopped) (hb : s.boot.stage = 7) :
    replayCommand s m = if fieldAt m.payload 0 1 = 0 ∨ 64 < fieldAt m.payload 0 1 then replyBadArg s m 0
      else if (restoreCkpt s).1 = 0 then reply (replayBegun (restoreCkpt s).2 (fieldAt m.payload 0 1)) m 0
      else reply s m (restoreCkpt s).1 := by
  rw [replayCommand]
  dsimp only
  rw [if_neg (not_not_intro hd), deviceReady, decide_eq_true hb]
  generalize restoreCkpt s = r
  rfl

/-- Settles O31: SAVE, RESUME from a checkpoint and REPLAY by what the restore gives. -/
theorem checkpointCommandsComplete : Obligations.CheckpointCommandsComplete := by
  unfold Obligations.CheckpointCommandsComplete
  intro s m rest u
  refine ⟨fun hf => ?save, fun hf hrs hc hi hb hd => ?resume, fun hf hrs hi hb hd => ?replay⟩
  case save =>
    have hexec : exec .save s = .next (saveCommand u m) := save_runs hf
    refine ⟨fun hd => ?_, fun hd => ?_⟩
    · have hat : atOnce u = true := decide_eq_true hd
      rw [hexec, saveCommand, hat]
      simp only [Bool.not_true, Bool.false_eq_true, if_false]
    · have hat : atOnce u = false := by
        rw [atOnce, show u.cyc.dev = s.cyc.dev from rfl]
        rcases hd with hd | hd
        · simp [hd]
        · simp [hd]
      rw [hexec, saveCommand, hat]
      exact congrArg _ (if_pos rfl)
  case resume =>
    have hexec : exec .resumeCheckpoint s = .next (resumeCkptCommand u m) := resumeCheckpoint_runs hf hrs hc hi
    rw [resumeCkptCommand_atRest (s := u) hd hb] at hexec
    refine ⟨fun h => ?_, fun h => ?_⟩
    · rw [hexec, if_neg h]
    · rw [if_pos h] at hexec
      obtain ⟨hao, hseq, htack, hmiss, hnew, hload, hfuse, hing⟩ := restoreCkpt_fields h
      obtain ⟨kdev, keff, kseq, ktack, ksafe, kworld, kload, kfuse, king⟩ := enterRun_keeps (restoreCkpt u).2 .running
      have hun : unreported (replyData (enterRun (restoreCkpt u).2 .running) m (toLe 4 (heldBatches u))) =
          unreported (enterRun (restoreCkpt u).2 .running) := replyData_unreported _ _ _ (by simp)
      refine ⟨_, hexec, ?_⟩
      rw [unreported_cyc hun, unreported_world hun, unreported_load hun, unreported_ing hun, kdev, keff, kseq, ktack, kworld, kload,
        king]
      generalize (restoreCkpt u).2 = r at *
      have hmissed := (congrArg (·.safety.missRun) hun).trans ((congrArg (·.missRun) ksafe).trans hmiss)
      have hfused := (congrArg State.fuses hun).trans (kfuse.trans hfuse)
      exact ⟨rfl, hao, hseq, htack, hmissed, hnew, hload, hfused, hing⟩
  case replay =>
    intro n
    have hexec : exec .replay s = .next (replayCommand u m) := replay_runs hf hrs hi
    rw [replayCommand_stopped (s := u) hd hb] at hexec
    have hin : 1 ≤ n → n ≤ 64 → ¬(n = 0 ∨ 64 < n) := fun _ _ => by omega
    refine ⟨fun hn => ?_, fun h1 h2 h => ?_, fun h1 h2 h => ?_⟩
    · rw [hexec, if_pos hn]
      rfl
    · rw [hexec, if_neg (hin h1 h2), if_neg h]
    · rw [if_neg (hin h1 h2), if_pos h] at hexec
      obtain ⟨-, hseq, -, -, -, hload, -, -⟩ := restoreCkpt_fields h
      obtain ⟨kdev, -, kseq, -, -, -, kload, -, king⟩ := enterRun_keeps (emptyQueues (restoreCkpt u).2) .replay
      have hun : unreported (reply (replayBegun (restoreCkpt u).2 n) m 0) = unreported (replayBegun (restoreCkpt u).2 n) :=
        reply_unreported ..
      refine ⟨_, hexec, ?_⟩
      rw [unreported_cyc hun, unreported_load hun, unreported_ing hun]
      generalize (restoreCkpt u).2 = r at *
      refine ⟨kdev, rfl, congrArg State.rep hun, kseq.trans hseq, fun q hq => ?_, (congrArg (·.active) kload).trans hload⟩
      have hq' : q ∈ (emptyQueues r).ing.queues := king ▸ hq
      obtain ⟨x, -, rfl⟩ := List.mem_map.mp hq'
      rfl

end Sys2Proof.Machine
end

section
/-! PROOFS. How cycles begin (R231, R233, R245, R291): the timer, the edge, its time-out, and replay. -/

namespace Sys2Proof.Machine

/-! ### A cycle that begins -/

/-- The values of a cycle's record and of the dispatcher that a cycle begins with. -/
structure Begins (s u : State) (start : Nat) : Prop where
  inCycle : u.cyc.inCycle = true
  startAo : u.cyc.startAo = start
  seq : u.cyc.seq = s.cyc.seq
  cutDone : u.cyc.cutDone = false
  cutT : u.cyc.cutT = none
  startMsg : u.cyc.startMsg = none
  deadlineDone : u.cyc.deadlineDone = false
  record : u.cyc.record = s.cyc.earlyRecord
  released : u.cyc.released = if s.disp.schRun then [0] else []
  params : u.cyc.params = s.cyc.params
  running : u.disp.running = s.disp.running
  tack : u.cyc.tack = s.cyc.tack

/-- The record of a cycle without what a phase release adds. -/
def cycleHead (s : State) : Cycle :=
  { s.cyc with
    released := [], phaseEpoch := [], facts := [], counts := .reset, thinned := false, cutActed := false, refineDropped := false
    phaseHeld := [] }

theorem cycleHead_of_unheld {t v : State} (h : unheld t = unheld v) : cycleHead t = cycleHead v := by
  have he : ∀ s, cycleHead s = cycleHead (unheld s) := fun _ => rfl
  rw [he t, he v, h]

theorem releasePhase_cycleHead (s : State) (p : Nat) : cycleHead (releasePhase s p) = cycleHead s ∧
    (releasePhase s p).cyc.released = p :: s.cyc.released ∧ (releasePhase s p).disp.running = s.disp.running := by
  obtain ⟨v, hv, hu⟩ := releasePhase_places s p
  have hplace : cycleHead (placePhase v p) = cycleHead v := rfl
  refine ⟨(cycleHead_of_unheld hu).trans (hplace.trans (cycleHead_of_unheld hv)), ?_, ?_⟩
  · exact (congrArg (·.cyc.released) hu).trans (congrArg (p :: ·) (congrArg (·.cyc.released) hv))
  · exact (congrArg (·.disp.running) hu).trans (congrArg (·.disp.running) hv)

theorem beginCycle_begins (s : State) (start : Nat) : Begins s (beginCycle s start) start := by
  have hun := startAnswered_unreported s start
  have hcyc : (startAnswered s start).cyc = (begun s start).cyc := unreported_cyc hun
  have hsch : (startAnswered s start).disp.schRun = s.disp.schRun := (congrArg (·.disp.schRun) hun).trans rfl
  have hrun : (startAnswered s start).disp.running = s.disp.running := (unreported_running hun).trans rfl
  have hhead : cycleHead (beginCycle s start) = cycleHead (begun s start) ∧
      (beginCycle s start).cyc.released = (if s.disp.schRun then [0] else []) ∧
      (beginCycle s start).disp.running = s.disp.running := by
    rw [beginCycle_eq, hsch]
    split
    · obtain ⟨h1, h2, h3⟩ := releasePhase_cycleHead (startAnswered s start) 0
      refine ⟨h1.trans ?_, h2.trans ?_, h3.trans hrun⟩
      · rw [cycleHead, hcyc, cycleHead]
      · rw [hcyc]; rfl
    · exact ⟨by rw [cycleHead, hcyc, cycleHead], by rw [hcyc]; rfl, hrun⟩
  obtain ⟨hc, hrel, hdisp⟩ := hhead
  exact
    { inCycle := (congrArg Cycle.inCycle hc).trans rfl
      startAo := (congrArg Cycle.startAo hc).trans rfl
      seq := (congrArg Cycle.seq hc).trans rfl
      cutDone := (congrArg Cycle.cutDone hc).trans rfl
      cutT := (congrArg Cycle.cutT hc).trans rfl
      startMsg := (congrArg Cycle.startMsg hc).trans rfl
      deadlineDone := (congrArg Cycle.deadlineDone hc).trans rfl
      record := (congrArg Cycle.record hc).trans rfl
      released := hrel
      params := (congrArg Cycle.params hc).trans rfl
      running := hdisp
      tack := (congrArg Cycle.tack hc).trans rfl }

/-! ### When it begins -/

theorem cycleStart_of_due {s : State} {t : Nat} (hr : s.boot.inReset = false) (h : dueStart s = some t) :
    exec .cycleStart s = .next (startCycle s t) := by
  change execCycleStart s = _
  rw [execCycleStart, h]
  exact onlyIf_true hr

/-- The timer's start, or the accepted edge within its window, is due (R231). -/
theorem dueStart_eq {s : State} {t : Nat} (hd : s.cyc.dev = .running) (he : s.cyc.earlyStart = none)
    (h : (nextSync s = false ∧ t ≤ s.ao ∧
        t = if s.cyc.everStarted then s.cyc.startAo + 100 * s.cyc.prevPeriod else firstStart s) ∨
      (nextSync s = true ∧ s.outp.acceptAt = some t ∧ syncFrom s ≤ t ∧ t ≤ syncLimit s)) : dueStart s = some t := by
  have hgo : ¬(s.cyc.dev ≠ .running ∨ s.cyc.earlyStart.isSome = true) := by rw [hd, he]; decide
  rw [dueStart, if_neg hgo]
  rcases h with ⟨hs, hle, ht⟩ | ⟨hs, ha, hfrom, hto⟩
  · have hlast : lastStart s = s.cyc.startAo := by rw [lastStart, he]; rfl
    rw [hs, hlast, gapPeriod]
    simp only [Bool.false_eq_true, if_false]
    rw [← ht, if_pos hle]
  · rw [hs, if_pos rfl, startEdge, ha]
    simp [hfrom, hto]

/-! ### Replay -/

/-- The state without what the recorded frames and batches fill. -/
def unfilled (s : State) : State := { s with ing := .reset, chans := [], rep := none, world := .reset }

theorem factFails_only (s : State) : ∃ r, factFails s = { s with rep := r } := by
  unfold factFails
  split
  · exact ⟨_, rfl⟩
  · exact ⟨_, rfl⟩

theorem placeFrame_unfilled (q : Nat) (s : State) (w : Bytes) : unfilled (placeFrame q s w) = unfilled s := by
  unfold placeFrame
  split
  · obtain ⟨r, h⟩ := factFails_only s
    rw [h]
    rfl
  · rfl

theorem placeFrames_unfilled (s : State) (p : ReplayPkg) : unfilled (placeFrames s p) = unfilled s :=
  foldl_frame unfilled _ (fun _ _ => foldl_frame unfilled _ (fun _ _ => placeFrame_unfilled ..) _ _) _ s

theorem placeBatches_unfilled (s : State) (p : ReplayPkg) : unfilled (placeBatches s p) = unfilled s := rfl

/-- The state in which a replayed cycle begins: its recorded mode is in force (R291). -/
def replayFilled (s : State) (p : ReplayPkg) : State :=
  placeBatches (placeFrames { s with cyc := { s.cyc with tack := decide (fieldAt p.header 5 1 = 1) } } p) p

theorem replayFilled_unfilled (s : State) (p : ReplayPkg) : unfilled (replayFilled s p) =
    unfilled { s with cyc := { s.cyc with tack := decide (fieldAt p.header 5 1 = 1) } } := by
  rw [replayFilled, placeBatches_unfilled, placeFrames_unfilled]

theorem startReplayed_cases (s : State) (p : ReplayPkg) :
    let v := beginCycle (replayFilled s p) (replayFilled s p).ao
    startReplayed s p = v ∨ startReplayed s p = factFails v := by
  intro v
  unfold startReplayed
  dsimp only
  split
  · exact .inl rfl
  · exact .inr rfl

/-- Settles O33: the three ways a cycle starts, and a replayed one. -/
theorem cyclesBegin : Obligations.CyclesBegin := by
  unfold Obligations.CyclesBegin
  intro s hr
  refine ⟨fun t hd he hdue => ?_, fun hd he hs hedge hlim => ?_, fun t hd hs ha hlate => ?_, fun p hd hp hin => ?_⟩
  · have hexec := cycleStart_of_due hr (dueStart_eq hd he hdue)
    refine ⟨fun hin => ?_, fun hin => ?_⟩
    · rw [hexec, startCycle, if_pos hin]
    · have hb := beginCycle_begins s t
      refine ⟨beginCycle s t, ?_, hb.inCycle, hb.startAo, hb.seq, hb.cutDone, hb.cutT, hb.startMsg, hb.deadlineDone, hb.record,
        hb.released, hb.params, hb.running, ?_⟩
      · rw [hexec, startCycle, hin]
        rfl
      · rw [deadlineAo, hb.startAo, hb.params]
  · change execSyncTimeout s = _
    simp only [execSyncTimeout, onlyIf, hr, hd, he, hs, hedge, hlim]
    rfl
  · have hedge : startEdge s = none := by
      rw [startEdge, ha]
      simp [hlate]
    have hnone : dueStart s = none := by
      unfold dueStart
      simp only [hs, if_true, hedge, ite_self]
    change execCycleStart s = _
    rw [execCycleStart, hnone]
  · have hfill := replayFilled_unfilled s p
    have hexec : exec .replayCycleStart s = .next (startReplayed s p) := by
      change execReplayCycleStart s = _
      rw [execReplayCycleStart, hp, hin]
      exact onlyIf_true hr
    have hb := beginCycle_begins (replayFilled s p) (replayFilled s p).ao
    have hcyc : (startReplayed s p).cyc = (beginCycle (replayFilled s p) (replayFilled s p).ao).cyc := by
      rcases startReplayed_cases s p with h | h
      · rw [h]
      · obtain ⟨r, hf⟩ := factFails_only (beginCycle (replayFilled s p) (replayFilled s p).ao)
        rw [h, hf]
    refine ⟨_, hexec, ?_⟩
    rw [hcyc]
    refine ⟨hb.inCycle, hb.startAo.trans ((congrArg State.ao hfill).trans rfl), hb.seq.trans ((congrArg (·.cyc.seq) hfill).trans rfl),
      ?_, ?_⟩
    · have htack : (replayFilled s p).cyc.tack = decide (fieldAt p.header 5 1 = 1) := (congrArg (·.cyc.tack) hfill).trans rfl
      rw [hb.tack, htack, decide_eq_true_iff]
    · have hsch : (replayFilled s p).disp.schRun = s.disp.schRun := (congrArg (·.disp.schRun) hfill).trans rfl
      rw [hb.released, hsch]

end Sys2Proof.Machine
end

section
/-! PROOFS. The register window, PHY management, link changes, the vehicle link and the field port (R374 to R388, R417, R435 to
R446, R505). -/

namespace Sys2Proof.Machine

/-! ### Bits of a word -/

theorem bitOf_top (v : Word) : bitOf v.toNat 31 = decide (2 ^ 31 ≤ v.toNat) := by
  have hlt := v.isLt
  rw [bitOf, Nat.testBit_eq_decide_div_mod_eq]
  exact decide_eq_decide.mpr (by omega)

theorem bitOf_thirty (v : Word) : bitOf v.toNat 30 = decide (v.toNat / 2 ^ 30 % 2 = 1) := by
  rw [bitOf, Nat.testBit_eq_decide_div_mod_eq]

/-! ### Writes in the register window -/

theorem serialGe_toNat (a b : Word) : serialGe a.toNat b.toNat = decide ((a - b).toNat < 2 ^ 31) := by
  have ha := a.isLt
  have hb := b.isLt
  rw [serialGe, BitVec.toNat_sub]
  exact decide_eq_decide.mpr (by omega)

theorem headWrite_takes {s : State} {off : Nat} (hr : s.boot.inReset = false) (hl : s.host.linkUp = true)
    (ho : off ∈ [0x10, 0x18, 0x20]) (v : Word) : exec (.headWrite off v) s = .next
      (if v.toNat % 64 = 0 ∧ (regOf s (off + 4) - v).toNat < 2 ^ 31 then setReg s off v else setReg s 0x40 (regOf s 0x40 + 1)) := by
  have ho' : off = 0x10 ∨ off = 0x18 ∨ off = 0x20 := by simpa using ho
  have hge : serialGe (regNat s (off + 4)) v.toNat = true ↔ (regOf s (off + 4) - v).toNat < 2 ^ 31 := by
    rw [regNat, serialGe_toNat, decide_eq_true_iff]
  change execHeadWrite off v s = _
  rw [execHeadWrite, hr, hl, decide_eq_true ho']
  simp only [hge, Bool.not_true, Bool.or_self, Bool.false_eq_true, if_false]
  split
  · rfl
  · rfl

theorem hostLossCfgWrite_takes {s : State} (hr : s.boot.inReset = false) (hl : s.host.linkUp = true) (v : Word) :
    exec (.hostLossCfgWrite v) s =
      if v.toNat / 2 ^ 30 = 3 ∨ v.toNat % 16384 < 10 ∨ 10000 < v.toNat % 16384 then .next s
      else if bitsOf v.toNat 14 16 ≠ 0 then .fault (.unguarded "R10") else .next (setReg s 0x28 v) := by
  change execHostLossCfgWrite v s = _
  rw [execHostLossCfgWrite, hr, hl]
  rfl

theorem stopEnWrite_takes {s : State} (hr : s.boot.inReset = false) (hl : s.host.linkUp = true) (v : Word) :
    exec (.stopEnWrite v) s = ofAttempt (stopEnWrite s v) := by
  change execStopEnWrite v s = _
  rw [execStopEnWrite, hr, hl]
  rfl

/-- STOP_EN while STOPPED: set, effective STOP a cause; clear, the cause ceases (R446). -/
theorem stopEnWrite_stopped {s : State} (hd : s.cyc.dev = .stopped) :
    stopEnWrite s 0x80000000 = .ok (if s.outp.stopFilt && !stopEn s then stopBecomesEffective (setReg s 0x6040 0x80000000)
      else setReg s 0x6040 0x80000000) ∧ stopEnWrite s 0 = .ok (ceaseCause (setReg s 0x6040 0) 7) := by
  have hbit : bitOf (0x80000000 : Word).toNat 31 = true := by decide
  have hzero : bitOf (0 : Word).toNat 31 = false := by decide
  refine ⟨?_, ?_⟩
  · rw [stopEnWrite, if_neg (not_not_intro hd), if_neg (by decide), hbit]
    rfl
  · rw [stopEnWrite, if_neg (not_not_intro hd), if_neg (by decide), hzero]
    rfl

theorem registerWrite_takes {s : State} {off : Nat} (hr : s.boot.inReset = false) (hl : s.host.linkUp = true)
    (ho : ownBehaviour off = false) (v : Word) : exec (.registerWrite off v) s =
      if 65536 ≤ off ∨ off % 4 ≠ 0 then .next (setReg s 0x40 (regOf s 0x40 + 1)) else ofAttempt (plainWrite s off v) := by
  change execRegisterWrite off v s = _
  rw [execRegisterWrite, hr, hl, ho]
  rfl

theorem boundaryDue_of_atRest {s : State} (h : s.cyc.dev = .stopped ∨ s.cyc.dev = .paused) : boundaryDue s = false := by
  rcases h with h | h <;> rw [boundaryDue, h] <;> decide

theorem boundaryDue_of_cycling {s : State} (h : s.cyc.dev = .running ∨ s.cyc.dev = .replay) : boundaryDue s = true := by
  rcases h with h | h <;> rw [boundaryDue, h] <;> decide

/-- A register without behaviour of its own takes a value in range. -/
theorem plainWrite_takes {s : State} {off : Nat} {v : Word} {i : RwInfo} (hi : rwInfo s off = some i) (hok : i.ok v.toNat = true)
    (hrs : v.toNat &&& i.rsvd = 0) : plainWrite s off v = .ok (if i.atBoundary && boundaryDue s then
      { s with written := mapSet (fun k => regOf s k) s.written off (BitVec.ofNat 32 (v.toNat &&& i.keep)) }
      else applySetting s off (BitVec.ofNat 32 (v.toNat &&& i.keep))) := by
  rw [plainWrite, hi]
  simp only [hok, hrs]
  rw [if_neg (by decide), if_neg (by decide)]
  split <;> rfl

/-- Settles O17: each write by the range of its value and the state of the device. -/
theorem windowWritesSetTheirRegister : Obligations.WindowWritesSetTheirRegister := by
  unfold Obligations.WindowWritesSetTheirRegister
  intro s v hr hl
  refine ⟨fun off ho => ⟨fun h64 hge => ?_, fun hbad => ?_⟩, fun h3 hlow hhigh hrs => ?_, fun hout => ?_, fun hd => ⟨fun hv hf => ?_,
    fun hv hf hen => ?_, fun hv hf hen => ?_, fun hv => ?_⟩, fun hd hv => ?_, fun off ho => ⟨fun hbad => ?_, fun hlt h4 =>
      ⟨fun hi => ?_, fun i hi hok => ?_, fun i hi hok hrs => ⟨fun hat => ?_, fun hd hat hwf => ?_⟩⟩⟩⟩
  · rw [headWrite_takes hr hl ho, if_pos ⟨h64, hge⟩]
  · rw [headWrite_takes hr hl ho, if_neg (by omega)]
  · rw [hostLossCfgWrite_takes hr hl, if_neg (by omega), if_neg (not_not_intro hrs)]
  · rw [hostLossCfgWrite_takes hr hl, if_pos hout]
  · rw [stopEnWrite_takes hr hl, hv, (stopEnWrite_stopped hd).1, hf]
    rfl
  · have hs : stopEn s = true := decide_eq_true hen
    rw [stopEnWrite_takes hr hl, hv, (stopEnWrite_stopped hd).1, hf, hs]
    rfl
  · have hs : stopEn s = false := decide_eq_false (Nat.not_le.mpr hen)
    refine ⟨stopBecomesEffective (setReg s 0x6040 0x80000000), ?_, enterSafe_safe .., enterSafe_cause ..⟩
    rw [stopEnWrite_takes hr hl, hv, (stopEnWrite_stopped hd).1, hf, hs]
    rfl
  · rw [stopEnWrite_takes hr hl, hv, (stopEnWrite_stopped hd).2]
    rfl
  · rw [stopEnWrite_takes hr hl, stopEnWrite, if_pos hd]
    rfl
  · rw [registerWrite_takes hr hl ho, if_pos hbad]
  · rw [registerWrite_takes hr hl ho, if_neg (by omega), plainWrite, hi]
    rfl
  · rw [registerWrite_takes hr hl ho, if_neg (by omega), plainWrite, hi]
    simp only [hok]
    rfl
  · have hnow : (i.atBoundary && boundaryDue s) = false := by
      rcases hat with h | h | h
      · rw [boundaryDue_of_atRest (.inl h), Bool.and_false]
      · rw [boundaryDue_of_atRest (.inr h), Bool.and_false]
      · rw [h, Bool.false_and]
    rw [registerWrite_takes hr hl ho, if_neg (by omega), plainWrite_takes hi hok hrs, hnow]
    rfl
  · have hlater : (i.atBoundary && boundaryDue s) = true := by rw [hat, boundaryDue_of_cycling hd]; rfl
    refine ⟨{ s with written := mapSet (fun k => regOf s k) s.written off (BitVec.ofNat 32 (v.toNat &&& i.keep)) }, ?_, ?_,
      fun k hk => ?_, rfl⟩
    · rw [registerWrite_takes hr hl ho, if_neg (by omega), plainWrite_takes hi hok hrs, hlater]
      rfl
    · exact (mapGet_mapSet _ hwf off off _).trans (if_pos rfl)
    · exact (mapGet_mapSet _ hwf off k _).trans (if_neg hk)

/-! ### PHY management -/

theorem mdioCommand_takes {s : State} {port k : Nat} (hr : s.boot.inReset = false) (hk : phyOfPort port = some k)
    (hl : s.host.linkUp = true) (v : Word) (op : Nat) :
    mdioCommand s port v op = if v.toNat / 2 ^ 30 ≠ op then .next s else ofAttempt (mdioStart s k port v) := by
  rw [mdioCommand, hk, hr, hl]
  simp

/-- An operation that its interface and the device's state allow starts (R441). -/
theorem mdioStart_starts {s : State} {k op : Nat} {v : Word} (hv : v.toNat / 2 ^ 30 = op) (hw : op % 2 = 1 → s.cyc.dev = .stopped)
    (hb : mdioBusy s k = false) (hrs : bitsOf v.toNat 16 4 = 0) (port : Nat) :
    mdioStart s k port v = .ok { s with ing := { s.ing with mdio := (k, v) :: s.ing.mdio },
                                        out := .mdioFrame port v (BitVec.ofNat 16 (regNat s (offMdioAddr k))) :: s.out } := by
  have hc : (mdioBusy s k || (bitOf v.toNat 30 && decide (s.cyc.dev ≠ .stopped))) = false := by
    rw [hb, bitOf_thirty, hv]
    by_cases hop : op % 2 = 1
    · simp [hw hop]
    · simp [hop]
  rw [mdioStart]
  simp only [hc]
  rw [if_neg (by decide), if_neg (not_not_intro hrs)]

theorem mdioStart_ignores {s : State} {k : Nat} {v : Word}
    (h : mdioBusy s k = true ∨ (v.toNat / 2 ^ 30 % 2 = 1 ∧ s.cyc.dev ≠ .stopped)) (port : Nat) : mdioStart s k port v = .ok s := by
  have hc : (mdioBusy s k || (bitOf v.toNat 30 && decide (s.cyc.dev ≠ .stopped))) = true := by
    rw [bitOf_thirty]
    rcases h with h | ⟨hop, hd⟩
    · rw [h, Bool.true_or]
    · rw [decide_eq_true hop, decide_eq_true hd]
      exact Bool.or_true _
  rw [mdioStart]
  simp only [hc]
  rw [if_pos trivial]

/-- The four MDIO commands are one with their OP code. -/
theorem mdio_ops {s : State} {port : Nat} {v : Word} {c : Instr} {op : Nat}
    (h : (c, op) ∈ [(Instr.mdioC22Read port v, 0), (Instr.mdioC22Write port v, 1), (Instr.mdioC45Read port v, 2),
      (Instr.mdioC45Write port v, 3)]) : exec c s = mdioCommand s port v op := by
  simp only [List.mem_cons, Prod.mk.injEq, List.not_mem_nil, or_false] at h
  rcases h with ⟨rfl, rfl⟩ | ⟨rfl, rfl⟩ | ⟨rfl, rfl⟩ | ⟨rfl, rfl⟩
  · rfl
  · rfl
  · rfl
  · rfl

theorem mdioDone_takes {s : State} {port k : Nat} {w : Word} (hr : s.boot.inReset = false) (hk : phyOfPort port = some k)
    (hf : s.ing.mdio.find? (·.1 = k) = some (k, w)) (r : Option Half) :
    let u := { s with ing := { s.ing with mdio := s.ing.mdio.filter (·.1 ≠ k) } }
    exec (.mdioDone port r) s = .next (if w.toNat / 2 ^ 30 % 2 = 1 then u else
      setReg u (offMdioStatus k) (BitVec.ofNat 32 (match r with | some d => d.toNat | none => 2 ^ 30 + 0xFFFF))) := by
  intro u
  change execMdioDone port r s = _
  unfold execMdioDone
  simp only [hk, hf, bitOf_thirty, decide_eq_true_eq]
  rw [onlyIf_true hr]
  split <;> rfl

theorem phyCtrlWrite_takes {s : State} {port k : Nat} (hr : s.boot.inReset = false) (hk : phyOfPort port = some k)
    (hl : s.host.linkUp = true) (v : Word) : exec (.phyResetWrite port v) s = ofAttempt (phyCtrlWrite s k v) := by
  change execPhyResetWrite port v s = _
  rw [execPhyResetWrite, hk, hr, hl]
  rfl

/-- Setting the entries of a list to the values of a function makes them read so. -/
theorem boolGet_foldl_boolSet (f : Nat → Bool) (l : List Nat) {m : List (Nat × Bool)} (hm : mapWf (fun _ => false) m = true)
    (j : Nat) : boolGet (l.foldl (fun l k => boolSet l k (f k)) m) j = if j ∈ l then f j else boolGet m j := by
  induction l generalizing m with
  | nil => rfl
  | cons k l ih =>
    rw [List.foldl_cons, ih (m := boolSet m k (f k)) (mapWf_mapSet _ hm k (f k)), show boolGet (boolSet m k (f k)) j = _ from mapGet_mapSet _ hm k j (f k)]
    by_cases hj : j = k
    · simp [hj]
    · simp [hj, boolGet]

/-- The levels that the pins take 10 ms after the reset. -/
def pinLevels (s : State) : List (Nat × Bool) := (List.range 5).foldl (fun l k => boolSet l k (phyRstLevel s k)) []

theorem phyRstNRelease_takes {s : State} (hr : s.boot.inReset = false) (hrel : phyReleased s = true) :
    exec .phyRstNRelease s = .next { s with boot := { s.boot with phyRstN := pinLevels s } } := by
  change execPhyRstNRelease s = _
  rw [execPhyRstNRelease, hrel]
  exact onlyIf_true hr

/-- After the reset's 10 ms every pin follows its RST bit (R441). -/
theorem boolGet_pinLevels {s : State} (hrel : phyReleased s = true) {j : Nat} (hj : j < 5) :
    boolGet (pinLevels s) j = decide (regNat s (offPhyCtrl j) < 2 ^ 31) := by
  rw [pinLevels, boolGet_foldl_boolSet (phyRstLevel s) _ rfl, if_pos (List.mem_range.mpr hj), phyRstLevel, hrel, Bool.true_and]

/-- A state that differs by the pins' levels alone. -/
theorem phyRstNRelease_follows {s : State} {l : List (Nat × Bool)}
    (hexec : exec .phyRstNRelease s = .next { s with boot := { s.boot with phyRstN := l } })
    (hl : ∀ j, j < 5 → boolGet l j = decide (regNat s (offPhyCtrl j) < 2 ^ 31)) :
    ∃ t, exec .phyRstNRelease s = .next t ∧
      (∀ j, j < 5 → boolGet t.boot.phyRstN j = decide (regNat s (offPhyCtrl j) < 2 ^ 31)) ∧
      { t with boot := { t.boot with phyRstN := s.boot.phyRstN } } = s := ⟨_, hexec, hl, rfl⟩

/-- Settles O18: the operations by interface and state, the ends of operations, PHY_CTRL and the pins. -/
theorem phyManagementCommandsComplete : Obligations.PhyManagementCommandsComplete := by
  unfold Obligations.PhyManagementCommandsComplete
  intro s port v hr ops
  refine ⟨fun hn => ⟨fun c op h => ?_, fun r => ?_, ?_, ?_⟩, fun k hk => ⟨fun hl c op h => ⟨fun hv hw hb hrs => ?_, fun hno => ?_⟩,
    fun hf r => ?_, fun w r hf => ⟨fun hw => ?_, fun hw => ⟨?_, fun d => ?_⟩⟩, fun hl => ⟨fun hv hd => ?_, fun hv hd hrs => ?_,
      fun hv hrs => ?_⟩, ?_⟩, fun hrel => ?_⟩
  · rw [mdio_ops h, mdioCommand, hn]
  · change execMdioDone port r s = _
    unfold execMdioDone
    simp only [hn]
  · change execPhyResetWrite port v s = _
    rw [execPhyResetWrite, hn]
  · change execPhyIntFall port s = _
    rw [execPhyIntFall, hn]
  · rw [mdio_ops h, mdioCommand_takes hr hk hl, if_neg (not_not_intro hv), mdioStart_starts hv hw hb hrs]
    rfl
  · rw [mdio_ops h, mdioCommand_takes hr hk hl]
    by_cases hv : v.toNat / 2 ^ 30 = op
    · rw [if_neg (not_not_intro hv), mdioStart_ignores]
      · rfl
      · exact (hno.resolve_left (not_not_intro hv)).imp_right fun h => hv ▸ h
    · rw [if_pos hv]
  · change execMdioDone port r s = _
    unfold execMdioDone
    simp only [hk, hf]
  · rw [mdioDone_takes hr hk hf, if_pos hw]
  · rw [mdioDone_takes hr hk hf, if_neg (by omega)]
    rfl
  · rw [mdioDone_takes hr hk hf, if_neg (by omega)]
    congr 1
    rw [show (BitVec.zeroExtend 32 d : Word) = BitVec.ofNat 32 d.toNat from BitVec.eq_of_toNat_eq (by simp)]
  · have hbit : bitOf v.toNat 31 = true := (bitOf_top v).trans (decide_eq_true hv)
    rw [phyCtrlWrite_takes hr hk hl, phyCtrlWrite, hbit, decide_eq_true hd]
    rfl
  · have hbit : bitOf v.toNat 31 = true := (bitOf_top v).trans (decide_eq_true hv)
    rw [phyCtrlWrite_takes hr hk hl, phyCtrlWrite, hbit, decide_eq_false (not_not_intro hd), if_neg (by decide),
      if_neg (not_not_intro hrs)]
    simp only [Bool.not_true, Bool.and_false, boolNat, if_true, Nat.mul_one]
    rfl
  · have hbit : bitOf v.toNat 31 = false := (bitOf_top v).trans (decide_eq_false (Nat.not_le.mpr hv))
    rw [phyCtrlWrite_takes hr hk hl, phyCtrlWrite, hbit, if_neg (by simp), if_neg (not_not_intro hrs)]
    simp only [Bool.not_false, Bool.and_true, boolNat, Bool.false_eq_true, if_false, Nat.mul_zero, Nat.zero_add]
    rfl
  · have hval : regNat s (offPhyCtrl k) - regNat s (offPhyCtrl k) % 65536 + (regNat s (offPhyCtrl k) + 1) % 65536 =
        regNat s (offPhyCtrl k) / 65536 * 65536 + (regNat s (offPhyCtrl k) + 1) % 65536 := by omega
    change execPhyIntFall port s = _
    rw [execPhyIntFall, hk]
    simp only [hval]
    exact onlyIf_true hr
  · exact phyRstNRelease_follows (phyRstNRelease_takes hr hrel) fun j hj => boolGet_pinLevels hrel hj

/-! ### Link changes and host loss -/

/-- Withdrawing the WRAs in flight changes bursts and buffers alone (R375). -/
theorem undoWra_leaves (s : State) (h : HeldWra) :
    ∃ b d q, undoWra s h = { s with host := { s.host with burst := b, burstDrop := d }, ing := { s.ing with queues := q } } := by
  unfold undoWra
  split
  · split
    · exact ⟨_, _, _, rfl⟩
    · split
      · exact ⟨_, _, _, rfl⟩
      · exact ⟨_, _, _, rfl⟩
  · dsimp only
    split
    · exact ⟨_, _, _, rfl⟩
    · exact ⟨_, _, _, rfl⟩

theorem undoWras_leaves (l : List HeldWra) (s : State) :
    ∃ b d q, l.foldl undoWra s = { s with host := { s.host with burst := b, burstDrop := d }, ing := { s.ing with queues := q } } := by
  induction l generalizing s with
  | nil => exact ⟨_, _, _, rfl⟩
  | cons h l ih =>
    obtain ⟨b, d, q, hu⟩ := undoWra_leaves s h
    obtain ⟨b2, d2, q2, hl⟩ := ih (undoWra s h)
    exact ⟨b2, d2, q2, by rw [List.foldl_cons, hl, hu]⟩

theorem mainbandDown_takes {s : State} (hr : s.boot.inReset = false) (hl : s.host.linkUp = true) :
    exec .mainbandDown s = .next (dropTransactions s) := by
  change execMainbandDown s = _
  rw [execMainbandDown, hl]
  exact onlyIf_true hr

theorem ntf_takes {s : State} {r : Nat} (h3 : r < 3) :
    exec (.ntf (r + 1)) s = onlyIf s (s.host.linkUp &&
        (match s.host.ntfAt.find? (·.1 = r) with | some p => decide (p.2 + 100 ≤ s.ao) | none => true) && decide (r ∈ s.host.ntfDue))
      (sendTrans { s with host := { s.host with
        ntfDue := s.host.ntfDue.filter (· ≠ r), ntfAt := (r, s.ao) :: s.host.ntfAt.filter (·.1 ≠ r) } } (.ntf (r + 1))) := by
  have hring : decide (1 ≤ r + 1 ∧ r + 1 ≤ 3) = true := decide_eq_true (by omega)
  change execNtf (r + 1) s = _
  rw [execNtf]
  simp only [Nat.add_sub_cancel, hring, Bool.and_true] <;> rfl

/-- An NTF goes out when the link is up, its ring is due, and a µs has passed since the last (R388). -/
theorem ntfFree_iff (s : State) (r : Nat) :
    (match s.host.ntfAt.find? (·.1 = r) with | some p => decide (p.2 + 100 ≤ s.ao) | none => true) = true ↔
      ∀ t, s.host.ntfAt.find? (·.1 = r) = some (r, t) → t + 100 ≤ s.ao := by
  cases hf : s.host.ntfAt.find? (·.1 = r) with
  | none => simp
  | some p =>
    have hp : p.1 = r := by simpa using List.find?_some hf
    obtain ⟨k, t⟩ := p
    obtain rfl : k = r := hp
    simp

theorem lossDue_eq {s : State} (hs : s.host.session = true) (hd : s.cyc.dev ≠ .stopped) (hh : s.host.hostLost = false) :
    lossDue s = decide (s.host.timerAt + 100000 * (regNat s 0x28 % 16384) < s.ao) := by
  rw [lossDue, lossBy, hs, decide_eq_true hd, hh, Bool.eq_iff_iff]
  simp only [Bool.true_and, Bool.not_false, offHostLossCfg, Bool.and_eq_true, decide_eq_true_iff]
  refine ⟨fun ⟨hpos, hle⟩ => ?_, fun h => ⟨by omega, decide_eq_true (by omega)⟩⟩
  exact Nat.lt_of_le_of_lt (of_decide_eq_true hle) (by omega)

/-- Sending flits keeps what a flit keeps. -/
theorem sendTrans_keeps {γ : Type} (g : HostPort → γ) (hg : ∀ h bs, g (sendFlit h bs) = g h) (s : State) (o : Out) :
    g (sendTrans s o).host = g s.host := by
  have hflits : ∀ (n : Nat) (bs : Bytes) (h : HostPort), g (sendFlits n bs h) = g h := fun n => by
    induction n with
    | zero => exact fun _ _ => rfl
    | succ n ih => exact fun bs h => (ih _ _).trans (hg _ _)
  exact hflits ..

theorem hostLossExpiry_takes {s : State} (hr : s.boot.inReset = false) :
    exec .hostLossExpiry s = .next (if lossDue s then loseHost s else s) := by
  change onlyIf s (lossDue s) (loseHost s) = _
  rw [onlyIf, hr]
  rfl

/-- Settles O20: the links' changes, the notifications, and the host's loss. -/
theorem linkEventsAndHostLossComplete : Obligations.LinkEventsAndHostLossComplete := by
  unfold Obligations.LinkEventsAndHostLossComplete
  intro s hr
  refine ⟨fun hl => ?_, fun hl => ?_, fun hl rate rep h3 => ?_, fun up => ?_, fun port up => ?_, fun r h3 => ⟨fun hl hdue hat => ?_,
    fun hno => ?_⟩, fun v w o => ⟨rfl, rfl, ?_, ?_⟩, fun hs hd hh => ?_⟩
  · obtain ⟨b, d, q, hu⟩ := undoWras_leaves s.host.wraHeld.reverse s
    refine ⟨dropTransactions s, mainbandDown_takes hr hl, rfl, rfl, rfl, rfl, ?_, fun hw => ?_⟩
    · rw [dropTransactions, hu]
    · rw [dropTransactions, hw]
      rfl
  · change execMainbandDown s = _
    rw [execMainbandDown, hl]
    exact onlyIf_false
  · change execMainbandUp rate rep s = _
    rw [execMainbandUp, hl, decide_eq_true h3]
    exact onlyIf_true hr
  · exact onlyIf_true hr
  · refine ⟨_, onlyIf_true hr, ?_, fun p hp => ?_, rfl⟩
    · cases up with
      | true => simpa using mem_addOnce s.ing.linkUp port
      | false => simp
    · cases up with
      | true =>
        simp only [addOnce, if_true]
        split
        · rfl
        · simp [hp]
      | false => simp [hp]
  · rw [ntf_takes h3, hl, (ntfFree_iff s r).mpr hat, decide_eq_true hdue]
    exact onlyIf_true hr
  · rw [ntf_takes h3]
    have hc : (s.host.linkUp && (match s.host.ntfAt.find? (·.1 = r) with | some p => decide (p.2 + 100 ≤ s.ao) | none => true) &&
        decide (r ∈ s.host.ntfDue)) = false := by
      rw [Bool.eq_false_iff, ne_eq, Bool.and_eq_true, Bool.and_eq_true, ntfFree_iff, decide_eq_true_iff]
      rintro ⟨⟨hl, hfree⟩, hdue⟩
      rcases hno with h | h | ⟨t, ht, hlt⟩
      · rw [hl] at h
        cases h
      · exact h hdue
      · exact absurd (hfree t ht) (Nat.not_le.mpr hlt)
    rw [hc]
    exact onlyIf_false
  · exact sendTrans_keeps (·.queues) (fun _ _ => rfl) v o
  · exact sendTrans_keeps (·.ntfDue) (fun _ _ => rfl) v o
  · intro due u
    rw [hostLossExpiry_takes hr, lossDue_eq hs hd hh]
    refine ⟨fun hle => ?_, fun hlt => ?_⟩
    · rw [decide_eq_false (Nat.not_lt.mpr hle)]
      rfl
    · rw [decide_eq_true hlt]
      have hun : unentered (loseHost s) = unentered u := loseHost_unentered s
      refine ⟨loseHost s, rfl, congrArg (·.host.hostLost) hun, congrArg (·.host.lostPolicy) hun, congrArg (·.host.lostAtSeq) hun,
        fun h2 => loseHost_safe h2, fun h2 => ?_⟩
      rw [loseHost, if_neg (show ¬lossPolicy s = 2 from h2), sendOpenEvent_unreported]
      rfl

end Sys2Proof.Machine
end

section
/-! PROOFS. The vehicle link and the field port (R435 to R446): frames, lines, readback, STOP. -/

namespace Sys2Proof.Machine

/-! ### The outputs under an entry into the safe state -/

/-- The outputs but for the frames handed over. -/
def portOf (s : State) : Output := { s.outp with ident := 0, txq := [] }

theorem portOf_of_unreported {t v : State} (h : unreported t = unreported v) : portOf t = portOf v := by
  rw [portOf, unreported_outp h, portOf]

theorem vlHandOver_port (s : State) (bs : Bytes) : portOf (vlHandOver s bs) = portOf s := by
  unfold vlHandOver
  dsimp only
  split <;> rfl

/-- A record that is not VALID leaves degraded lines as they are (R443, R444). -/
theorem releaseRecord_port {s : State} (hd : s.outp.degraded = true) {r : Released} (hr : r.state ≠ 0) :
    portOf (releaseRecord s r) = portOf s := by
  have hp := vlHandOver_port s r.bytes
  have hdeg : (vlHandOver s r.bytes).outp.degraded = true := (congrArg Output.degraded hp).trans hd
  have hlines : portOf (releaseLines (vlHandOver s r.bytes) r.state) = portOf s := by
    rw [releaseLines, if_neg hr, ← hp, portOf, portOf, ← hdeg]
  have hout : portOf (if s.cyc.dev = .replay then s else releaseLines (vlHandOver s r.bytes) r.state) = portOf s := by
    split
    · rfl
    · exact hlines
  refine Eq.trans ?_ hout
  unfold releaseRecord
  dsimp only
  split <;> rfl

theorem entryRecord_port {s : State} (hd : s.outp.degraded = true) : portOf (entryRecord s) = portOf s := by
  have hinv : (invalidRecord s).state ≠ 0 := by rw [invalidRecord_state]; decide
  unfold entryRecord
  split
  · rfl
  · split
    · exact releaseRecord_port hd hinv
    · rfl
  · split
    · exact releaseRecord_port hd hinv
    · split
      · rfl
      · dsimp only
        generalize earlyInvalid s = r
        exact (vlHandOver_port s r.bytes).symm ▸ rfl

/-- The first cause makes the lines static with FP_DEGRADED high; a later one leaves them (R325, R443, R444). -/
theorem enterSafe_port (s : State) (mask : Nat) : portOf (enterSafe s mask) =
    if s.safety.safe then portOf s else portOf (linesStatic s) := by
  cases h : s.safety.safe with
  | true => rw [enterSafe_of_latched h]; rfl
  | false =>
    have hun : unreported (sendOpenEvent (latchSafe s mask) 0x000C) = unreported (latchSafe s mask) := sendOpenEvent_unreported ..
    have hdeg : (sendOpenEvent (latchSafe s mask) 0x000C).outp.degraded = true := by rw [unreported_outp hun]; rfl
    rw [enterSafe_of_clear h, entryRecord_port hdeg, portOf_of_unreported hun]
    rfl

/-- An entry clears a pending SAFE_CLEAR and leaves the staged faults (R325, R328). -/
theorem enterSafe_keeps (s : State) (mask : Nat) :
    (enterSafe s mask).safety.clearPending = false ∧ (enterSafe s mask).safety.staging = s.safety.staging := by
  cases h : s.safety.safe with
  | true => rw [enterSafe_of_latched h]; exact ⟨rfl, rfl⟩
  | false =>
    have hun : unreported (sendOpenEvent (latchSafe s mask) 0x000C) = unreported (latchSafe s mask) := sendOpenEvent_unreported ..
    rw [enterSafe_of_clear h, entryRecord_safety]
    exact ⟨congrArg (·.safety.clearPending) hun, congrArg (·.safety.staging) hun⟩

/-! ### A staged fault -/

theorem mem_stageInsert (e : Staging) (l : List Staging) : e ∈ stageInsert e l := by
  induction l with
  | nil => exact List.mem_singleton.mpr rfl
  | cons x t ih =>
    rw [stageInsert]
    split
    · exact List.mem_cons_self ..
    · exact List.mem_cons_of_mem _ ih

/-- A fault is staged in the safety record alone (R23). -/
theorem stageFault_only (s : State) (source code : Nat) (data : Bytes) : ∃ l g f,
    stageFault s source code data = { s with safety := { s.safety with staging := l, folds := g, foldCount := f } } := by
  have hfold : ∀ (e : Staging) (l0 : List Staging), ∃ l g f, ({ s with
      safety := foldEvent e { s.safety with staging := l0 } } : State) =
        { s with safety := { s.safety with staging := l, folds := g, foldCount := f } } := fun e l0 => by
    unfold foldEvent
    dsimp only
    split
    · exact ⟨_, _, _, rfl⟩
    · exact ⟨_, _, _, rfl⟩
  unfold stageFault
  dsimp only
  split
  · exact ⟨_, _, _, rfl⟩
  · split
    · exact hfold _ _
    · exact hfold _ s.safety.staging

/-- With room a fault is staged as an entry of its own (R310). -/
theorem stageFault_entry {s : State} (h : s.safety.staging.length < 32) (source code : Nat) (data : Bytes) :
    ∃ e ∈ (stageFault s source code data).safety.staging, e.source = source ∧ e.code = code ∧ e.stamp = s.ao := by
  unfold stageFault
  dsimp only
  rw [if_pos h]
  exact ⟨_, mem_stageInsert _ _, rfl, rfl, rfl⟩

/-! ### The field port -/

/-- What a readback mismatch leaves: the fault staged, the cause, and the lines (R445). -/
theorem readback_leaves (s : State) : let u := raiseOpenFault { s with outp := { s.outp with readbackBad := true } } fsFieldPort fFpReadback
    u.outp.readbackBad = true ∧ u.safety.safe = true ∧ u.safety.cause = s.safety.cause ||| 2048 ∧
      u.safety.present = s.safety.present ||| 2048 ∧ u.safety.clearPending = false ∧
      (s.safety.staging.length < 32 → ∃ e ∈ u.safety.staging, e.source = fsFieldPort ∧ e.code = fFpReadback ∧ e.stamp = s.ao) ∧
      (s.safety.safe = false → u.outp.toggling = false ∧ u.outp.validA = false ∧ u.outp.validB = false ∧ u.outp.degraded = true) := by
  have hroom : s.safety.staging.length < 32 → _ := fun h => stageFault_entry (s := { s with outp := { s.outp with readbackBad := true } }) h
    fsFieldPort fFpReadback (Config.eventData (0x10000 + fFpReadback) s.disp.freeCtr)
  obtain ⟨l, g, f, hstage⟩ := stageFault_only { s with outp := { s.outp with readbackBad := true } } fsFieldPort fFpReadback
    (Config.eventData (0x10000 + fFpReadback) s.disp.freeCtr)
  rw [hstage] at hroom
  have hraise : raiseOpenFault { s with outp := { s.outp with readbackBad := true } } fsFieldPort fFpReadback =
      tickFree (enterSafe (stageFault { s with outp := { s.outp with readbackBad := true } } fsFieldPort fFpReadback
        (Config.eventData (0x10000 + fFpReadback) s.disp.freeCtr)) 2048) := rfl
  intro u
  have hu : u = _ := hraise
  rw [hstage] at hu
  generalize hv : ({ s with
    outp := { s.outp with readbackBad := true }, safety := { s.safety with staging := l, folds := g, foldCount := f } } : State) = v at hu
  have hport := enterSafe_port v 2048
  obtain ⟨hpend, hstg⟩ := enterSafe_keeps v 2048
  have hpresent := enterSafe_present v 2048
  have hcause := enterSafe_cause v 2048
  have hsafe := enterSafe_safe v 2048
  rw [hu]
  subst hv
  generalize enterSafe _ 2048 = w at hport hpend hstg hpresent hcause hsafe ⊢
  refine ⟨?_, hsafe, hcause, hpresent, hpend, fun h => ?_, fun h => ?_⟩
  · have hbad : (portOf w).readbackBad = true := by
      rw [hport]
      split <;> rfl
    exact hbad
  · rw [show (tickFree w).safety = w.safety from rfl, hstg]
    exact hroom h
  · rw [if_neg (by rw [h]; decide)] at hport
    exact ⟨congrArg Output.toggling hport, congrArg Output.validA hport, congrArg Output.validB hport,
      congrArg Output.degraded hport⟩

/-- Filtered STOP while STOP_EN is set (R446). -/
theorem stopBecomesEffective_leaves (s : State) : let u := stopBecomesEffective s
    u.safety.safe = true ∧ u.safety.cause = s.safety.cause ||| 128 ∧ u.safety.present = s.safety.present ||| 128 ∧
      u.outp.stopFilt = s.outp.stopFilt ∧ u.outp.stopRaw = s.outp.stopRaw ∧ (Inv s → regOf u 0x604C = regOf s 0x604C + 1) := by
  have hport := enterSafe_port (bumpReg s offStopEvents) 128
  refine ⟨enterSafe_safe .., enterSafe_cause .., enterSafe_present .., ?_, ?_, fun hi => ?_⟩
  · refine (congrArg Output.stopFilt hport).trans ?_
    split <;> rfl
  · refine (congrArg Output.stopRaw hport).trans ?_
    split <;> rfl
  · have hb : Inv (bumpReg s offStopEvents) := setReg_inv _ _ _ hi
    rw [stopBecomesEffective, unentered_regOf (enterSafe_inv _ _ hb) hb (enterSafe_unentered ..) (by decide) (by decide),
      regOf_bumpReg hi.regs]
    rfl

theorem stopEn_eq (s : State) : stopEn s = bitOf (regNat s 0x6040) 31 := (bitOf_top _).symm

/-- Settles O53: the vehicle link's frames, then the field port's lines and its stop input. -/
theorem vehicleLinkAndFieldPortEventsComplete : Obligations.VehicleLinkAndFieldPortEventsComplete := by
  unfold Obligations.VehicleLinkAndFieldPortEventsComplete
  intro s hr
  refine ⟨fun f rest hq hl => ?_, onlyIf_true hr, onlyIf_true hr, fun frame hl hf => ?_, fun frame hno => ?_, fun ht hdue => ?_,
    fun line hline => ?_, fun hf => ?_, fun hf => ?_⟩
  · change execVlFrameSend s = _
    rw [execVlFrameSend, hq]
    exact (congrArg (onlyIf s · _) hl).trans (onlyIf_true hr)
  · change execVlRxFrame frame s = _
    rw [execVlRxFrame, hl, isGptpFrame, decide_eq_false hf]
    exact onlyIf_true hr
  · have hc : (s.outp.linkUp && !isGptpFrame frame) = false := by
      rcases hno with h | h
      · rw [h, Bool.false_and]
      · rw [isGptpFrame, decide_eq_true h, Bool.not_true, Bool.and_false]
    change execVlRxFrame frame s = _
    rw [execVlRxFrame, hc]
    exact onlyIf_false
  · change execFpToggle s = _
    rw [execFpToggle, ht, decide_eq_true hdue]
    exact onlyIf_true hr
  · refine ⟨_, ?_, readback_leaves s⟩
    change execFpReadback line s = _
    rw [execFpReadback, decide_eq_true hline]
    exact onlyIf_true hr
  · have hexec : exec .stopInputActive s = .next (if stopEn s then stopBecomesEffective
        { s with outp := { s.outp with stopFilt := true, stopRaw := true } }
        else { s with outp := { s.outp with stopFilt := true, stopRaw := true } }) := by
      change onlyIf s (!s.outp.stopFilt) _ = _
      rw [show (!s.outp.stopFilt) = true by rw [hf]; rfl]
      exact onlyIf_true hr
    obtain ⟨hsafe, hcause, hpresent, hfilt, hraw, hreg⟩ :=
      stopBecomesEffective_leaves { s with outp := { s.outp with stopFilt := true, stopRaw := true } }
    rw [stopEn_eq] at hexec
    cases hb : bitOf (regNat s 0x6040) 31 with
    | true =>
      rw [hb, if_pos rfl] at hexec
      exact ⟨_, hexec, hfilt, hraw, fun h => absurd h (by decide), fun _ => ⟨hsafe, hcause, hpresent,
        fun hi => hreg ⟨hi.mem, hi.regs, hi.lines⟩⟩⟩
    | false =>
      rw [hb, if_neg (by decide)] at hexec
      exact ⟨_, hexec, rfl, rfl, fun _ => rfl, fun h => absurd h (by decide)⟩
  · change execStopInputInactive s = _
    rw [execStopInputInactive, hf]
    exact onlyIf_true hr

end Sys2Proof.Machine
end

section
/-! PROOFS. Bulk objects and their pieces (R394), SEC's verifications (R110, R465, R469), settings by mailbox (R158, R230,
R312, R471). -/

namespace Sys2Proof.Machine

/-! ### What a piece leads to -/

section Pieces
variable {s : State} {m : Msg}

theorem pieceBase_first (s : State) (h : (pieceOf m).off = 0) : pieceBase s m (pieceOf m) = some [] := by
  rw [pieceBase, if_pos h]

theorem pieceBase_next (h : (pieceOf m).off ≠ 0) {o : PieceObj} (ho : pieceObject s m.opcode (pieceOf m).obj = some o)
    (hlen : o.data.length = (pieceOf m).off) (htot : o.total = (pieceOf m).total) :
    pieceBase s m (pieceOf m) = some o.data := by
  rw [pieceBase, if_neg h, ho]
  exact if_pos ⟨hlen, htot⟩

theorem pieceBase_none (h : (pieceOf m).off ≠ 0)
    (ho : ∀ o, pieceObject s m.opcode (pieceOf m).obj = some o → o.data.length ≠ (pieceOf m).off ∨ o.total ≠ (pieceOf m).total) :
    pieceBase s m (pieceOf m) = none := by
  rw [pieceBase, if_neg h]
  cases hp : pieceObject s m.opcode (pieceOf m).obj with
  | none => rfl
  | some o => exact if_neg fun hc => (ho o hp).elim (absurd hc.1) (absurd hc.2)

theorem takePiece_misplaced (h : pieceBase s m (pieceOf m) = none) :
    takePiece s m = (dropObject s m.opcode (pieceOf m).obj, .refused 16) := by
  rw [takePiece, h]
  rfl

variable {before : Bytes} (h : pieceBase s m (pieceOf m) = some before)
include h

theorem takePiece_long (hl : 65472 < (pieceOf m).data.length) :
    takePiece s m = (dropObject s m.opcode (pieceOf m).obj, .refused 2) := by
  rw [takePiece, h]
  exact if_pos hl

theorem takePiece_last (hl : (pieceOf m).data.length ≤ 65472) (hlast : pieceLast (pieceOf m) = true) :
    takePiece s m = (dropObject s m.opcode (pieceOf m).obj,
      if (before ++ (pieceOf m).data).length = (pieceOf m).total then .whole (before ++ (pieceOf m).data)
      else .refused (shortStatus m (before ++ (pieceOf m).data).length (pieceOf m).total)) := by
  rw [takePiece, h]
  dsimp only
  rw [if_neg (Nat.not_lt.2 hl), if_pos hlast]
  split <;> rfl

theorem takePiece_ragged (hl : (pieceOf m).data.length ≤ 65472) (hlast : pieceLast (pieceOf m) = false)
    (hmod : (pieceOf m).data.length % 64 ≠ 0) :
    takePiece s m = (dropObject s m.opcode (pieceOf m).obj, .refused 2) := by
  rw [takePiece, h]
  dsimp only
  rw [if_neg (Nat.not_lt.2 hl), hlast, if_neg (by decide), if_pos hmod]
  rfl

theorem takePiece_keeps (hl : (pieceOf m).data.length ≤ 65472) (hlast : pieceLast (pieceOf m) = false)
    (hmod : (pieceOf m).data.length % 64 = 0) : let u := dropObject s m.opcode (pieceOf m).obj
    let o : PieceObj := { opcode := m.opcode, obj := (pieceOf m).obj, total := (pieceOf m).total, data := before ++ (pieceOf m).data }
    takePiece s m = ({ u with host := { u.host with pieces := o :: u.host.pieces } }, .kept) := by
  rw [takePiece, h]
  dsimp only
  rw [if_neg (Nat.not_lt.2 hl), hlast, if_neg (by decide), if_neg (not_not.2 hmod)]

end Pieces

theorem takePiece_whole (s : State) {m : Msg} (h : WholeObject m) :
    takePiece s m = (dropObject s m.opcode (pieceOf m).obj, .whole (pieceOf m).data) := by
  obtain ⟨-, hoff, hlast, hlen, hmax⟩ := h
  rw [takePiece_last (pieceBase_first s hoff) hmax hlast, List.nil_append, if_pos hlen]

/-- The answer to a piece with the result r. -/
def pieceAnswer (t : State) (m : Msg) (f : State → Bytes → Result) : PieceResult → Result
  | .refused st => .next (reply t m st)
  | .kept => .next (reply t m 0)
  | .whole bs => f t bs

theorem pieceRun_of_takePiece {s : State} {m : Msg} (h : pieceRsvd m = true) {t : State} {r : PieceResult}
    (ht : takePiece s m = (t, r)) (f : State → Bytes → Result) : pieceRun s m f = pieceAnswer t m f r := by
  unfold pieceRun
  rw [h, if_neg (by decide), ht]
  cases r <;> rfl

theorem pieceRun_whole (s : State) {m : Msg} (h : WholeObject m) (f : State → Bytes → Result) :
    pieceRun s m f = f (dropObject s m.opcode (pieceOf m).obj) (pieceOf m).data :=
  pieceRun_of_takePiece h.1 (takePiece_whole s h) f

theorem pieceRun0_whole (s : State) {m : Msg} (h : WholeObject m) (h0 : (pieceOf m).obj = 0) (f : State → Bytes → Result) :
    pieceRun0 s m f = f (dropObject s m.opcode (pieceOf m).obj) (pieceOf m).data := by
  rw [pieceRun0, if_neg (not_not.2 h0)]
  exact pieceRun_whole s h f

theorem isOp_front {s : State} {o : Owner} {code : Nat} {m : Msg} {rest : List Msg} (h : Front s o code m rest) :
    isOp code m = true := decide_eq_true h.2.1

theorem secIdle_of {s : State} (h : s.boot.verifying = none) : secIdle s = true := by
  rw [secIdle, h]
  rfl

/-! ### Weight sets (R118) -/

theorem weightFits_of_place {s : State} {n a : Nat} (h : weightPlace s n = some a) : weightFits s n a = true := by
  unfold weightPlace at h
  dsimp only at h
  split at h
  · next hany =>
    cases h
    exact hany
  · exact List.find?_some h

theorem keepWeights_full {s : State} {m : Msg} {bs : Bytes} (h : weightPlace s bs.length = none) :
    keepWeights s m bs = reply s m 25 := by
  rw [keepWeights, h]
  rfl

/-- Where the directory of a kept weight set stands, and that nothing else but the storage changes. -/
theorem keepWeights_stores {s : State} (m : Msg) {bs : Bytes} {a : Nat} (h : weightPlace s bs.length = some a) :
    let w : WeightSet := { wsetId := (pieceOf m).obj, addr := a, len := bs.length, digest := sha384 bs }
    let t := keepWeights s m bs
    t.load.weights = (if s.cyc.dev = .stopped ∨ s.cyc.dev = .paused then weightInsert w s.load.weights else s.load.weights) ∧
    t.load.weightsNext =
      (if s.cyc.dev = .stopped ∨ s.cyc.dev = .paused then s.load.weightsNext else weightInsert w s.load.weightsNext) ∧
    ∀ l, { unreported t with load := l } = { unreported (devWrite s a bs) with load := l } := by
  dsimp only
  rw [keepWeights, h]
  generalize sha384 bs = d
  dsimp only
  by_cases hd : s.cyc.dev = .stopped ∨ s.cyc.dev = .paused
  · rw [if_pos hd, if_pos hd, if_pos (show atOnce s = true from decide_eq_true hd)]
    exact ⟨(congrArg Loading.weights (unreported_load (reply_unreported ..))).trans rfl,
      (congrArg Loading.weightsNext (unreported_load (reply_unreported ..))).trans rfl,
      fun l => (congrArg (fun x : State => { x with load := l }) (reply_unreported ..)).trans rfl⟩
  · rw [if_neg hd, if_neg hd, if_neg (show ¬atOnce s = true from fun e => hd (of_decide_eq_true e))]
    exact ⟨(congrArg Loading.weights (unreported_load (reply_unreported ..))).trans rfl,
      (congrArg Loading.weightsNext (unreported_load (reply_unreported ..))).trans rfl,
      fun l => (congrArg (fun x : State => { x with load := l }) (reply_unreported ..)).trans rfl⟩

theorem execLoadWeights_front {s : State} {m : Msg} {rest : List Msg} (h : Front s .sec 0x21 m rest)
    (hv : s.boot.verifying = none) :
    execLoadWeights s = pieceRun (setOwnerQueue s .sec rest) m fun u bs => .next (keepWeights u m bs) := by
  rw [execLoadWeights, secIdle_of hv, if_neg (by decide)]
  exact withFront_takes h (isOp_front h)

/-! ### Whole objects -/

theorem secPiece_whole {s : State} {m : Msg} {rest : List Msg} (h : Front s .sec 0x10 m rest) (hw : WholeObject m)
    (hf : secFree s = true) {isIt : Msg → Bool} (hi : isIt m = true) : let v := afterPiece s .sec m rest
    secPiece s isIt = .next { v with boot := { v.boot with verifying := some ((pieceOf m).data, (pieceOf m).obj, m) } } := by
  have hm : (isOp 0x10 m && isIt m) = true := by rw [isOp_front h, hi]; rfl
  dsimp only
  rw [secPiece, hf, if_neg (by decide), withFront_takes h hm, pieceRun_whole _ hw]
  rfl

/-- Settles O26: each object's own command, once its piece is known to be whole. -/
theorem objectsInOnePieceComplete : Obligations.ObjectsInOnePieceComplete := by
  unfold Obligations.ObjectsInOnePieceComplete
  intro s m rest hw
  refine ⟨fun h hf c hc => ?_, fun h hv h0 => ?_, fun h hv => ⟨fun hp => ?_, fun a ha => ?_⟩, fun h h0 => ?_,
    fun h h0 hd ht => ?_, fun h hd r p hr hb ht hp => ?_⟩
  · subst hc
    by_cases ho : (pieceOf m).obj = 0x100
    · rw [if_pos ho]
      exact secPiece_whole h hw hf (decide_eq_true ho)
    · rw [if_neg ho]
      exact secPiece_whole h hw hf (decide_eq_true ho)
  · change execLoadTaskImage s = _
    rw [execLoadTaskImage, secIdle_of hv, if_pos rfl, withFront_takes h (isOp_front h), loadImagePiece]
    dsimp only
    rw [if_neg (not_not.2 h0), hw.1, if_neg (by decide), takePiece_whole _ hw]
    dsimp only
    rw [if_pos hw.2.1]
    rfl
  · refine (execLoadWeights_front h hv).trans ((pieceRun_whole _ hw _).trans ?_)
    exact congrArg Host.Outcome.next (keepWeights_full hp)
  · obtain ⟨hnow, hnext, hframe⟩ := keepWeights_stores m ha
    exact ⟨_, (execLoadWeights_front h hv).trans (pieceRun_whole _ hw _), weightFits_of_place ha, hnow, hnext, hframe _⟩
  · change execWorldDelta s = _
    rw [execWorldDelta, withFront_takes h (isOp_front h), pieceRun0_whole _ hw h0]
    rfl
  · change execCkptPut s = _
    rw [execCkptPut, withFront_takes h (isOp_front h)]
    rw [if_neg (by rw [show atOnce (setOwnerQueue s .sch rest) = true from decide_eq_true hd]; decide),
      if_neg (show ¬ckptMax < (pieceOf m).total from Nat.not_lt.2 ht)]
    exact pieceRun0_whole _ hw h0 _
  · have hexec : exec .replayData s = .next (keepPackage (afterPiece s .sch m rest) r m (pieceOf m).obj (pieceOf m).data) := by
      change execReplayData s = _
      rw [execReplayData, withFront_takes h (isOp_front h)]
      rw [show (setOwnerQueue s .sch rest).rep = some r from hr]
      dsimp only
      rw [if_pos (show (setOwnerQueue s .sch rest).cyc.dev = .replay from hd), replayPiece]
      rw [hb, if_neg (by decide), if_neg (Nat.not_lt.2 ht)]
      exact pieceRun_whole _ hw _
    rw [keepPackage, hp] at hexec
    dsimp only at hexec
    exact ⟨fun hk => hexec.trans (by rw [if_pos hk]; rfl), fun hk => hexec.trans (by rw [if_neg (by rw [hk]; decide)]; rfl)⟩

/-! ### Pieces in order -/

/-- Settles O27: the piece either follows what is kept of its object, and its length decides, or it does not follow. -/
theorem piecesFollowInOrder : Obligations.PiecesFollowInOrder := by
  unfold Obligations.PiecesFollowInOrder
  intro s m rest h hv hr
  have hrun : ∀ {t r}, takePiece (setOwnerQueue s .sec rest) m = (t, r) → exec .loadWeights s =
      pieceAnswer t m (fun u bs => .next (keepWeights u m bs)) r :=
    fun ht => (execLoadWeights_front h hv).trans (pieceRun_of_takePiece hr ht _)
  refine ⟨fun before hb => ?_, fun hoff ho => hrun (takePiece_misplaced (pieceBase_none hoff ho))⟩
  have hbase : pieceBase (setOwnerQueue s .sec rest) m (pieceOf m) = some before := by
    rcases hb with ⟨hoff, rfl⟩ | ⟨hoff, o, ho, hlen, htot, rfl⟩
    · exact pieceBase_first _ hoff
    · exact pieceBase_next hoff ho hlen htot
  refine ⟨fun hl hlast hmod => hrun (takePiece_keeps hbase hl hlast hmod),
    fun hl hlast hmod => hrun (takePiece_ragged hbase hl hlast hmod), fun hl => hrun (takePiece_long hbase hl),
    fun hl hlast hne => ?_, fun hl hlast heq hp => ?_⟩
  · have ht := takePiece_last hbase hl hlast
    rw [if_neg (by rw [List.length_append]; exact hne)] at ht
    have hs : ∀ n k, shortStatus m n k = 2 := fun n k =>
      if_neg fun e => absurd (h.2.1.symm.trans e.1) (by decide)
    rw [hs] at ht
    exact hrun ht
  · have ht := takePiece_last hbase hl hlast
    rw [if_pos (by rw [List.length_append]; exact heq)] at ht
    exact (hrun ht).trans (congrArg Host.Outcome.next (keepWeights_full hp))

/-! ### A task image becoming active (R110, R111) -/

/-- What activation looks at: the fuses and the names lost. -/
theorem activationStatus_congr {s t : State} (hf : t.fuses = s.fuses) (hp : t.plat.spares = s.plat.spares) (i : Image) :
    activationStatus t i = activationStatus s i := by
  have hpl : placeable t = placeable s := by
    funext k
    unfold placeable presentTile presentCluster clusterCount latigoTiles lostTile
    rw [hf, hp]
  have hall : placementOk t i.tasks = placementOk s i.tasks := by
    have htask : taskPlaced t = taskPlaced s := by
      funext x
      unfold taskPlaced
      rw [hpl]
    unfold placementOk
    rw [htask]
  unfold activationStatus
  rw [hall, hf]

theorem recheckLost_leaves (s : State) : let t := recheckLost s
    t.load = s.load ∧ t.cyc = s.cyc ∧ t.world = s.world ∧ t.fuses = s.fuses := by
  dsimp only
  unfold recheckLost
  split <;> exact ⟨rfl, rfl, rfl, rfl⟩

theorem activateImage_good {s : State} {i : Image} (h : activationStatus s i = 0) : let t := (activateImage s i).1
    t.load = { s.load with staged := .none, active := some i } ∧ t.cyc = s.cyc ∧ t.world = s.world ∧ t.fuses = s.fuses := by
  dsimp only
  rw [activateImage, if_pos (show activationStatus s i = stOk from h)]
  obtain ⟨hload, hcyc, hworld, hfuses⟩ := recheckLost_leaves (switchBanks (resetRings
    { setStaged s .none with load := { (setStaged s .none).load with active := some i } }))
  have hring := resetRings_unringed { setStaged s .none with load := { (setStaged s .none).load with active := some i } }
  exact ⟨hload.trans (congrArg State.load hring :), hcyc.trans (congrArg State.cyc hring :),
    hworld.trans (congrArg State.world hring :), hfuses.trans (congrArg State.fuses hring :)⟩

theorem keepImage_activates {s : State} {bs : Bytes} {act : Bool} {m : Msg} (ha : act = true)
    (hd : s.cyc.dev = .stopped ∨ s.cyc.dev = .paused)
    (h : activationStatus s (parseImage bs (stagedSlot s)) = 0) : let t := keepImage s bs act m
    t.load = { s.load with staged := .none, active := some (parseImage bs (stagedSlot s)) } ∧ t.cyc = s.cyc ∧
      t.world = s.world ∧ t.fuses = s.fuses := by
  dsimp only
  subst ha
  unfold keepImage
  generalize parseImage bs (stagedSlot s) = i at h ⊢
  dsimp only
  rw [if_pos (show (true && atOnce s) = true from decide_eq_true hd)]
  have hu := reply_unreported (setStaged (devWrite s (imageBase (stagedSlot s)) bs) (.verified i true)) m stOk
  have hst := activationStatus_congr (t := reply (setStaged (devWrite s (imageBase (stagedSlot s)) bs) (.verified i true)) m stOk)
    (s := s) (congrArg State.fuses hu :) (congrArg (·.plat.spares) hu :) i
  obtain ⟨hload, hcyc, hworld, hfuses⟩ := activateImage_good (hst.trans h)
  exact ⟨hload.trans (by rw [unreported_load hu]; rfl), hcyc.trans (congrArg State.cyc hu :),
    hworld.trans (congrArg State.world hu :), hfuses.trans (congrArg State.fuses hu :)⟩

theorem execImageVerifyDone_runs {s : State} {bs : Bytes} {act : Bool} {m : Msg} (hr : s.boot.inReset = false)
    (ho : ownerRuns s .sec = true) (h : s.load.staged = .verifying bs act m) :
    exec .imageVerifyDone s =
      if imageStatus s bs ≠ 0 then .next (reply (setStaged s .none) m (imageStatus s bs))
      else if !imageRsvdOk bs then .fault (.unguarded "R10")
      else if 64 < (sectionBytes bs 6).length / 16 then .fault (.unguarded "R262")
      else .next (keepImage s bs act m) := by
  change execImageVerifyDone s = _
  rw [execImageVerifyDone, h]
  dsimp only
  rw [if_neg (by rw [hr, ho]; decide)]
  rfl

/-! ### Firmware taken in its boot stage (R463) -/

/-- What the start of a processor leaves of the boot and the fuses. -/
def bootOf (s : State) : Boot × Fuses := (s.boot, s.fuses)

theorem runProc_boot (s : State) (p : Nat) : bootOf (runProc s p) = bootOf s := by
  unfold runProc
  dsimp only
  split
  · rfl
  · split
    · rfl
    · split <;> rfl

theorem startProc_boot (s : State) (p : Nat) : bootOf (startProc s p) = bootOf s := runProc_boot ..

theorem endWaitRest_boot (s : State) : bootOf (endWaitRest s) = ({ s.boot with stage := 6 }, s.fuses) := by
  have h := foldl_frame bootOf (fun t k => startProc t (k + 2)) (fun t k => startProc_boot t (k + 2))
    ((List.range 17).filter fun k => presentProc s (k + 2)) s
  exact congrArg (fun b : Boot × Fuses => ({ b.1 with stage := 6 }, b.2)) h

theorem takeBootImage_boot (s : State) (f : FwImage) : let t := takeBootImage s f
    t.boot.fwActive = f :: s.boot.fwActive.filter (·.num ≠ f.num) ∧ t.boot.taken = f.num :: s.boot.taken ∧
    t.fuses = s.fuses ∧ (f.num = 0 → t.boot.stage = 3) ∧ (f.num = 1 → t.boot.stage = 4) := by
  dsimp only
  rw [takeBootImage]
  dsimp only
  generalize hv : activateFw { s with boot := { s.boot with taken := f.num :: s.boot.taken } } f = v
  have hb : bootOf v = ({ s.boot with taken := f.num :: s.boot.taken, fwActive := f :: s.boot.fwActive.filter (·.num ≠ f.num) },
    s.fuses) := by rw [← hv]; rfl
  by_cases h0 : f.num = 0
  · have h := (startProc_boot v 0).trans hb
    rw [if_pos h0]
    exact ⟨congrArg (·.1.fwActive) h, congrArg (·.1.taken) h, congrArg Prod.snd h, fun _ => rfl,
      fun h1 => absurd (h0.symm.trans h1) (by decide)⟩
  rw [if_neg h0]
  by_cases h1 : f.num = 1
  · have h := (startProc_boot v 1).trans hb
    rw [if_pos h1]
    exact ⟨congrArg (·.1.fwActive) h, congrArg (·.1.taken) h, congrArg Prod.snd h, fun h => absurd h h0, fun _ => rfl⟩
  rw [if_neg h1]
  have hboot : v.boot = _ := congrArg Prod.fst hb
  have hfuses : v.fuses = s.fuses := congrArg Prod.snd hb
  split
  · have h := endWaitRest_boot v
    rw [hboot, hfuses] at h
    exact ⟨congrArg (·.1.fwActive) h, congrArg (·.1.taken) h, congrArg Prod.snd h, fun h => absurd h h0, fun h => absurd h h1⟩
  · exact ⟨by rw [hboot], by rw [hboot], hfuses, fun h => absurd h h0, fun h => absurd h h1⟩

theorem stageFw_boot (s : State) (f : FwImage) : let t := stageFw s f
    t.boot = { s.boot with fwStaged := f :: s.boot.fwStaged.filter (·.num ≠ f.num) } ∧ t.fuses = s.fuses ∧ t.cyc = s.cyc := by
  dsimp only
  rw [stageFw]
  split <;> exact ⟨rfl, rfl, rfl⟩

/-- Settles O28: the images' verification, then firmware's and fuse requests'. -/
theorem verificationsComplete : Obligations.VerificationsComplete := by
  unfold Obligations.VerificationsComplete
  intro s bs m hr ho
  refine ⟨fun act h => ?_, fun obj hv => ?_⟩
  · have hexec := execImageVerifyDone_runs hr ho h
    refine ⟨fun hst => hexec.trans (if_pos hst), fun hst hrs hfl hact => hexec.trans ?_, fun hst hrs hfl hact hd hast => ?_,
      fun hst hrs hfl => hexec.trans ?_⟩
    · rw [if_neg (not_not.2 hst), hrs, if_neg (by decide), if_neg (Nat.not_lt.2 hfl), keepImage, if_neg]
      · rfl
      · rw [Bool.and_eq_true]
        rintro ⟨ha, hat⟩
        exact hact.elim (fun e => absurd (ha.symm.trans e) (by decide))
          (fun e => (of_decide_eq_true hat).elim e.1 e.2)
    · rw [if_neg (not_not.2 hst), hrs, if_neg (by decide), if_neg (Nat.not_lt.2 hfl)] at hexec
      obtain ⟨hload, hcyc, hworld, hfuses⟩ := keepImage_activates (m := m) hact hd hast
      exact ⟨_, hexec, (congrArg Loading.staged hload :), (congrArg Loading.active hload :), hcyc, hworld, hfuses,
        (congrArg Loading.weights hload :)⟩
    · rw [if_neg (not_not.2 hst), hrs, if_neg (by decide), if_pos hfl]
  · dsimp only
    have hexec : exec .fwVerifyDone s = .next (verifyFw { s with boot := { s.boot with verifying := none } } bs obj m) := by
      change execFwVerifyDone s = _
      rw [execFwVerifyDone, hv]
      exact (congrArg (onlyIf s · _) ho).trans (onlyIf_true hr)
    generalize hu : ({ s with boot := { s.boot with verifying := none } } : State) = u at *
    have hboot : u.boot = { s.boot with verifying := none } := by rw [← hu]
    have hcyc : u.cyc = s.cyc := by rw [← hu]
    have hfuse : u.fuses = s.fuses := by rw [← hu]
    unfold verifyFw at hexec
    refine ⟨fun h0 hst => ?_, fun h0 hst h7 => ?_, fun h0 hst h7 => ?_, fun h0 hf => ?_, fun h0 hf hs => ?_,
      fun off h0 hf hs ha => ?_, fun h0 hf hs ha => ?_⟩
    · rw [if_neg (show ¬obj = fuseObj from h0), if_pos (show fwStatus u bs obj ≠ stOk from hst)] at hexec
      exact hexec
    · rw [if_neg (show ¬obj = fuseObj from h0), if_neg (show ¬fwStatus u bs obj ≠ stOk from not_not.2 hst),
        if_pos (by rw [hboot]; exact h7)] at hexec
      obtain ⟨hb, hfs, hc⟩ := stageFw_boot u (parseFw bs)
      have ht := reply_unreported (stageFw u (parseFw bs)) m stOk
      have htb := unreported_boot ht
      rw [hb, hboot] at htb
      exact ⟨_, hexec, (congrArg Boot.fwStaged htb :), (congrArg Boot.fwActive htb :), (congrArg Boot.verifying htb :),
        (congrArg State.fuses ht).trans (hfs.trans hfuse), (unreported_cyc ht).trans (hc.trans hcyc),
        (congrArg Boot.stage htb :).trans h7⟩
    · rw [if_neg (show ¬obj = fuseObj from h0), if_neg (show ¬fwStatus u bs obj ≠ stOk from not_not.2 hst),
        if_neg (by rw [hboot]; exact h7)] at hexec
      obtain ⟨hact, htaken, hfs, hz, ho⟩ := takeBootImage_boot u (parseFw bs)
      have ht := reply_unreported (takeBootImage u (parseFw bs)) m stOk
      have htb := unreported_boot ht
      rw [hboot] at hact htaken
      exact ⟨_, hexec, (congrArg Boot.fwActive htb :).trans hact, (congrArg Boot.taken htb :).trans htaken,
        (congrArg State.fuses ht).trans (hfs.trans hfuse), fun h => (congrArg Boot.stage htb :).trans (hz h),
        fun h => (congrArg Boot.stage htb :).trans (ho h)⟩
    all_goals
      rw [if_pos (show obj = fuseObj from h0)] at hexec
      unfold runFuses at hexec
    · rw [hf, if_pos (by decide)] at hexec
      exact hexec
    · rw [hf, if_neg (by decide), hs, if_pos (by decide)] at hexec
      exact hexec
    · rw [hf, if_neg (by decide), hs, if_neg (by decide), ha] at hexec
      exact hexec
    · rw [hf, if_neg (by decide), hs, if_neg (by decide), ha] at hexec
      have ht := reply_unreported { u with fuses := blowFuses u.fuses bs } m stOk
      exact ⟨_, hexec, (congrArg State.fuses ht).trans (by rw [← hfuse]; rfl),
        congrArg (fun x : State => { x with fuses := s.fuses }) ht⟩

/-! ### Settings by mailbox -/

/-- Settles O29: each setting's acceptance, then whether it can take effect at once. -/
theorem settingsByMailboxComplete : Obligations.SettingsByMailboxComplete := by
  unfold Obligations.SettingsByMailboxComplete
  intro s m rest
  dsimp only
  have hnot : ∀ o, ¬(s.cyc.dev = .stopped ∨ s.cyc.dev = .paused) → ¬atOnce (setOwnerQueue s o rest) = true :=
    fun _ hn h => hn (of_decide_eq_true h)
  have hnow : ∀ o, s.cyc.dev = .stopped ∨ s.cyc.dev = .paused → atOnce (setOwnerQueue s o rest) = true :=
    fun _ h => decide_eq_true h
  refine ⟨fun h hr hn => ?_, fun h hr => ?_, fun h hr => ?_, fun h hf hr => ?_⟩
  · have hexec : exec .profileSet s = .next (setProfile (setOwnerQueue s .sch rest) m (fieldAt m.payload 0 1)
        (sliceOf m.payload 0x40 320)) := by
      change execProfileSet s = _
      rw [execProfileSet, withFront_takes h (isOp_front h), if_pos hr]
    unfold setProfile at hexec
    rw [if_neg (Nat.not_lt.2 hn)] at hexec
    refine ⟨fun hp => ?_, fun hp hd => ?_, fun hp hd => ?_⟩
    · rw [hp, if_pos (by decide)] at hexec
      exact hexec
    · rw [hp, if_neg (by decide), if_pos (hnow .sch hd)] at hexec
      exact hexec
    · rw [hp, if_neg (by decide), if_neg (hnot .sch hd)] at hexec
      exact hexec
  · have hexec : exec .cycleConfig s = .next (setConfig (setOwnerQueue s .sch rest) m) := by
      change execCycleConfig s = _
      rw [execCycleConfig, withFront_takes h (isOp_front h), if_pos hr]
    unfold setConfig at hexec
    dsimp only at hexec
    refine ⟨fun hc => ?_, fun hc hd => ?_, fun hc hd => ?_⟩
    · rw [hc, if_pos (by decide)] at hexec
      exact hexec
    · rw [hc, if_neg (by decide), if_pos (hnow .sch hd)] at hexec
      exact hexec
    · rw [hc, if_neg (by decide), if_neg (hnot .sch hd)] at hexec
      exact hexec
  · have hexec : exec .selftestConfig s = .next (setSlices (setOwnerQueue s .pmc rest) m) := by
      change execSelftestConfig s = _
      rw [execSelftestConfig, withFront_takes h (isOp_front h), if_pos hr]
    unfold setSlices at hexec
    dsimp only at hexec
    refine ⟨fun h1 h8 hs => ?_, fun h1 h8 hs => ?_, fun hn => ?_⟩
    · rw [if_neg (by omega), if_neg (by rw [show (setOwnerQueue s .pmc rest).safety.selfRun = none from hs]; decide)] at hexec
      exact hexec
    · rw [if_neg (by omega), if_pos (show (setOwnerQueue s .pmc rest).safety.selfRun.isSome = true from Option.isSome_iff_ne_none.2 hs)] at hexec
      exact hexec
    · rw [if_pos hn] at hexec
      exact hexec
  · change execAttest s = _
    rw [execAttest, hf, if_neg (by decide), withFront_takes h (isOp_front h), if_pos hr]

end Sys2Proof.Machine
end

section
/-! PROOFS. The processors' restarts: planned, after a crash, and the reload (R404 to R411). -/

namespace Sys2Proof.Machine

/-! ### Processors by index -/

theorem procOf_mapProc_self {s : State} {p : Nat} (h : p < s.procs.length) (f : Proc → Proc) :
    procOf (mapProc s p f) p = f (procOf s p) := getD_listUpd_self h f _

theorem procOf_mapProc_other {s : State} {p q : Nat} (h : q ≠ p) (f : Proc → Proc) :
    procOf (mapProc s p f) q = procOf s q := getD_listUpd_other h _ f _

theorem procOf_of_procs {s t : State} (h : t.procs = s.procs) (q : Nat) : procOf t q = procOf s q := by
  rw [procOf, procOf, h]

theorem length_listUpd {α : Type} (l : List α) (i : Nat) (f : α → α) : (listUpd l i f).length = l.length := by
  induction l generalizing i with
  | nil => rfl
  | cons x xs ih =>
    cases i with
    | zero => rfl
    | succ i => exact congrArg (· + 1) (ih i)

/-! ### What the loss of a processor leaves (R255, R267, R393, R410) -/

/-- The processors, Latigo, the fuses, the running instances and the latch. -/
def staffOf (s : State) : List Proc × Latigo × Fuses × List Inst × Bool :=
  (s.procs, s.lat, s.fuses, s.disp.running, s.safety.safe)

/-- The plan cycle and the world. -/
def courseOf (s : State) : Cycle × World := (s.cyc, s.world)

section Unreported
variable {t v : State} (h : unreported t = unreported v)
include h
theorem unreported_staff : staffOf t = staffOf v := (congrArg staffOf h :)
theorem unreported_course : courseOf t = courseOf v := (congrArg courseOf h :)
end Unreported

theorem replyIf_unreported (s : State) (m : Option Msg) (st : Nat) : unreported (replyIf s m st) = unreported s := by
  cases m with
  | none => rfl
  | some x => exact reply_unreported ..

theorem answers_unreported (s : State) (l : List Msg) (st : Nat) :
    unreported (l.foldl (fun t m => reply t m st) s) = unreported s :=
  foldl_unreported _ _ _ fun _ _ _ => reply_unreported ..

/-- The queue of a lost processor, answered and emptied. -/
def ownerLost (s : State) (p : Nat) : State :=
  match queueOwner p with
  | some o => dropPieces (answerQueue s o) o
  | none => s

theorem ownerLost_staff (s : State) (p : Nat) : staffOf (ownerLost s p) = staffOf s := by
  unfold ownerLost
  split
  · exact (unreported_staff (answers_unreported ..) :)
  · rfl

theorem ownerLost_course (s : State) (p : Nat) : courseOf (ownerLost s p) = courseOf s := by
  unfold ownerLost
  split
  · exact (unreported_course (answers_unreported ..) :)
  · rfl

theorem ownerLost_queue (s : State) {p : Nat} {o : Owner} (h : queueOwner p = some o) : ownerQueue (ownerLost s p) o = [] := by
  rw [ownerLost, h]
  exact ownerQueue_setOwnerQueue ..

/-- SEC's verification goes with answers alone, the firmware and image slots aside (R410). -/
theorem abandonVerify_leaves (s : State) : staffOf (abandonVerify s) = staffOf s ∧ courseOf (abandonVerify s) = courseOf s ∧
    (abandonVerify s).host.queues = s.host.queues := by
  have hboot : ∀ (u : State), u = (match s.boot.verifying with
      | some v => reply { s with boot := { s.boot with verifying := none } } v.2.2 stProcRestarted
      | none => s) → staffOf u = staffOf s ∧ courseOf u = courseOf s ∧ u.host.queues = s.host.queues := by
    rintro u rfl
    split
    next v _ =>
      have hu := reply_unreported { s with boot := { s.boot with verifying := none } } v.2.2 stProcRestarted
      exact ⟨(unreported_staff hu).trans rfl, (unreported_course hu).trans rfl, (unreported_queues hu).trans rfl⟩
    next => exact ⟨rfl, rfl, rfl⟩
  obtain ⟨hst, hco, hq⟩ := hboot _ rfl
  rw [abandonVerify]
  dsimp only
  split
  · exact ⟨(unreported_staff (reply_unreported ..)).trans hst, (unreported_course (reply_unreported ..)).trans hco,
      (unreported_queues (reply_unreported ..)).trans hq⟩
  · exact ⟨hst, hco, hq⟩
  · exact ⟨hst, hco, hq⟩

/-- SCH's begun commands are gone (R393). -/
theorem dropBegun_leaves (s : State) : let t := dropBegun s
    staffOf t = staffOf s ∧ t.host.queues = s.host.queues ∧ t.disp = { s.disp with freeCtr := t.disp.freeCtr } ∧
      t.cyc.startMsg = none ∧ t.cyc.stopMsg = none ∧ t.cyc.pauseMsg = none := by
  dsimp only
  rw [dropBegun]
  dsimp only
  generalize hs1 : (if s.cyc.startMsg.isSome then stopNow s else s) = s1
  have hs1' : staffOf s1 = staffOf s ∧ s1.host.queues = s.host.queues ∧ s1.disp = s.disp := by
    subst hs1
    split <;> exact ⟨rfl, rfl, rfl⟩
  obtain ⟨hst, hq, hd⟩ := hs1'
  generalize hrep : s1.rep.map (fun r => { r with stopReq := false }) = r1
  generalize hs2 : ({ s1 with cyc := { s1.cyc with startMsg := none, stopMsg := none, pauseMsg := none }, rep := r1 } : State) = s2
  have hu : ∀ a b c, unreported (replyIf (replyIf (replyIf s2 a stProcRestarted) b stProcRestarted) c stProcRestarted) =
      unreported s2 := fun a b c => by
    rw [replyIf_unreported, replyIf_unreported, replyIf_unreported]
  have h := hu s.cyc.startMsg s.cyc.stopMsg s.cyc.pauseMsg
  generalize replyIf (replyIf (replyIf s2 s.cyc.startMsg stProcRestarted) s.cyc.stopMsg stProcRestarted) s.cyc.pauseMsg
    stProcRestarted = t at h ⊢
  have hc : t.cyc = { s1.cyc with startMsg := none, stopMsg := none, pauseMsg := none } := by
    rw [unreported_cyc h, ← hs2]
  refine ⟨(unreported_staff h).trans (by rw [← hs2]; exact hst), (unreported_queues h).trans (by rw [← hs2]; exact hq), ?_,
    by rw [hc], by rw [hc], by rw [hc]⟩
  have hdisp : ({ t.disp with freeCtr := 0 } : Dispatcher) = { s.disp with freeCtr := 0 } := by
    rw [← hd, show s1.disp = s2.disp by rw [← hs2]]
    exact (congrArg State.disp h :)
  calc t.disp = { ({ t.disp with freeCtr := 0 } : Dispatcher) with freeCtr := t.disp.freeCtr } := rfl
    _ = _ := by rw [hdisp]

theorem loseProc_eq (s : State) (p : Nat) : loseProc s p =
    if p = 0 then abandonVerify (ownerLost s p)
    else if p = 1 then { ownerLost s p with disp := { (ownerLost s p).disp with next := none } }
    else if p = 2 then dropBegun { ownerLost s p with disp := { (ownerLost s p).disp with schRun := false } }
    else { ownerLost s p with disp := { (ownerLost s p).disp with cccRun := (ownerLost s p).disp.cccRun.set (p - 3) false } } := by
  rw [loseProc, ownerLost] <;> rfl

theorem loseProc_staff (s : State) (p : Nat) : staffOf (loseProc s p) = staffOf s := by
  rw [loseProc_eq, ← ownerLost_staff s p]
  split
  · exact (abandonVerify_leaves _).1
  · split
    · rfl
    · split
      · exact (dropBegun_leaves _).1
      · rfl

theorem loseProc_queue (s : State) {p : Nat} {o : Owner} (h : queueOwner p = some o) : ownerQueue (loseProc s p) o = [] := by
  rw [← ownerLost_queue s h]
  have hq : (loseProc s p).host.queues = (ownerLost s p).host.queues := by
    rw [loseProc_eq]
    split
    · exact (abandonVerify_leaves _).2.2
    · split
      · rfl
      · split
        · exact (dropBegun_leaves _).2.1
        · rfl
  rw [ownerQueue, ownerQueue, hq]

theorem loseProc_course (s : State) {p : Nat} (h : p ≠ 2) : courseOf (loseProc s p) = courseOf s := by
  rw [loseProc_eq, ← ownerLost_course s p]
  split
  · exact (abandonVerify_leaves _).2.1
  · split <;> rfl

theorem loseProc_sch (s : State) : let t := loseProc s 2
    t.cyc.startMsg = none ∧ t.cyc.stopMsg = none ∧ t.cyc.pauseMsg = none ∧ t.disp.schRun = false := by
  dsimp only
  rw [loseProc_eq, if_neg (by decide), if_neg (by decide), if_pos rfl]
  obtain ⟨-, -, hd, h1, h2, h3⟩ := dropBegun_leaves { ownerLost s 2 with disp := { (ownerLost s 2).disp with schRun := false } }
  exact ⟨h1, h2, h3, (congrArg Dispatcher.schRun hd).trans rfl⟩

/-! ### A crash (R406 to R408) -/

/-- The processor after a crash. -/
def crashedProc (s : State) (p cause : Nat) (keepMsg : Option Msg) (x : Proc) : Proc :=
  let recent := recentCrashes s p
  let halt := decide (4 ≤ recent.length)
  { x with state := if halt then .halted else .restarting, lastCause := cause, failedOnce := false, warmBegun := false, warmMsg := keepMsg,
           code := none, data := none, crashAts := if halt then recent else s.ao :: recent, restarts := if halt then x.restarts else min 255 (x.restarts + 1) }

theorem reportRestart_unreported (s : State) (p cause : Nat) : unreported (reportRestart s p cause) = unreported s := by
  rw [reportRestart, sendEvent_unreported, logNow_unreported]

theorem crashRestart_eq (s : State) (p cause : Nat) (keepMsg : Option Msg) : crashRestart s p cause keepMsg =
    loseProc (reportRestart (mapProc s p (crashedProc s p cause keepMsg)) p cause) p := rfl

theorem crashRestart_staff (s : State) (p cause : Nat) (keepMsg : Option Msg) : staffOf (crashRestart s p cause keepMsg) =
    staffOf (mapProc s p (crashedProc s p cause keepMsg)) := by
  rw [crashRestart_eq, loseProc_staff, unreported_staff (reportRestart_unreported ..)]

theorem procOf_crashRestart_self {s : State} {p : Nat} (h : p < s.procs.length) (cause : Nat) (keepMsg : Option Msg) :
    procOf (crashRestart s p cause keepMsg) p = crashedProc s p cause keepMsg (procOf s p) :=
  (procOf_of_procs (congrArg Prod.fst (crashRestart_staff s p cause keepMsg)) p).trans (procOf_mapProc_self h _)

theorem procOf_crashRestart_other {s : State} {p q : Nat} (h : q ≠ p) (cause : Nat) (keepMsg : Option Msg) :
    procOf (crashRestart s p cause keepMsg) q = procOf s q :=
  (procOf_of_procs (congrArg Prod.fst (crashRestart_staff s p cause keepMsg)) q).trans (procOf_mapProc_other h _)

/-- What a crash with that cause leaves (R407, R408). -/
def Crashed (s : State) (p cause : Nat) (t : State) : Prop :=
  (procOf t p).lastCause = cause ∧ (procOf t p).code = none ∧ (procOf t p).data = none ∧
    ((recentCrashes s p).length < 4 → (procOf t p).state = .restarting ∧
      (procOf t p).restarts = min 255 ((procOf s p).restarts + 1)) ∧
    (4 ≤ (recentCrashes s p).length → (procOf t p).state = .halted ∧ (procOf t p).restarts = (procOf s p).restarts) ∧
    (∀ q, q ≠ p → procOf t q = procOf s q) ∧ (∀ o, queueOwner p = some o → ownerQueue t o = []) ∧
    (p = 2 → t.cyc.startMsg = none ∧ t.cyc.stopMsg = none ∧ t.cyc.pauseMsg = none ∧ t.disp.schRun = false) ∧
    (p ≠ 2 → t.cyc = s.cyc ∧ t.world = s.world) ∧ t.lat = s.lat ∧ t.fuses = s.fuses ∧ t.disp.running = s.disp.running ∧
    t.safety.safe = s.safety.safe

theorem crash_crashed {s : State} {p : Nat} (hp : p < s.procs.length) (hw : (procOf s p).warmMsg = none) (cause : Nat) :
    Crashed s p cause (crash s p cause) := by
  have hcrash : crash s p cause = crashRestart s p cause none := by
    rw [crash, hw]
  rw [hcrash]
  have hst := crashRestart_staff s p cause none
  have hself := procOf_crashRestart_self hp cause none
  refine ⟨by rw [hself]; rfl, by rw [hself]; rfl, by rw [hself]; rfl, fun h => ?_, fun h => ?_,
    fun q hq => procOf_crashRestart_other hq .., fun o ho => by rw [crashRestart_eq]; exact loseProc_queue _ ho, fun h2 => ?_, fun h2 => ?_,
    (congrArg (·.2.1) hst :), (congrArg (·.2.2.1) hst :), (congrArg (·.2.2.2.1) hst :), (congrArg (·.2.2.2.2) hst :)⟩
  · rw [hself, crashedProc, decide_eq_false (Nat.not_le.2 h)]
    exact ⟨rfl, rfl⟩
  · rw [hself, crashedProc, decide_eq_true h]
    exact ⟨rfl, rfl⟩
  · subst h2
    rw [crashRestart_eq]
    exact loseProc_sch _
  · have hc : courseOf (crashRestart s p cause none) = courseOf s := by
      rw [crashRestart_eq, loseProc_course _ h2, unreported_course (reportRestart_unreported ..)]
      rfl
    exact ⟨congrArg Prod.fst hc, congrArg Prod.snd hc⟩

/-- An uncorrectable error in a firmware memory is counted and raised, nothing more (R363). -/
theorem fwMemError_only (s : State) (p : Nat) : ∃ r l g f c, fwMemError s p = { s with
    regs := r, safety := { s.safety with staging := l, folds := g, foldCount := f }, disp := { s.disp with freeCtr := c } } := by
  obtain ⟨l, g, f, h⟩ := stageFault_only (eccReport s 3 (560 + p) (Config.freeNat 71 s.disp.freeCtr)) (fsProc p) fFwMemEcc
    (Config.eventData (0x10000 + fFwMemEcc) (eccReport s 3 (560 + p) (Config.freeNat 71 s.disp.freeCtr)).disp.freeCtr)
  refine ⟨(eccReport s 3 (560 + p) (Config.freeNat 71 s.disp.freeCtr)).regs, l, g, f, s.disp.freeCtr + 1, ?_⟩
  rw [fwMemError, raiseOpenFault, raiseFault, h]
  rfl

/-! ### The reload (R407) -/

theorem runProc_leaves (s : State) (p : Nat) :
    (runProc s p).procs = listUpd s.procs p (fun x => { x with state := .running, watchAt := s.ao }) ∧
      { runProc s p with procs := s.procs, disp := s.disp } = s := by
  unfold runProc
  dsimp only
  split
  · exact ⟨rfl, rfl⟩
  · split
    · exact ⟨rfl, rfl⟩
    · split <;> exact ⟨rfl, rfl⟩

theorem reloaded_leaves {s : State} {p : Nat} (hp : p < s.procs.length) (hw : (procOf s p).warmMsg = none) :
    let t := reloaded s p
    (procOf t p).state = (if p < 2 ∨ s.cyc.dev = .stopped ∨ s.cyc.dev = .paused then .running else .rejoinWait) ∧
      (procOf t p).code = storedCode s p ∧ (procOf t p).failedOnce = false ∧ { t with procs := s.procs, disp := s.disp } = s := by
  dsimp only
  rw [reloaded, hw]
  dsimp only
  generalize hs1 : mapProc s p (fun x =>
    { x with state := .rejoinWait, failedOnce := false, warmMsg := none, code := storedCode s p, watchAt := s.ao }) = s1
  have hself := procOf_mapProc_self hp fun x =>
    { x with state := .rejoinWait, failedOnce := false, warmMsg := none, code := storedCode s p, watchAt := s.ao }
  rw [hs1] at hself
  have hlen : p < s1.procs.length := by
    rw [← hs1, mapProc_procs, length_listUpd]
    exact hp
  by_cases hc : p < 2 ∨ s.cyc.dev = .stopped ∨ s.cyc.dev = .paused
  · have hnot : ¬(decide (2 ≤ p) && !atOnce s) = true := by
      rw [Bool.and_eq_true, Bool.not_eq_true']
      rintro ⟨h2, hat⟩
      exact hc.elim (fun h => absurd (of_decide_eq_true h2) (Nat.not_le.2 h)) fun h => of_decide_eq_false hat h
    rw [if_pos hc, if_neg hnot]
    obtain ⟨hprocs, hrest⟩ := runProc_leaves s1 p
    have hself' : procOf (runProc s1 p) p = { procOf s1 p with state := .running, watchAt := s1.ao } := by
      rw [procOf, hprocs]
      exact getD_listUpd_self hlen _ _
    rw [hself', hself]
    refine ⟨rfl, rfl, rfl, ?_⟩
    calc ({ runProc s1 p with procs := s.procs, disp := s.disp } : State)
        = { ({ runProc s1 p with procs := s1.procs, disp := s1.disp } : State) with procs := s.procs, disp := s.disp } := rfl
      _ = { s1 with procs := s.procs, disp := s.disp } := by rw [hrest]
      _ = s := by rw [← hs1]; rfl
  · have hyes : (decide (2 ≤ p) && !atOnce s) = true := by
      rw [Bool.and_eq_true, Bool.not_eq_true']
      exact ⟨decide_eq_true (Nat.not_lt.1 fun h => hc (.inl h)), decide_eq_false fun h => hc (.inr h)⟩
    rw [if_neg hc, if_pos hyes, hself, ← hs1]
    exact ⟨rfl, rfl, rfl, rfl⟩

/-! ### Planned restarts (R404, R405, R411) -/

theorem find_filter_num (l : List FwImage) (n : Nat) : fwOf (l.filter (·.num ≠ n)) n = none := by
  rw [fwOf, List.find?_eq_none]
  intro x hx
  rw [List.mem_filter] at hx
  simpa using hx.2

/-- The staged image taken up by PMC, SEC or SCH. -/
theorem switchCode_takes {s : State} {p : Nat} {f : FwImage} (hp : p < 3) (hlen : p < s.procs.length)
    (hf : fwOf s.boot.fwStaged (imageOfProc p) = some f) (hs : (procOf s p).switched = false) : let t := switchCode s p
    procOf t p = { procOf s p with version := f.version, code := some f, switched := false } ∧
      (∀ q, q ≠ p → procOf t q = procOf s q) ∧ fwOf t.boot.fwActive (imageOfProc p) = some f ∧
      fwOf t.boot.fwStaged (imageOfProc p) = none ∧ t.fuses = (blowRb s f).fuses ∧ t.cyc = s.cyc ∧ t.world = s.world := by
  have hnum : f.num = imageOfProc p := of_decide_eq_true (List.find?_some (p := fun x : FwImage => decide (x.num = imageOfProc p)) hf)
  have h3 : decide (3 ≤ p) = false := decide_eq_false (Nat.not_le.2 hp)
  dsimp only
  rw [switchCode, hf]
  dsimp only
  rw [hs, if_neg (by decide), if_pos (by rw [decide_eq_true hp]; rfl), h3]
  rw [if_pos hp]
  generalize hs1 : mapProc (blowRb s f) p (fun x => { x with version := f.version, code := some f, switched := false }) = s1
  have hself := procOf_mapProc_self (s := blowRb s f) hlen fun x => { x with version := f.version, code := some f, switched := false }
  have hother : ∀ q, q ≠ p → procOf s1 q = procOf s q := fun q hq => by
    rw [← hs1]
    exact procOf_mapProc_other hq _
  rw [hs1] at hself
  refine ⟨hself, hother, ?_, ?_, by rw [← hs1]; rfl, by rw [← hs1]; rfl, by rw [← hs1]; rfl⟩
  · exact List.find?_cons_of_pos (decide_eq_true hnum)
  · rw [← hnum]
    exact find_filter_num ..

/-- A planned restart that begins keeps everything but its processor, PMC's coming window among it (R405). -/
theorem execPlannedRestartBegin_begins {s : State} {p : Nat} (hr : s.boot.inReset = false) (hp : p < s.procs.length)
    (hst : (procOf s p).state = .warmPending) (hq : queueDone s p = true) (hm : restartMoment s p = true) :
    ∃ t, exec (.plannedRestartBegin p) s = .next t ∧ (procOf t p).state = .restarting ∧ (procOf t p).warmBegun = true ∧
      (procOf t p).lastCause = 4 ∧ (procOf t p).warmMsg = (procOf s p).warmMsg ∧ (∀ q, q ≠ p → procOf t q = procOf s q) ∧
      (p = 1 → t.disp.next = none) ∧ (p ≠ 1 → t.disp.next = s.disp.next) ∧
      { t with procs := s.procs, disp := { t.disp with next := s.disp.next, freeCtr := s.disp.freeCtr } } = s := by
  have hexec : ∀ t, onlyIf s (decide ((procOf s p).state = .warmPending) && queueDone s p && restartMoment s p) t = .next t :=
    fun t => by
      rw [hst, hq, hm]
      exact onlyIf_true hr
  have hself := procOf_mapProc_self hp fun x =>
    { x with state := .restarting, warmBegun := true, lastCause := 4, data := some s.disp.freeCtr }
  have hother : ∀ q, q ≠ p → _ := fun q hq => procOf_mapProc_other (s := s) hq fun x =>
    { x with state := .restarting, warmBegun := true, lastCause := 4, data := some s.disp.freeCtr }
  refine ⟨_, hexec _, ?_⟩
  split
  · next h1 =>
    exact ⟨congrArg Proc.state hself, congrArg Proc.warmBegun hself, congrArg Proc.lastCause hself, (congrArg Proc.warmMsg hself :),
      hother, fun _ => rfl, fun h => absurd h1 h, rfl⟩
  · next h1 =>
    exact ⟨congrArg Proc.state hself, congrArg Proc.warmBegun hself, congrArg Proc.lastCause hself, (congrArg Proc.warmMsg hself :),
      hother, fun h => absurd h h1, fun _ => rfl, rfl⟩

/-- The processor as its planned restart ends (R411). -/
def restarted (s : State) (p : Nat) : State :=
  mapProc s p fun x => { x with state := .running, warmBegun := false, warmMsg := none, watchAt := s.ao }

theorem execPlannedRestartDone_begun {s : State} {p : Nat} {m : Msg} (hr : s.boot.inReset = false)
    (hb : (procOf s p).warmBegun = true) (hm : (procOf s p).warmMsg = some m) :
    exec (.plannedRestartDone p) s = .next (reply
      (if p = 1 then pmcResumes (switchCode (restarted s p) p) else switchCode (restarted s p) p) m 0) := by
  change execPlannedRestartDone p s = _
  rw [execPlannedRestartDone, hb, hm]
  exact onlyIf_true hr

theorem plannedRestartDone_switches {s : State} {p : Nat} {m : Msg} {f : FwImage} (hr : s.boot.inReset = false)
    (hlen : p < s.procs.length) (hb : (procOf s p).warmBegun = true) (hm : (procOf s p).warmMsg = some m) (hp : p < 3)
    (hf : fwOf s.boot.fwStaged (imageOfProc p) = some f) (hs : (procOf s p).switched = false) :
    ∃ t, exec (.plannedRestartDone p) s = .next t ∧ (procOf t p).state = .running ∧ (procOf t p).warmBegun = false ∧
      (procOf t p).version = f.version ∧ (procOf t p).code = some f ∧ fwOf t.boot.fwActive (imageOfProc p) = some f ∧
      fwOf t.boot.fwStaged (imageOfProc p) = none ∧ t.fuses = (blowRb s f).fuses ∧
      (∀ q, q ≠ p → procOf t q = procOf s q) ∧ t.cyc = s.cyc ∧ t.world = s.world := by
  have hone := procOf_mapProc_self hlen fun x =>
    { x with state := .running, warmBegun := false, warmMsg := none, watchAt := s.ao }
  have hswitch : (procOf (restarted s p) p).switched = false := (congrArg Proc.switched hone).trans hs
  have hlen' : p < (restarted s p).procs.length := (length_listUpd ..).symm ▸ hlen
  obtain ⟨hself, hother, hact, hstaged, hfuses, hcyc, hworld⟩ := switchCode_takes (s := restarted s p) hp hlen' hf hswitch
  refine ⟨_, execPlannedRestartDone_begun hr hb hm, ?_⟩
  generalize hv : (if p = 1 then pmcResumes (switchCode (restarted s p) p) else switchCode (restarted s p) p) = v
  have hv' : v.procs = (switchCode (restarted s p) p).procs ∧ v.boot = (switchCode (restarted s p) p).boot ∧
      v.fuses = (switchCode (restarted s p) p).fuses ∧ courseOf v = courseOf (switchCode (restarted s p) p) := by
    rw [← hv]
    split <;> exact ⟨rfl, rfl, rfl, rfl⟩
  obtain ⟨hprocs, hboot, hfu, hco⟩ := hv'
  have hu := reply_unreported v m 0
  have hproc : ∀ q, procOf (reply v m 0) q = procOf (switchCode (restarted s p) p) q := fun q =>
    procOf_of_procs ((congrArg State.procs hu).trans hprocs) q
  have hrest := (unreported_course hu).trans hco
  have hbt := (unreported_boot hu).trans hboot
  have hme := ((hproc p).trans hself)
  rw [show procOf (restarted s p) p = _ from hone] at hme
  exact ⟨congrArg Proc.state hme, congrArg Proc.warmBegun hme, congrArg Proc.version hme, congrArg Proc.code hme,
    by rw [hbt]; exact hact, by rw [hbt]; exact hstaged, (congrArg State.fuses hu).trans (hfu.trans hfuses),
    fun q hq => (hproc q).trans ((hother q hq).trans (procOf_mapProc_other hq _)),
    (congrArg Prod.fst hrest :).trans hcyc, (congrArg Prod.snd hrest :).trans hworld⟩

/-- RESTART_PROCESSOR of a halted processor begins its restart at once (R411). -/
theorem askRestart_halted {s : State} {p : Nat} (hp : p < s.procs.length) (h : (procOf s p).state = .halted) (m : Msg) :
    let t := askRestart s m p
    (procOf t p).state = .restarting ∧ (procOf t p).lastCause = 4 ∧ (procOf t p).warmMsg = some m ∧
      ∀ q, q ≠ p → procOf t q = procOf s q := by
  dsimp only
  rw [askRestart, h]
  dsimp only
  have hclear := procOf_mapProc_self hp fun x => { x with crashAts := [] }
  generalize hu : mapProc s p (fun x => { x with crashAts := [] }) = u at hclear ⊢
  have hlen : p < u.procs.length := by
    rw [← hu]
    exact (length_listUpd ..).symm ▸ hp
  have hrecent : recentCrashes u p = [] := by
    rw [recentCrashes, hclear]
    rfl
  have hself := procOf_crashRestart_self hlen 4 (some m)
  rw [crashedProc, hrecent] at hself
  refine ⟨congrArg Proc.state hself, congrArg Proc.lastCause hself, (congrArg Proc.warmMsg hself :),
    fun q hq => (procOf_crashRestart_other hq ..).trans ?_⟩
  rw [← hu]
  exact procOf_mapProc_other hq _

/-- A reload that failed for the first time is tried again, unless that was the fifth restart (R407). -/
theorem reloadFailed_first {s : State} {p : Nat} (hp : p < s.procs.length) (hf : (procOf s p).failedOnce = false) :
    let t := reloadFailed s p
    (procOf t p).lastCause = 5 ∧ (procOf t p).failedOnce = true ∧
      ((recentCrashes s p).length < 4 → (procOf t p).state = .restarting) ∧ ∀ q, q ≠ p → procOf t q = procOf s q := by
  dsimp only
  rw [reloadFailed, hf, if_neg (by decide)]
  have hself := procOf_crashRestart_self hp 5 (procOf s p).warmMsg
  have hother : ∀ q, q ≠ p → procOf (crashRestart s p 5 (procOf s p).warmMsg) q = procOf s q := fun q hq =>
    procOf_crashRestart_other hq ..
  have hlen : p < (crashRestart s p 5 (procOf s p).warmMsg).procs.length := by
    have hprocs : (crashRestart s p 5 (procOf s p).warmMsg).procs = _ := congrArg Prod.fst (crashRestart_staff ..)
    rw [hprocs]
    exact (length_listUpd ..).symm ▸ hp
  generalize crashRestart s p 5 (procOf s p).warmMsg = u at hself hother hlen ⊢
  have hme := procOf_mapProc_self hlen fun x => { x with failedOnce := true }
  rw [hself] at hme
  refine ⟨congrArg Proc.lastCause hme, congrArg Proc.failedOnce hme, fun h => (congrArg Proc.state hme).trans ?_,
    fun q hq => (procOf_mapProc_other hq _).trans (hother q hq)⟩
  rw [crashedProc, decide_eq_false (Nat.not_le.2 h)]
  rfl

theorem reloadFailed_again {s : State} {p : Nat} (hp : p < s.procs.length) (hf : (procOf s p).failedOnce = true)
    (hw : (procOf s p).warmMsg = none) : let t := reloadFailed s p
    (procOf t p).state = .halted ∧ (procOf t p).lastCause = 5 ∧ { t with procs := s.procs } = s := by
  dsimp only
  rw [reloadFailed, hf, if_pos rfl, hw]
  have hme := procOf_mapProc_self hp fun x =>
    { x with state := .halted, lastCause := 5, failedOnce := false, warmMsg := none }
  exact ⟨congrArg Proc.state hme, congrArg Proc.lastCause hme, rfl⟩

/-- Each of the three causes crashes the processor (R406). -/
theorem crash_events {s : State} {p : Nat} (hr : s.boot.inReset = false) (hp : p < s.procs.length)
    (hpres : presentProc s p = true) (hc : canCrash s p = true) (hw : (procOf s p).warmMsg = none) {c : Instr} {cause : Nat}
    (hin : (c, cause) ∈ [(Instr.watchdogExpiry p, 1), (Instr.fwMemEcc p, 2), (Instr.internalFatalException p, 3)])
    (hdue : cause = 1 → watchdogDue s p = true) : ∃ t, exec c s = .next t ∧ Crashed s p cause t := by
  simp only [List.mem_cons, Prod.mk.injEq, List.not_mem_nil, or_false] at hin
  rcases hin with ⟨rfl, rfl⟩ | ⟨rfl, rfl⟩ | ⟨rfl, rfl⟩
  · refine ⟨_, ?_, crash_crashed hp hw 1⟩
    change execWatchdogExpiry p s = _
    rw [execWatchdogExpiry, hc, hdue rfl]
    exact onlyIf_true hr
  · refine ⟨crash (fwMemError s p) p 2, ?_, ?_⟩
    · change execFwMemEcc p s = _
      rw [execFwMemEcc, hpres, hc]
      exact onlyIf_true hr
    · obtain ⟨r, l, g, f, c, h⟩ := fwMemError_only s p
      rw [h]
      exact crash_crashed (s := { s with
        regs := r, safety := { s.safety with staging := l, folds := g, foldCount := f }, disp := { s.disp with freeCtr := c } })
        hp hw 2
  · refine ⟨_, ?_, crash_crashed hp hw 3⟩
    change execInternalFatalException p s = _
    rw [execInternalFatalException, hc]
    exact onlyIf_true hr

/-- Settles O32: the command, the planned restart's two ends, the crash, and the reload's two ends. -/
theorem restartsComplete : Obligations.RestartsComplete := by
  unfold Obligations.RestartsComplete
  intro s p hr hp hpres
  refine ⟨fun m rest h hrs hf => ?_, execPlannedRestartBegin_begins hr hp, fun hb m hm => ⟨fun h1 hn => ?_, fun f h3 hf hs =>
    plannedRestartDone_switches hr hp hb hm h3 hf hs⟩, fun hc hw c cause hin hdue => crash_events hr hp hpres hc hw hin hdue,
    fun hw => ?_, fun hst hb hw => ?_⟩
  · have hexec : exec .restartProcessor s = .next (askRestart (setOwnerQueue s .router rest) m p) := by
      change execRestartProcessor s = _
      rw [execRestartProcessor, withFront_takes h (isOp_front h)]
      dsimp only
      rw [hrs, if_neg (by decide), hf]
      exact if_pos hpres
    refine ⟨fun hst => ?_, fun hst => ?_, fun hst => ⟨_, hexec, askRestart_halted (s := setOwnerQueue s .router rest) hp hst m⟩⟩
    all_goals
      rw [askRestart, show procOf (setOwnerQueue s .router rest) p = procOf s p from rfl, hst] at hexec
      exact hexec
  · have hexec := execPlannedRestartDone_begun hr hb hm
    have hkeep : switchCode (restarted s p) p = restarted s p := by
      rw [switchCode, show fwOf (restarted s p).boot.fwStaged (imageOfProc p) = none from hn]
    rw [if_neg h1, hkeep] at hexec
    exact hexec
  · change execWatchdogExpiry p s = _
    rw [execWatchdogExpiry, hw, Bool.and_false]
    exact onlyIf_false
  · have hexec : ∀ ok, exec (.fwReloadDone p ok) s = .next (if ok then reloaded s p else reloadFailed s p) := fun ok => by
      change execFwReloadDone p ok s = _
      rw [execFwReloadDone, hst, hb]
      exact onlyIf_true hr
    exact ⟨⟨_, hexec true, reloaded_leaves hp hw⟩, fun hf => ⟨_, hexec false, reloadFailed_first hp hf⟩,
      fun hf => ⟨_, hexec false, reloadFailed_again hp hf hw⟩⟩

end Sys2Proof.Machine
end

section
/-! PROOFS. Instances: their lists, completion and records (R86, R124, R258, R302), ill-formed and misplaced descriptors
(R36, R104, R361, R363), the fabric moves, DMAREQ and EMIT (R93, R101, R262, R336), solve reports (R225). -/

namespace Sys2Proof.Machine

/-! ### The list copy (R124) -/

/-- One of the two copies of a dispatch. -/
def copyOne (s : State) (tile : Nat) (t : State) (c : Nat × Nat × Nat) : State :=
  tileWrite (correctRead t c.2.1 c.2.2) tile c.1 (devRead s c.2.1 c.2.2)

theorem copyList_eq (s : State) (i : Inst) :
    copyList s i = setInst ((copiesOf s i).foldl (copyOne s i.tile) s) { i with copied := true } := rfl

theorem correctRead_uncounted (s : State) (a n : Nat) : uncounted (correctRead s a n) = uncounted s :=
  correctRead_frame uncounted corrected_uncounted (fun _ _ => rfl) s a n

theorem copyOne_uncounted (s : State) (tile : Nat) (t : State) (c : Nat × Nat × Nat) :
    uncounted (copyOne s tile t c) = uncounted t := correctRead_uncounted ..

theorem copies_uncounted (s : State) (i : Inst) : uncounted ((copiesOf s i).foldl (copyOne s i.tile) s) = uncounted s :=
  foldl_frame uncounted _ (copyOne_uncounted s i.tile) _ _

theorem copies_good {s : State} (tile : Nat) (l : List (Nat × Nat × Nat)) (v : State) (h : v.plat.softWords = []) :
    (l.foldl (copyOne s tile) v).regs = v.regs := by
  induction l generalizing v with
  | nil => rfl
  | cons c l ih =>
    have hv : copyOne s tile v c = tileWrite v tile c.1 (devRead s c.2.1 c.2.2) := by rw [copyOne, correctRead_good h]
    rw [List.foldl_cons, ih, hv, tileWrite_regs]
    rw [hv, tileWrite_plat, healed, h]
    rfl

/-- The list alone, where the task has no schedule: it stands in its tile as its source did. -/
theorem copyList_stands {s : State} {i : Inst} (hi : Inv s) (hn : schedOf s i.task = none) :
    tileRead (copyList s i) i.tile (64 * i.task.listLine) (64 * i.task.listLen) =
      devRead s (listAddr s i.task) (64 * i.task.listLen) := by
  have hlen : (devRead s (listAddr s i.task) (64 * i.task.listLen)).length = 64 * i.task.listLen := memRead_length ..
  have hm : (copyList s i).mem = memWrite (correctRead s (listAddr s i.task) (64 * i.task.listLen)).mem
      (tileBase i.tile + 64 * i.task.listLine) (devRead s (listAddr s i.task) (64 * i.task.listLen)) := by
    rw [copyList_eq, copiesOf, hn]
    rfl
  rw [tileRead, hm, memRead_memWrite (correctRead_inv _ _ _ hi).mem _ _ (Nat.le_of_eq hlen.symm),
    List.take_of_length_le (Nat.le_of_eq hlen)]

theorem execListCopyDone_copies {s : State} {tile ctx : Nat} {i : Inst} (hr : s.boot.inReset = false)
    (hi : instOf s tile ctx = some i) (hc : i.copied = false) (hf : i.finished = false) (hok : copyOk s i = true)
    (hrest : copyRests s i = false) (hbad : copyBad s i = none) :
    ∃ u, exec (.listCopyDone tile ctx) s = .next u ∧ u = copyList s i ∧ instOf u tile ctx = some { i with copied := true } ∧
      (Inv s → schedOf s i.task = none →
        tileRead u tile (64 * i.task.listLine) (64 * i.task.listLen) = devRead s (listAddr s i.task) (64 * i.task.listLen)) ∧
      (s.plat.softWords = [] → u.regs = s.regs) ∧ u.cyc = s.cyc ∧ u.safety = s.safety := by
  obtain ⟨ht, hx⟩ := instOf_place hi
  have hexec : exec (.listCopyDone tile ctx) s = .next (copyList s i) := by
    change execListCopyDone tile ctx s = _
    rw [execListCopyDone, hi]
    dsimp only
    rw [hr, hc, hf, if_neg (by decide), hok, if_neg (by decide), hrest, if_neg (by decide), hbad]
  have hu := copies_uncounted s i
  refine ⟨_, hexec, rfl, ?_, fun hinv hn => ?_, fun h => copies_good i.tile _ s h, (congrArg State.cyc hu :),
    (congrArg State.safety hu :)⟩
  · rw [copyList_eq]
    refine instOf_setInst (j := i) ?_ ht hx
    exact (instOf_congr ((congrArg (·.disp.running) hu).trans rfl) tile ctx).trans hi
  · rw [← ht]
    exact copyList_stands hinv hn

/-! ### Completion (R86, R258) -/

theorem finishInst_ok (s : State) (i : Inst) : let u := finishInst s i 0
    (∃ q, u.disp.compQ = s.disp.compQ ++ [(i.tile / 16, q)] ∧ q.taskId = i.task.taskId ∧ q.batch = i.batch ∧ q.copy = i.copy ∧
      q.tile = i.tile ∧ q.ctx = i.ctx ∧ q.status = 0 ∧ q.flags = i.flags ∧ q.charge = i.charge) ∧
    u.safety.sigQ = (if i.task.safe then s.safety.sigQ ++ [(i.tile / 16, sigRecord s i 0)] else s.safety.sigQ) := by
  dsimp only
  unfold finishInst
  dsimp only
  rw [traceRec_disp, traceRec_safety]
  exact ⟨⟨_, rfl, rfl, rfl, rfl, rfl, rfl, rfl, rfl, rfl⟩, rfl⟩

/-- The tracker takes a record: its instance's context is free, the others' are as before. -/
theorem track_frees (s : State) (c : Completion) :
    (∀ j ∈ s.disp.running, (j.tile ≠ c.tile ∨ j.ctx ≠ c.ctx) → j ∈ (track s c).disp.running) ∧
      ∀ j ∈ (track s c).disp.running, j.tile = c.tile → j.ctx = c.ctx → j.finished = false := by
  refine ⟨fun j hj hne => List.mem_filter.2 ⟨hj, ?_⟩, fun j hj ht hx => ?_⟩
  · rw [Bool.not_eq_true', Bool.and_eq_false_iff]
    exact .inl (decide_eq_false fun h => hne.elim (absurd h.1) (absurd h.2))
  · have h := (List.mem_filter.1 hj).2
    rw [Bool.not_eq_true', Bool.and_eq_false_iff] at h
    exact h.elim (fun e => absurd ⟨ht, hx⟩ (of_decide_eq_false e)) id

/-- Settles O39: the list's arrival, the completion, and the tracker's turn. -/
theorem instancesCopyAndComplete : Obligations.InstancesCopyAndComplete := by
  unfold Obligations.InstancesCopyAndComplete
  intro s tile ctx i hr
  refine ⟨fun hi hc hf hok hrest hbad => execListCopyDone_copies hr hi hc hf hok hrest hbad, fun hi hf he hq => ?_,
    fun cluster k q hk hget => ?_⟩
  · obtain ⟨rfl, rfl⟩ := instOf_place hi
    have hexec : exec (.instanceComplete i.tile i.ctx) s = .next (finishInst s i 0) := by
      change execInstanceComplete i.tile i.ctx s = _
      rw [execInstanceComplete, hi]
      dsimp only
      rw [hf, he, hq]
      exact onlyIf_true hr
    obtain ⟨hcomp, hsig⟩ := finishInst_ok s i
    refine ⟨_, hexec, rfl, instOf_finishInst hi 0, hcomp, hsig.trans ?_⟩
    split
    · rfl
    · rw [List.append_nil]
  · have hexec : exec (.completionRecord cluster) s =
        .next (track { s with disp := { s.disp with compQ := listDel s.disp.compQ k } } q) := by
      change execCompletionRecord cluster s = _
      rw [execCompletionRecord, hk]
      dsimp only
      rw [hget]
      exact onlyIf_true hr
    obtain ⟨hkeep, hfree⟩ := track_frees { s with disp := { s.disp with compQ := listDel s.disp.compQ k } } q
    exact ⟨_, hexec, rfl, rfl, hkeep, hfree, rfl, rfl⟩

/-! ### Descriptors that do not run (R36, R104, R361, R363) -/

section Stops
variable {s : State} {tile ctx op : Nat} {r : DescRun} {i : Inst} (hr : s.boot.inReset = false)
  (hi : instOf s tile ctx = some i) (hl : listLineBad s i = false) (hop : dOpcode (descBytes s i i.pc) = op)
  (hm : mayIssue s i (descBytes s i i.pc) = true) (hg : pointerGrants s i (opUnit op) = true)
include hr hi hl hop hm hg

theorem issueDesc_illFormed (h : headerOk (descBytes s i i.pc) = false ∨ r.ok s i (descBytes s i i.pc) = false) :
    issueDesc s tile ctx op r = .fault (.unguarded "R104") := by
  have hbad : 8192 ≤ i.pc ∨ (!headerOk (descBytes s i i.pc)) = true ∨ (!r.ok s i (descBytes s i i.pc)) = true :=
    .inr (h.imp (fun e => by rw [e]; rfl) (fun e => by rw [e]; rfl))
  rw [issueDesc, hi]
  dsimp only
  rw [hr, if_neg (by decide), hl, if_neg (by decide), hm, hg, if_neg (by simp [hop]), if_pos hbad]

/-- Well formed: where the access decides. -/
theorem issueDesc_wellFormed (hpc : i.pc < 8192) (hh : headerOk (descBytes s i i.pc) = true)
    (hb : r.ok s i (descBytes s i i.pc) = true) : issueDesc s tile ctx op r =
      if !accessOk s tile (accessAt s r i) then .fault (.unguarded "R36")
      else if accessRests s tile (accessAt s r i) then .next (wakeAccess s tile (accessAt s r i))
      else match badAccessAt s tile (accessAt s r i) with
        | some a => .next (readerAborts (issued s tile r i) tile ctx a)
        | none => ofAttempt (r.run (issued s tile r i) (issuedInst s r i) (descBytes s i i.pc) i.pc) := by
  have hbad : ¬(8192 ≤ i.pc ∨ (!headerOk (descBytes s i i.pc)) = true ∨ (!r.ok s i (descBytes s i i.pc)) = true) := by
    rw [hh, hb]
    simpa using hpc
  have hiss : correctAccess (noteIssue s i (descBytes s i i.pc) r.holds (accessAt s r i).writes) tile (accessAt s r i) =
      issued s tile r i := rfl
  rw [issueDesc, hi]
  dsimp only
  rw [hr, if_neg (by decide), hl, if_neg (by decide), hm, hg, if_neg (by simp [hop]), if_neg hbad]
  change (if !accessOk s tile (accessAt s r i) then _ else if accessRests s tile (accessAt s r i) then _ else _) = _
  rw [show withListLine i (r.access s i (descBytes s i i.pc)) = accessAt s r i from rfl, hiss, instOf_issued hi] <;> rfl

end Stops

/-- The descriptor commands with their opcodes and classes (SWEEP aside). -/
def descriptorRuns (tile ctx : Nat) : List (Instr × Nat × DescRun) :=
  [(Instr.nop tile ctx, 0x00, nopRun), (.fence tile ctx, 0x01, fenceRun), (.moveCopy tile ctx, 0x08, copyRun),
    (.moveFill tile ctx, 0x09, fillRun), (.moveFetch tile ctx, 0x0A, fetchRun), (.movePut tile ctx, 0x0B, putRun),
    (.matmul tile ctx, 0x10, matmulRun), (.matmulConv tile ctx, 0x11, matmulRun), (.vectBin tile ctx, 0x18, binRun),
    (.vectUn tile ctx, 0x19, unRun), (.vectNorm tile ctx, 0x1A, normRun), (.vectCvt tile ctx, 0x1B, cvtRun),
    (.reduce tile ctx, 0x20, reduceRun), (.genprim tile ctx, 0x28, genprimRun), (.topk tile ctx, 0x38, topkRun),
    (.topkMerge tile ctx, 0x39, mergeRun), (.knn tile ctx, 0x3A, knnRun), (.solveAssemble tile ctx, 0x40, solveRun 0),
    (.solveFactor tile ctx, 0x41, solveRun 1), (.solveSubst tile ctx, 0x42, solveRun 2), (.solveUpdate tile ctx, 0x43, solveRun 3),
    (.dmareq tile ctx, 0x48, dmareqRun), (.wait tile ctx, 0x50, waitRun), (.signal tile ctx, 0x51, signalRun),
    (.emit tile ctx, 0x58, emitRun)]

theorem exec_eq_issueDesc {s : State} {tile ctx : Nat} {c : Instr} {op : Nat} {r : DescRun}
    (h : (c, op, r) ∈ descriptorRuns tile ctx) : exec c s = issueDesc s tile ctx op r := by
  have hall : ∀ p ∈ descriptorRuns tile ctx, exec p.1 s = issueDesc s tile ctx p.2.1 p.2.2 := by
    simp only [descriptorRuns, List.forall_mem_cons, List.not_mem_nil, false_implies, implies_true, and_true]
    exact ⟨rfl, rfl, rfl, rfl, rfl, rfl, rfl, rfl, rfl, rfl, rfl, rfl, rfl, rfl, rfl, rfl, rfl, rfl, rfl, rfl, rfl, rfl, rfl,
      rfl, rfl⟩
  exact hall _ h

/-- Settles O42: every class of the list stops, waits or aborts in `issueDesc` itself. -/
theorem illFormedDescriptorsStop : Obligations.IllFormedDescriptorsStop := by
  unfold Obligations.IllFormedDescriptorsStop
  intro s tile ctx i hr hi hl c op r hin
  dsimp only
  intro hop hm hg
  rw [exec_eq_issueDesc hin]
  refine ⟨issueDesc_illFormed hr hi hl hop hm hg, fun hpc hh hb => ?_⟩
  rw [issueDesc_wellFormed hr hi hl hop hm hg hpc hh hb]
  refine ⟨fun ha => ?_, fun ha hrest => ?_, fun a ha hrest hbad => ?_⟩
  · rw [ha, if_pos (by decide)]
  · rw [ha, if_neg (by decide), if_pos hrest]
  · rw [ha, if_neg (by decide), hrest, if_neg (by decide), hbad]

/-! ### What an issue leaves, as the runs read it -/

theorem issued_uncounted (s : State) (tile : Nat) (r : DescRun) (i : Inst) :
    ∃ x o, uncounted (issued s tile r i) = uncounted { s with disp := x, out := o } := by
  obtain ⟨x, o, h⟩ := noteIssue_only s i (descBytes s i i.pc) r.holds (accessAt s r i).writes
  refine ⟨x, o, ?_⟩
  rw [issued, correctAccess_uncounted, h]

theorem issued_fuses (s : State) (tile : Nat) (r : DescRun) (i : Inst) : (issued s tile r i).fuses = s.fuses := by
  obtain ⟨x, o, h⟩ := issued_uncounted s tile r i
  exact (congrArg State.fuses h :)

theorem issued_chans (s : State) (tile : Nat) (r : DescRun) (i : Inst) : (issued s tile r i).chans = s.chans := by
  obtain ⟨x, o, h⟩ := issued_uncounted s tile r i
  exact (congrArg State.chans h :)

theorem issued_cyc (s : State) (tile : Nat) (r : DescRun) (i : Inst) : (issued s tile r i).cyc = s.cyc := by
  obtain ⟨x, o, h⟩ := issued_uncounted s tile r i
  exact (congrArg State.cyc h :)

theorem issued_flows (s : State) (tile : Nat) (r : DescRun) (i : Inst) : (issued s tile r i).flows = s.flows := by
  obtain ⟨x, o, h⟩ := issued_uncounted s tile r i
  exact (congrArg State.flows h :)

/-! ### The fabric moves (R93, R370) -/

theorem fetchable_issued (s : State) (tile : Nat) (r : DescRun) (i : Inst) (t : Nat) :
    fetchable (issued s tile r i) t = fetchable s t := by
  funext a n
  unfold fetchable gddrEnd
  rw [issued_fuses]

theorem fetchRun_run (s : State) (i : Inst) (d : Bytes) (k : Nat) : let rs := fabricRanges d (dTref d 0x18)
    fetchRun.run s i d k =
      if !rs.all (fun r => fetchable s i.tile r.1 r.2) then .error "R370"
      else match rs.find? (fun r => badDev s r.1 r.2) with
        | some r => .ok (fetchFault (correctFetch s rs) i d (firstBadDev s r.1 r.2))
        | none => .ok (landFetch (correctFetch s rs) i d) := rfl

/-! ### DMAREQ (R101, R336) -/

theorem dmareqRun_run (s : State) (i : Inst) (d : Bytes) (k : Nat) : dmareqRun.run s i d k =
    if channelTakes s i d then acceptReq s i d k else .ok (setInst s { i with stalled := i.stalled ++ [k] }) := rfl

section Request
variable {s : State} {i : Inst} {d : Bytes} {k : Nat}

theorem acceptReq_write (hm : fieldAt d 0x11 1 = 0) (hs : setOk s (reqSet s i d k) = true) :
    acceptReq s i d k = .ok (writeShadow (setInst s i) (8 * (i.tile / 16) + fieldAt d 0x10 1) (reqSet s i d k) false) := by
  have ha : decide (fieldAt d 0x11 1 = 1) = false := decide_eq_false fun h => absurd (hm.symm.trans h) (by decide)
  rw [acceptReq]
  rw [ha, Bool.false_and, if_neg (by decide), if_pos hs]
  rfl

theorem acceptReq_arm (hm : fieldAt d 0x11 1 = 1) : let ch := fieldAt d 0x10 1
    let key := 8 * (i.tile / 16) + ch
    let old := rearmed (chanGet s key).shadow (reqSet s i d k)
    let arming := setInst s { i with armed := addOnce i.armed ch, dmaArms := natSet i.dmaArms k (armCount i k + 1) }
    acceptReq s i d k =
      if armOnly d then (if setOk s old then .ok (writeShadow arming key old true) else .error "R355")
      else if setOk s (reqSet s i d k) then .ok (writeShadow arming key (reqSet s i d k) true)
      else .error "R355" := by
  dsimp only
  rw [acceptReq]
  rw [decide_eq_true hm, Bool.true_and]
  rfl

/-- The set that DMAREQ would use is out of bounds (R355). -/
theorem acceptReq_refused (h : setOk s (if fieldAt d 0x11 1 = 1 ∧ armOnly d = true then
      rearmed (chanGet s (8 * (i.tile / 16) + fieldAt d 0x10 1)).shadow (reqSet s i d k) else reqSet s i d k) = false) :
    acceptReq s i d k = .error "R355" := by
  rw [acceptReq]
  by_cases hc : fieldAt d 0x11 1 = 1 ∧ armOnly d = true
  · rw [if_pos hc] at h
    rw [decide_eq_true hc.1, hc.2, if_pos (by decide), h]
    rfl
  · have hb : ¬(decide (fieldAt d 0x11 1 = 1) && armOnly d) = true := fun e => by
      rw [Bool.and_eq_true] at e
      exact hc ⟨of_decide_eq_true e.1, e.2⟩
    rw [if_neg hc] at h
    rw [if_neg hb, h]
    rfl

end Request

/-- Settles O44: FETCH, PUT, DMAREQ, and the PUT that times out. -/
theorem fabricMovesComplete : Obligations.FabricMovesComplete := by
  unfold Obligations.FabricMovesComplete
  intro s tile ctx i
  dsimp only
  refine ⟨fun h => ?_, fun h => ?_, fun h => ?_, fun hi hr hf k hk => ?_⟩
  · obtain ⟨rfl, rfl⟩ := instOf_place h.inst
    have hexec : exec (.moveFetch i.tile i.ctx) s = _ := issueDesc_of_issues h
    rw [fetchRun_run, show (issuedInst s fetchRun i).tile = i.tile from rfl, fetchable_issued] at hexec
    refine ⟨fun hall hbad => ?_, fun hall r hbad => ?_, fun hall => ?_⟩
    · rw [hall, if_neg (by decide), hbad] at hexec
      exact hexec
    · rw [hall, if_neg (by decide), hbad] at hexec
      exact hexec
    · rw [hall, if_pos (by decide)] at hexec
      exact hexec
  · obtain ⟨rfl, rfl⟩ := instOf_place h.inst
    have hexec : exec (.movePut i.tile i.ctx) s = _ := issueDesc_of_issues h
    refine ⟨fun hall => hexec.trans ?_, fun hall => hexec.trans ?_⟩
    · exact congrArg ofAttempt (if_neg (by
        rw [Bool.not_eq_true, Bool.not_eq_false']
        exact hall))
    · exact congrArg ofAttempt (if_pos (by
        rw [Bool.not_eq_true']
        exact hall))
  · obtain ⟨rfl, rfl⟩ := instOf_place h.inst
    have hexec : exec (.dmareq i.tile i.ctx) s = _ := issueDesc_of_issues h
    have hch : ∀ k, chanGet (issued s i.tile dmareqRun i) k = chanGet s k := fun k => by
      unfold chanGet chanOf
      rw [issued_chans]
    have hreq : reqSet (issued s i.tile dmareqRun i) (issuedInst s dmareqRun i) (descBytes s i i.pc) i.pc =
        reqSet s i (descBytes s i i.pc) i.pc := by
      unfold reqSet
      rw [issued_cyc]
      rfl
    rw [dmareqRun_run, channelTakes, hch, show (issuedInst s dmareqRun i).tile = i.tile from rfl] at hexec
    have hkey : 8 * ((issuedInst s dmareqRun i).tile / 16) = 8 * (i.tile / 16) := rfl
    refine ⟨fun ha => ?_, fun ha hm hs => ?_, fun ha hm hn hs => ?_, fun ha hm hn hs => ?_, fun ha hs => ?_⟩
    · rw [ha, if_neg (by decide)] at hexec
      exact hexec
    all_goals rw [ha, if_pos (by decide)] at hexec
    · rw [acceptReq_write hm (by rw [hreq]; exact hs), hreq] at hexec
      exact hexec
    · rw [acceptReq_arm hm, hn, if_neg (by decide), hreq, if_pos hs] at hexec
      exact hexec
    · rw [acceptReq_arm hm, hn, if_pos rfl, hch, hkey, hreq, if_pos hs] at hexec
      exact hexec
    · rw [acceptReq_refused (by rw [hch, hkey, hreq]; exact hs)] at hexec
      exact hexec
  · change execPutTimeout tile ctx s = _
    rw [execPutTimeout, hi]
    dsimp only
    rw [hk, hf]
    exact onlyIf_true hr

/-! ### EMIT and the completion of descriptors (R85, R262, R263) -/

section Offer
variable {s : State} {i : Inst} {f seq : Nat} {item : Bytes}

theorem offerItem_twin (h : isSink f = true ∧ i.task.safe = true ∧ i.copy = 1) : offerItem s i f seq item = some s := by
  rw [offerItem]
  rw [if_pos (by rw [h.1, h.2.1, decide_eq_true h.2.2]; rfl)]

theorem offerItem_own (h : ¬(isSink f = true ∧ i.task.safe = true ∧ i.copy = 1)) : offerItem s i f seq item =
    if 2 ^ 31 ≤ (BitVec.ofNat 32 seq - (flowOf s f).nextSeq).toNat then some (flowDup s)
    else if 256 ≤ (BitVec.ofNat 32 seq - (flowOf s f).nextSeq).toNat then none
    else if (flowOf s f).items.any (fun p => p.seq.toNat = seq) then some (flowDup s)
    else some (setFlow s { flowOf s f with items := (flowOf s f).items ++
      [{ seq := BitVec.ofNat 32 seq, phase := i.task.phase, owner := (i.task.taskId, i.batch, i.copy), bytes := item }] }) := by
  rw [offerItem]
  dsimp only
  rw [if_neg]
  rw [Bool.and_eq_true, Bool.and_eq_true, decide_eq_true_eq]
  exact fun e => h ⟨e.1.1, e.1.2, e.2⟩

end Offer

theorem flowOf_issued (s : State) (tile : Nat) (r : DescRun) (i : Inst) (f : Nat) : flowOf (issued s tile r i) f = flowOf s f := by
  unfold flowOf
  rw [issued_flows]

/-- A retired descriptor leaves its unit and adds to the signature; nothing else moves (R85). -/
theorem retire_leaves {s : State} {tile ctx : Nat} {i : Inst} (h : instOf s tile ctx = some i) (k : Nat) : let t := retire s tile ctx k
    instOf t tile ctx = some { i with
      inflight := i.inflight.filter (·.1 ≠ k)
      sigs := if i.task.safe && dSig (descBytes s i k) then sigInsert (k, signaturePart s i (descBytes s i k)) i.sigs else i.sigs } ∧
    t.mem = s.mem ∧ t.regs = s.regs ∧ t.disp.tokens = s.disp.tokens ∧ t.flows = s.flows ∧ t.cyc = s.cyc := by
  obtain ⟨ht, hc⟩ := instOf_place h
  dsimp only
  rw [retire, h]
  dsimp only
  generalize (if i.task.safe && dSig (descBytes s i k) then sigInsert (k, signaturePart s i (descBytes s i k)) i.sigs
    else i.sigs) = sg
  obtain ⟨o, ho⟩ := traceRec_only (setInst s { i with inflight := i.inflight.filter (·.1 ≠ k), sigs := sg })
    4 tile (dTag (descBytes s i k)) k (Config.freeNat 5 s.disp.freeCtr)
  rw [ho]
  exact ⟨instOf_setInst (s := s) (i := { i with inflight := i.inflight.filter (·.1 ≠ k), sigs := sg }) h ht hc, rfl, rfl, rfl, rfl, rfl⟩

theorem execDescriptorComplete_due {s : State} {tile ctx : Nat} {i : Inst} (hr : s.boot.inReset = false)
    (hi : instOf s tile ctx = some i) (hf : i.finished = false) {k : Nat} (hk : i.inflight.any (·.1 = k) = true)
    (hw : workDone s i k = true) : exec (.descriptorComplete tile ctx k) s =
      match retryStalled s i (descBytes s i k) k with
      | none => .next s
      | some a => ofAttempt (a.map fun t => retire t tile ctx k) := by
  change execDescriptorComplete tile ctx k s = _
  rw [execDescriptorComplete, hi]
  dsimp only
  rw [hr, hf, hk, hw, if_neg (by decide)] <;> rfl

/-- Settles O49: EMIT, then the completion of a descriptor, then the solve report. -/
theorem emitAndCompletion : Obligations.EmitAndCompletion := by
  unfold Obligations.EmitAndCompletion
  intro s tile ctx i
  dsimp only
  refine ⟨fun h => ?_, fun hr hi hf k hk hw => ⟨fun hs => ?_, fun hn => ?_, fun t ht => ?_⟩, fun hr hi hf hrep r hsolve => ?_⟩
  · obtain ⟨rfl, rfl⟩ := instOf_place h.inst
    have hexec : exec (.emit i.tile i.ctx) s = ofAttempt (match offerItem (issued s i.tile emitRun i) (issuedInst s emitRun i)
        (fieldAt (descBytes s i i.pc) 0x10 2) (fieldAt (descBytes s i i.pc) 0x14 4)
        (emitItem (issued s i.tile emitRun i) i (descBytes s i i.pc)) with
      | some t => .ok t
      | none => .ok (setInst (issued s i.tile emitRun i) { issuedInst s emitRun i with stalled := i.stalled ++ [i.pc] })) :=
      issueDesc_of_issues h
    refine ⟨fun htw hn hd => ?_, fun htw hn hn' => ?_, fun htw => ?_, fun htw hd => ?_⟩
    · rw [not_or, not_le, not_and] at hd
      rw [offerItem_own (i := issuedInst s emitRun i) htw, flowOf_issued, if_neg (Nat.not_le.2 hd.1), if_neg (Nat.not_le.2 hn),
        if_neg (hd.2 hn)] at hexec
      exact hexec
    · rw [offerItem_own (i := issuedInst s emitRun i) htw, flowOf_issued, if_neg (Nat.not_le.2 hn'), if_pos hn] at hexec
      exact hexec
    · rw [offerItem_twin (i := issuedInst s emitRun i) htw] at hexec
      exact hexec
    · rw [offerItem_own (i := issuedInst s emitRun i) htw, flowOf_issued] at hexec
      by_cases h31 : 2 ^ 31 ≤ (BitVec.ofNat 32 (fieldAt (descBytes s i i.pc) 0x14 4) -
          (flowOf s (fieldAt (descBytes s i i.pc) 0x10 2)).nextSeq).toNat
      · rw [if_pos h31] at hexec
        exact hexec
      · obtain ⟨hlt, hany⟩ := hd.resolve_left h31
        rw [if_neg h31, if_neg (Nat.not_le.2 hlt), if_pos hany] at hexec
        exact hexec
  · have hexec := execDescriptorComplete_due hr hi hf hk hw
    rw [retryStalled, if_pos hs] at hexec
    exact ⟨_, hexec, retire_leaves hi k⟩
  · have hexec := execDescriptorComplete_due hr hi hf hk hw
    rw [hn] at hexec
    exact hexec
  · have hexec := execDescriptorComplete_due hr hi hf hk hw
    rw [ht] at hexec
    exact hexec
  · have hexec : exec (.solveReport tile ctx) s = .next (answerSolve s i (solveOf s tile (descBytes s i r.index)) r) := by
      change execSolveReport tile ctx s = _
      rw [execSolveReport, hi]
      dsimp only
      rw [hsolve, hf]
      exact onlyIf_true hr
    rw [answerSolve] at hexec
    rw [hrep, if_neg (by decide)] at hexec
    have hcuts : cutsSolves i = true ↔ i.cut = true ∧ i.task.phase = 7 := by
      rw [cutsSolves, Bool.and_eq_true, decide_eq_true_eq]
    refine ⟨fun hp => ?_, fun hp => ?_⟩
    · rw [if_pos] at hexec
      · exact hexec
      · rw [Bool.or_eq_true, Bool.not_eq_true', decide_eq_true_eq]
        by_contra hc
        rw [not_or, Bool.not_eq_false, not_le] at hc
        exact hp ⟨(hcuts.1 hc.1).1, (hcuts.1 hc.1).2, hc.2⟩
    · rw [if_neg] at hexec
      · exact hexec
      · rw [Bool.or_eq_true, Bool.not_eq_true', decide_eq_true_eq, not_or, Bool.not_eq_false, not_le]
        exact ⟨hcuts.2 ⟨hp.1, hp.2.1⟩, hp.2.2⟩

end Sys2Proof.Machine
end

section
/-! PROOFS. The comparator's pairs and Rein's overruns (R299, R302, R303). -/

namespace Sys2Proof.Machine

/-! ### The comparator (R303) -/

section Pair
variable {a b : SigRec}

theorem stitchOutcome_bad (h : a.status = 1 ∨ a.status = 2 ∨ a.status = 4 ∨ b.status = 1 ∨ b.status = 2 ∨ b.status = 4) :
    stitchOutcome a b = .incomplete := by
  have hb : (badStatus a.status || badStatus b.status) = true := by
    rw [Bool.or_eq_true, badStatus, badStatus, decide_eq_true_eq, decide_eq_true_eq]
    simp only [csReinOverrun, csQuarantined, csTileFault]
    omega
  rw [stitchOutcome, if_pos hb]

theorem stitchOutcome_good (h : (a.status = 0 ∨ a.status = 3) ∧ (b.status = 0 ∨ b.status = 3)) :
    stitchOutcome a b = if a.status = 3 ∨ b.status = 3 then .dropped else if a.len = b.len ∧ a.crc = b.crc then .pass else .mismatch := by
  have hb : ¬(badStatus a.status || badStatus b.status) = true := by
    rw [Bool.or_eq_true, badStatus, badStatus, decide_eq_true_eq, decide_eq_true_eq]
    simp only [csReinOverrun, csQuarantined, csTileFault]
    omega
  rw [stitchOutcome, if_neg hb]
  rfl

end Pair

/-- The state in which an entry resolves: it no longer waits. -/
def entryTaken (s : State) (e : StitchEntry) : State :=
  { s with safety := { s.safety with stitch := s.safety.stitch.filter (· ≠ e) } }

section Resolve
variable {s : State} {e : StitchEntry} {a b : SigRec}

theorem resolveEntry_pass (h : stitchOutcome a b = .pass) :
    resolveEntry s e a b = judgeIfWaiting (bumpReg (entryTaken s e) offStitchPairs) := by
  rw [resolveEntry, h, entryTaken]

theorem resolveEntry_dropped (h : stitchOutcome a b = .dropped) :
    resolveEntry s e a b = judgeIfWaiting (bumpReg (entryTaken s e) offStitchDropped) := by
  rw [resolveEntry, h, entryTaken]

theorem resolveEntry_mismatch (h : stitchOutcome a b = .mismatch) :
    resolveEntry s e a b = judgeIfWaiting (stitchFails (entryTaken s e) offStitchMismatch a b) := by
  rw [resolveEntry, h, entryTaken]

theorem resolveEntry_incomplete (h : stitchOutcome a b = .incomplete) :
    resolveEntry s e a b = judgeIfWaiting (stitchFails (entryTaken s e) offStitchIncomplete a b) := by
  rw [resolveEntry, h, entryTaken]

end Resolve

theorem takeSignature_unknown {s : State} {r : SigRec}
    (h : s.safety.stitch.find? (fun e => decide (e.seq = r.seq ∧ e.taskId = r.taskId ∧ e.batch = r.batch)) = none) :
    takeSignature s r = s := by
  rw [takeSignature, h]

theorem takeSignature_first {s : State} {r : SigRec} {e : StitchEntry}
    (h : s.safety.stitch.find? (fun e => decide (e.seq = r.seq ∧ e.taskId = r.taskId ∧ e.batch = r.batch)) = some e)
    (he : e.first = none) : takeSignature s r = { s with
      safety := { s.safety with stitch := s.safety.stitch.map fun x => if x = e then { e with first := some r } else x } } := by
  rw [takeSignature, h]
  dsimp only
  rw [he]

theorem takeSignature_second {s : State} {r f : SigRec} {e : StitchEntry}
    (h : s.safety.stitch.find? (fun e => decide (e.seq = r.seq ∧ e.taskId = r.taskId ∧ e.batch = r.batch)) = some e)
    (he : e.first = some f) : takeSignature s r = resolveEntry s e f r := by
  rw [takeSignature, h]
  dsimp only
  rw [he]

/-- The oldest record of a cluster's link is what the comparator takes. -/
theorem execSignatureRecord_takes {s : State} (hr : s.boot.inReset = false) {cluster k : Nat} {r : SigRec}
    (hk : s.safety.sigQ.findIdx? (fun p => decide (p.1 = cluster)) = some k) (hget : s.safety.sigQ[k]? = some (cluster, r)) :
    exec (.signatureRecord cluster) s =
      .next (takeSignature { s with safety := { s.safety with sigQ := listDel s.safety.sigQ k } } r) := by
  change execSignatureRecord cluster s = _
  rw [execSignatureRecord, hk]
  dsimp only
  rw [hget]
  exact onlyIf_true hr

/-! ### Rein's overrun (R299) -/

/-- An overrun is the bumped count and a staged fault, nothing else (R316). -/
theorem reinOverrun_only (s : State) (tile ctx task : Nat) : ∃ l g f, reinOverrun s tile ctx task =
    { bumpReg s offReinOverrun with safety := { s.safety with staging := l, folds := g, foldCount := f } } :=
  stageFault_only (bumpReg s offReinOverrun) (fsRein tile) fReinOverrun (toLe 1 tile ++ toLe 1 ctx ++ toLe 2 task)

theorem reinOverrun_entry {s : State} (h : s.safety.staging.length < 32) (tile ctx task : Nat) :
    ∃ e ∈ (reinOverrun s tile ctx task).safety.staging, e.source = 512 + tile ∧ e.code = fReinOverrun ∧
      e.data = toLe 1 tile ++ toLe 1 ctx ++ toLe 2 task := by
  have hs : reinOverrun s tile ctx task =
      stageFault (bumpReg s offReinOverrun) (fsRein tile) fReinOverrun (toLe 1 tile ++ toLe 1 ctx ++ toLe 2 task) := rfl
  rw [hs, stageFault]
  rw [if_pos (show (bumpReg s offReinOverrun).safety.staging.length < 32 from h)]
  exact ⟨_, mem_stageInsert _ _, rfl, rfl, rfl⟩

/-- What the abort of an instance does before it is recorded leaves the completions and the facts (R86, R340). -/
theorem beforeFinish_keeps (s : State) (i : Inst) (status : Nat) :
    let t := scrambleOutputs (dropSweepHolds (endStream (abortSets s i) i status) i) i
    t.disp.compQ = s.disp.compQ ∧ t.cyc.facts = s.cyc.facts := by
  have hsets := abortSets_unmoved s i
  have hstream : ∀ t, (endStream t i status).disp.compQ = t.disp.compQ ∧ (endStream t i status).cyc = t.cyc := fun t => by
    unfold endStream
    split <;> exact ⟨rfl, rfl⟩
  have hholds : ∀ t, (dropSweepHolds t i).cyc = t.cyc := fun t => by
    unfold dropSweepHolds
    exact foldl_frame State.cyc _ (fun t w => by split <;> rfl) _ t
  have hscr : ∀ t, (scrambleOutputs t i).disp.compQ = t.disp.compQ ∧ (scrambleOutputs t i).cyc = t.cyc := fun t =>
    ⟨foldl_frame (fun t : State => t.disp.compQ) _ (fun _ _ => by rfl) _ t, foldl_frame State.cyc _ (fun _ _ => by rfl) _ t⟩
  dsimp only
  rw [(hscr _).1, (hscr _).2, dropSweepHolds_disp, hholds, (hstream _).1, (hstream _).2]
  exact ⟨(congrArg (·.disp.compQ) hsets :), (congrArg (·.cyc.facts) hsets :)⟩

theorem finishInst_records (s : State) (i : Inst) (status : Nat) : let u := finishInst s i status
    (∃ q, u.disp.compQ = s.disp.compQ ++ [(i.tile / 16, q)] ∧ q.taskId = i.task.taskId ∧ q.batch = i.batch ∧ q.status = status) ∧
      u.cyc = s.cyc := by
  dsimp only
  unfold finishInst
  dsimp only
  rw [traceRec_disp, unreported_cyc (traceRec_unreported ..)]
  split
  · exact ⟨⟨_, rfl, rfl, rfl, rfl⟩, rfl⟩
  · rw [logNow_disp, unreported_cyc (logNow_unreported ..)]
    exact ⟨⟨_, rfl, rfl, rfl, rfl⟩, rfl⟩

/-- An abort by Rein: its completion record and its fact (R258, R280). -/
theorem abortInst_rein {s : State} {i : Inst} (h : instOf s i.tile i.ctx = some i) : let u := abortInst s i 1
    (∃ q, u.disp.compQ = s.disp.compQ ++ [(i.tile / 16, q)] ∧ q.taskId = i.task.taskId ∧ q.batch = i.batch ∧ q.status = 1) ∧
      u.cyc.facts = s.cyc.facts ++ [abortFact i 1] := by
  have hj : instOf (dropSweepHolds (endStream (abortSets s i) i 1) i) i.tile i.ctx = some { i with stream := [] } := by
    rw [instOf_beforeFinish, endStream, if_pos (.inl rfl)]
    exact instOf_setInst (i := { i with stream := [] }) ((instOf_congr (abortSets_running s i) _ _).trans h) rfl rfl
  obtain ⟨hcomp, hfacts⟩ := beforeFinish_keeps s i 1
  dsimp only
  unfold abortInst
  dsimp only
  rw [hj, Option.getD_some]
  generalize scrambleOutputs (dropSweepHolds (endStream (abortSets s i) i 1) i) i = t at hcomp hfacts ⊢
  obtain ⟨⟨q, hq, htask, hbatch, hst⟩, hcyc⟩ := finishInst_records (addFact t (abortFact i 1)) { i with stream := [] } 1
  refine ⟨⟨q, hq.trans ?_, htask, hbatch, hst⟩, ?_⟩
  · rw [← hcomp]
    rfl
  · rw [hcyc, ← hfacts]
    rfl

/-- An overrun stages its fault and ends its instance (R299). -/
theorem overrun_leaves {s : State} {i : Inst} (hi : instOf s i.tile i.ctx = some i) :
    let u := abortInst (reinOverrun s i.tile i.ctx i.task.taskId) i 1
    (∃ j, instOf u i.tile i.ctx = some j ∧ j.finished = true) ∧
      (∃ q, u.disp.compQ = s.disp.compQ ++ [(i.tile / 16, q)] ∧ q.taskId = i.task.taskId ∧ q.batch = i.batch ∧ q.status = 1) ∧
      u.cyc.facts = s.cyc.facts ++ [abortFact i 1] ∧
      (s.safety.staging.length < 32 → ∃ e ∈ u.safety.staging, e.source = 512 + i.tile ∧ e.code = fReinOverrun ∧
        e.data = toLe 1 i.tile ++ toLe 1 i.ctx ++ toLe 2 i.task.taskId) := by
  have hkept := (instOf_congr (congrArg (·.running) (reinOverrun_disp s i.tile i.ctx i.task.taskId)) i.tile i.ctx).trans hi
  have hentry := fun h => reinOverrun_entry (s := s) h i.tile i.ctx i.task.taskId
  have hcyc : (reinOverrun s i.tile i.ctx i.task.taskId).cyc = s.cyc := by
    obtain ⟨l, g, f, honly⟩ := reinOverrun_only s i.tile i.ctx i.task.taskId
    rw [honly]
    rfl
  have hdisp := reinOverrun_disp s i.tile i.ctx i.task.taskId
  dsimp only
  generalize reinOverrun s i.tile i.ctx i.task.taskId = v at hkept hentry hcyc hdisp ⊢
  have hstaging : ∀ t w, unaborted t = unaborted w → t.safety.staging = w.safety.staging := fun _ _ h =>
    congrArg (·.safety.staging) h
  have hstage := hstaging _ _ (abortInst_unaborted v i 1)
  obtain ⟨hcomp, hfacts⟩ := abortInst_rein hkept
  rw [hdisp] at hcomp
  rw [hcyc] at hfacts
  refine ⟨instOf_abortInst hkept 1, hcomp, hfacts, fun h => ?_⟩
  rw [hstage]
  exact hentry h

theorem execReinExpiry_overruns {s : State} {tile ctx : Nat} {i : Inst} (hr : s.boot.inReset = false)
    (hi : instOf s tile ctx = some i) (hf : i.finished = false) (hb : 10 * i.task.reinBudget ≤ i.acc) (hp : 0 < i.acc) :
    ∃ u, exec (.reinExpiry tile ctx) s = .next u ∧ (∃ j, instOf u tile ctx = some j ∧ j.finished = true) ∧
      (∃ q, u.disp.compQ = s.disp.compQ ++ [(tile / 16, q)] ∧ q.taskId = i.task.taskId ∧ q.batch = i.batch ∧ q.status = 1) ∧
      u.cyc.facts = s.cyc.facts ++ [abortFact i 1] ∧
      (s.safety.staging.length < 32 → ∃ e ∈ u.safety.staging, e.source = 512 + tile ∧ e.code = fReinOverrun ∧
        e.data = toLe 1 tile ++ toLe 1 ctx ++ toLe 2 i.task.taskId) := by
  obtain ⟨rfl, rfl⟩ := instOf_place hi
  refine ⟨_, ?_, overrun_leaves hi⟩
  change execReinExpiry i.tile i.ctx s = _
  rw [execReinExpiry, hi]
  dsimp only
  rw [hf, if_neg (by decide), if_neg (by decide), Nat.add_zero, decide_eq_true hb, decide_eq_true hp]
  exact onlyIf_true hr

/-- Settles O54: a pair's first and second record, then Rein's three cases. -/
theorem signaturesAndReinComplete : Obligations.SignaturesAndReinComplete := by
  unfold Obligations.SignaturesAndReinComplete
  intro s hr
  refine ⟨fun cluster k r hk hget => ?_, fun tile ctx i hi hf hb hp => ?_, fun tile ctx i hi hf hb hp => ?_,
    fun tile ctx hn hl ht hc => ?_⟩
  · have hexec := execSignatureRecord_takes hr hk hget
    intro v found
    have hto : ∀ {t}, takeSignature v r = t → exec (.signatureRecord cluster) s = .next t := fun h => h ▸ hexec
    clear hexec
    have hst : v.safety.stitch = s.safety.stitch := rfl
    have hfd : v.safety.stitch.find? (fun e => decide (e.seq = r.seq ∧ e.taskId = r.taskId ∧ e.batch = r.batch)) = found := rfl
    clear_value v found
    refine ⟨fun hfound => hto (takeSignature_unknown (hfd.trans hfound)), fun e hfound he => ?_, fun e f hfound he => ?_⟩
    · rw [← hst]
      exact hto (takeSignature_first (hfd.trans hfound) he)
    · rw [← hst]
      have hsec := takeSignature_second (hfd.trans hfound) he
      refine ⟨fun h1 h2 h3 h4 => hto (hsec.trans (resolveEntry_pass ?_)), fun h => hto (hsec.trans (resolveEntry_dropped ?_)),
        fun h1 h2 h => ⟨_, hto (hsec.trans (resolveEntry_mismatch ?_)), rfl⟩,
        fun h => ⟨_, hto (hsec.trans (resolveEntry_incomplete (stitchOutcome_bad h))), rfl⟩⟩
      · rw [stitchOutcome_good ⟨.inl h1, .inl h2⟩, if_neg (by omega), if_pos ⟨h3, h4⟩]
      · rw [stitchOutcome_good (by omega), if_pos (by omega)]
      · rw [stitchOutcome_good ⟨.inl h1, .inl h2⟩, if_neg (by omega), if_neg (fun e => h.elim (absurd e.1) (absurd e.2))]
  · exact execReinExpiry_overruns hr hi hf hb hp
  · change execReinExpiry tile ctx s = _
    rw [execReinExpiry, hi]
    dsimp only
    rw [hf, if_pos rfl, if_pos rfl, decide_eq_true hb, decide_eq_true hp]
    exact onlyIf_true hr
  · change execReinExpiry tile ctx s = _
    rw [execReinExpiry, hn]
    dsimp only
    rw [hl, decide_eq_true ⟨ht, hc⟩]
    exact onlyIf_true hr

end Sys2Proof.Machine
end

section
/-! PROOFS. Linked packages: collective frames, time-outs and link changes (R453 to R460). -/

namespace Sys2Proof.Machine

/-! ### A link's bit -/

theorem bitOf_add_clear {n p : Nat} (hp : p < 2) (h : bitOf n p = false) (k : Nat) :
    bitOf (n + 2 ^ p) k = (decide (k = p) || bitOf n k) := by
  unfold bitOf at *
  rw [Nat.testBit_eq_decide_div_mod_eq] at h ⊢
  rw [Nat.testBit_eq_decide_div_mod_eq]
  have hb := of_decide_eq_false h
  rcases Nat.lt_trichotomy k p with hk | hk | hk
  · obtain ⟨rfl, rfl⟩ : p = 1 ∧ k = 0 := by omega
    rw [decide_eq_false (show ¬(0 : Nat) = 1 by decide), Bool.false_or]
    exact decide_eq_decide.2 (by omega)
  · subst hk
    rw [decide_eq_true (rfl : k = k), Bool.true_or, decide_eq_true_eq]
    rcases (show k = 0 ∨ k = 1 by omega) with rfl | rfl <;> omega
  · have hdiv : (n + 2 ^ p) / 2 ^ (p + 1) = n / 2 ^ (p + 1) := by
      rcases (show p = 0 ∨ p = 1 by omega) with rfl | rfl <;> omega
    have hsplit : ∀ m, m / 2 ^ k = m / 2 ^ (p + 1) / 2 ^ (k - (p + 1)) := fun m => by
      rw [Nat.div_div_eq_div_mul, ← Nat.pow_add, Nat.add_sub_cancel' hk]
    rw [decide_eq_false (by omega : ¬k = p), Bool.false_or, hsplit, hdiv, ← hsplit]

/-- The bits after a link's turn: its own as the turn says, the others as before. -/
theorem bitOf_turned {n p : Nat} (hp : p < 2) (up : Bool) (k : Nat) :
    bitOf (if up = bitOf n p then n else if up then n + 2 ^ p else n - 2 ^ p) k = if k = p then up else bitOf n k := by
  by_cases hsame : up = bitOf n p
  · rw [if_pos hsame]
    split
    · next h => rw [h, ← hsame]
    · rfl
  rw [if_neg hsame]
  cases up with
  | true =>
    have hclear : bitOf n p = false := by
      cases h : bitOf n p with
      | false => rfl
      | true => exact absurd h.symm hsame
    rw [if_pos rfl, bitOf_add_clear hp hclear]
    split
    · next h => rw [decide_eq_true h, Bool.true_or]
    · next h => rw [decide_eq_false h, Bool.false_or]
  | false =>
    have hset : bitOf n p = true := by
      cases h : bitOf n p with
      | true => rfl
      | false => exact absurd h.symm hsame
    have hle : 2 ^ p ≤ n := Nat.ge_two_pow_of_testBit hset
    obtain ⟨x, rfl⟩ : ∃ x, n = x + 2 ^ p := ⟨n - 2 ^ p, (Nat.sub_add_cancel hle).symm⟩
    have hx : bitOf x p = false := by
      rw [bitOf, Nat.add_comm, Nat.testBit_two_pow_add_eq] at hset
      exact Bool.not_eq_true' _ ▸ hset
    rw [if_neg (by decide), Nat.add_sub_cancel]
    split
    · next h => rw [h, hx]
    · next h => rw [bitOf_add_clear hp hx, decide_eq_false h, Bool.false_or]

/-! ### Frames and completion (R455, R458) -/

section Frames
variable {s : State} {port : Nat} {f : Bytes}

theorem takeFrame_bad (h : collFrameOk s f = false) : takeFrame s port f = .ok (bumpReg s (offLkCnt port 2)) := by
  rw [takeFrame, h]
  rfl

theorem takeFrame_stale (h : collFrameOk s f = true) (hc : fieldBe f 18 4 ≠ s.cyc.seq.toNat) :
    takeFrame s port f = .ok (bumpReg (bumpReg s (offLkCnt port 1)) offLkStale) := by
  rw [takeFrame, h, if_neg (by decide)]
  dsimp only
  rw [if_pos hc]

theorem takeFrame_good (h : collFrameOk s f = true) (hc : fieldBe f 18 4 = s.cyc.seq.toNat) :
    takeFrame s port f = (if forMe s f then deliverFrame (bumpReg s (offLkCnt port 1)) f else .ok (bumpReg s (offLkCnt port 1))).map
      fun t => forwardFrame t port f := by
  rw [takeFrame, h, if_neg (by decide)]
  dsimp only
  rw [if_neg (not_not.2 hc)]

theorem deliverFrame_early (h : collOf s (fieldBe f 16 2) = none) :
    deliverFrame s f = .ok { s with links := { s.links with early := s.links.early ++ [f] } } := by
  rw [deliverFrame, h]

theorem deliverFrame_fits {c : Coll} (h : collOf s (fieldBe f 16 2) = some c) (hk : fieldBe f 15 1 = c.kind)
    (hp : partFits c f = true) :
    deliverFrame s f = .ok (keepPart s c (fieldBe f 22 1) (fieldBe f 34 4) (fieldBe f 38 4) (fhPayload f)) := by
  rw [deliverFrame, h]
  dsimp only
  rw [if_neg (not_not.2 hk), hp, if_neg (by decide)]

end Frames

/-- Filling the missing rows writes memory alone (R458). -/
theorem fillMissing_unringed (s : State) (c : Coll) : unringed (fillMissing s c) = unringed s := by
  have hrow : ∀ (g : Nat → Nat) (bs : Bytes) (t : State) (p : Nat), unringed (devWrite t (g p) bs) = unringed t :=
    fun _ _ _ _ => devWrite_unringed ..
  unfold fillMissing
  dsimp only
  split
  · exact foldl_frame unringed _ (fun _ _ => hrow (rowOf c) _ _ _) _ s
  · split
    · exact foldl_frame unringed _ (fun _ _ => hrow (rowOf c) _ _ _) _ s
    · rfl

theorem collOf_setColl {s : State} {id : Nat} {c : Coll} (h : collOf s id = some c) (f : Coll) (hf : f.collId = id) :
    collOf (setColl s f) id = some f := by
  have hgo : ∀ l : List Coll, l.find? (fun x => decide (x.collId = id)) = some c →
      (l.map fun x => if x.collId = f.collId then f else x).find? (fun x => decide (x.collId = id)) = some f := fun l => by
    induction l with
    | nil => exact fun h => absurd h (by rw [List.find?_nil]; exact nofun)
    | cons x l ih =>
      intro hl
      rw [List.map_cons]
      by_cases hx : x.collId = id
      · rw [if_pos (hx.trans hf.symm)]
        exact List.find?_cons_of_pos (decide_eq_true hf)
      · rw [if_neg (fun e => hx (e.trans hf))]
        rw [List.find?_cons_of_neg (by rw [decide_eq_true_eq]; exact hx)] at hl ⊢
        exact ih hl
  exact hgo _ h

theorem completionLine_length (s : State) (c : Coll) (status epoch : Nat) : (completionLine s c status epoch).length = 64 := by
  simp [completionLine, zeros]

/-- A collective that ends: its line stands, and its counter's token is given (R458). -/
theorem completeColl_leaves {s : State} {id : Nat} {c : Coll} (h : collOf s id = some c) : let u := completeColl s c 1 0
    collOf u id = some { c with ended := true } ∧ (Inv s → devRead u c.dst 64 = completionLine s c 1 0) ∧
      u.disp.tokens = (addToken s c.sigTarget c.sigCounter 1).disp.tokens := by
  have hid : c.collId = id := of_decide_eq_true (List.find?_some (p := fun x : Coll => decide (x.collId = id)) h)
  have hu := fillMissing_unringed s c
  have hst : (if s.cyc.dev = .replay then 1 else 1) = 1 := ite_self _
  dsimp only
  rw [completeColl, hst]
  generalize hl : completionLine s c 1 0 = line
  have hlen : line.length = 64 := by
    rw [← hl]
    exact completionLine_length ..
  refine ⟨?_, fun hi => ?_, ?_⟩
  · refine collOf_setColl (s := devWrite (fillMissing s c) c.dst line) (c := c) ?_ { c with ended := true } hid
    rw [collOf, show (devWrite (fillMissing s c) c.dst line).links = s.links from (congrArg State.links hu :)]
    exact h
  · rw [← hlen]
    exact devRead_devWrite (fillMissing_inv s c hi).mem c.dst line
  · have hdisp : (fillMissing s c).disp = s.disp := (congrArg State.disp hu :)
    have htok : ∀ v : State, v.disp = s.disp → (addToken v c.sigTarget c.sigCounter 1).disp.tokens =
        (addToken s c.sigTarget c.sigCounter 1).disp.tokens := fun v hv => by
      unfold addToken tokenOf
      rw [hv]
    exact htok _ hdisp

/-- Settles O56: a frame's checks in order, the time-out, the link's turns. -/
theorem collectivesComplete : Obligations.CollectivesComplete := by
  unfold Obligations.CollectivesComplete
  intro s hr
  refine ⟨fun port f hp hup => ?_, fun id c hc he hs ht => ?_, fun port turn hp => ?_⟩
  · have hexec : exec (.collFrameRx port f) s = ofAttempt (takeFrame s port f) := by
      change execCollFrameRx port f s = _
      rw [execCollFrameRx, hr, hup, decide_eq_true hp, if_neg (by decide)]
    refine ⟨fun h => hexec.trans (by rw [takeFrame_bad h]; rfl), fun h => ⟨fun hc => hexec.trans (by rw [takeFrame_stale h hc]; rfl),
      fun hc => ?_⟩⟩
    rw [takeFrame_good h hc] at hexec
    refine ⟨fun hm => ?_, fun hm hn => ?_, fun c hm hn hk hpf => ?_⟩
    · rw [hm, if_neg (by decide)] at hexec
      exact hexec
    · rw [hm, if_pos rfl, deliverFrame_early (s := bumpReg s (offLkCnt port 1)) hn] at hexec
      exact hexec
    · rw [hm, if_pos rfl, deliverFrame_fits (s := bumpReg s (offLkCnt port 1)) hn hk hpf] at hexec
      exact hexec
  · refine ⟨_, ?_, rfl, completeColl_leaves hc⟩
    change execCollTimeout id s = _
    rw [execCollTimeout, hc]
    dsimp only
    rw [he, hs, decide_eq_true ht]
    exact onlyIf_true hr
  · have hexec : exec (.lkLinkChange port turn) s = .next { (if turn = .cut ∧ bitOf s.links.up port = true
        then bumpReg s (offLkCnt port 2) else s) with links := { s.links with
          up := if decide (turn = .up) = bitOf s.links.up port then s.links.up
            else if decide (turn = .up) then s.links.up + 2 ^ port else s.links.up - 2 ^ port } } := by
      change execLkLinkChange port turn s = _
      rw [execLkLinkChange, decide_eq_true hp]
      exact onlyIf_true hr
    refine ⟨_, hexec, ?_, fun k hk => ?_, ?_⟩
    · refine Iff.trans (b := decide (turn = .up) = true) ?_ decide_eq_true_iff
      exact (congrArg (· = true) ((bitOf_turned hp (decide (turn = .up)) port).trans (if_pos rfl))).to_iff
    · exact (bitOf_turned hp (decide (turn = .up)) k).trans (if_neg hk)
    · split <;> rfl

end Sys2Proof.Machine
end

section
/-! PROOFS. The world engine: batches taken, applied or rejected, epochs published, slots repaired (R137 to R150). -/

namespace Sys2Proof.Machine

/-! ### What reporting and collectives leave of the world -/

theorem completeColl_world (s : State) (c : Coll) (status epoch : Nat) : (completeColl s c status epoch).world = s.world := by
  have h : (fillMissing s c).world = s.world := (congrArg State.world (fillMissing_unringed s c) :)
  have hset : ∀ v bs, (addToken (setColl (devWrite v c.dst bs) { c with ended := true }) c.sigTarget c.sigCounter 1).world =
      v.world := fun _ _ => rfl
  rw [completeColl]
  exact (hset _ _).trans h

theorem collSettled_world (s : State) (b : Batch) (status epoch : Nat) : (collSettled s b status epoch).world = s.world := by
  unfold collSettled
  split
  · rfl
  · split
    · split
      · rfl
      · exact completeColl_world ..
    · rfl

/-- The fault WORLD_FULL, and the safe state its eighth cycle brings, leave the world as it is (R323). -/
theorem raiseWorldFull_world (s : State) : (raiseOpenFault s fsWorld fWorldFull).world = s.world := by
  have hfull : ∀ t, (worldFullRaised t).world = t.world := fun t => by
    unfold worldFullRaised
    dsimp only
    split
    · exact (congrArg State.world (enterSafe_unentered { t with safety := { t.safety with worldFullNow := true } } 4096) :)
    · rfl
  obtain ⟨l, g, f, h⟩ := stageFault_only s fsWorld fWorldFull (Config.eventData (0x10000 + fWorldFull) s.disp.freeCtr)
  have hraise : raiseFault s fsWorld fWorldFull (Config.eventData (0x10000 + fWorldFull) s.disp.freeCtr) =
      worldFullRaised { s with safety := { s.safety with staging := l, folds := g, foldCount := f } } := by
    rw [raiseFault, h]
    rfl
  have htick : ∀ t, (tickFree t).world = t.world := fun _ => rfl
  rw [raiseOpenFault, htick, hraise, hfull]

/-! ### Application (R140, R144, R150) -/

/-- A rejected batch leaves staging, and nothing else of the world moves but the reason kept (R140, R141). -/
theorem rejectBatch_world (s : State) (b : Batch) (status : Nat) : (rejectBatch s b status).world =
    { s.world with staged := s.world.staged.erase b, lastReject := if status = stBadDelta then 1 else 2 } := by
  rw [rejectBatch]
  dsimp only
  rw [collSettled_world]
  generalize hs2 : ({ bumpReg (unstage s b) offRejected with world := { (bumpReg (unstage s b) offRejected).world with
    lastReject := if status = stBadDelta then 1 else 2 } } : State) = s2
  have hw : s2.world = { s.world with staged := s.world.staged.erase b, lastReject := if status = stBadDelta then 1 else 2 } := by
    rw [← hs2]
    rfl
  generalize hs3 : (if status = stWorldFull then raiseOpenFault s2 fsWorld fWorldFull else s2) = s3
  have hw3 : s3.world = s2.world := by
    rw [← hs3]
    split
    · exact raiseWorldFull_world s2
    · rfl
  rw [← hw, ← hw3]
  have hsend := sendEvent_world s3 0x0003 (toLe 2 (batchSource b.bytes) ++ zeros 2 ++ toLe 4 (batchSeqNo b.bytes))
  generalize sendEvent s3 0x0003 (toLe 2 (batchSource b.bytes) ++ zeros 2 ++ toLe 4 (batchSeqNo b.bytes)) = s4 at hsend ⊢
  rw [← hsend]
  cases b.msg with
  | none => rfl
  | some m => exact unreported_world (replyInfo_unreported s4 m status 0 (toLe 4 s4.world.newest) (by rw [toLe_length]; decide))

theorem writeSlots_world (s : State) (f : FreeMap) (l : List (Nat × Nat)) : let w := (writeSlots s f l).world
    w.newest = s.world.newest ∧ w.table = s.world.table ∧ w.staged = s.world.staged ∧ w.nextSlot = f.next ∧ w.freed = f.freed := by
  have h := foldl_frame State.world (fun t (p : Nat × Nat) => devWrite t (bankBase + 8 * p.1) (toLe 8 p.2)) (fun _ _ => rfl) l s
  exact ⟨(congrArg World.newest h :), (congrArg World.table h :), (congrArg World.staged h :), rfl, rfl⟩

theorem buildBatch_full {s : State} {b : Batch} (h : storeTree s (applyBatchTo (loadTree s (newestEpoch s)) b.bytes) = none) :
    buildBatch s b = rejectBatch s b stWorldFull := by
  rw [buildBatch]
  dsimp only
  rw [h]

theorem buildBatch_stores {s : State} {b : Batch} {n : WNode} {root : Nat} {f : FreeMap} {l : List (Nat × Nat)}
    (h : storeTree s (applyBatchTo (loadTree s (newestEpoch s)) b.bytes) = some (n, root, f, l)) : let u := buildBatch s b
    u.world.newest = s.world.newest ∧ u.world.table = s.world.table ∧ u.world.staged = s.world.staged.erase b ∧
      ∃ x, u.world.built = some x ∧ x.batch = b ∧ x.epoch.root = root ∧ x.slots = l.map (·.1) ∧
        x.source = batchSource b.bytes ∧ u.world.nextSlot = f.next ∧ u.world.freed = f.freed := by
  obtain ⟨hnew, htab, hst, hnext, hfreed⟩ := writeSlots_world (unstage s b) f l
  dsimp only
  rw [buildBatch]
  dsimp only
  rw [h]
  exact ⟨hnew, htab, hst, _, rfl, rfl, rfl, rfl, rfl, hnext, hfreed⟩

theorem execBatchApply_due {s : State} {b : Batch} (hr : s.boot.inReset = false) (hb : applyNext s = some b)
    (hn : s.world.built = none) :
    exec .batchApply s = .next (if batchOk b.bytes then buildBatch s b else rejectBatch s b stBadDelta) := by
  change execBatchApply s = _
  rw [execBatchApply, hb]
  dsimp only
  rw [hn]
  exact onlyIf_true hr

/-- Whatever becomes of the batch, the newest epoch and the table stay, and the batch leaves staging. -/
theorem batch_applied {s : State} {b : Batch} (hn : s.world.built = none) :
    let u := if batchOk b.bytes then buildBatch s b else rejectBatch s b stBadDelta
    u.world.newest = s.world.newest ∧ u.world.table = s.world.table ∧ u.world.staged = s.world.staged.erase b ∧
      (batchOk b.bytes = false → u = rejectBatch s b stBadDelta ∧ u.world.built = none ∧ u.world.nextSlot = s.world.nextSlot) ∧
      (batchOk b.bytes = true → storeTree s (applyBatchTo (loadTree s (newestEpoch s)) b.bytes) = none →
        u = rejectBatch s b stWorldFull ∧ u.world.built = none) ∧
      (∀ n root f l, batchOk b.bytes = true →
        storeTree s (applyBatchTo (loadTree s (newestEpoch s)) b.bytes) = some (n, root, f, l) →
        ∃ x, u.world.built = some x ∧ x.batch = b ∧ x.epoch.root = root ∧ x.slots = l.map (·.1) ∧
          x.source = batchSource b.bytes ∧ u.world.nextSlot = f.next ∧ u.world.freed = f.freed) := by
  have hrej : ∀ status, (rejectBatch s b status).world.built = none := fun status => by
    rw [rejectBatch_world]
    exact hn
  have hkeep : ∀ status, (rejectBatch s b status).world.newest = s.world.newest ∧
      (rejectBatch s b status).world.table = s.world.table ∧
      (rejectBatch s b status).world.staged = s.world.staged.erase b := fun status => by
    rw [rejectBatch_world]
    exact ⟨rfl, rfl, rfl⟩
  dsimp only
  cases hok : batchOk b.bytes with
  | false =>
    rw [if_neg (by decide)]
    obtain ⟨h1, h2, h3⟩ := hkeep stBadDelta
    refine ⟨h1, h2, h3, fun _ => ⟨rfl, hrej _, ?_⟩, fun h => absurd h (by decide), fun _ _ _ _ h => absurd h (by decide)⟩
    rw [rejectBatch_world]
  | true =>
    rw [if_pos rfl]
    cases hst : storeTree s (applyBatchTo (loadTree s (newestEpoch s)) b.bytes) with
    | none =>
      rw [buildBatch_full hst]
      obtain ⟨h1, h2, h3⟩ := hkeep stWorldFull
      exact ⟨h1, h2, h3, fun h => absurd h (by decide), fun _ _ => ⟨rfl, hrej _⟩, fun _ _ _ _ _ h => absurd h (by simp)⟩
    | some p =>
      obtain ⟨n, root, f, l⟩ := p
      obtain ⟨h1, h2, h3, h4⟩ := buildBatch_stores hst
      refine ⟨h1, h2, h3, fun h => absurd h (by decide), fun _ h => absurd h (by simp), fun n' root' f' l' _ h => ?_⟩
      cases h
      exact h4

/-! ### Publishing (R143, R148) -/

/-- The newest epoch stays in the table as the dead ones leave it (R148). -/
theorem find_reapTable {n i : Nat} {e : Epoch} (l : List (Nat × Epoch)) (first : Bool) (carry : List Nat)
    (h : l.find? (fun p => decide (p.2.num = n)) = some (i, e)) :
    ∃ sup, (reapTable n first carry l).1.find? (fun p => decide (p.2.num = n)) = some (i, { e with superseded := sup }) := by
  induction l generalizing first carry with
  | nil => exact nomatch h
  | cons p t ih =>
    obtain ⟨j, d⟩ := p
    rw [reapTable]
    dsimp only
    by_cases hd : d.num = n
    · rw [List.find?_cons_of_pos (p := fun p : Nat × Epoch => decide (p.2.num = n)) (decide_eq_true hd)] at h
      cases h
      rw [if_pos (.inl hd)]
      split
      · exact ⟨_, List.find?_cons_of_pos (decide_eq_true hd)⟩
      · exact ⟨_, List.find?_cons_of_pos (decide_eq_true hd)⟩
    · have hskip : ∀ (x : Epoch) (l : List (Nat × Epoch)), x.num = d.num →
          ((j, x) :: l).find? (fun p => decide (p.2.num = n)) = l.find? (fun p => decide (p.2.num = n)) := fun x l hx =>
        List.find?_cons_of_neg (p := fun p : Nat × Epoch => decide (p.2.num = n)) (a := (j, x)) (by simpa [hx] using hd)
      rw [hskip d t rfl] at h
      split
      · split
        · obtain ⟨sup, hs⟩ := ih false [] h
          refine ⟨sup, Eq.trans ?_ hs⟩
          exact hskip _ _ (rfl : ({ d with superseded := _ } : Epoch).num = d.num)
        · obtain ⟨sup, hs⟩ := ih false [] h
          refine ⟨sup, Eq.trans ?_ hs⟩
          exact hskip _ _ (rfl : ({ d with superseded := _ } : Epoch).num = d.num)
      · exact ih first _ h

theorem epochOf_reapEpochs {s : State} {i : Nat} {e : Epoch}
    (h : s.world.table.find? (fun p => decide (p.2.num = s.world.newest)) = some (i, e)) :
    ∃ sup, epochOf (reapEpochs s) s.world.newest = some { e with superseded := sup } := by
  obtain ⟨sup, hsup⟩ := find_reapTable s.world.table true [] h
  exact ⟨sup, (congrArg (Option.map (·.2)) hsup :)⟩

theorem publishAs_publishes (s : State) (i num : Nat) (chain : Bytes) (x : Built) : let u := publishAs s i num chain x
    u.world.newest = num ∧ u.world.built = none ∧ u.world.chains.find? (·.1 = num) = some (num, chain) ∧
      (s.world.table.any (fun p => decide (p.2.num = num)) = false →
        ∃ e, epochOf u num = some e ∧ e.root = x.epoch.root ∧ e.chain = chain ∧ e.origin = x.epoch.origin) := by
  refine ⟨rfl, rfl, List.find?_cons_of_pos (decide_eq_true rfl), fun hno => ?_⟩
  have hnone : s.world.table.find? (fun p => decide (p.2.num = num)) = none := by
    rw [List.find?_eq_none]
    intro p hp
    rw [List.any_eq_false] at hno
    exact hno p hp
  have hfind : (s.world.table ++ [(i, { x.epoch with num := num, chain := chain })]).find? (fun p => decide (p.2.num = num)) =
      some (i, { x.epoch with num := num, chain := chain }) := by
    rw [List.find?_append, hnone, Option.none_or]
    exact List.find?_cons_of_pos (decide_eq_true rfl)
  obtain ⟨sup, hsup⟩ := epochOf_reapEpochs (s := { s with world := { s.world with
    newest := num, built := none, table := s.world.table ++ [(i, { x.epoch with num := num, chain := chain })],
    chains := (num, chain) :: s.world.chains.filter (·.1 ≠ num) } }) hfind
  exact ⟨_, hsup, rfl, rfl, rfl⟩

theorem publishFact_world (s : State) (source num : Nat) : (publishFact s source num).world = s.world := by
  unfold publishFact
  split <;> rfl

/-- The world after a publish is the published one's: the record, the trace and the replies leave it. -/
theorem publishNow_world (s : State) (i : Nat) (x : Built) : let num := nextEpochNum s.world.newest
    (publishNow s i x).world =
      (publishAs (bumpReg s offPublished) i num (sha384 (newestChain s ++ x.batch.digest ++ toLe 4 num)) x).world := by
  dsimp only
  rw [publishNow]
  rw [collSettled_world]
  generalize sha384 (newestChain s ++ x.batch.digest ++ toLe 4 (nextEpochNum s.world.newest)) = chain
  generalize publishAs (bumpReg s offPublished) i (nextEpochNum s.world.newest) chain x = v
  have hfact := publishFact_world v x.source (nextEpochNum s.world.newest)
  generalize publishFact v x.source (nextEpochNum s.world.newest) = v1 at hfact ⊢
  have htrace : (ceaseCause (traceRec v1 8 0 0 (nextEpochNum s.world.newest) x.slots.length) 12).world = v1.world :=
    (show (traceRec v1 8 0 0 (nextEpochNum s.world.newest) x.slots.length).world = v1.world from
      unreported_world (traceRec_unreported ..))
  generalize ceaseCause (traceRec v1 8 0 0 (nextEpochNum s.world.newest) x.slots.length) 12 = v2 at htrace ⊢
  rw [← hfact, ← htrace]
  cases x.batch.msg with
  | none => rfl
  | some m => exact unreported_world (replyData_unreported v2 m (toLe 4 (nextEpochNum s.world.newest)) (by rw [toLe_length]; decide))

/-! ### Taking a batch (R141, R142) -/

theorem execWorldBatchTake_takes {s : State} {b : Batch} (hr : s.boot.inReset = false) (hb : nextBatch s = some b)
    (hfit : stagedSize s + (stagedBytes s b).length ≤ 0x1000000 ∨ s.world.staged = []) :
    exec .worldBatchTake s = .next (takeBatchToStaging s b) := by
  have hc : (decide (stagedSize s + (stagedBytes s b).length ≤ 0x1000000) || s.world.staged.isEmpty) = true := by
    rw [Bool.or_eq_true, decide_eq_true_eq, List.isEmpty_iff]
    exact hfit
  change execWorldBatchTake s = _
  rw [execWorldBatchTake, hb]
  dsimp only
  rw [hc]
  exact onlyIf_true hr

theorem stagedBytes_host {s : State} {b : Batch} (h : b.host = true) : stagedBytes s b = b.bytes := by
  rw [stagedBytes, if_pos h]

theorem stagedBytes_task {s : State} {b : Batch} (h : b.host = false) : stagedBytes s b =
    if badRead s (fieldAt b.bytes 0 8) (fieldAt b.bytes 8 4) then [] else devRead s (fieldAt b.bytes 0 8) (fieldAt b.bytes 8 4) := by
  rw [stagedBytes, if_neg (by rw [h]; decide)]

theorem takeBatchToStaging_host {s : State} {b : Batch} (h : b.host = true) : takeBatchToStaging s b = { s with
    world := { s.world with
      staged := s.world.staged ++ [{ b with digest := sha384 b.bytes }], hostTurn := false, hostQ := s.world.hostQ.erase b } } := by
  have ht : (!b.host) = false := by rw [h]; rfl
  rw [takeBatchToStaging, stagedBytes_host h, readBatch, if_pos h, if_pos h, if_pos h, ht]

theorem takeBatchToStaging_task {s v : State} {b : Batch} {bs : Bytes} (h : b.host = false) (hb : stagedBytes s b = bs)
    (hv : readBatch s b = v) : takeBatchToStaging s b = { v with
    world := { v.world with
      staged := v.world.staged ++ [{ b with bytes := bs, digest := sha384 bs }], hostTurn := true,
      taskQ := v.world.taskQ.tail } } := by
  have hn : ¬b.host = true := by rw [h]; decide
  have ht : (!b.host) = true := by rw [h]; rfl
  rw [takeBatchToStaging, hb, hv, if_neg hn, if_neg hn, ht]

theorem readBatch_task {s : State} {b : Batch} (h : b.host = false) : readBatch s b =
    if badRead s (fieldAt b.bytes 0 8) (fieldAt b.bytes 8 4) then gddrUe s (firstBad s (fieldAt b.bytes 0 8) (fieldAt b.bytes 8 4))
    else correctRead s (fieldAt b.bytes 0 8) (fieldAt b.bytes 8 4) := by
  rw [readBatch, if_neg (by rw [h]; decide)]

/-- Settles O55: a batch is taken, applied and published; a slot is repaired. -/
theorem worldCommandsComplete : Obligations.WorldCommandsComplete := by
  unfold Obligations.WorldCommandsComplete
  intro s hr
  refine ⟨fun b hb hh hfit => ?_, fun b hb hh hg hfit => ?_, fun b hb hh hg hfit => ?_, fun b hb hn =>
    ⟨_, execBatchApply_due hr hb hn, batch_applied hn⟩, fun x i hx hi => ?_, fun n slot hin hout => ?_⟩
  · rw [execWorldBatchTake_takes hr hb (by rw [stagedBytes_host hh]; exact hfit), takeBatchToStaging_host hh]
  · have hbytes := stagedBytes_task (s := s) hh
    have hread := readBatch_task (s := s) hh
    rw [hg, if_neg (by decide)] at hbytes hread
    have hlen : (devRead s (fieldAt b.bytes 0 8) (fieldAt b.bytes 8 4)).length = fieldAt b.bytes 8 4 := memRead_length ..
    exact (execWorldBatchTake_takes hr hb (by rw [hbytes, hlen]; exact hfit)).trans
      (congrArg Host.Outcome.next (takeBatchToStaging_task hh hbytes hread))
  · have hbytes := stagedBytes_task (s := s) hh
    have hread := readBatch_task (s := s) hh
    rw [hg, if_pos rfl] at hbytes hread
    exact (execWorldBatchTake_takes hr hb (by rw [hbytes]; exact hfit)).trans
      (congrArg Host.Outcome.next (takeBatchToStaging_task hh hbytes hread))
  · have hexec : exec .epochPublish s = .next (publishNow s i x) := by
      change execEpochPublish s = _
      rw [execEpochPublish, hx, hi]
      exact onlyIf_true hr
    have hw := publishNow_world s i x
    obtain ⟨h1, h2, h3, h4⟩ := publishAs_publishes (bumpReg s offPublished) i (nextEpochNum s.world.newest)
      (sha384 (newestChain s ++ x.batch.digest ++ toLe 4 (nextEpochNum s.world.newest))) x
    refine ⟨_, hexec, ?_⟩
    dsimp only at hw
    unfold epochOf at h4 ⊢
    rw [hw]
    exact ⟨h1, h2, h3, h4⟩
  · change execWorldBankRepair n slot s = _
    rw [execWorldBankRepair, decide_eq_true hin, decide_eq_false hout]
    exact onlyIf_true hr

end Sys2Proof.Machine
end

section
/-! PROOFS. The rotating self-test (R308 to R316): slices, wrong responses, late classes and starved units. -/

namespace Sys2Proof.Machine

/-! ### The marks (R314) -/

theorem cycleMark_setMark_self (c u n : Nat) (l : List (Nat × Nat × Nat)) : cycleMark (setMark c u n l) c u = some n := by
  have h : (setMark c u n l).find? (fun e => decide (e.1 = c ∧ e.2.1 = u)) = some (c, u, n) :=
    List.find?_cons_of_pos (decide_eq_true ⟨rfl, rfl⟩)
  rw [cycleMark, h]
  rfl

/-- A mark of one class is no mark of another. -/
theorem cycleMark_setMark_other {c d : Nat} (h : d ≠ c) (u n x : Nat) (l : List (Nat × Nat × Nat)) :
    cycleMark (setMark c u n l) d x = cycleMark l d x := by
  have hskip : ∀ e : Nat × Nat × Nat, decide (e.1 = d ∧ e.2.1 = x) = true → (!decide (e.1 = c ∧ e.2.1 = u)) = true := fun e he => by
    rw [Bool.not_eq_true', decide_eq_false_iff_not]
    exact fun hc => h ((of_decide_eq_true he).1.symm.trans hc.1)
  rw [cycleMark, cycleMark, setMark, List.find?_cons_of_neg (by simpa using fun e => absurd e.symm h), List.find?_filter]
  congr 2
  funext e
  cases he : decide (e.1 = d ∧ e.2.1 = x) with
  | false => exact decide_eq_false fun h => absurd h.2 (by decide)
  | true => exact decide_eq_true ⟨hskip e he, rfl⟩

/-! ### A slice's end (R313, R324) -/

/-- What the self-test keeps of the safety state, the bookkeeping of units aside. -/
def slicesOf (s : State) : Option (Nat × Nat × Nat) × (Nat × Nat) × List (Nat × Nat) × (Nat × Nat × Nat) :=
  (s.safety.selfRun, s.safety.selfNext, s.safety.selfBad, s.safety.stFail)

theorem enterSafe_slices (s : State) (mask : Nat) : slicesOf (enterSafe s mask) = slicesOf s := by
  cases h : s.safety.safe with
  | true => rw [enterSafe_of_latched h]; rfl
  | false =>
    have hun : unreported (sendOpenEvent (latchSafe s mask) 0x000C) = unreported (latchSafe s mask) := sendOpenEvent_unreported ..
    have hview : ∀ t v : State, unreported t = unreported v → slicesOf t = slicesOf v := fun _ _ h => (congrArg slicesOf h :)
    rw [enterSafe_of_clear h, slicesOf, entryRecord_safety]
    exact (hview _ _ hun).trans rfl

/-- A wrong response: noted, a cause, and the safe state (R313, R324). -/
theorem sliceFails_leaves (s : State) (c x : Nat) : let u := sliceFails s c x
    slicesOf u = (s.safety.selfRun, s.safety.selfNext, addOnce s.safety.selfBad (c, x), (c, x, min 65535 (s.safety.stFail.2.2 + 1))) ∧
      u.safety.safe = true ∧ u.safety.cause = s.safety.cause ||| 32 := by
  obtain ⟨l, g, f, h⟩ := stageFault_only (noteFail s c x) fsSelftest fSelftestFail (failData c x)
  have hfail : sliceFails s c x = enterSafe { noteFail s c x with
      safety := { (noteFail s c x).safety with staging := l, folds := g, foldCount := f } } 32 := by
    rw [sliceFails, raiseFault, h]
    rfl
  dsimp only
  rw [hfail, enterSafe_slices, enterSafe_safe, enterSafe_cause]
  exact ⟨rfl, rfl, rfl⟩

theorem mem_addOnce_of_mem {α : Type} [DecidableEq α] {l : List α} {a b : α} (h : a ∈ l) : a ∈ addOnce l b := by
  unfold addOnce
  split
  · exact h
  · exact List.mem_cons_of_mem _ h

/-- Wrong responses one after the other. -/
theorem foldl_sliceFails (c : Nat) (bad : List Nat) (s : State) : let u := bad.foldl (fun t x => sliceFails t c x) s
    u.safety.selfRun = s.safety.selfRun ∧ u.safety.selfNext = s.safety.selfNext ∧
      (∀ e ∈ s.safety.selfBad, e ∈ u.safety.selfBad) ∧
      (bad ≠ [] → u.safety.safe = true ∧ u.safety.cause = s.safety.cause ||| 32 ∧
        ∃ x ∈ bad, u.safety.stFail = (c, x, min 65535 (s.safety.stFail.2.2 + bad.length))) := by
  induction bad generalizing s with
  | nil => exact ⟨rfl, rfl, fun _ h => h, fun h => absurd rfl h⟩
  | cons x l ih =>
    obtain ⟨hview, hsafe, hcause⟩ := sliceFails_leaves s c x
    obtain ⟨hrun, hnext, hbad, hrest⟩ := ih (sliceFails s c x)
    have hb : (sliceFails s c x).safety.selfBad = addOnce s.safety.selfBad (c, x) := (congrArg (·.2.2.1) hview :)
    have hf : (sliceFails s c x).safety.stFail = (c, x, min 65535 (s.safety.stFail.2.2 + 1)) := (congrArg (·.2.2.2) hview :)
    dsimp only at hrun hnext hbad hrest ⊢
    rw [List.foldl_cons]
    refine ⟨hrun.trans (congrArg (·.1) hview :), hnext.trans (congrArg (·.2.1) hview :),
      fun e he => hbad e (hb ▸ mem_addOnce_of_mem he), fun _ => ?_⟩
    by_cases hl : l = []
    · subst hl
      exact ⟨hsafe, hcause, x, List.mem_cons_self .., hf⟩
    · obtain ⟨h1, h2, y, hy, h3⟩ := hrest hl
      refine ⟨h1, ?_, y, List.mem_cons_of_mem _ hy, ?_⟩
      · rw [h2, hcause, BitVec.or_assoc, BitVec.or_self]
      · rw [h3, hf, List.length_cons]
        congr 2
        dsimp only
        omega

theorem bitOf_ceased (p : Half) {k : Nat} (h : k < 16) : bitOf (p &&& ~~~(BitVec.ofNat 16 (2 ^ k))).toNat k = false := by
  have hb : (BitVec.ofNat 16 (2 ^ k)).getLsbD k = true := by
    rw [BitVec.getLsbD_ofNat, Nat.testBit_two_pow_self, decide_eq_true h]
    rfl
  change (p &&& ~~~(BitVec.ofNat 16 (2 ^ k))).getLsbD k = false
  rw [BitVec.getLsbD_and, BitVec.getLsbD_not, hb, Bool.not_true, Bool.and_false, Bool.and_false]

theorem bitOf_still_ceased {p : Half} {k : Nat} (h : bitOf p.toNat k = false) (q : Half) : bitOf (p &&& q).toNat k = false := by
  change p.getLsbD k = false at h
  change (p &&& q).getLsbD k = false
  rw [BitVec.getLsbD_and, h, Bool.false_and]

/-- What the causes that cease leave (R324). -/
theorem sliceCeases_leaves (s : State) (c : Nat) (bad : List Nat) : ∃ p, (sliceCeases s c bad).safety = { s.safety with present := p } ∧
    (s.safety.selfBad = [] → bitOf p.toNat 5 = false) ∧ (c = 8 → bad = [] → (sliceCeases s c bad).outp.readbackBad = false) := by
  have h5 := bitOf_ceased s.safety.present (k := 5) (by decide)
  unfold sliceCeases
  dsimp only
  by_cases hb : s.safety.selfBad = []
  · rw [if_pos hb]
    split
    · exact ⟨_, rfl, fun _ => bitOf_still_ceased h5 _, fun _ _ => rfl⟩
    · next hc => exact ⟨_, rfl, fun _ => h5, fun h8 hn => absurd ⟨h8, hn⟩ hc⟩
  · rw [if_neg hb]
    split
    · exact ⟨_, rfl, fun h => absurd h hb, fun _ _ => rfl⟩
    · next hc => exact ⟨_, rfl, fun h => absurd h hb, fun h8 hn => absurd ⟨h8, hn⟩ hc⟩

theorem sliceEnds_leaves (s : State) (c k : Nat) (bad : List Nat) : let y := (sliceEnds s c k bad).safety
    y.selfRun = none ∧ y.selfNext = s.safety.selfNext ∧ y.selfBad = passUnits s c k bad ∧ y.stFail = s.safety.stFail ∧
      y.rotations = (if c = 11 then s.safety.rotations + 1 else s.safety.rotations) ∧ y.safe = s.safety.safe ∧
      y.cause = s.safety.cause ∧ y.staging = s.safety.staging := ⟨rfl, rfl, rfl, rfl, rfl, rfl, rfl, rfl⟩

theorem execSliceDone_fits {s : State} {c k t : Nat} {bad : List Nat} (hr : s.boot.inReset = false)
    (h : s.safety.selfRun = some (c, k, t)) (hf : failFits s c k bad = true) :
    exec (.sliceDone bad) s = .next (endSlice s c k bad) := by
  change execSliceDone bad s = _
  rw [execSliceDone, h]
  dsimp only
  rw [hf]
  exact onlyIf_true hr

/-- A slice that passes (R313, R324). -/
theorem endSlice_passes (s : State) (c k : Nat) : let u := endSlice s c k []
    u.safety.selfRun = none ∧ u.safety.selfNext = s.safety.selfNext ∧
      u.safety.rotations = (if c = 11 then s.safety.rotations + 1 else s.safety.rotations) ∧
      u.safety.safe = s.safety.safe ∧ u.safety.staging = s.safety.staging ∧
      (s.safety.selfBad = [] → u.safety.selfBad = [] ∧ bitOf u.safety.present.toNat 5 = false) ∧
      (∀ x, inSlice c k x = true → x ∉ busyUnits s c k → (c, x) ∉ u.safety.selfBad) ∧ (c = 8 → u.outp.readbackBad = false) := by
  obtain ⟨p, hy, h5, h8⟩ := sliceCeases_leaves (sliceEnds s c k []) c []
  obtain ⟨hrun, hnext, hbad, -, hrot, hsafe, -, hstage⟩ := sliceEnds_leaves s c k []
  have hb : (sliceCeases (sliceEnds s c k []) c []).safety.selfBad = passUnits s c k [] := by
    rw [hy]
    exact hbad
  have hnil : s.safety.selfBad = [] → passUnits s c k [] = [] := fun h => by
    rw [passUnits, h]
    rfl
  dsimp only
  rw [endSlice, List.foldl_nil, hb]
  rw [hy]
  refine ⟨hrun, hnext, hrot, hsafe, hstage, fun h => ⟨hnil h, h5 (hbad.trans (hnil h))⟩, fun x hx hnb hin => ?_, fun h => h8 h rfl⟩
  rw [passUnits, List.map_nil, List.nil_append, List.mem_filter] at hin
  have hf := hin.2
  dsimp only at hf
  rw [hx, Bool.and_true, decide_eq_true ⟨rfl, hnb⟩] at hf
  exact absurd hf (by decide)

/-- A slice with wrong responses (R313, R316, R324). -/
theorem endSlice_fails (s : State) (c k : Nat) {bad : List Nat} (hne : bad ≠ []) : let u := endSlice s c k bad
    u.safety.selfRun = none ∧ u.safety.selfNext = s.safety.selfNext ∧ (∀ x ∈ bad, (c, x) ∈ u.safety.selfBad) ∧
      u.safety.safe = true ∧ u.safety.cause = s.safety.cause ||| 32 ∧
      ∃ x ∈ bad, u.safety.stFail = (c, x, min 65535 (s.safety.stFail.2.2 + bad.length)) := by
  obtain ⟨p, hy, -, -⟩ := sliceCeases_leaves (sliceEnds s c k bad) c bad
  obtain ⟨hrun, hnext, hbad, hfail, -, -, hcause, -⟩ := sliceEnds_leaves s c k bad
  obtain ⟨h1, h2, h3, h4⟩ := foldl_sliceFails c bad (sliceCeases (sliceEnds s c k bad) c bad)
  obtain ⟨h5, h6, x, hx, h7⟩ := h4 hne
  rw [hy] at h1 h2 h3 h6 h7
  dsimp only at h1 h2 h3 h6 h7 hrun hnext hbad hfail hcause ⊢
  rw [endSlice]
  refine ⟨h1.trans hrun, h2.trans hnext, fun y hmem => h3 _ ?_, h5, h6.trans (by rw [hcause]), x, hx, h7.trans (by rw [hfail])⟩
  rw [hbad, passUnits]
  exact List.mem_append_left _ (List.mem_map_of_mem hmem)

/-! ### Late classes and starved units (R314) -/

theorem reportLate_leaves (s : State) (c : Nat) : let u := reportLate s c
    u.safety.selfLate = c :: s.safety.selfLate ∧ u.cyc = s.cyc ∧ u.safety.safe = s.safety.safe ∧
      u.safety.staging = s.safety.staging := by
  have hu : unreported (reportLate s c) = unreported { s with safety := { s.safety with selfLate := c :: s.safety.selfLate } } := by
    rw [reportLate, sendOpenEvent_unreported, logIsland_unreported]
  exact ⟨(congrArg (·.safety.selfLate) hu :), (unreported_cyc hu).trans rfl, (unreported_safe hu).trans rfl, (congrArg (·.safety.staging) hu :)⟩

/-- The safety state once a starvation is noted. -/
def starvedNoted (s : State) (c x : Nat) : Safety :=
  { s.safety with
    stFlags := s.safety.stFlags ||| 1024, stStarved := (c, x),
    selfCycles := setMark (16 + c) x (lastTested s.safety c x) s.safety.selfCycles }

theorem lastTested_starved (s : State) (c x : Nat) : lastTested (starvedNoted s c x) c x = lastTested s.safety c x := by
  have hc : c ≠ 16 + c := by omega
  unfold lastTested
  rw [show (starvedNoted s c x).selfCycles = setMark (16 + c) x (lastTested s.safety c x) s.safety.selfCycles from rfl,
    cycleMark_setMark_other hc, cycleMark_setMark_other hc]

theorem reportStarved_leaves (s : State) (c x : Nat) : let u := reportStarved s c x
    u.safety.stStarved = (c, x) ∧ u.safety.safe = s.safety.safe ∧
      (s.safety.staging.length < 32 → ∃ e ∈ u.safety.staging, e.source = fsSelftest ∧ e.code = fSelftestStarved ∧ e.stamp = s.ao ∧
        e.data = failData c x) ∧ unitStarved u c x = false := by
  have hraise : reportStarved s c x =
      stageFault { s with safety := starvedNoted s c x } fsSelftest fSelftestStarved (failData c x) := rfl
  obtain ⟨l, g, f, h⟩ := stageFault_only { s with safety := starvedNoted s c x } fsSelftest fSelftestStarved (failData c x)
  have hmark : cycleMark (reportStarved s c x).safety.selfCycles (16 + c) x = some (lastTested s.safety c x) := by
    rw [hraise, h]
    exact cycleMark_setMark_self ..
  have hlast : lastTested (reportStarved s c x).safety c x = lastTested s.safety c x := by
    rw [hraise, h]
    exact lastTested_starved s c x
  refine ⟨?_, ?_, fun hroom => ?_, ?_⟩
  · rw [hraise, h]
    rfl
  · rw [hraise, h]
    rfl
  · rw [hraise, stageFault]
    dsimp only
    rw [if_pos (show (starvedNoted s c x).staging.length < 32 from hroom)]
    exact ⟨_, mem_stageInsert _ _, rfl, rfl, rfl, rfl⟩
  · rw [unitStarved, hlast, hmark, Bool.and_eq_false_iff]
    exact .inr (decide_eq_false (not_not.2 rfl))

/-- Settles O58: the slice's start and end, then the late class and the starved unit. -/
theorem selfTestCommandsComplete : Obligations.SelfTestCommandsComplete := by
  unfold Obligations.SelfTestCommandsComplete
  intro s hr
  refine ⟨fun h => ?_, fun c k t h => ⟨?_, fun bad hne hf => ?_, fun bad hf => ?_⟩, fun c t h1 h11 hl hp ht => ?_, fun c x h => ?_⟩
  · refine ⟨startSlice s, ?_, rfl, rfl, rfl, rfl⟩
    change execSelftestSlice s = _
    rw [execSelftestSlice, h]
    exact onlyIf_true hr
  · have hfit : failFits s c k [] = true := rfl
    exact ⟨_, execSliceDone_fits hr h hfit, endSlice_passes s c k⟩
  · exact ⟨_, execSliceDone_fits hr h hf, endSlice_fails s c k hne⟩
  · change execSliceDone bad s = _
    rw [execSliceDone, h]
    dsimp only
    rw [hf]
    exact onlyIf_false
  · refine ⟨_, ?_, reportLate_leaves s c⟩
    change execSelftestLate c s = _
    rw [execSelftestLate, classLate, hp, decide_eq_true ⟨h1, h11, hl⟩]
    dsimp only
    rw [decide_eq_true ht]
    exact onlyIf_true hr
  · refine ⟨_, ?_, reportStarved_leaves s c x⟩
    change execSelftestStarved c x s = _
    rw [execSelftestStarved, h]
    exact onlyIf_true hr

end Sys2Proof.Machine
end

section
/-! PROOFS. Memory upkeep and spare tiles (R50, R361, R362, R365, R366). -/

namespace Sys2Proof.Machine

/-! ### Faults without a reaction -/

/-- A fault whose code has no reaction is staged, and nothing else moves (R23, R323). -/
theorem raiseOpenFault_quiet (s : State) (source : Nat) {code : Nat} (h : ∀ t, faultReact t code = t) :
    ∃ l g f c, raiseOpenFault s source code = { s with
      safety := { s.safety with staging := l, folds := g, foldCount := f }, disp := { s.disp with freeCtr := c } } := by
  obtain ⟨l, g, f, hs⟩ := stageFault_only s source code (Config.eventData (0x10000 + code) s.disp.freeCtr)
  refine ⟨l, g, f, s.disp.freeCtr + 1, ?_⟩
  rw [raiseOpenFault, raiseFault, h, hs]
  rfl

/-! ### Memory that is cleared -/

/-- What a map no longer holds reads as the default. -/
theorem mapGet_of_absent {β : Type} [DecidableEq β] (d : Nat → β) {m : List (Nat × β)} {k : Nat} (h : ∀ c ∈ m, c.1 ≠ k) :
    mapGet d m k = d k := by
  induction m with
  | nil => rfl
  | cons c t ih =>
    have hc : ¬k = c.1 := fun e => h c (List.mem_cons_self ..) e.symm
    rw [mapGet, if_neg hc, ih fun c hc => h c (List.mem_cons_of_mem _ hc), ite_self]

theorem memGet_memClear_inside (m : Mem) {a n k : Nat} (h1 : a ≤ k) (h2 : k < a + n) : memGet (memClear m a n) k = 0 := by
  refine mapGet_of_absent memDefault fun c hc hk => ?_
  have hp := (List.mem_filter.1 hc).2
  rw [Bool.or_eq_true, decide_eq_true_eq, decide_eq_true_eq] at hp
  omega

theorem memGet_of_memClear {m m' : Mem} (hm : memWf m = true) (hm' : memWf m' = true) {b k a : Nat}
    (h : memClear m b k = memClear m' b k) (ha : b + k ≤ a) : memGet m a = memGet m' a := by
  have hp : (decide (a < b) || decide (b + k ≤ a)) = true := by simp [ha]
  have h1 := mapGet_filter memDefault (fun c => decide (c < b) || decide (b + k ≤ c)) hm hp
  have h2 := mapGet_filter memDefault (fun c => decide (c < b) || decide (b + k ≤ c)) hm' hp
  exact h1.symm.trans ((congrArg (mapGet memDefault · a) h).trans h2)

/-! ### The spare (R50) -/

/-- The state in which a spare has taken the name up, before the report. -/
def spareTaken (s : State) (n t : Nat) : State :=
  let lo := tileBase t
  let s1 := setSpare s n fun sp => { sp with st := 1, subst := t % 16, begun := none, power := 0, pending := sp.pending.filter (· ≠ t) }
  { s1 with
    mem := memClear s1.mem lo 0xC0000
    plat := { s1.plat with
      mapEpoch := s1.plat.mapEpoch + 1
      badWords := s1.plat.badWords.filter fun w => decide (w < lo ∨ lo + 0xC0000 ≤ w)
      banks := (List.range 46).foldl (fun l b => mapSet (fun _ => s1.plat.bankBase) l (64 * t + b) 0) s1.plat.banks
      waking := s1.plat.waking.filter fun w => decide (w.1 / 64 ≠ t) }
    world := { s1.world with cached := s1.world.cached.filter (·.1 ≠ t), filling := s1.world.filling.filter (·.1 ≠ t) }
    disp := { s1.disp with full := s1.disp.full.filter (fun f => decide (f.1 / 8 ≠ t)), quarantined := s1.disp.quarantined.filter (· ≠ t) } }

theorem spareIn_unreported (s : State) (n t : Nat) : unreported (spareIn s n t) = unreported (spareTaken s n t) := by
  rw [spareIn]
  dsimp only
  rw [logNow_unreported, sendOpenEvent_unreported]
  rfl

theorem memGet_spareIn {s : State} (hi : Inv s) (n t : Nat) {a : Nat} (ha : a < 0xC0000) :
    memGet (spareIn s n t).mem (tileBase t + a) = 0 := by
  have hm : memWf (spareTaken s n t).mem = true := memClear_wf hi.mem ..
  have hclear : ∀ u v, unreported u = unreported v → memClear u.mem ringsBase 0x40000 = memClear v.mem ringsBase 0x40000 :=
    fun _ _ h => congrArg State.mem h
  rw [memGet_of_memClear (spareIn_inv s n t hi).mem hm (hclear _ _ (spareIn_unreported s n t))
    (by simp only [ringsBase, tileBase]; omega)]
  exact memGet_memClear_inside _ (by omega) (by omega)

theorem spareTaken_spare {s : State} {c : Nat} (t : Nat) (hc : c < s.plat.spares.length) :
    let sp := (spareTaken s c t).plat.spares.getD c .reset
    sp.st = 1 ∧ sp.subst = t % 16 ∧ sp.begun = none ∧ sp.power = 0 := by
  have h := getD_listUpd_self hc (fun sp : Spare =>
    { sp with st := 1, subst := t % 16, begun := none, power := 0, pending := sp.pending.filter (· ≠ t) }) .reset
  have hs : (spareTaken s c t).plat.spares = listUpd s.plat.spares c fun sp : Spare =>
    { sp with st := 1, subst := t % 16, begun := none, power := 0, pending := sp.pending.filter (· ≠ t) } := rfl
  dsimp only
  rw [hs, h]
  exact ⟨rfl, rfl, rfl, rfl⟩

theorem not_quarantined_spareTaken (s : State) (c t : Nat) : t ∉ (spareTaken s c t).disp.quarantined := by
  have hq : (spareTaken s c t).disp.quarantined = s.disp.quarantined.filter (· ≠ t) := rfl
  rw [hq, List.mem_filter]
  exact fun h => absurd h.2 (by simp)

theorem spareIn_leaves {s : State} {c t : Nat} (ht : t / 16 = c) (hc : c < s.plat.spares.length) : let u := spareIn s c t
    (u.plat.spares.getD c .reset).st = 1 ∧ (u.plat.spares.getD c .reset).subst = t % 16 ∧
      (u.plat.spares.getD c .reset).begun = none ∧ (u.plat.spares.getD c .reset).power = 0 ∧
      u.plat.mapEpoch = s.plat.mapEpoch + 1 ∧ slotOf u t = 16 ∧ t ∉ u.disp.quarantined ∧
      (Inv s → ∀ a, a < 0xC0000 → memGet u.mem (tileBase t + a) = 0) ∧ u.disp.running = s.disp.running := by
  have hzero := fun hi : Inv s => fun a => memGet_spareIn hi c t (a := a)
  have hu := spareIn_unreported s c t
  revert hzero hu
  generalize spareIn s c t = u
  intro hzero hu
  have hplat := unreported_plat hu
  have hq : ∀ v, unreported u = unreported v → u.disp.quarantined = v.disp.quarantined := fun _ h => congrArg (·.disp.quarantined) h
  obtain ⟨hst, hsub, hbeg, hpow⟩ := spareTaken_spare t hc
  have hmap : (spareTaken s c t).plat.mapEpoch = s.plat.mapEpoch + 1 := rfl
  have hrun : (spareTaken s c t).disp.running = s.disp.running := rfl
  have hslot : slotOf u t = 16 := by
    rw [slotOf, ht, hplat]
    exact if_pos ⟨.inl hst, hsub⟩
  dsimp only
  rw [hq _ hu, unreported_running hu, hplat]
  exact ⟨hst, hsub, hbeg, hpow, hmap, hslot, not_quarantined_spareTaken s c t, hzero, hrun⟩

/-! ### Scrubs (R362, R363, R365) -/

theorem corrected_leaves (s : State) (c : Nat) : (corrected s c).disp = s.disp ∧ (corrected s c).safety = s.safety ∧
    ((recentCe s c).length ≠ 64 → (corrected s c).mem = s.mem ∧ (corrected s c).regs = (bumpReg s (0x3140 + 8 * c)).regs) := by
  have hu := corrected_uncounted s c
  refine ⟨(congrArg State.disp hu :), (congrArg State.safety hu :), fun h => ?_⟩
  rw [corrected]
  dsimp only
  rw [if_neg (by rw [List.length_cons]; omega)]
  exact ⟨rfl, rfl⟩

theorem mem_addOnce_self {α : Type} [DecidableEq α] (l : List α) (a : α) : a ∈ addOnce l a := by
  unfold addOnce
  split
  · assumption
  · exact List.mem_cons_self ..

theorem scrubUe_bank (s : State) (unit addr : Nat) : (unit - 544, addr / 8) ∈ (scrubUe s 2 unit addr).world.badSlots ∧
    (scrubUe s 2 unit addr).mem = s.mem := by
  obtain ⟨l, g, f, c, h⟩ := raiseOpenFault_quiet (bankUe s (unit - 544) (addr / 8)) (fsBank (unit - 544)) (code := fWorldBankEcc)
    fun _ => rfl
  rw [scrubUe, if_pos rfl, h]
  exact ⟨mem_addOnce_self .., rfl⟩

theorem scrubUe_gddr (s : State) (unit addr : Nat) : badRead (scrubUe s 6 unit addr) (8 * (addr / 8)) 8 = true ∧
    (scrubUe s 6 unit addr).mem = s.mem := by
  obtain ⟨l, g, f, c, h⟩ := raiseOpenFault_quiet
    (eccReport (markBad s addr) 6 (582 + gddrChannel (markBad s addr) addr) addr) (fsGddr (gddrChannel (markBad s addr) addr))
    (code := fGddr6Ecc) fun _ => rfl
  rw [scrubUe, if_neg (by decide), if_neg (by decide), gddrUe, h]
  refine ⟨?_, rfl⟩
  rw [badRead, Bool.or_eq_true, List.any_eq_true]
  refine .inl ⟨8 * (addr / 8), mem_addOnce_self .., ?_⟩
  rw [Bool.and_eq_true, decide_eq_true_eq]
  exact ⟨Nat.lt_add_of_pos_right (by decide), Nat.lt_add_of_pos_right (by decide)⟩

/-- Settles O59: the wake's end, the scrub, the retraining, the spare. -/
theorem memoryUpkeepAndSparesComplete : Obligations.MemoryUpkeepAndSparesComplete := by
  unfold Obligations.MemoryUpkeepAndSparesComplete
  intro s hr
  refine ⟨fun tile bank hb hw hs => ?_, fun cls unit addr hs => ⟨?_, ?_⟩, fun c hc => ?_, fun c t hbeg ht _ hc => ?_⟩
  · refine ⟨endWake s (64 * tile + bank), ?_, rfl, fun hwf => ⟨?_, fun k hk => ?_⟩, rfl, rfl⟩
    · change execBankWake tile bank s = _
      rw [execBankWake, hw, decide_eq_true hb, decide_eq_true hs]
      exact onlyIf_true hr
    · exact (mapGet_mapSet _ hwf (64 * tile + bank) (64 * tile + bank) 0).trans (if_pos rfl)
    · exact (mapGet_mapSet _ hwf (64 * tile + bank) k 0).trans (if_neg hk)
  · have hexec : exec (.patrolScrub cls unit addr false) s = .next (corrected s cls) := by
      change execPatrolScrub cls unit addr false s = _
      rw [execPatrolScrub, hs]
      exact onlyIf_true hr
    exact ⟨_, hexec, rfl, corrected_leaves s cls⟩
  · have hexec : exec (.patrolScrub cls unit addr true) s = .next (scrubUe s cls unit addr) := by
      change execPatrolScrub cls unit addr true s = _
      rw [execPatrolScrub, hs]
      exact onlyIf_true hr
    refine ⟨_, hexec, rfl, fun h => ?_, fun h => ?_⟩
    · subst h
      exact scrubUe_bank s unit addr
    · subst h
      exact scrubUe_gddr s unit addr
  · have hexec : exec (.gddr6Retrain c) s = .next { s with
          plat := { s.plat with
            retraining := some c
            retrainAt := (c, s.ao) :: s.plat.retrainAt.filter fun e => decide (e.1 ≠ c) } } := by
      change execGddr6Retrain c s = _
      rw [execGddr6Retrain, hc]
      exact onlyIf_true hr
    exact ⟨_, hexec, rfl, List.find?_cons_of_pos (p := fun e : Nat × Nat => decide (e.1 = c)) (decide_eq_true rfl), rfl⟩
  · refine ⟨_, ?_, spareIn_leaves ht hc⟩
    change execSpareIn c s = _
    rw [execSpareIn, hbeg]
    exact onlyIf_true hr

end Sys2Proof.Machine
end

section
/-! PROOFS. Boot, the reference clock and temperature (R28, R463, R485, R490 to R492). -/

namespace Sys2Proof.Machine

/-! ### Faults that are a cause -/

/-- A fault that is a cause sets the latch with it; the platform and what runs stay (R323, R324). -/
theorem raiseOpenFault_cause {s : State} {source code mask : Nat} (h : ∀ t, faultReact t code = enterSafe t mask) :
    let u := raiseOpenFault s source code
    u.safety.safe = true ∧ u.safety.cause = s.safety.cause ||| BitVec.ofNat 16 mask ∧
      u.safety.present = s.safety.present ||| BitVec.ofNat 16 (mask &&& lastingCauses) ∧
      u.plat = s.plat ∧ u.disp.islands = s.disp.islands ∧ u.disp.waiters = s.disp.waiters := by
  obtain ⟨l, g, f, hs⟩ := stageFault_only s source code (Config.eventData (0x10000 + code) s.disp.freeCtr)
  rw [raiseOpenFault, raiseFault, h, hs]
  generalize hv : ({ s with safety := { s.safety with staging := l, folds := g, foldCount := f } } : State) = v
  have hsafe := enterSafe_safe v mask
  have hcause := enterSafe_cause v mask
  have hpresent := enterSafe_present v mask
  have hun := enterSafe_unentered v mask
  have hview : ∀ t v : State, unentered t = unentered v →
      t.plat = v.plat ∧ t.disp.islands = v.disp.islands ∧ t.disp.waiters = v.disp.waiters := fun _ _ h =>
    ⟨(congrArg State.plat h :), (congrArg (·.disp.islands) h :), (congrArg (·.disp.waiters) h :)⟩
  obtain ⟨hplat, hisl, hwait⟩ := hview _ _ hun
  subst hv
  exact ⟨hsafe, hcause, hpresent, hplat, hisl, hwait⟩

/-! ### The boot self-test (R48 to R51) -/

theorem failOrder_nil (s : State) : failOrder s [] = [] := by
  simp [failOrder]

theorem flatMap_single {α β : Type} [DecidableEq α] {l : List α} (hl : l.Nodup) {a : α} (ha : a ∈ l) (b : List β)
    {f : α → List β} (hf : ∀ x, f x = if x = a then b else []) : l.flatMap f = b := by
  induction l with
  | nil => cases ha
  | cons x t ih =>
    obtain ⟨hx, ht⟩ := List.nodup_cons.1 hl
    rw [List.flatMap_cons, hf]
    by_cases hxa : x = a
    · subst hxa
      have hrest : t.flatMap f = [] := List.flatMap_eq_nil_iff.2 fun y hy => by
        rw [hf, if_neg fun h : y = x => hx (h ▸ hy)]
      rw [if_pos rfl, hrest, List.append_nil]
    · rw [if_neg hxa, List.nil_append]
      exact ih ht ((List.mem_cons.1 ha).resolve_left fun h => hxa h.symm)

/-- Of the slots of one number only those of the list. -/
theorem filter_slot_single {n m : Nat} (hn : n < m) (p q : Nat) :
    ((List.range m).filter fun k => decide ((k, q) ∈ [(n, p)])).map (fun k => (k, q)) = if q = p then [(n, p)] else [] := by
  by_cases hq : q = p
  · subst hq
    have hfun : (fun k => decide ((k, q) ∈ [(n, q)])) = fun k => k == n := funext fun k => by
      rw [Bool.eq_iff_iff]
      simp
    rw [hfun, List.filter_beq, List.count_eq_one_of_mem List.nodup_range (List.mem_range.2 hn), if_pos rfl]
    rfl
  · have hfun : (fun k => decide ((k, q) ∈ [(n, p)])) = fun _ => false := funext fun k => by simp [hq]
    rw [hfun, List.filter_false, if_neg hq, List.map_nil]

theorem failOrder_single (s : State) {n p : Nat} (hn : n < clusterCount s) (hp : p ≤ 16) : failOrder s [(n, p)] = [(n, p)] := by
  have hat := filter_slot_single hn p
  rw [failOrder]
  dsimp only
  rw [hat]
  by_cases h : p = 16
  · have hrest : (List.range 16).flatMap (fun q => ((List.range (clusterCount s)).filter fun k =>
        decide ((k, q) ∈ [(n, p)])).map fun k => (k, q)) = [] := List.flatMap_eq_nil_iff.2 fun q hq => by
      have hlt := List.mem_range.1 hq
      rw [hat, if_neg (by omega)]
    rw [hrest, if_pos h.symm, List.append_nil]
  · rw [flatMap_single List.nodup_range (List.mem_range.2 (by omega : p < 16)) _ hat, if_neg (fun e => h e.symm), List.nil_append]

/-- A free or failed slot's banks are OFF (R360). -/
def bankPower (x : Spare) : Spare := { x with power := if x.st = 0 ∨ x.st = 3 then 2 else x.power }

theorem spare_spareBanksOff {s : State} {n : Nat} (hn : n < s.plat.spares.length) :
    (spareBanksOff s).plat.spares.getD n .reset = bankPower (s.plat.spares.getD n .reset) := by
  have hmap : (spareBanksOff s).plat.spares = s.plat.spares.map bankPower := rfl
  rw [hmap, List.getD_eq_getElem _ _ (by rw [List.length_map]; exact hn), List.getElem_map, List.getD_eq_getElem _ _ hn]

/-- What one slot's failure leaves of its cluster's spare, when the self-test is over. -/
theorem spare_selftestDone {s t : State} {n : Nat} {f : Spare → Spare} (hn : n < s.plat.spares.length)
    (ht : t.plat.spares = listUpd s.plat.spares n f) :
    (spareBanksOff (bootRotation t)).plat.spares.getD n .reset = bankPower (f (s.plat.spares.getD n .reset)) := by
  have hlen : n < (bootRotation t).plat.spares.length := by
    change n < t.plat.spares.length
    rw [ht, length_listUpd]
    exact hn
  have hsame : (bootRotation t).plat.spares = t.plat.spares := rfl
  rw [spare_spareBanksOff hlen, hsame, ht, getD_listUpd_self hn]

theorem spareFails_free {s : State} {n : Nat} (hst : (s.plat.spares.getD n .reset).st = 0) :
    slotFails s (n, 16) = setSpare s n fun x => { x with st := 3, subst := 0 } := by
  rw [slotFails, if_pos rfl, spareFails]
  dsimp only
  rw [hst, if_neg (by decide)]

theorem tileFails_free {s : State} {n p : Nat} (hp : p < 16) (hst : (s.plat.spares.getD n .reset).st = 0) :
    slotFails s (n, p) = { s with plat := { s.plat with
      spares := listUpd s.plat.spares n fun x => { x with st := 1, subst := p }, mapEpoch := s.plat.mapEpoch + 1 } } := by
  rw [slotFails, if_neg (by omega), tileFails]
  dsimp only
  rw [hst, if_neg (fun h => by simp at h), if_pos rfl]
  rfl

/-- What a failed spare leaves (R50, R360). -/
theorem spareFails_leaves {s : State} {n : Nat} (hn : n < s.plat.spares.length) (hst : (s.plat.spares.getD n .reset).st = 0) :
    let u := spareBanksOff (bootRotation (slotFails s (n, 16)))
    (u.plat.spares.getD n .reset).st = 3 ∧ (u.plat.spares.getD n .reset).power = 2 := by
  dsimp only
  rw [spareFails_free hst, spare_selftestDone (f := fun x => { x with st := 3, subst := 0 }) hn rfl]
  exact ⟨rfl, rfl⟩

/-- A failed slot's name moves to the spare (R49). -/
theorem slotOf_tileFails {s : State} {n p : Nat} (hp : p < 16) (hn : n < s.plat.spares.length)
    (hst : (s.plat.spares.getD n .reset).st = 0) : let u := spareBanksOff (bootRotation (slotFails s (n, p)))
    slotOf u (16 * n + p) = 16 ∧ u.plat.mapEpoch = s.plat.mapEpoch + 1 := by
  rw [tileFails_free hp hst]
  refine ⟨?_, rfl⟩
  rw [slotOf, show (16 * n + p) / 16 = n by omega, show (16 * n + p) % 16 = p by omega,
    spare_selftestDone (f := fun x => { x with st := 1, subst := p }) hn rfl]
  exact if_pos ⟨.inl rfl, rfl⟩

/-! ### The obligation -/

theorem romStageDone_leaves {s : State} (h : s.boot.stage = 1) (v : Nat) (hv : v = 2 ∨ v = 15) :
    let u := tickFree (setStage s v)
    (u.boot.stage = 2 ∨ u.boot.stage = 15) ∧ { unreported u with boot := { u.boot with stage := 1 } } = unreported s := by
  refine ⟨hv, ?_⟩
  have hb : ({ s.boot with stage := 1 } : Boot) = s.boot := by rw [← h]
  exact congrArg (fun b => { unreported s with boot := b }) hb

theorem refclkLoss_leaves (s : State) :
    let u := edgeLinksDown (raiseOpenFault { s with plat := { s.plat with refclkOk := false } } fsRefclk fRefclkLoss)
    u.plat.refclkOk = false ∧ u.safety.safe = true ∧ u.safety.cause = s.safety.cause ||| 1024 ∧
      u.safety.present = s.safety.present ||| 1024 ∧ u.outp.linkUp = false ∧ u.outp.txq = [] ∧ u.ing.linkUp = [] ∧ u.links.up = 0 := by
  obtain ⟨hsafe, hcause, hpresent, hplat, -, -⟩ := raiseOpenFault_cause (s := { s with plat := { s.plat with refclkOk := false } })
    (source := fsRefclk) (code := fRefclkLoss) (mask := 1024) fun _ => rfl
  exact ⟨congrArg Platform.refclkOk hplat, hsafe, hcause, hpresent, rfl, rfl, rfl, rfl⟩

theorem tripNow_leaves (s : State) : let u := tripNow s
    u.disp.trip = true ∧ u.disp.islands = s.disp.islands.map (fun i => { i with opp := min 1 i.opp }) ∧ u.safety.safe = true ∧
      u.safety.cause = s.safety.cause ||| 512 ∧ u.plat = s.plat ∧ ∀ w ∈ u.disp.waiters, ¬(w.1 = 4 ∧ 16 ≤ w.2) := by
  obtain ⟨hsafe, hcause, -, hplat, hisl, -⟩ := raiseOpenFault_cause (s := s) (source := fsThermal) (code := fThermalTrip)
    (mask := 512) fun _ => rfl
  have hslow := congrArg (List.map fun i => { i with opp := min 1 i.opp }) hisl
  refine ⟨rfl, hslow, hsafe, hcause, hplat, fun w hw hraise => ?_⟩
  have hp := (List.mem_filter.1 hw).2
  dsimp only at hp
  rw [decide_eq_true hraise] at hp
  exact absurd hp (by decide)

/-- Settles O60: the boot stages, the reference clock, the trip and its end. -/
theorem bootClockAndThermalComplete : Obligations.BootClockAndThermalComplete := by
  unfold Obligations.BootClockAndThermalComplete
  intro s hr
  have hselftest : s.boot.stage = 6 → s.safety.selfRun = none → ∀ l, exec (.bootSelftestDone l) s =
      .next (setStage (spareBanksOff (bootRotation ((failOrder s l).foldl slotFails s))) 7) := fun h6 hrun l => by
    change execBootSelftestDone l s = _
    rw [execBootSelftestDone, decide_eq_true h6, hrun]
    exact onlyIf_true hr
  have hgddr : s.boot.stage = 4 → exec .gddr6TrainingDone s = .next (tickFree { s with
      boot := { s.boot with stage := 5 }
      plat := { s.plat with gddrTrained := true, gddrRate := Config.freeNat 72 s.disp.freeCtr % 2 } }) := fun h4 => by
    change execGddr6TrainingDone s = _
    rw [execGddr6TrainingDone, decide_eq_true h4]
    exact onlyIf_true hr
  refine ⟨fun h1 => ⟨tickFree (setStage s (if Config.freeNat 93 s.disp.freeCtr % 2 = 0 then 2 else 15)), ?_, romStageDone_leaves h1 _ ?_⟩, fun h4 => ⟨_, hgddr h4, rfl, rfl, rfl, ?_⟩,
    fun h6 hrun => ⟨⟨_, hselftest h6 hrun [], rfl, ?_, ?_⟩, fun n hn hlen hst => ?_, fun n p hn hp hlen hst => ?_⟩,
    fun hok => ⟨_, ?_, refclkLoss_leaves s⟩, fun hok => ?_, fun k t htrip hk ht => ?_, fun temps hcool htrip => ?_⟩
  · change execRomStageDone s = _
    rw [execRomStageDone, decide_eq_true h1]
    exact onlyIf_true hr
  · split
    · exact .inl rfl
    · exact .inr rfl
  · have hb : ({ s.boot with stage := 4 } : Boot) = s.boot := by rw [← h4]
    exact hb
  · rw [failOrder_nil]
    rfl
  · rw [failOrder_nil]
    exact Nat.le_max_left ..
  · refine ⟨_, hselftest h6 hrun _, rfl, ?_⟩
    rw [failOrder_single s hn (Nat.le_refl 16)]
    exact spareFails_leaves hlen hst
  · refine ⟨_, hselftest h6 hrun _, rfl, ?_⟩
    rw [failOrder_single s hn (by omega)]
    exact slotOf_tileFails hp hlen hst
  · change execRefclkLoss s = _
    rw [execRefclkLoss, hok]
    exact onlyIf_true hr
  · change execRefclkReturn s = _
    rw [execRefclkReturn, hok]
    exact onlyIf_true hr
  · obtain ⟨h1, h2, h3, h4, h5, h6⟩ := tripNow_leaves (setTemp s k t)
    refine ⟨_, ?_, h1, h2, h3, h4, congrArg Platform.temps h5, h6⟩
    change execThermalTrip k t s = _
    rw [execThermalTrip, htrip, hk, decide_eq_true (show 1840 ≤ tempOf t from ht)]
    exact onlyIf_true hr
  · change execThermalTripEnd temps s = _
    rw [execThermalTripEnd, hcool, if_neg (by decide)]
    dsimp only
    rw [hr, htrip, if_neg (by decide), if_pos rfl]
    rfl

end Sys2Proof.Machine
end

section
/-! PROOFS. VECT, REDUCE, MATMUL and the weight bus (R65, R94 to R96, R121, R122). -/

namespace Sys2Proof.Machine

/-! ### The weight bus (R122) -/

theorem chunkDone_mm (i : Inst) (slot : Nat) : (chunkDone i slot).mm = i.mm := by
  unfold chunkDone
  split
  · rfl
  · dsimp only
    split <;> rfl

theorem chunkDone_place (i : Inst) (slot : Nat) : (chunkDone i slot).tile = i.tile ∧ (chunkDone i slot).ctx = i.ctx := by
  unfold chunkDone
  split
  · exact ⟨rfl, rfl⟩
  · dsimp only
    split <;> exact ⟨rfl, rfl⟩

/-- What stands on a context after a user's record has changed. -/
theorem instOf_putUser {s : State} {i j : Inst} (h : j.tile = i.tile ∧ j.ctx = i.ctx) (tile ctx : Nat) :
    instOf (putUser s i j) tile ctx = (instOf s tile ctx).map fun k => if k = i then j else k := by
  have hmap : instOf (putUser s i j) tile ctx =
      (s.disp.running.map fun k => if k = i then j else k).find? fun k => decide (k.tile = tile ∧ k.ctx = ctx) := rfl
  have hfun : ((fun k : Inst => decide (k.tile = tile ∧ k.ctx = ctx)) ∘ fun k => if k = i then j else k) =
      fun k => decide (k.tile = tile ∧ k.ctx = ctx) := funext fun k => by
    by_cases hk : k = i
    · subst hk
      rw [Function.comp_apply, if_pos rfl, h.1, h.2]
    · rw [Function.comp_apply, if_neg hk]
  rw [hmap, List.find?_map, hfun]
  rfl

theorem mmRunOn_idle {s : State} {tile ctx : Nat} (h : ∀ j, instOf s tile ctx = some j → j.mm = none) : mmRunOn s tile ctx = s := by
  unfold mmRunOn
  split
  · rfl
  · next i hi => rw [h i hi]

theorem tileRuns_idle {s : State} {tile : Nat} (h : ∀ c j, instOf s tile c = some j → j.mm = none) : tileRuns s tile = s := by
  rw [tileRuns, mmRunOn_idle (h 0), mmRunOn_idle (h 1)]

theorem boolGet_boolSet {m : List (Nat × Bool)} (h : mapWf (fun _ => false) m = true) (k : Nat) (v : Bool) :
    boolGet (boolSet m k v) k = v := (mapGet_mapSet _ h k k v).trans (if_pos rfl)

theorem devRead_length (s : State) (a n : Nat) : (devRead s a n).length = n := memRead_length ..

theorem tileRead_tileWrite {v : State} (h : memWf v.mem = true) (tile a : Nat) {bs : Bytes} {n : Nat} (hn : bs.length = n) :
    tileRead (tileWrite v tile a bs) tile a n = bs := by
  subst hn
  exact devRead_devWrite h (tileBase tile + a) bs

theorem giveChunk_free {v : State} {i : Inst} {p : StreamRun × Nat × Nat} (hp : nextChunk i = some p)
    (hfree : isFull v i.tile p.2.2 = false) (bs : Bytes) : giveChunk v bs i =
      putUser (setFull (tileWrite v i.tile (slotBase p.2.2) bs) i.tile p.2.2 true) i (chunkDone i p.2.2) := by
  rw [giveChunk, hp]
  dsimp only
  rw [hfree, if_neg (by decide)]

/-- No MATMUL of the tile waits for the chunk. -/
theorem tileRuns_giveChunk {v : State} {i : Inst} {p : StreamRun × Nat × Nat} (hp : nextChunk i = some p)
    (hfree : isFull v i.tile p.2.2 = false) (bs : Bytes) (hmm : i.mm = none)
    (hidle : ∀ c j, instOf v i.tile c = some j → j.mm = none) :
    tileRuns (giveChunk v bs i) i.tile = giveChunk v bs i := tileRuns_idle fun c j hj => by
  have hsame : instOf (setFull (tileWrite v i.tile (slotBase p.2.2) bs) i.tile p.2.2 true) i.tile c = instOf v i.tile c := rfl
  rw [giveChunk_free hp hfree, instOf_putUser (chunkDone_place i _), hsame, Option.map_eq_some_iff] at hj
  obtain ⟨k, hk, rfl⟩ := hj
  split
  · rw [chunkDone_mm, hmm]
  · exact hidle c k hk

/-- What a chunk given leaves: its slot FULL, with the chunk in it (R39, R122). -/
theorem giveChunk_leaves {v : State} {i : Inst} {p : StreamRun × Nat × Nat} (hp : nextChunk i = some p)
    (hfree : isFull v i.tile p.2.2 = false) {bs : Bytes} {n : Nat} (hlen : bs.length = n) :
    (mapWf (fun _ => false) v.disp.full = true → isFull (giveChunk v bs i) i.tile p.2.2 = true) ∧
      (memWf v.mem = true → tileRead (giveChunk v bs i) i.tile (slotBase p.2.2) n = bs) := by
  rw [giveChunk_free hp hfree]
  exact ⟨fun h => boolGet_boolSet h .., fun h => tileRead_tileWrite h _ _ hlen⟩

/-- One user, and no error in the chunk. -/
theorem writeChunk_one (s : State) (i : Inst) (w : WeightSet) (chunk : Nat)
    (hbad : badRead s (w.addr + 4096 * chunk) 4096 = false) : writeChunk s w chunk [i] =
      tileRuns (giveChunk (correctRead s (w.addr + 4096 * chunk) 4096) (devRead s (w.addr + 4096 * chunk) 4096) i) i.tile := by
  have hdup : ([i].map (·.tile)).eraseDups = [i.tile] := rfl
  rw [writeChunk, hbad, if_neg (by decide), hdup, List.foldl_cons, List.foldl_nil, List.foldl_cons, List.foldl_nil]

/-- A chunk given to its one user, when no MATMUL of the tile waits: the slot is FULL and holds it. -/
theorem writeChunk_leaves {s : State} {i : Inst} {w : WeightSet} {chunk : Nat} {p : StreamRun × Nat × Nat} (hp : nextChunk i = some p)
    (hfree : isFull s i.tile p.2.2 = false) (hbad : badRead s (w.addr + 4096 * chunk) 4096 = false) (hmm : i.mm = none)
    (hidle : ∀ c j, instOf s i.tile c = some j → j.mm = none) :
    (mapWf (fun _ => false) s.disp.full = true → isFull (writeChunk s w chunk [i]) i.tile p.2.2 = true) ∧
      (Inv s → tileRead (writeChunk s w chunk [i]) i.tile (slotBase p.2.2) 4096 = devRead s (w.addr + 4096 * chunk) 4096) := by
  have hview : ∀ t v : State, uncounted t = uncounted v → t.disp = v.disp := fun _ _ h => (congrArg State.disp h :)
  have hdisp := hview _ _ (correctRead_uncounted s (w.addr + 4096 * chunk) 4096)
  have hinv := correctRead_inv s (w.addr + 4096 * chunk) 4096
  have hlen := devRead_length s (w.addr + 4096 * chunk) 4096
  rw [writeChunk_one s i w chunk hbad]
  revert hdisp hinv hlen
  generalize correctRead s (w.addr + 4096 * chunk) 4096 = v
  generalize devRead s (w.addr + 4096 * chunk) 4096 = bs
  intro hdisp hinv hlen
  have hv : isFull v i.tile p.2.2 = false := by
    rw [isFull, hdisp]
    exact hfree
  have hidle' : ∀ c j, instOf v i.tile c = some j → j.mm = none := fun c j hj => hidle c j (by
    rw [instOf, ← hdisp]
    exact hj)
  rw [tileRuns_giveChunk hp hv bs hmm hidle', ← hdisp]
  obtain ⟨hfull, hread⟩ := giveChunk_leaves hp hv hlen
  exact ⟨hfull, fun hi => hread (hinv hi).mem⟩

/-- Settles O45: each operation's rows, and the bus's one write. -/
theorem mathDescriptorsComplete : Obligations.MathDescriptorsComplete := by
  unfold Obligations.MathDescriptorsComplete
  intro s tile ctx i
  dsimp only
  refine ⟨fun h => ?_, fun h => ?_, fun h => ?_, fun h => ?_, fun h => ?_, fun c op hc h => ?_, fun hr hu ht p w hp hw => ?_⟩
  · obtain ⟨rfl, rfl⟩ := instOf_place h.inst
    have hexec : exec (.vectBin i.tile i.ctx) s = _ := issueDesc_of_issues h
    refine ⟨fun hd => hexec.trans ?_, fun hd => hexec.trans ?_⟩
    · exact congrArg ofAttempt (if_neg hd)
    · exact congrArg ofAttempt (if_pos hd)
  · obtain ⟨rfl, rfl⟩ := instOf_place h.inst
    have hexec : exec (.vectUn i.tile i.ctx) s = _ := issueDesc_of_issues h
    refine ⟨fun hd => hexec.trans ?_, fun hd => hexec.trans ?_⟩
    · exact congrArg ofAttempt (if_neg hd)
    · exact congrArg ofAttempt (if_pos hd)
  · obtain ⟨rfl, rfl⟩ := instOf_place h.inst
    have hexec : exec (.vectNorm i.tile i.ctx) s = _ := issueDesc_of_issues h
    exact hexec
  · obtain ⟨rfl, rfl⟩ := instOf_place h.inst
    have hexec : exec (.vectCvt i.tile i.ctx) s = _ := issueDesc_of_issues h
    refine ⟨fun hd => hexec.trans ?_, fun hd => hexec.trans ?_⟩
    · exact congrArg ofAttempt (if_neg (by rw [hd]; decide))
    · exact congrArg ofAttempt (if_pos hd)
  · obtain ⟨rfl, rfl⟩ := instOf_place h.inst
    have hexec : exec (.reduce i.tile i.ctx) s = _ := issueDesc_of_issues h
    exact hexec
  · obtain ⟨rfl, rfl⟩ := instOf_place h.inst
    have hissue := issueDesc_of_issues h
    rcases List.mem_cons.1 hc with hc | hc
    · cases hc
      exact hissue
    · cases List.mem_singleton.1 hc
      exact hissue
  · have hfind := List.find?_some hu
    rw [Bool.and_eq_true, decide_eq_true_eq] at hfind
    obtain ⟨⟨rfl, rfl⟩, hwants⟩ := hfind
    have hfree : isFull s i.tile p.2.2 = false := by
      rw [wantsChunk, hp] at hwants
      exact (Bool.not_eq_true' _).mp hwants
    have hexec : exec (.weightChunkWrite i.tile i.ctx) s = if w.len < 4096 * (p.2.1 + 1) then .fault (.unguarded "R118")
        else .next (writeChunk (notePtr s i) w p.2.1 (sharers s (i.tile / 16) p.1.wset p.2.1)) := by
      change execWeightChunkWrite i.tile i.ctx s = _
      rw [execWeightChunkWrite, hu]
      dsimp only
      rw [hr, ht, if_neg (by decide), hp]
      dsimp only
      rw [hw]
    refine ⟨fun hlen => hexec.trans (if_pos hlen), fun hlen => ⟨_, hexec.trans (if_neg (Nat.not_lt.2 hlen)), rfl, ?_⟩⟩
    intro hbad hone hidle hmm
    rw [hone]
    obtain ⟨hfull, hread⟩ := writeChunk_leaves (s := notePtr s i) hp hfree hbad hmm hidle
    exact ⟨hfull, fun hi => hread (notePtr_inv s i hi)⟩

end Sys2Proof.Machine
end

section
/-! PROOFS. TOPK, TOPK.MERGE, KNN and GENPRIM (R154, R159, R160, R198 to R203, R208). -/

namespace Sys2Proof.Machine

theorem trefAbsent_eq_true {t : Tref} : trefAbsent t = true ↔ t.rows = 0 := by
  simp [trefAbsent]

/-! ### What each unit's run answers -/

/-- TOPK runs within R208's limits (R198). -/
theorem topkRun_run {s : State} {i : Inst} {d : Bytes} {n : Nat} :
    topkRun.run s i d n =
      if seParam d + (seIn0 d).cols ≤ 2 ^ 32 ∧ ((seIn1 d).rows = 0 ∨ ((seIn1 d).rows = (seIn0 d).rows ∧ (seIn1 d).cols = (seIn0 d).cols))
      then landLists s i d ((List.range (seIn0 d).rows).map (topkRow s i.tile d))
        (nanKeys (seFmt d) ((List.range (seIn0 d).rows).map (keyWords s i.tile (seIn0 d))).flatten)
      else .error "R208" := by
  have hrun : topkRun.run s i d n =
      if 2 ^ 32 < seParam d + (seIn0 d).cols then .error "R208"
      else if !trefAbsent (seIn1 d) ∧ ((seIn1 d).rows ≠ (seIn0 d).rows ∨ (seIn1 d).cols ≠ (seIn0 d).cols) then .error "R208"
      else landLists s i d ((List.range (seIn0 d).rows).map (topkRow s i.tile d))
        (nanKeys (seFmt d) ((List.range (seIn0 d).rows).map (keyWords s i.tile (seIn0 d))).flatten) := rfl
  have habsent : (!trefAbsent (seIn1 d)) = true ↔ ¬(seIn1 d).rows = 0 := by
    rw [Bool.not_eq_true', ← Bool.not_eq_true, trefAbsent_eq_true]
  rw [hrun]
  by_cases hp : 2 ^ 32 < seParam d + (seIn0 d).cols
  · rw [if_pos hp, if_neg fun h => absurd h.1 (Nat.not_le.2 hp)]
  · rw [if_neg hp]
    by_cases hf : (seIn1 d).rows = 0 ∨ ((seIn1 d).rows = (seIn0 d).rows ∧ (seIn1 d).cols = (seIn0 d).cols)
    · refine (if_neg ?_).trans (if_pos ⟨Nat.not_lt.1 hp, hf⟩).symm
      rintro ⟨h1, h2⟩
      exact hf.elim (habsent.1 h1) fun h => h2.elim (fun h2 => h2 h.1) fun h2 => h2 h.2
    · refine (if_pos ?_).trans (if_neg fun h => hf h.2).symm
      rw [not_or, not_and_or] at hf
      exact ⟨habsent.2 hf.1, hf.2⟩

/-- MERGE takes lists as SEL writes them (R199, R208). -/
theorem mergeRun_run {s : State} {i : Inst} {d : Bytes} {n : Nat} :
    let ls := (List.range (seIn0 d).rows).map (readRowBytes s i.tile fmtByte (seIn0 d))
    mergeRun.run s i d n =
      if (seIn1 d).rows = 0 ∧ seParam d = 0 ∧ ls.all (listOk d) = true
      then landLists s i d [mergeLists (seFmt d) (seLargest d) (seDedup d) (seK d) ls]
        (nanKeys (seFmt d) ((ls.map fun l => (listEnts l 0).map (·.key)).flatten))
      else .error "R208" := by
  intro ls
  have hrun : mergeRun.run s i d n = if (seIn1 d).rows ≠ 0 ∨ seParam d ≠ 0 ∨ !ls.all (listOk d) then .error "R208"
      else landLists s i d [mergeLists (seFmt d) (seLargest d) (seDedup d) (seK d) ls]
        (nanKeys (seFmt d) ((ls.map fun l => (listEnts l 0).map (·.key)).flatten)) := rfl
  have hiff : ((seIn1 d).rows ≠ 0 ∨ seParam d ≠ 0 ∨ (!ls.all (listOk d)) = true) ↔
      ¬((seIn1 d).rows = 0 ∧ seParam d = 0 ∧ ls.all (listOk d) = true) := by
    rw [not_and_or, not_and_or, Bool.not_eq_true', Bool.not_eq_true]
  rw [hrun]
  by_cases h : (seIn1 d).rows = 0 ∧ seParam d = 0 ∧ ls.all (listOk d) = true
  · rw [if_pos h, if_neg fun e => hiff.1 e h]
  · rw [if_neg h, if_pos (hiff.2 h)]

/-- KNN takes points of one to sixteen axes (R202, R208). -/
theorem knnRun_run {s : State} {i : Inst} {d : Bytes} {n : Nat} :
    let r := (fmtF32Pts s i.tile (seIn0 d)).map fun q => knnRow (seK d) (seParam d) q (fmtF32Pts s i.tile (seIn1 d))
    knnRun.run s i d n =
      if (seIn0 d).cols = (seIn1 d).cols ∧ 1 ≤ (seIn0 d).cols ∧ (seIn0 d).cols ≤ 16
      then landLists s i d (r.map (·.1)) (orFlags (r.map (·.2))) else .error "R208" := by
  intro r
  have hrun : knnRun.run s i d n = if (seIn0 d).cols ≠ (seIn1 d).cols ∨ (seIn0 d).cols = 0 ∨ 16 < (seIn0 d).cols then .error "R208"
      else landLists s i d (r.map (·.1)) (orFlags (r.map (·.2))) := rfl
  rw [hrun]
  by_cases h : (seIn0 d).cols = (seIn1 d).cols ∧ 1 ≤ (seIn0 d).cols ∧ (seIn0 d).cols ≤ 16
  · rw [if_pos h, if_neg (by omega)]
  · rw [if_neg h, if_pos (by omega)]

/-- Settles O46: each unit's lists or rows, and its refusals. -/
theorem selectAndGenprimComplete : Obligations.SelectAndGenprimComplete := by
  unfold Obligations.SelectAndGenprimComplete
  intro s tile ctx i
  dsimp only
  refine ⟨fun h => ?_, fun h => ?_, fun h => ?_, fun h => ?_⟩
  · obtain ⟨rfl, rfl⟩ := instOf_place h.inst
    have hexec : exec (.topk i.tile i.ctx) s = _ := issueDesc_of_issues h
    rw [topkRun_run] at hexec
    refine ⟨fun hf => ?_, fun hf => ?_⟩
    · rw [if_pos hf] at hexec
      exact hexec
    · rw [if_neg hf] at hexec
      exact hexec
  · obtain ⟨rfl, rfl⟩ := instOf_place h.inst
    have hexec : exec (.topkMerge i.tile i.ctx) s = _ := issueDesc_of_issues h
    rw [mergeRun_run] at hexec
    refine ⟨fun hf => hexec.trans ?_, fun hf => hexec.trans ?_⟩
    · exact congrArg ofAttempt (if_pos hf)
    · exact congrArg ofAttempt (if_neg hf)
  · obtain ⟨rfl, rfl⟩ := instOf_place h.inst
    have hexec : exec (.knn i.tile i.ctx) s = _ := issueDesc_of_issues h
    rw [knnRun_run] at hexec
    refine ⟨fun hf => hexec.trans ?_, fun hf => hexec.trans ?_⟩
    · exact congrArg ofAttempt (if_pos hf)
    · exact congrArg ofAttempt (if_neg hf)
  · obtain ⟨rfl, rfl⟩ := instOf_place h.inst
    have hexec : exec (.genprim i.tile i.ctx) s = _ := issueDesc_of_issues h
    have hrun : ∀ t j (d : Bytes) k, genprimRun.run t j d k = if !profileGuarded (gpProfile t j d) then .error "R159"
        else if !stateFinite (tileRead t j.tile (64 * gpStateLine d) 64) then .ok (landNoStart t j d)
        else .ok (landCandidates t j d k) := fun _ _ _ _ => rfl
    have hprof : gpProfile (issued s i.tile genprimRun i) (issuedInst s genprimRun i) (descBytes s i i.pc) =
        gpProfile (issued s i.tile genprimRun i) i (descBytes s i i.pc) := rfl
    rw [hrun, hprof] at hexec
    refine ⟨fun hp hf => ?_, fun hp hf => ?_, fun hp => ?_⟩
    · rw [hp, if_neg (by decide), show (issuedInst s genprimRun i).tile = i.tile from rfl, hf, if_neg (by decide)] at hexec
      exact hexec
    · rw [hp, if_neg (by decide), show (issuedInst s genprimRun i).tile = i.tile from rfl, hf, if_pos (by decide)] at hexec
      exact hexec
    · rw [hp, if_pos (by decide)] at hexec
      exact hexec

end Sys2Proof.Machine
end

section
/-! PROOFS. SWEEP, its lanes, its start reports and the world cache (R44, R46, R146, R183, R185, R304). -/

namespace Sys2Proof.Machine

/-! ### Outside replay nothing is forced -/

theorem forced_of_live {s : State} (h : inReplay s = false) (kind : Nat) : forced s kind = [] := by
  have hdev : ¬s.cyc.dev = .replay := of_decide_eq_false h
  have hpkg : curPkg s = none := by
    rw [curPkg]
    split
    · exact if_neg hdev
    · rfl
  rw [forced, hpkg]

theorem forcedSweepCut_of_live {s : State} (h : inReplay s = false) (i : Inst) (idx : Nat) : forcedSweepCut s i idx = none := by
  rw [forcedSweepCut, forced_of_live h]
  rfl

theorem inReplay_issued (s : State) (tile : Nat) (r : DescRun) (i : Inst) : inReplay (issued s tile r i) = inReplay s := by
  rw [inReplay, inReplay, issued_cyc]

/-! ### The issue -/

theorem sweepRun_unforced {s : State} {i : Inst} {idx : Nat} (h : forcedSweepCut s i idx = none) (d : Bytes) :
    sweepRun.run s i d idx =
      if !profileGuarded (swProfile s i.tile d) then .error "R159" else .ok (startSweep s i d idx) := by
  rw [sweepRun]
  dsimp only
  rw [h]

/-- A SWEEP that does not wait for a PUBLISH issues as any descriptor does (R291). -/
theorem execSweep_issues {s : State} {tile ctx : Nat} {i : Inst} (h : instOf s tile ctx = some i)
    (hn : swNewest (descBytes s i i.pc) = true → (epochOf s (sampleEpoch s i i.pc)).isSome = true) :
    exec (.sweep tile ctx) s = issueDesc s tile ctx 0x30 sweepRun := by
  have hwait : sampleWaits s tile ctx = none := by
    rw [sampleWaits, h]
    refine if_neg ?_
    rintro ⟨-, hnew, hnone⟩
    rw [Option.isNone_iff_eq_none] at hnone
    exact absurd (hn hnew) (by rw [hnone]; decide)
  change execSweep tile ctx s = _
  rw [execSweep, hwait]

/-! ### Start reports (R304) -/

theorem cutsSweeps_eq_false {i : Inst} (h : i.cut = false ∨ i.task.phase ≠ 4) : cutsSweeps i = false := by
  rw [cutsSweeps, Bool.and_eq_false_iff, decide_eq_false_iff_not]
  exact h

/-- A report that is acknowledged (R304). -/
theorem answerReport_acknowledged {s : State} {i : Inst} {w : SweepRun} (d : Bytes)
    (h : i.cut = false ∨ i.task.phase ≠ 4 ∨ w.started < ackOf s i w.index) : answerReport s i d w =
      sweepGo (setAck s i w.index (max (w.started + 1) (ackOf s i w.index))) i d { w with acked := w.started + 1, waiting := false } := by
  refine if_pos ?_
  rw [Bool.or_eq_true, Bool.or_eq_true, decide_eq_true_eq]
  rcases h with h | h | h
  · exact .inl (.inl (by rw [cutsSweeps_eq_false (.inl h)]; rfl))
  · exact .inl (.inl (by rw [cutsSweeps_eq_false (.inr h)]; rfl))
  · exact .inr h

/-- A report that the cut refuses (R304). -/
theorem answerReport_refused {s : State} {i : Inst} {w : SweepRun} (d : Bytes) (hrep : inReplay s = false) (hcut : i.cut = true)
    (hphase : i.task.phase = 4) (hack : ackOf s i w.index ≤ w.started) :
    answerReport s i d w = sweepGo (takeCut s i d w).1 i d (takeCut s i d w).2 := by
  have hcuts : cutsSweeps i = true := by rw [cutsSweeps, hcut, decide_eq_true hphase]; rfl
  refine if_neg ?_
  rw [hcuts, hrep, decide_eq_false (by omega)]
  decide

/-- Settles O47: the SWEEP's start, a lane's end, the reports and the cache. -/
theorem sweepsComplete : Obligations.SweepsComplete := by
  unfold Obligations.SweepsComplete
  intro s tile ctx i
  dsimp only
  refine ⟨fun h hrep hn => ?_, fun hr hi hf w hw => ⟨fun c k rest ht hl => ?_, fun hwait hack => ?_, fun hwait hrep hcut hphase hack => ?_⟩,
    fun hr line hl => ⟨?_, ?_⟩⟩
  · obtain ⟨rfl, rfl⟩ := instOf_place h.inst
    have hlive : inReplay (issued s i.tile sweepRun i) = false := (inReplay_issued ..).trans hrep
    have hexec : exec (.sweep i.tile i.ctx) s = _ := (execSweep_issues h.inst hn).trans (issueDesc_of_issues h)
    rw [sweepRun_unforced (forcedSweepCut_of_live hlive _ _), show (issuedInst s sweepRun i).tile = i.tile from rfl] at hexec
    refine ⟨fun hp => ?_, fun hp => ?_⟩
    · rw [hp, if_neg (by decide)] at hexec
      exact hexec
    · rw [hp, if_pos (by decide)] at hexec
      exact hexec
  · change execSweepPairDone tile ctx s = _
    rw [execSweepPairDone, hi]
    dsimp only
    rw [hw]
    dsimp only
    rw [ht]
    dsimp only
    rw [hf, hl]
    exact onlyIf_true hr
  · change execSweepStartReport tile ctx s = _
    rw [execSweepStartReport, hi]
    dsimp only
    rw [hw]
    dsimp only
    rw [hf, hwait, answerReport_acknowledged _ hack]
    exact onlyIf_true hr
  · change execSweepStartReport tile ctx s = _
    rw [execSweepStartReport, hi]
    dsimp only
    rw [hw]
    dsimp only
    rw [hf, hwait, answerReport_refused _ hrep hcut hphase hack]
    exact onlyIf_true hr
  · change execCacheFill tile line false s = _
    rw [execCacheFill, decide_eq_true hl]
    exact onlyIf_true hr
  · change execCacheFill tile line true s = _
    rw [execCacheFill, decide_eq_true hl]
    exact onlyIf_true hr

end Sys2Proof.Machine
end

section
/-! PROOFS. The SOLVE descriptors (R212, R215 to R229). -/

namespace Sys2Proof.Machine

/-! ### One SOLVE descriptor's outcomes -/

/-- The instance as a SOLVE finds it: a fresh solve's values begin anew (R212). -/
def begunWith (s : State) (i : Inst) (d : Bytes) (idx : Nat) : Inst :=
  if (ctrlOf s (solveOf s i.tile d)).status = 0 then withWork i (solveOf s i.tile d) { freshWork with desc := idx } else i

/-- Within R229 and its section's place a SOLVE has ended, is cut, has no trial, or works (R215, R223, R224). -/
theorem solveDesc_eq (sec : Nat) (s : State) (i : Inst) (d : Bytes) (idx : Nat) :
    solveDesc sec s i d idx =
      if !solveGuarded (solveOf s i.tile d) d sec ∨ 9 < (ctrlOf s (solveOf s i.tile d)).status then .error "R229"
      else if terminal (ctrlOf s (solveOf s i.tile d)).status then .ok (setInst s (begunWith s i d idx))
      else if solveCutReached (setInst s (begunWith s i d idx)) (begunWith s i d idx) (solveOf s i.tile d) then
        .ok (takeSolveCut (setInst s (begunWith s i d idx)) (begunWith s i d idx) (solveOf s i.tile d))
      else if sec = 0 ∧ !bitOf (ctrlOf s (solveOf s i.tile d)).flags 1 then .ok (setInst s (begunWith s i d idx))
      else if (ctrlOf s (solveOf s i.tile d)).status = 0 ∧ sec ≠ 3 then .error "R229"
      else solveWorks (setInst s (begunWith s i d idx)) (begunWith s i d idx) (solveOf s i.tile d) sec d idx := rfl

theorem runAssemble_ok {s : State} {c : Solve} {d : Bytes} (h : (assembleSteps s c (stepsOf c 0 d)).isSome = true) (i : Inst) :
    ∃ t, runAssemble s i c d = .ok t := by
  obtain ⟨t, ht⟩ := Option.isSome_iff_exists.1 h
  rw [runAssemble, ht]
  exact ⟨_, rfl⟩

theorem runFactor_ok (s : State) (i : Inst) (c : Solve) (d : Bytes) (idx : Nat) : ∃ t, runFactor s i c d idx = .ok t := by
  rw [runFactor]
  split <;> exact ⟨_, rfl⟩

theorem runSubst_ok (s : State) (i : Inst) (c : Solve) (d : Bytes) (idx : Nat) : ∃ t, runSubst s i c d idx = .ok t := by
  rw [runSubst]
  split <;> exact ⟨_, rfl⟩

theorem runUpdate_ok (s : State) (i : Inst) (c : Solve) (idx : Nat) : ∃ t, runUpdate s i c idx = .ok t := ⟨_, rfl⟩

/-- A SOLVE's command is the issue of its section's descriptor. -/
theorem exec_solve {tile ctx op sec : Nat} {c : Instr} (hc : (c, op, sec) ∈ [(Instr.solveAssemble tile ctx, 0x40, 0),
    (Instr.solveFactor tile ctx, 0x41, 1), (Instr.solveSubst tile ctx, 0x42, 2), (Instr.solveUpdate tile ctx, 0x43, 3)])
    (s : State) : exec c s = issueDesc s tile ctx op (solveRun sec) := by
  simp only [List.mem_cons, Prod.mk.injEq, List.not_mem_nil, or_false] at hc
  rcases hc with ⟨rfl, rfl, rfl⟩ | ⟨rfl, rfl, rfl⟩ | ⟨rfl, rfl, rfl⟩ | ⟨rfl, rfl, rfl⟩
  · rfl
  · rfl
  · rfl
  · rfl

/-- The line WORK is scrambled, and the section does its steps (R212, R215). -/
theorem solveWorks_eq (s : State) (i : Inst) (c : Solve) (sec : Nat) (d : Bytes) (idx : Nat) :
    let v := devScramble s (tileBase c.tile + (c.base + 64)) 64
    solveWorks s i c sec d idx = if sec = 0 then runAssemble v i c d else if sec = 1 then runFactor v i c d idx
      else if sec = 2 then runSubst v i c d idx else runUpdate v i c idx := rfl

/-- The branches of one SOLVE descriptor (R215 to R229). -/
theorem solve_outcomes {sec : Nat} {R : Result} {u0 : State} {j0 : Inst} {d : Bytes} {idx : Nat}
    (hR : R = ofAttempt (solveDesc sec u0 j0 d idx)) :
    let q := solveOf u0 j0.tile d
    let x := ctrlOf u0 q
    let j := if x.status = 0 then withWork j0 q { freshWork with desc := idx } else j0
    let u := setInst u0 j
    let v := devScramble u (tileBase q.tile + (q.base + 64)) 64
    let cut := solveCutReached u j q
    (solveGuarded q d sec = false ∨ 9 < x.status → R = .fault (.unguarded "R229")) ∧
    (solveGuarded q d sec = true → x.status ≤ 9 →
      (2 ≤ x.status → R = .next u) ∧
      (x.status < 2 → cut = true → R = .next (takeSolveCut u j q)) ∧
      (x.status < 2 → cut = false →
        (sec = 0 → bitOf x.flags 1 = false → R = .next u) ∧
        (x.status = 0 → sec ≠ 3 → (sec ≠ 0 ∨ bitOf x.flags 1 = true) → R = .fault (.unguarded "R229")) ∧
        (x.status = 1 → sec = 0 → bitOf x.flags 1 = true → (assembleSteps v q (stepsOf q 0 d)).isSome = true →
          ∃ t, runAssemble v j q d = .ok t ∧ R = .next t) ∧
        (x.status = 1 → sec = 1 → ∃ t, runFactor v j q d idx = .ok t ∧ R = .next t) ∧
        (x.status = 1 → sec = 2 → ∃ t, runSubst v j q d idx = .ok t ∧ R = .next t) ∧
        (sec = 3 → ∃ t, runUpdate v j q idx = .ok t ∧ R = .next t))) := by
  have hj : begunWith u0 j0 d idx = if (ctrlOf u0 (solveOf u0 j0.tile d)).status = 0 then
      withWork j0 (solveOf u0 j0.tile d) { freshWork with desc := idx } else j0 := rfl
  have hterm : ∀ n, terminal n = decide (2 ≤ n) := fun _ => rfl
  rw [solveDesc_eq, hterm] at hR
  dsimp only
  rw [← hj]
  revert hR
  generalize begunWith u0 j0 d idx = j
  generalize solveOf u0 j0.tile d = q
  generalize ctrlOf u0 q = x
  generalize setInst u0 j = u
  intro hR
  have hworks := solveWorks_eq u j q sec d idx
  dsimp only at hworks
  revert hworks
  generalize devScramble u (tileBase q.tile + (q.base + 64)) 64 = v
  intro hworks
  refine ⟨fun hg => ?_, fun hg hx => ?_⟩
  · rw [if_pos (hg.imp (fun h => by rw [h]; rfl) id)] at hR
    exact hR
  rw [if_neg (by rw [hg]; exact fun h => h.elim (by decide) (Nat.not_lt.2 hx))] at hR
  refine ⟨fun h2 => ?_, fun h2 hcut => ?_, fun h2 hcut => ?_⟩
  · rw [if_pos (decide_eq_true h2)] at hR
    exact hR
  · rw [if_neg (by rw [decide_eq_true_eq]; exact Nat.not_le.2 h2), if_pos hcut] at hR
    exact hR
  rw [if_neg (by rw [decide_eq_true_eq]; exact Nat.not_le.2 h2), if_neg (by rw [hcut]; decide)] at hR
  have hgoes : (sec ≠ 0 ∨ bitOf x.flags 1 = true) → ¬(sec = 0 ∧ (!bitOf x.flags 1) = true) := by
    rintro h ⟨h0, hb⟩
    rw [Bool.not_eq_true'] at hb
    exact h.elim (fun h => h h0) fun h => absurd (hb.symm.trans h) (by decide)
  refine ⟨fun hsec hb => ?_, fun h0 h3 hb => ?_, fun h1 hsec hb hs => ?_, fun h1 hsec => ?_, fun h1 hsec => ?_, fun hsec => ?_⟩
  · rw [if_pos ⟨hsec, by rw [hb]; rfl⟩] at hR
    exact hR
  · rw [if_neg (hgoes hb), if_pos ⟨h0, h3⟩] at hR
    exact hR
  · subst hsec
    obtain ⟨t, ht⟩ := runAssemble_ok hs j
    rw [if_neg (hgoes (.inr hb)), if_neg (by rw [h1]; exact fun h => absurd h.1 (by decide)), hworks, if_pos rfl, ht] at hR
    exact ⟨t, ht, hR⟩
  · subst hsec
    obtain ⟨t, ht⟩ := runFactor_ok v j q d idx
    rw [if_neg (hgoes (.inl (by decide))), if_neg (by rw [h1]; exact fun h => absurd h.1 (by decide)), hworks,
      if_neg (by decide), if_pos rfl, ht] at hR
    exact ⟨t, ht, hR⟩
  · subst hsec
    obtain ⟨t, ht⟩ := runSubst_ok v j q d idx
    rw [if_neg (hgoes (.inl (by decide))), if_neg (by rw [h1]; exact fun h => absurd h.1 (by decide)), hworks,
      if_neg (by decide), if_neg (by decide), if_pos rfl, ht] at hR
    exact ⟨t, ht, hR⟩
  · subst hsec
    obtain ⟨t, ht⟩ := runUpdate_ok v j q idx
    rw [if_neg (hgoes (.inl (by decide))), if_neg (fun h => h.2 rfl), hworks, if_neg (by decide), if_neg (by decide),
      if_neg (by decide), ht] at hR
    exact ⟨t, ht, hR⟩

theorem solveRun_run (sec : Nat) (s : State) (i : Inst) (d : Bytes) (idx : Nat) :
    (solveRun sec).run s i d idx = solveDesc sec s i d idx := by
  rw [solveRun]

/-- Settles O48: the branches of one SOLVE descriptor, as issued. -/
theorem solvesComplete : Obligations.SolvesComplete := by
  unfold Obligations.SolvesComplete
  intro s tile ctx i
  dsimp only
  intro c op sec hc h
  obtain ⟨htile, -⟩ := instOf_place h.inst
  have hplace : (issuedInst s (solveRun sec) i).tile = tile := htile
  have hexec : exec c s = ofAttempt (solveDesc sec (issued s tile (solveRun sec) i) (issuedInst s (solveRun sec) i)
      (descBytes s i i.pc) i.pc) := by
    rw [exec_solve hc s, issueDesc_of_issues h, solveRun_run]
  revert hplace hexec
  generalize issued s tile (solveRun sec) i = u0
  generalize issuedInst s (solveRun sec) i = j0
  generalize exec c s = R
  intro hplace hexec
  have hout := solve_outcomes hexec
  dsimp only at hout
  rw [hplace] at hout
  exact hout

end Sys2Proof.Machine
end
